-- ==== Sys2Proof/Word.lean ====
section
/-!
DEFINITION. The word types of the terminal and the two descriptors the register map is written with.
Every register is 32 bits wide, little-endian and byte-addressed (spec/00_scope.md, Registers).
-/

namespace Sys2Proof

/-- One 32-bit register. -/
abbrev Word := BitVec 32

/-- One byte of a frame, a record, a memory or a message. -/
abbrev Byte := BitVec 8

/-- One field of a register: the register's PF address and the field's bits [hi:lo]. -/
structure Field where
  addr : Nat
  hi : Nat
  lo : Nat
  deriving DecidableEq, Repr

/-- One register of the map, possibly indexed: base address, (stride, count) of each index with the
largest stride first, the masks of its RW, W1C and W1S bits, the bits that survive device warm reset
(access code RS) and its reset word. -/
structure RegRow where
  base : Nat
  dims : List (Nat × Nat)
  rw : Word
  w1c : Word
  w1s : Word
  kept : Word
  reset : Word
  deriving DecidableEq, Repr

end Sys2Proof
end

