-- ==== Sys2Proof/Syntax.lean ====
section
/-!
DEFINITION. The commands of the terminal: one constructor per row of spec/opcode_table.json, in the
table's order. The table gives its rows no operand fields; a constructor's operands are what the event
brings from outside the block (assumption 2, DESIGN CHOICE).
-/

namespace Sys2Proof

/-- Who makes a register access or a mailbox request (R451, R577). -/
inductive Agent where
  /-- The physical function, through PF BAR0. -/
  | pf
  /-- The virtual function that serves niche n, through its niche window. -/
  | vf (n : Fin 16)
  /-- The supervisor port. -/
  | sup
  /-- The PF mailbox. -/
  | mbxPf
  /-- The line source: mailbox messages on the downstream management channel. -/
  | line
  /-- The mailbox of niche n. -/
  | mbx (n : Fin 16)
  deriving DecidableEq, Repr

/-- What the Pendant link measures at a tick edge (R184, R309): the stamps, in 2⁻⁴ ns of the own timebase, at which the
partner's marker arrived and at which the own marker left. -/
structure LinkSample where
  arrived : Option Nat
  left : Nat
  deriving DecidableEq, Repr


/-- A frame as the field radio receives it (R340): whether its FCS is good; its frame version, its key identifier mode, and
whether it uses another feature that R341 excludes (its type among them); its kind (0 Enhanced Acknowledgement, 1 Data,
2 Data Request); whether it asks for an acknowledgement; the PAN that it is addressed to and its MAC
addresses, each short or extended; its security level and key index; the bytes before the MAC payload, the MAC payload and
the message integrity code as received; how late, in ns, its preamble began after TsTxOffset of the slot; and the 2⁻⁴ ns of
its SFD stamp. -/
structure RadioFrame where
  fcsOk : Bool
  version : Fin 4
  keyMode : Fin 4
  excluded : Bool
  kind : Fin 3
  ack : Bool
  pan : BitVec 16
  dst : BitVec 64
  dstWide : Bool
  src : BitVec 64
  srcWide : Bool
  level : Fin 8
  kid : Byte
  header : List Byte
  payload : List Byte
  mic : List Byte
  late : Int
  frac : Fin 16
  deriving DecidableEq, Repr

/-- The PCI Express configuration as the host has left it when it sets a Bus Master Enable bit: NumVFs with VF Enable set (0
without it), and the negotiated width and speed (Table 16.14). -/
structure HostConfig where
  vfs : Fin 17
  width : Fin 8
  speed : Fin 4
  deriving DecidableEq, Repr

/-- Where a DMA request of a ring failed (spec/16, If a DMA request fails). -/
inductive DmaFailure where
  | fetch
  | dataWrite
  | report
  deriving DecidableEq, Repr

/-- What resets the PF's side of the host interface (Table 16.11). -/
inductive PfReset where
  | flr
  | hot
  | linkDown
  | perst
  deriving DecidableEq, Repr

/-- What a register write meets outside the terminal: the voltages in mV on DIN0 to DIN7 (R388), and whether no light has been
seen for 1 s (Table 5.8; assumption 29, DESIGN CHOICE). -/
structure Ambient where
  dins : List Nat
  dark : Bool
  deriving DecidableEq, Repr
/-- The commands (spec/opcode_table.json): those with operands in the order of the table, then those without
(assumption 2, DESIGN CHOICE). -/
inductive Instr where
  /-- REGISTER_WRITE (R7): A host or supervisor write to a register that has no row of its own is completed under its access code, including the LOCKED, range and reserved-bit refusals. -/
  | registerWrite (who : Agent) (addr : BitVec 26) (data : Word) (x : Ambient)
  /-- NARROW_ACCESS (R8): A register access that is narrower or wider than 32 bits, or unaligned, reads zero or is discarded and is logged as NARROW. -/
  | narrowAccess (who : Agent) (addr : BitVec 26) (write : Bool)
  /-- ABSENT_BLOCK_WRITE (R3): On the EVT-7401 a write to an MSH or FIO register has no effect and is logged as ABSENT. -/
  | absentBlockWrite (addr : BitVec 26)
  /-- VF_UNMAPPED_ACCESS (R13): A VF access to an unmapped offset of its window reads zero or is discarded and is logged as ABSENT in the niche log. -/
  | vfUnmappedAccess (n : Fin 16) (off : BitVec 18) (write : Bool)
  /-- PF_UNMAPPED_ACCESS (R574): A PF access to an unassigned BAR0 offset reads zero or is discarded and is logged as ABSENT in the device log. -/
  | pfUnmappedAccess (addr : BitVec 26) (write : Bool)
  /-- CROSS_NICHE_ACCESS (R576): A niche-window access to a mirrored register that the niche does not own is refused as a cross-niche request. -/
  | crossNicheAccess (n : Fin 16) (off : BitVec 18)
  /-- TICK_EDGE (R28): At a tick edge the frame counter is latched, the microslot count resets and phase EDGE runs. -/
  | tickEdge (xo : Int) (e : Option Int) (cycles : Nat) (frac : Fin 16) (link : LinkSample) (temp : BitVec 16)
  /-- PHASE_MAP (R582): Phase MAP parses the map header, grant entries and line messages of the frame and releases them to USL and ACT. -/
  | phaseMap (cycles : Nat) (waited : Nat)
  /-- PHASE_GRANT (R33): Phase GRANT merges the map grants with the standing grants into the burst schedule. -/
  | phaseGrant (cycles : Nat) (waited : Nat)
  /-- PHASE_ACT (R152): Phase ACT advances activation timers and acts on the released line messages and events. -/
  | phaseAct (cycles : Nat) (waited : Nat) (released : Nat)
  /-- PHASE_TDM (R295): Phase TDM reads one toward-line frame per port, forms member SDUs and plays one frame per circuit toward the port. -/
  | phaseTdm (cycles : Nat)
  /-- PHASE_TIME (R317): Phase TIME passes the edge stamp to the servo, computes the line error, applies view shadows and arms TOUT schedules. -/
  | phaseTime (cycles : Nat)
  /-- PHASE_SCHED (R271): Phase SCHED refreshes shaper and policer credits, accounts quotas and builds allocation reports. -/
  | phaseSched (cycles : Nat)
  /-- PHASE_MESH (R350): Phase MESH does slot bookkeeping and recomputes the half-guard of every direct child. -/
  | phaseMesh (cycles : Nat)
  /-- PHASE_FIO (R375): Phase FIO hands completed converter samples to the channel registers and updates transmitter-mode loops. -/
  | phaseFio (cycles : Nat)
  /-- PHASE_PWR (R481): Phase PWR polls for consent and takes one shedding or entry step when due. -/
  | phasePwr (cycles : Nat)
  /-- PHASE_CALIPER (R229): At tick cycle 16,200 the Caliper snapshots all counts and audits the cell, byte and frame balances. -/
  | phaseCaliper (cycles : Nat)
  /-- PHASE_REPORT (R33): Phase REPORT commits fault records and queues reports due upstream. -/
  | phaseReport (cycles : Nat)
  /-- PHASE_WINDOW_END (R37): A phase still running at the end of its window runs on and is logged as OVERRUN. -/
  | phaseWindowEnd (phase : Fin 12)
  /-- TICK_FORCE_HOLD_WRITE (R45): A write of TICK_CTRL.force_hold forces or releases holdover from the next tick edge. -/
  | tickForceHoldWrite (data : Word)
  /-- TICK_FC_LO_READ (R46): A read of TICK_FC_LO latches the upper frame-counter bits into TICK_FC_HI. -/
  | tickFcLoRead (who : Agent)
  /-- ARM_LOAD_DATA_WRITE (R70): A write to ARM_LOAD_DATA stores one staging word and advances the word offset, setting end at the last word. -/
  | armLoadDataWrite (data : Word)
  /-- ARM_LOAD_ADDR_WRITE (R70): A write to ARM_LOAD_ADDR sets the staging offset and clears end. -/
  | armLoadAddrWrite (data : Word)
  /-- MARKER_WINDOW_CHECK (R584): Once per frame period the expected 64-bit window is compared with the marker and the frame state machine advances. -/
  | markerWindowCheck (window : BitVec 64)
  /-- COUNTER_BLOCK (R584): The counter block of a frame is checked under HEC and drives the counter state machine, adopting or confirming jumps. -/
  | counterBlock (line : List Byte)
  /-- LOS_RAW (R106): LN_LOS asserted for 2 us or deasserted for 125 us changes raw LOS and the reported defects. -/
  | losRaw (asserted : Bool)
  /-- LOL_RAW (R106): Clock-recovery unlock for 2 us or lock for 125 us changes raw LOL and the reported defects. -/
  | lolRaw (unlocked : Bool)
  /-- BER_WINDOW_END (R104): At a multiframe or key-epoch boundary the SF and SD windows are evaluated. -/
  | berWindowEnd (epoch : Bool)
  /-- FRAGMENT_RX (R90): A downstream fragment whose fid matches a valid DSL_FIDn entry is decrypted and passed to reassembly. -/
  | fragmentRx
  /-- SDU_TIMEOUT (R94): An SDU still incomplete 16 frames after its first fragment is discarded. -/
  | sduTimeout (flow : Fin 1024)
  /-- KEY_EPOCH (R99): A KEY_EPOCH message stores, replaces, cancels or is refused as a pending key switch of its pair. -/
  | keyEpoch (msg : List Byte)
  /-- KEY_EPOCH_SWITCH (R101): At frame F the pair's new parity becomes current. -/
  | keyEpochSwitch (pair : Fin 32)
  /-- KEY_SLOT_RETIRE (R101): At frame F+16 the old slot is retired and old-parity fragments count as KEY_STALE. -/
  | keySlotRetire (pair : Fin 32)
  /-- KEY_IMPLICIT (R103): A non-current-parity fragment that passes its tag early in an epoch switches the pair at the next tick edge. -/
  | keyImplicit (pair : Fin 32)
  /-- LOOP_ENV_WRITE (R108): A write to a loop envelope is refused if lo > hi, otherwise starts a slew toward the new bounds. -/
  | loopEnvWrite (loop : Fin 7) (data : Word)
  /-- LOOP_MAN_WRITE (R110): A write to a loop's manual register sets its output only while held and within the envelope. -/
  | loopManWrite (loop : Fin 7) (data : Word)
  /-- LOOP_HOLD_WRITE (R110): A write of a loop hold bit holds or releases the loop. -/
  | loopHoldWrite (loop : Fin 7) (hold : Bool)
  /-- DSL_FID_WRITE (R113): A DSL_FIDn write is checked for duplicate fids and queued for the next tick edge. -/
  | dslFidWrite (n : Fin 1024) (data : Word)
  /-- USL_FID_WRITE (R113): A USL_FIDn write is checked for duplicate fids and class queues and queued for the next tick edge. -/
  | uslFidWrite (n : Fin 1024) (data : Word)
  /-- PLL_LOCK_TEST (R139): 2 us before a burst's first preamble bit, PLL lock is tested and the burst forfeited with cause LOCK if absent. -/
  | pllLockTest (burst : Nat)
  /-- BURST_CUT (R122): 0.8 us before the first preamble bit the burst contents are fixed from the management channel, TDM members and class queues. -/
  | burstCut (burst : Nat)
  /-- BURST_START (R115): The laser is enabled and the burst is serialised at its transmit instant. -/
  | burstStart (burst : Nat)
  /-- BURST_END (R136): 32 bit periods after the last bit the laser is extinguished, the occupancy ends and Patina accrual is taken. -/
  | burstEnd (burst : Nat)
  /-- STANDING_GRANT (R131): A STANDING_GRANT message installs, replaces or removes a pending standing grant, or is refused as STANDING_BAD. -/
  | standingGrant (msg : List Byte)
  /-- STANDING_GRANT_APPLY (R132): An accepted standing-grant change takes effect at frame F in phase GRANT. -/
  | standingGrantApply (index : Fin 8)
  /-- STANDING_REMOVE_ON_ALLOC (R134): A standing grant whose allocation is invalidated or re-aided is removed at the next tick edge. -/
  | standingRemoveOnAlloc (index : Fin 8)
  /-- USL_SAFE_CLR (R144): USL_SAFE.clr clears the ROGUE cause if no light has been seen for 1 s and the trip latch is not set. -/
  | uslSafeClr (dark : Bool)
  /-- LASER_LOOP_STEP (R142): At each multiframe a laser bias or modulation loop moves one code during bursts of its colour. -/
  | laserLoopStep (loop : Fin 4) (reading : Nat)
  /-- APC_CALIBRATION (R143): In an upstream frame with no grant the terminal calibrates a colour's monitor dark level and slope. -/
  | apcCalibration (colour : Fin 2)
  /-- APC_STARVED (R149): No frame for a colour's calibration for 60 s logs APC_STARVED once. -/
  | apcStarved (colour : Fin 2)
  /-- ASSIGN_TN (R160): An ASSIGN_TN matching the serial adopts a terminal number and queues an ACK. -/
  | assignTn (msg : List Byte)
  /-- RANGE_SET (R164): A RANGE_SET is refused or accepted, loading the equalisation delay and preambles when applied and recording rtt. -/
  | rangeSet (msg : List Byte)
  /-- SILENCE_RELEASE (R168): SILENCE op 0 releases a silenced or quarantined terminal. -/
  | silenceRelease (msg : List Byte)
  /-- SILENCE_SILENCE (R168): SILENCE op 1 enters Silenced and starts T4. -/
  | silenceSilence (msg : List Byte)
  /-- SILENCE_QUARANTINE (R166): SILENCE op 2 moves Ranged or Serving to Quarantined. -/
  | silenceQuarantine (msg : List Byte)
  /-- SILENCE_DEREGISTER (R151): SILENCE op 3 returns the terminal to Listening and applies R151. -/
  | silenceDeregister (msg : List Byte)
  /-- ACK_DOWNSTREAM (R156): A downstream ACK releases a held upstream message, or refuses a KEY_REPORT under R170. -/
  | ackDownstream (msg : List Byte)
  /-- UPSTREAM_MSG_RESEND (R156): An unacknowledged held upstream message is resent 16 frames after each send and dropped after the eighth. -/
  | upstreamMsgResend (type : Byte) (seq : Byte)
  /-- KEY_REPORT_RESERIES (R171): An unacknowledged KEY_REPORT starts a new series of sends at the next key-epoch boundary. -/
  | keyReportReseries (seq : Byte)
  /-- SILENCE_RELEASE_WRITE (R168): A host write of 0 to ACT_SILENCE.silenced acts as SILENCE op 0. -/
  | silenceReleaseWrite (data : Word)
  /-- LINK_DOWN (R183): Loss of block lock or four missing markers takes the link DOWN, logs PARTNER_LOST and counts LINK_DOWN. -/
  | linkDown (lost : Bool)
  /-- LINK_MARKER_BLOCK (R190): A received marker block resumes record parsing and gives the wing its marker position. -/
  | linkMarkerBlock (line : List Byte) (spaced : Bool)
  /-- STATE_RECORD (R188): A received STATE record brings the link UP, pairs, binds the wing, unbinds or logs PARTNER_RESET. -/
  | stateRecord (record : List Byte)
  /-- CONSENT_REQ (R207): A received CONSENT_REQ is answered within 2 ticks from the local blocks other than PND. -/
  | consentReq (record : List Byte)
  /-- CONSENT_REPLY (R206): A received CONSENT_REPLY gives PND's consent or refusal with the partner's refuser. -/
  | consentReply (record : List Byte)
  /-- TOD_RECORD (R193): The wing applies a TOD record as an accepted TIME_OF_DAY. -/
  | todRecord (record : List Byte)
  /-- DUP_UP_RECORD (R198): A DUP_UP copy is enqueued on the partner's upstream gflow QID or discarded as ORPHAN. -/
  | dupUpRecord (record : List Byte)
  /-- DUP_DOWN_RECORD (R201): A forwarded downstream guard copy passes the gflow window and is delivered, discarded as duplicate or stale. -/
  | dupDownRecord (record : List Byte)
  /-- SPAN_UP_RECORD (R194): The face enqueues a wing SDU on the same allocation and class or discards it as ORPHAN. -/
  | spanUpRecord (record : List Byte)
  /-- SPAN_DOWN_RECORD (R195): The wing delivers a face SDU to its own DSL_FIDn destination or discards it as ORPHAN. -/
  | spanDownRecord (record : List Byte)
  /-- MEMBER_RECORD (R303): A MEMBER record is relayed upstream on the partner's ufid or delivered to the owner's member. -/
  | memberRecord (record : List Byte)
  /-- CAST_RECORD (R531): A CAST record updates the partner's Cast state or delivers a forwarded block. -/
  | castRecord (record : List Byte)
  /-- PENDANT_BIND_SPAN (R185): PENDANT_BIND op 1 is refused or accepted as a span bind with this terminal as face. -/
  | pendantBindSpan (msg : List Byte)
  /-- PENDANT_BIND_GUARD (R185): PENDANT_BIND op 2 is refused or accepted as a guard bind. -/
  | pendantBindGuard (msg : List Byte)
  /-- PENDANT_UNBIND (R186): PENDANT_BIND op 0 unbinds the terminal. -/
  | pendantUnbind (msg : List Byte)
  /-- PND_GFLOW_WRITE (R208): A PND_GFLOWn write is checked and refused as GFLOW_BAD or queued for the next tick edge. -/
  | pndGflowWrite (n : Fin 256) (data : Word)
  /-- CELL_WAIT_GRANT (R215): A permitted request that waited past the tick's grant limit is granted at the next tick edge. -/
  | cellWaitGrant (id : Nat)
  /-- CELL_WAIT_TIMEOUT (R218): A request without a free cell for 4 us drops the SDU as DROP_NOCELL. -/
  | cellWaitTimeout (id : Nat)
  /-- SCRUB_COMPLETE (R213): The scrub engine finishes zeroing a cell, which returns to the free pool. -/
  | scrubComplete (cell : Fin 393216)
  /-- DESC_ECC_ERROR (R237): An uncorrectable descriptor error withdraws its cell, discards its SDU and logs DESC_ECC. -/
  | descEccError (cell : Fin 393216)
  /-- QUADRANT_PARK (R479): A draining quadrant whose cells are all free is parked and its domain switched off at the next tick edge. -/
  | quadrantPark (q : Fin 4)
  /-- NICHE_QUEUE_FLUSH (R226): Within one tick every SDU queued on the niche's QIDs is released and counted as DROP_RESET. -/
  | nicheQueueFlush (n : Fin 16)
  /-- NICHE_RESET_TX_ABORT (R226): A niche transmission still running 2 ms after the request is aborted and RESET_ABORT is logged. -/
  | nicheResetTxAbort (n : Fin 16)
  /-- NICHE_RESET_COMPLETE (R227): At the first tick edge with no niche cell held or scrub-pending, the niche's registers reset and ingress reopens. -/
  | nicheResetComplete (n : Fin 16)
  /-- NRESET_SLOW (R546): A niche reset not complete 4 ms after its request triggers a device warm reset with cause ESCALATE. -/
  | nresetSlow (n : Fin 16)
  /-- CAL_ACK_WRITE (R235): A write of CEL_CAL_ACK.ack sets cal_ok at the end of the next audit with every balance holding. -/
  | calAckWrite (data : Word)
  /-- CEL_COUNT_LO_READ (R577): A read of a 48-bit CEL LO count latches its HI partner for the reading function. -/
  | celCountLoRead (who : Agent) (a : Fin 64) (count : Fin 3)
  /-- ETH_FRAME_RX (R243): A received Ethernet frame is checked under Table 9.2, written into cells and passed to the classifier or dropped. -/
  | ethFrameRx (port : Fin 6) (frame : List Byte) (ago : Nat)
  /-- PAUSE_EXPIRY (R248): The pause time of a received PAUSE ends and transmission resumes. -/
  | pauseExpiry (port : Fin 6)
  /-- ETH_TX_START (R247): At a transmit opportunity the head frame of the highest eligible class is dequeued and sent. -/
  | ethTxStart (port : Fin 6) (clear : Option Nat) (defer : Nat)
  /-- ETH_TX_COMPLETE (R257): A frame's transmission ends and a requested transmit stamp enters the timestamp queue. -/
  | ethTxComplete (port : Fin 6) (ago : Nat)
  /-- ETH_COLLISION (R253): A half-duplex collision ends the attempt with a jam and starts backoff, or drops the frame if late or excessive. -/
  | ethCollision (port : Fin 6) (after : Nat)
  /-- ETH_BACKOFF_EXPIRY (R253): The backoff after a collision ends and the frame is retried. -/
  | ethBackoffExpiry (port : Fin 6) (clear : Option Nat)
  /-- ETH_LINK_CHANGE (R240): A change of link state, speed or duplex from the interface is logged as LINK and raises the owner's vector. -/
  | ethLinkChange (port : Fin 6) (report : Option (Fin 4 × Bool))
  /-- ETH_CBS_WRITE (R251): A write to ETH_CBS_SLOPEc or ETH_CLS_MODE is refused as CBS_BAD or queued for phase SCHED. -/
  | ethCbsWrite (port : Fin 6) (reg : Fin 9) (data : Word)
  /-- ETH_WAKE_ENABLE (R259): Setting ETH_WAKE_CTRL.en checks the wake patterns and is refused as WAKE_BAD if one is malformed. -/
  | ethWakeEnable (port : Fin 6) (data : Word)
  /-- ETH_BYTES_LO_READ (R577): A read of an ETH byte-counter LO latches its HI partner for the reading function. -/
  | ethBytesLoRead (who : Agent) (port : Fin 6) (sent : Bool)
  /-- CLASSIFY_SDU (R270): An SDU is classified with its owner's profile and lookups, policed and enqueued, sent to the slow path or dropped. -/
  | classifySdu (id : Nat) (ecc : Option (Fin 6 × BitVec 20))
  /-- CLS_UPD_WRITE (R275): CLS_UPD_CMD op 1 replaces a hash entry or tree node between lookups. -/
  | clsUpdWrite (o : Fin 17)
  /-- CLS_UPD_READ (R275): CLS_UPD_CMD op 2 reads an entry or node into CLS_UPD_DATA. -/
  | clsUpdRead (o : Fin 17)
  /-- CLS_UPD_HASH (R267): CLS_UPD_CMD op 3 returns both buckets for the staged key. -/
  | clsUpdHash (o : Fin 17)
  /-- CLS_UPD_INVALIDATE (R275): CLS_UPD_CMD op 4 invalidates an entry or node. -/
  | clsUpdInvalidate (o : Fin 17)
  /-- CLS_UPD_COMPLETE (R275): A classifier update operation completes and clears busy. -/
  | clsUpdComplete (o : Fin 17)
  /-- TABLE_WINDOW_WRITE (R274): A write to the classifier table window is discarded and logged as UPD_BAD. -/
  | tableWindowWrite (offset : BitVec 24)
  /-- CLS_TREE_SEL_WRITE (R277): A write to CLS_TREE_SEL selects a tree root for the next tick edge. -/
  | clsTreeSelWrite (o : Fin 17) (data : Word)
  /-- TREE_SWITCH (R277): At the tick edge after a CLS_TREE_SEL write new lookups start on the selected root. -/
  | treeSwitch (o : Fin 17)
  /-- TREE_RETIRE (R277): At the second tick edge the old root is unreferenced and retiring clears. -/
  | treeRetire (o : Fin 17)
  /-- CLS_NTAB_WRITE (R279): A CLS_NTAB write is refused as NTAB_BAD or starts zeroing the owner's tables and trees. -/
  | clsNtabWrite (o : Fin 17) (data : Word)
  /-- NTAB_CLEAR_DONE (R279): The owner's table clear completes and lookups resume. -/
  | ntabClearDone (o : Fin 17)
  /-- TDM_RX_FRAME (R290): A port receive framer writes a frame or substitute frame into the toward-line slip buffer, dropping on overflow. -/
  | tdmRxFrame (t : Fin 12) (frame : List Byte) (smf : Option Bool)
  /-- TDM_TX_FRAME (R290): A port transmit framer reads a frame from the toward-port slip buffer, repeating when empty. -/
  | tdmTxFrame (t : Fin 12)
  /-- TDM_DEFECT_CHANGE (R285): A change of a reported TDM port defect sets sticky, logs DEFECT and raises vectors. -/
  | tdmDefectChange (t : Fin 12) (raw : BitVec 6)
  /-- MEMBER_SDU_ACCEPT (R298): A downstream member SDU is checked under R297 and its frames stored in the circuit's skew buffer. -/
  | memberSduAccept (id : Nat)
  /-- MEMBER_DOWN (R300): A member with no accepted SDU for 2K + 8 ticks goes down and logs MEMBER_DOWN. -/
  | memberDown (m : Fin 48)
  /-- PM_SECOND_END (R289): At the end of each second, ES, SES and unavailability are evaluated and recentring is applied. -/
  | pmSecondEnd (blocks : List Nat)
  /-- TDM_CIR_WRITE (R292): A TDM_CIRc write is refused as CFG_BAD or LIMIT or queued for the next tick edge. -/
  | tdmCirWrite (c : Fin 12) (data : Word)
  /-- TDM_MEM_WRITE (R292): A TDM_MEMm write is refused as CFG_BAD or LIMIT or queued for the next tick edge. -/
  | tdmMemWrite (m : Fin 48) (data : Word)
  /-- VIEW_OFFSET_CMD (R311): TIM_VIEWv_CMD.ofs schedules the shadow offset for the next phase TIME, or is refused. -/
  | viewOffsetCmd (who : Agent) (view : Fin 4)
  /-- VIEW_RATE_CMD (R311): TIM_VIEWv_CMD.rate schedules the shadow rate for the next phase TIME. -/
  | viewRateCmd (who : Agent) (view : Fin 4)
  /-- VIEW_STEP_CMD (R312): TIM_VIEWv_CMD.step schedules the signed step for the next phase TIME. -/
  | viewStepCmd (who : Agent) (view : Fin 4)
  /-- TIME_OF_DAY (R315): A TIME_OF_DAY message is refused as TOD_BAD or accepted for the next tick edge. -/
  | timeOfDay (msg : List Byte)
  /-- SERVO_UPDATE (R320): At the end of each servo interval the view is stepped or its rate updated and lock is judged. -/
  | servoUpdate (servo : Fin 2)
  /-- PTP_FRAME_RX (R321): A PTP frame of the service domain on a PTP port is taken by the boundary-clock service. -/
  | ptpFrameRx (port : Fin 6) (frame : List Byte) (state : Fin 16) (offset : Option Int)
  /-- PTP_MSG_SEND (R322): The boundary-clock service sends a scheduled PTP message between frames. -/
  | ptpMsgSend (port : Fin 6) (body : List Byte)
  /-- TSQ_E0_READ (R325): A read of TIM_TSQp_E0 pops the head entry and latches E1-E5. -/
  | tsqE0Read (who : Agent) (port : Fin 6)
  /-- TIN_EDGE (R326): A filtered TIN edge is stamped into its FIFO or counted as missed. -/
  | tinEdge (tin : Fin 4) (rise : Bool) (held : Nat) (frac : Fin 16)
  /-- TIN_E0_READ (R327): A read of TIM_TINi E0 pops the head entry. -/
  | tinE0Read (who : Agent) (tin : Fin 4)
  /-- TOUT_ARM (R328): TIM_TOUTk_CMD.arm requests a schedule to be armed in the next phase TIME. -/
  | toutArm (who : Agent) (k : Fin 4)
  /-- TOUT_DISARM (R328): TIM_TOUTk_CMD.disarm disarms the schedule and idles the output. -/
  | toutDisarm (k : Fin 4)
  /-- TOUT_FIRE (R329): An armed schedule fires at D >= 0, driving its mode's action and advancing periodic targets. -/
  | toutFire (k : Fin 4)
  /-- TOUT_PULSE_END (R330): A mode-2 pulse ends after its width. -/
  | toutPulseEnd (k : Fin 4)
  /-- TIM_CAL_GO (R335): TIM_CAL_CMD.go checks a calendar write, converts it to TAI and optionally sets a view offset. -/
  | timCalGo (who : Agent) (target : Fin 4)
  /-- MESH_SLOT_START (R347): At each slot boundary the terminal picks one active cell and transmits, listens or skips. -/
  | meshSlotStart (locked : Bool) (busy : Bool)
  /-- MESH_FRAME_RX (R344): A received radio frame is checked, decrypted, acknowledged and delivered to the classifier or consumed. -/
  | meshFrameRx (frame : RadioFrame)
  /-- NODE_LOST (R351): A child unheard for MSH_GUARD.lost becomes lost, logs NODE_LOST and loses its indirect entries. -/
  | nodeLost (n : Fin 512)
  /-- CCA_LOOP_STEP (R358): After 64 energy measurements the CCA threshold moves 1 dB toward its target within its envelope. -/
  | ccaLoopStep (energies : List Int)
  /-- MSH_NODE_WRITE (R342): A node-table write is refused as LIMIT or updates the node entry. -/
  | mshNodeWrite (n : Fin 512) (reg : Fin 4) (data : Word)
  /-- MSH_ASN_LO_READ (R577): A read of MSH_ASN_LO latches MSH_ASN_HI. -/
  | mshAsnLoRead (who : Agent)
  /-- AIN_CONVERSION_END (R372): A conversion produces one raw sample with its flags and linearised value. -/
  | ainConversionEnd (raw : BitVec 24) (cmLo : Int) (cmHi : Int) (inner : Int)
  /-- AIN_VAL_READ (R375): A read of FIO_AINn_VAL clears the new flag. -/
  | ainValRead (who : Agent) (n : Fin 8)
  /-- FIO_ENERGY_CFG_WRITE (R371): A write to FIO_AINn_CFG, FIO_EXCk_CFG or FIO_BRG_CFG is refused as ENERGY or takes effect at the next settle. -/
  | fioEnergyCfgWrite (reg : Fin 11) (data : Word)
  /-- LOOP_SET_WRITE (R383): A FIO_LOOPj_SET write sets the loop current or is refused as CFG_BAD. -/
  | loopSetWrite (j : Fin 2) (data : Word)
  /-- LOOP_TXM_WRITE (R384): Setting FIO_LOOPj_CFG.txm enters transmitter mode or is refused as TXM_BAD or DENIED. -/
  | loopTxmWrite (who : Agent) (j : Fin 2) (data : Word)
  /-- LOOP_OVERRANGE (R381): Loop voltage above 24 V for 100 ms sets overrange and logs OVERRANGE. -/
  | loopOverrange (j : Fin 2) (above : Bool)
  /-- LOOP_OPEN (R382): Loop current 1 mA below command for 100 ms sets open and logs LOOP_OPEN. -/
  | loopOpen (j : Fin 2) (meas : BitVec 16)
  /-- LOOP_REFRESH_TIMEOUT (R387): A loop not refreshed for 200 ms falls to 3.6 mA or less by itself. -/
  | loopRefreshTimeout (j : Fin 2)
  /-- DIN_CROSSING (R388): A DIN voltage crossing its band changes the input level or resolves INDET. -/
  | dinCrossing (n : Fin 8) (mv : Nat) (frac : Fin 16)
  /-- DIN_EVENT (R390): A new level that holds for filt records a stamped event in the DIN FIFO. -/
  | dinEvent (n : Fin 8)
  /-- CHATTER_END (R391): An input in chatter without an edge for 1 s leaves chatter and records its level. -/
  | chatterEnd (n : Fin 8)
  /-- DIN_CFG_WRITE (R388): A write to a DIN threshold or hysteresis re-evaluates the input at once, or is refused. -/
  | dinCfgWrite (n : Fin 8) (data : Word) (mv : Nat)
  /-- DIN_E0_READ (R390): A read of TIM_DINi E0 pops the head event. -/
  | dinE0Read (who : Agent) (n : Fin 8)
  /-- WETTING_DIP (R392): FPB_WSENSE below dip_thr sets dip and logs DIP. -/
  | wettingDip (mv : Nat)
  /-- DOUT_CMD (R393): A write of TIM_DOUTk_CMD.on switches the output on or off. -/
  | doutCmd (k : Fin 4) (on : Bool)
  /-- DOUT_CLEAR (R393): TIM_DOUTk_CMD.clr clears the short and contention latches and the retry count. -/
  | doutClear (k : Fin 4)
  /-- DOUT_SHORT (R393): Current limiting for 200 us turns the output off and logs SHORT. -/
  | doutShort (k : Fin 4)
  /-- DOUT_RETRY (R393): 100 ms after a short the output retries, and repeated failures set the short latch. -/
  | doutRetry (k : Fin 4)
  /-- DOUT_EXTDRV (R394): An output commanded off that reads high for 1 ms is probed or sets extdrv. -/
  | doutExtdrv (k : Fin 4) (low : BitVec 4)
  /-- LA_REQUEST_FETCH (R418): A lookaside descriptor is fetched from a ring and checked under Table 15.8. -/
  | laRequestFetch (o : Fin 17) (desc : List Byte)
  /-- LA_REFUSAL_COMPLETE (R418): A refused lookaside request completes with its status exactly 4,096 ns after fetch. -/
  | laRefusalComplete (o : Fin 17)
  /-- LA_COMPLETE (R419): A lookaside operation completes, writing dst and the completion with success or TAG_FAIL. -/
  | laComplete (o : Fin 17) (index : Word) (src : List Byte) (aad : List Byte) (tag : List Byte) (error : Bool)
  /-- CPH_PLAIN_LOAD (R407): CPH_LOAD_CMD op 1 loads a plain key into an empty slot of the owner. -/
  | cphPlainLoad (o : Fin 17) (slot : Fin 256)
  /-- CPH_UNWRAP_LOAD (R407): CPH_LOAD_CMD op 2 unwraps a key under a wrapping slot into an empty slot. -/
  | cphUnwrapLoad (o : Fin 17) (slot : Fin 256) (wslot : Fin 256)
  /-- CPH_ZERO (R409): CPH_LOAD_CMD op 3 empties a slot after its operations in progress. -/
  | cphZero (o : Fin 17) (slot : Fin 256)
  /-- KEY_LOAD_COMPLETE (R407): A key load completes, setting loaded and the key check value or refusing as UNWRAP_FAIL. -/
  | keyLoadComplete (o : Fin 17)
  /-- CPH_SLOT_CFG_WRITE (R406): A slot attribute write is accepted only for an empty slot with valid attributes. -/
  | cphSlotCfgWrite (o : Fin 17) (slot : Fin 256) (data : Word)
  /-- CIPHER_ALARM (R413): An alarm source zeroes every key slot, the secret copy and the DRBG and ends lookaside operations with ALARM. -/
  | cipherAlarm (source : Fin 5)
  /-- RING_ENABLE (R429): Setting HIF_RING_CFG.en checks the ring configuration and zeroes its indices, or is refused as RING_BAD. -/
  | ringEnable (who : Agent) (niche : Fin 16) (ring : Fin 64) (data : Word)
  /-- RING_DISABLE (R429): Clearing HIF_RING_CFG.en stops fetching and lets transfers in progress finish. -/
  | ringDisable (who : Agent) (niche : Fin 16) (ring : Fin 64) (data : Word)
  /-- RING_DOORBELL (R431): A doorbell write advances PROD, or is ignored as stale or refused as DB_BAD. -/
  | ringDoorbell (who : Agent) (niche : Fin 16) (ring : Fin 64) (p : Word)
  /-- RX_SDU_DELIVER (R433): The head SDU of a receive ring is written into posted buffers and its completions written. -/
  | rxSduDeliver (niche : Fin 16) (ring : Fin 64) (addrs : List (BitVec 64))
  /-- TX_SDU_FETCH (R434): A transmit descriptor chain is fetched, checked, read and admitted or refused, and its completions written. -/
  | txSduFetch (niche : Fin 16) (ring : Fin 64) (chain : List (List Byte)) (data : Option (List Byte))
  /-- RING_HOLDOFF_EXPIRY (R436): The holdoff since the first unsignalled completion expires and the ring's vector is raised. -/
  | ringHoldoffExpiry (niche : Fin 16) (ring : Fin 64)
  /-- DMA_ERROR (R421): A failed DMA completion stops the ring, sets err and logs DMA_ERR. -/
  | dmaError (niche : Fin 16) (ring : Fin 64) (what : DmaFailure)
  /-- BUS_MASTER_DISABLE (R428): Clearing Bus Master Enable stops the function's DMA at the next request boundary. -/
  | busMasterDisable (fn : Fin 17) (rx : List (Fin 16 × Fin 64)) (tx : List (Fin 16 × Fin 64 × Fin 17))
  /-- VF_FLR (R437): A VF function-level reset requests niche reset of its niche and resets the VF's state. -/
  | vfFlr (v : Fin 16)
  /-- PF_SIDE_RESET (R437): A PF FLR, hot reset, link down or PCIE_PERST_N clears VF Enable and requests niche reset of every served niche. -/
  | pfSideReset (kind : PfReset)
  /-- MSIX_UNMASK (R550): Unmasking a vector with its pending bit set sends the message. -/
  | msixUnmask (fn : Fin 17) (vec : Option (Fin 68))
  /-- SUP_CS_RISE (R443): The end of a select period discards a partial word and any message it cuts. -/
  | supCsRise (partialWord : Bool)
  /-- MBX_FRAME_BAD (R449): A mailbox request with a bad CRC or framing is discarded with the rest of its period. -/
  | mbxFrameBad (src : Agent)
  /-- MBX_FLUSH (R450): A write of a mailbox flush bit resumes parsing of that source. -/
  | mbxFlush (who : Agent) (box : Option (Fin 16))
  /-- SUP_PF_TX_WRITE (R442): A write to SUP_PF_TX or HIF_MBXn_TX pushes a request word into the source's FIFO. -/
  | supPfTxWrite (who : Agent) (box : Option (Fin 16)) (word : Word)
  /-- SUP_PF_RX_READ (R445): A read of SUP_PF_RX or HIF_MBXn_RX pops a response word or returns the idle word. -/
  | supPfRxRead (who : Agent) (box : Option (Fin 16))
  /-- MBX_ECHO (R453): An ECHO request returns its payload. -/
  | mbxEcho (src : Agent)
  /-- MBX_REG_READ (R454): A REG_READ request reads consecutive registers as PF accesses. -/
  | mbxRegRead (src : Agent)
  /-- MBX_REG_WRITE (R454): A REG_WRITE request writes consecutive registers as PF accesses. -/
  | mbxRegWrite (src : Agent) (x : Ambient)
  /-- MBX_STATUS (R453): A STATUS request returns the summary registers. -/
  | mbxStatus (src : Agent)
  /-- MBX_TRUST_ENROL (R454): TRUST_ENROL stores a signer-key digest in an unused trust slot. -/
  | mbxTrustEnrol (src : Agent)
  /-- MBX_TRUST_REVOKE (R454): TRUST_REVOKE revokes a trust slot. -/
  | mbxTrustRevoke (src : Agent)
  /-- MBX_SECRET_ENROL (R454): SECRET_ENROL executes the enrolment of the line secret. -/
  | mbxSecretEnrol (src : Agent)
  /-- MBX_SECRET_CLEAR (R454): SECRET_CLEAR executes the clearing of the line secret. -/
  | mbxSecretClear (src : Agent)
  /-- MBX_NICHE_RESET (R585): RESET op 1 requests niche reset of the header's niche. -/
  | mbxNicheReset (src : Agent)
  /-- MBX_DEVICE_RESET (R455): RESET op 2 places its response and schedules a device warm reset. -/
  | mbxDeviceReset (src : Agent)
  /-- CAST_BLOCK (R519): A CAST_BLOCK programs manifest or part bytes, forwards partner parts or is refused. -/
  | castBlock (src : Agent)
  /-- CAST_BEGIN (R518): CAST_CMD BEGIN discards any session, erases sectors 8 and 9 and enters RECEIVING. -/
  | castBegin (src : Agent)
  /-- CAST_ABANDON (R518): CAST_CMD ABANDON ends the staging session. -/
  | castAbandon (src : Agent)
  /-- CAST_VERIFY (R521): CAST_CMD VERIFY starts the manifest and set checks. -/
  | castVerify (src : Agent)
  /-- CAST_ARM (R522): CAST_CMD ARM programs the commit record and sets the scheduled second. -/
  | castArm (src : Agent)
  /-- CAST_DISARM (R524): CAST_CMD DISARM erases the commit record and returns to VERIFIED. -/
  | castDisarm (src : Agent)
  /-- CAST_QUERY (R533): CAST_CMD QUERY returns the Cast status. -/
  | castQuery (src : Agent)
  /-- CAST_AT_SCHEDULE (R525): CAST_AT op 1 sets the scheduled second of the armed manifest or is refused. -/
  | castAtSchedule (msg : List Byte)
  /-- CAST_AT_CANCEL (R525): CAST_AT op 0 acts as DISARM. -/
  | castAtCancel (msg : List Byte)
  /-- CAST_FAILED_START (R528): A trial that does not settle within the count is a failed start and triggers a warm reset with cause CAST_TRIAL. -/
  | castFailedStart (why : Fin 4)
  /-- CART_ACCEPTANCE (R469): After 100 ms of CRT_PRES_N low, the identity record is checked and the cartridge accepted or refused. -/
  | cartAcceptance (identity : List Byte) (patina : List Byte) (inserted : Bool)
  /-- BUS_RECOVERY (R463): After a failed transaction the bus is recovered with SCL pulses and a STOP. -/
  | busRecovery (failed : Bool) (sda : List Bool)
  /-- BUS_STUCK_RETRY (R465): Every 1 s a stuck bus is recovered again. -/
  | busStuckRetry (sda : List Bool)
  /-- CART_TEMP_POLL (R462): Each multiframe the cartridge temperature is read into CRT_TEMP. -/
  | cartTempPoll (temp : Option (BitVec 16))
  /-- PATINA_WRITE (R473): Hourly, and at dying-gasp detection, the next Patina record is written. -/
  | patinaWrite (ok : Bool)
  /-- REQUEST_PATINA (R475): A REQUEST_PATINA queues a PATINA_REPORT within one tick. -/
  | requestPatina (msg : List Byte)
  /-- CRT_RAW_GO (R461): CRT_RAW.go reads one byte of the identity or Patina memory. -/
  | crtRawGo (data : Word)
  /-- CRT_RAW_DONE (R461): The raw cartridge read completes and sets done. -/
  | crtRawDone (byte : Byte)
  /-- POWER_MODE_REQUEST (R481): A PWR_CMD go for a lower mode starts consent collection, or is refused as MODE_BAD. -/
  | powerModeRequest (target : Fin 8)
  /-- WAKE_LOSS_WINDOW (R490): In the last 3 plinth cycles of a DORMANT or OFF entry the regulator moves to low-power and the fast clocks stop. -/
  | wakeLossWindow (rose : Bool)
  /-- WAKE_N_ASSERT (R489): WAKE_N low wakes the terminal when enabled. -/
  | wakeNAssert (low : Bool)
  /-- SLEEP_ALLOW (R486): SLEEP_ALLOW op 1 creates an allowance or is refused as SLEEP_BAD. -/
  | sleepAllow (msg : List Byte)
  /-- SLEEP_WITHDRAW (R486): SLEEP_ALLOW op 0 ends the allowance at once. -/
  | sleepWithdraw (msg : List Byte)
  /-- WATCH_EXIT (R488): The terminal leaves WATCH 1 ms before the allowance ends or on a listed event. -/
  | watchExit
  /-- PWR_MASK_WRITE (R478): A PWR_MASKm write is refused as MASK_BAD or changes the domains of that mode. -/
  | pwrMaskWrite (m : Fin 4) (hi : Bool) (data : Word)
  /-- PLINTH_BROWNOUT (R493): Excess plinth load or a low VDD_PLINTH trips the brown-out and forces a cold reset. -/
  | plinthBrownout (load : Bool)
  /-- FLASH_PROGRAM_CMD (R506): FLC_PORTp_CMD op 1 checks and starts programming one unit. -/
  | flashProgramCmd (port : Fin 3)
  /-- FLASH_ERASE_CMD (R507): FLC_PORTp_CMD op 2 checks a sector erase, appends OPEN records and starts it. -/
  | flashEraseCmd (port : Fin 3)
  /-- FLASH_PROGRAM_DONE (R506): A program completes after read-back verification, or with FAIL. -/
  | flashProgramDone (ok : Bool)
  /-- FLASH_ERASE_DONE (R511): An erase completes and verifies and CLOSE records are appended, or it fails leaving ERASE_OPEN. -/
  | flashEraseDone (ok : Bool)
  /-- FLASH_WINDOW_READ (R508): A read of a flash bank stalls, auto-suspends a running erase and sets incomplete or ecc flags. -/
  | flashWindowRead (master : Fin 3) (addr : BitVec 25) (ecc : Fin 3) (stall : Nat)
  /-- COLD_RESET (R537): VDD_PLINTH power-up clears cold-reset state and applies a device warm reset with a cold cause. -/
  | coldReset (lost : Bool)
  /-- RST_N_ASSERT (R536): RST_N low for 1 us triggers a device warm reset with cause PIN. -/
  | rstNAssert (low : Bool) (strap : Bool)
  /-- TEST_EN_ASSERT (R560): TEST_EN at any level other than low holds the terminal in device warm reset. -/
  | testEnAssert (active : Bool)
  /-- WATCHDOG_KICK (R541): A write of 0x0000_00A5 to FLT_WDOG_KICK restarts the watchdog. -/
  | watchdogKick (data : Word)
  /-- FLT_NCMD_RESET (R585): FLT_NCMDn.reset requests niche reset of niche n with cause 5, or logs NO_NICHE. -/
  | fltNcmdReset (n : Fin 16)
  /-- FLT_LOG_ACK (R545): A write to FLT_DACK or FLT_NACKn closes the open records of that log up to the given seq. -/
  | fltLogAck (log : Fin 17) (data : Word)
  /-- FLT_BLK_RST_WRITE (R549): A write of FLT_BLK_RST requests a block reset at the next tick edge or is refused as BLK_BAD. -/
  | fltBlkRstWrite (data : Word)
  /-- BLOCK_RESET_DONE (R549): A block reset completes, its bit clears and BLK_RESET is logged. -/
  | blockResetDone (b : Fin 11)
  /-- RAIL_EXCURSION (R563): A rail outside its monitor window for 1 us sets its sticky bit and raises PF vector 0. -/
  | railExcursion (rail : Fin 10) (out : Bool)
  /-- BANK_RAIL_CLASSIFY (R562): A bank's monitor first reporting its rail in a window records the bank's voltage class and enables its balls. -/
  | bankRailClassify (b : Fin 5) (v33 : Bool) (hiz : Bool)
  /-- HUNT_MARKER_MATCH (R584): In HUNT, a 64-bit window at any bit position within marker_err bits of the marker moves the frame state to PRESYNC and fixes the marker position. -/
  | huntMarkerMatch (window : BitVec 64)
  /-- SUP_WORD_EDGE (R442): At the SUP_SCK edge that samples bit 0 of a word, the received word enters the receive FIFO or overflows, and the transmitted word or idle word leaves the transmit FIFO, updating SUP_ALERT_N. -/
  | supWordEdge (word : Word)
  /-- DOUT_EXTDRV_CLEAR (R394): extdrv clears when the output's readback has been low for 1 ms. -/
  | doutExtdrvClear (k : Fin 4)
  /-- DOUT_RETRY_SUCCESS (R393): A retry that runs 100 ms without limiting resets the DOUT retry count. -/
  | doutRetrySuccess (k : Fin 4)
  /-- BUS_MASTER_ENABLE (R428): Setting a function's Bus Master Enable resumes its rings from CONS and lets pending vectors be sent. -/
  | busMasterEnable (fn : Fin 17) (cfg : HostConfig)
  /-- MICROSLOT_START (R402): At the start of each microslot, the partitioned lookaside portions are renewed, unused portions lapse and TICK_STATUS.microslot advances. -/
  | microslotStart (k : Fin 8)
  /-- DENIED_COMPLETION (R222): A refused cross-niche request leaves the owner check with DENIED exactly 64 ns after it arrived. -/
  | deniedCompletion
  /-- XO_LOST (R47): XO_IN without a transition for 2 us triggers a warm reset outside LOCKED, or switches the timebase reference to the line clock in LOCKED. -/
  | xoLost
  /-- TICK_HWM_CLR (R35): TICK_CMD.hwm_clr clears every phase high-water mark at the next edge. -/
  | tickHwmClr
  /-- ARM_CHECK (R59): ARM_CMD.check starts the checks of Table 3.8 on the staged image without accepting it. -/
  | armCheck
  /-- ARM_ACCEPT (R61): ARM_CMD.accept checks the staged full image for acceptance, or after acceptance starts a digest comparison. -/
  | armAccept
  /-- ARM_RECARVE (R64): ARM_CMD.recarve checks a staged re-carve image of one niche. -/
  | armRecarve
  /-- ARM_CMD_MULTI_BIT (R583): An ARM_CMD write with more than one bit set is refused with FORMAT without naming an image. -/
  | armCmdMultiBit
  /-- ARM_CHECKS_DONE (R59): When the checks complete, the first failing check is reported with its offset, or the image passes. -/
  | armChecksDone
  /-- ARM_DIGEST_COMPARE_DONE (R62): After acceptance, the staged image's digest comparison ends with success or ACCEPTED. -/
  | armDigestCompareDone
  /-- ARMATURE_ACCEPTANCE (R61): A passed image is accepted at the next tick edge, loading RWL registers, digests, costs and budgets and lifting R18. -/
  | armatureAcceptance
  /-- RECARVE_APPLY (R66): Once the niche's cells are scrubbed and moving key slots zeroed, the new niche section takes effect at a tick edge and the re-carve's reset request ends. -/
  | recarveApply
  /-- THRESHOLD_LOOP_STEP (R107): At each multiframe the threshold loop moves one step within its envelope. -/
  | thresholdLoopStep
  /-- APD_LOOP_STEP (R107): At each multiframe the APD loop moves one code toward its temperature target within its envelope. -/
  | apdLoopStep
  /-- FID_CHANGE_APPLY (R113): Accepted flow-entry writes take effect at the tick edge, and partial SDUs on changed entries are discarded. -/
  | fidChangeApply
  /-- MULTIFRAME_END (R542): At the end of a multiframe every pending rate-limited fault record is written with its count. -/
  | multiframeEnd
  /-- PLL_RELOCK_DONE (R140): The serializer PLL reports lock after a relock. -/
  | pllRelockDone
  /-- ROGUE_DETECT (R144): Light above the rogue level outside every occupancy for 100 ns asserts LN_TXDIS and enters SAFE_OFF with cause ROGUE. -/
  | rogueDetect
  /-- TWIN_COLOUR_APPLY (R176): An accepted twin-colour result is written, passed to the time block and counted at the next tick edge. -/
  | twinColourApply
  /-- T1_EXPIRY (R157): T1 expiring in Announced logs T1_EXPIRED and returns to Listening. -/
  | t1Expiry
  /-- T2_EXPIRY (R173): T2 expiring in Ranged logs T2_EXPIRED and returns to Listening. -/
  | t2Expiry
  /-- T3_EXPIRY (R167): T3 expiring logs T3_EXPIRED and moves to Dark or Listening. -/
  | t3Expiry
  /-- T4_EXPIRY (R168): T4 expiring moves Silenced to Listening or Dark. -/
  | t4Expiry
  /-- LINK_TRAIN_START (R183): With link_en set, PD37 on and signal present the Pendant link enters TRAIN. -/
  | linkTrainStart
  /-- LINK_TRAIN_TIMEOUT (R183): TRAIN without reaching UP for 100 ms returns the link to DOWN for a retry. -/
  | linkTrainTimeout
  /-- CONSENT_TIMEOUT (R206): No partner answer within 8 ticks makes PND refuse and log CONSENT_SILENT. -/
  | consentTimeout
  /-- PENDANT_BIND_APPLY (R186): An accepted bind or unbind takes effect at the edge of frame F. -/
  | pendantBindApply
  /-- PND_CMD_UNBIND (R189): PND_CMD.unbind unbinds the terminal locally at the next tick edge. -/
  | pndCmdUnbind
  /-- PROFILE_APPLY (R278): Shadowed profile and selection writes take effect at the tick edge or are refused as PROF_BAD. -/
  | profileApply
  /-- TDM_CONFIG_APPLY (R294): Circuit and member changes take effect at the tick edge and restart the changed playouts. -/
  | tdmConfigApply
  /-- TIM_SNAP (R314): TIM_SNAP.go captures the timebase and all four views in one cycle. -/
  | timSnap
  /-- TOD_APPLY (R315): An accepted TIME_OF_DAY replaces the previous one at the next tick edge. -/
  | todApply
  /-- LEAP_ADOPT (R334): At leap_tai the calendar adopts the new UTC offset. -/
  | leapAdopt
  /-- MESH_RUN (R345): Setting MSH_CTRL.run checks ASN reuse and the timeslot template and starts the schedule at the next tick edge. -/
  | meshRun
  /-- MESH_STOP (R345): Clearing run or PD28 off stops the radio and releases stored and indirect frames. -/
  | meshStop
  /-- MESH_ACK_TIMEOUT (R353): No valid acknowledgement within TsAckWait counts TX_NOACK and retries or drops the frame. -/
  | meshAckTimeout
  /-- MESH_DEQUEUE (R352): Head frames of role-3 QIDs move to the transmit store or indirect queue when there is room. -/
  | meshDequeue
  /-- INDIRECT_EXPIRE (R359): An indirect entry held longer than hold is dropped as IND_EXPIRE. -/
  | indirectExpire
  /-- MESH_STORE_EXPIRE (R353): A frame held in the transmit store longer than hold is dropped as IND_EXPIRE. -/
  | meshStoreExpire
  /-- SEEN_EXPIRE (R363): A seen-cache entry expires after MSH_FLOOD.hold. -/
  | seenExpire
  /-- RADIO_CALIBRATION (R357): A scheduled radio self-calibration runs in an idle slot. -/
  | radioCalibration
  /-- CAL_STARVED (R357): No idle slot for a scheduled calibration for 60 s logs CAL_STARVED once. -/
  | calStarved
  /-- AIN_SETTLE_START (R372): The converter switches the multiplexer and routes excitation to the next channel of the scan. -/
  | ainSettleStart
  /-- CTAB_COMMIT (R380): FIO_CTAB_CMD.commit checks the shadow custom table and schedules it for the next tick edge. -/
  | ctabCommit
  /-- CTAB_ACTIVATE (R380): A committed custom table becomes active at the tick edge. -/
  | ctabActivate
  /-- FIO_DIE_LOST (R387): Loss of the field I/O die link is logged as DIE_LOST. -/
  | fioDieLost
  /-- WETTING_DIP_END (R392): 10 ms after the wetting supply recovers, dip clears. -/
  | wettingDipEnd
  /-- SECRET_ENROL_CMD (R410): CPH_SECRET_CMD.enrol checks the check value, seals the secret into flash and sets secret. -/
  | secretEnrolCmd
  /-- SECRET_CLEAR_CMD (R411): CPH_SECRET_CMD.clear erases the sealed and loaded secret unless activation is ranged. -/
  | secretClearCmd
  /-- CPH_ERASE_CMD (R413): CPH_CMD.erase raises a HOST alarm. -/
  | cphEraseCmd
  /-- ALARM_RECOVERY (R414): 10 ms after the alarm source clears, the secret is unsealed, the DRBG reseeded and the line slots refilled. -/
  | alarmRecovery
  /-- RNG_HEALTH_FAIL (R412): A failed entropy health test clears rng_ok and logs RNG_FAIL. -/
  | rngHealthFail
  /-- MBX_RESET_DEFERRED (R455): When the response has been read out or 10 ms have passed, the device warm reset is performed. -/
  | mbxResetDeferred
  /-- CAST_VERIFY_DONE (R521): The set checks complete, entering VERIFIED or logging the failure. -/
  | castVerifyDone
  /-- CAST_COMMIT_DURABLE (R522): The verified commit record makes the Cast durable and enters ARMED. -/
  | castCommitDurable
  /-- CAST_FREEZE (R526): At the scheduled second the terminal closes ingress, checks the commit and appends a trial selector record. -/
  | castFreeze
  /-- CAST_SELECTOR_DURABLE (R526): Once the trial selector record is durable, a device warm reset with cause CAST follows. -/
  | castSelectorDurable
  /-- CAST_SETTLE (R529): When the trial set settles a non-trial selector record is appended. -/
  | castSettle
  /-- CART_REMOVED (R466): CRT_PRES_N high for 1 us makes the cartridge stop answering, clearing cart and asserting LN_TXDIS. -/
  | cartRemoved
  /-- POWER_DECISION (R481): When every answer is available the entry proceeds or is refused and counted per refuser. -/
  | powerDecision
  /-- ENTRY_NICHE_RESETS (R483): notice ticks after the decision, DORMANT and OFF entries reset every niche and put activation in Dark. -/
  | entryNicheResets
  /-- DOMAIN_GROUP_OFF (R483): At each tick edge of an entry the next group of domains switches off. -/
  | domainGroupOff
  /-- POWER_EXIT (R489): A wake event begins an exit, switching the regulator to normal mode. -/
  | powerExit
  /-- DOMAIN_GROUP_ON (R489): During an exit the next group of domains switches on every 10 us. -/
  | domainGroupOn
  /-- PLINTH_ALARM (R490): The plinth alarm expires PWR_ALARM seconds after an entry ends and wakes the terminal. -/
  | plinthAlarm
  /-- MAINS_OK_RISE (R499): MAINS_OK rising wakes the terminal when enabled or starts the outage restore hold. -/
  | mainsOkRise
  /-- MAINS_LOSS_FILTERED (R495): MAINS_OK low for filt ms starts a dying gasp with battery 0 or an outage with battery 1. -/
  | mainsLossFiltered
  /-- PLINTH_SUPPLY_LOW (R495): VDD_PLINTH below 2.95 V for 10 us is a cause-2 dying-gasp detection. -/
  | plinthSupplyLow
  /-- PWR_GASP_CMD (R495): PWR_CMD.gasp is a cause-3 dying-gasp detection. -/
  | pwrGaspCmd
  /-- PWR_GASP_CLR (R496): PWR_CMD.gasp_clr ends the gasp. -/
  | pwrGaspClr
  /-- GASP_ACT (R496): A cause-1 or cause-2 condition still present act ms after detection forces an entry to OFF. -/
  | gaspAct
  /-- SHED_WARNING (R498): One second before its turn a niche receives the shed warning event. -/
  | shedWarning
  /-- SHED_STEP (R498): At each shedding step the highest-ranked unshed niches are reset, held and their domains switched off. -/
  | shedStep
  /-- OUTAGE_END (R499): After MAINS_OK has been high for filt plus restore, shed niches are released and the previous mode restored. -/
  | outageEnd
  /-- FLASH_SUSPEND_CMD (R510): FLC_PORTp_CMD op 3 suspends the erase and holds it. -/
  | flashSuspendCmd
  /-- FLASH_RESUME_CMD (R510): FLC_PORTp_CMD op 4 resumes a held erase. -/
  | flashResumeCmd
  /-- ERASE_AUTO_RESUME (R509): An auto-suspended erase resumes after idle us without a read of its bank. -/
  | eraseAutoResume
  /-- ERASE_SLOW (R509): An erase over 120 ms of run time or incomplete after 2 s logs ERASE_SLOW. -/
  | eraseSlow
  /-- BOOT_ROM (R514): After reset release the boot ROM chooses a bank, applies trial rules and starts the firmware, or latches NOBANK. -/
  | bootRom
  /-- BRING_UP_COMPLETE (R550): The firmware sets FLT_STATUS.up when every part has started, and deferred vectors are raised. -/
  | bringUpComplete
  /-- WARM_RESET_RELEASE (R536): 10 us after the trigger, or when RST_N rises, the reset is released and the boot ROM runs. -/
  | warmResetRelease
  /-- MRAM_ECC (R535): An uncorrectable error in management RAM triggers a device warm reset with cause MRAM_ECC. -/
  | mramEcc
  /-- WATCHDOG_EXPIRY (R541): The watchdog expiring logs WATCHDOG and triggers a device warm reset. -/
  | watchdogExpiry
  /-- FLT_CMD_WARM (R536): FLT_CMD.warm triggers a device warm reset with cause HOST. -/
  | fltCmdWarm
  /-- BLOCK_RESET_APPLY (R549): At the tick edge the block's RW registers return to reset values with the effects of Table 22.6. -/
  | blockResetApply
  /-- GLB_TEMP_READ (R573): A read of GLB_TEMP returns the peak and resets it. -/
  | glbTempRead
  /-- SUP_CS_FALL (R440): A falling edge of SUP_CS_N opens a select period, drives the first SUP_MISO bit in mode 0 and is wake source 6 in DORMANT. -/
  | supCsFall
  /-- RNG_HEALTH_PASS (R412): A later entropy health test that passes sets rng_ok again, and empty line slots are then filled under R169. -/
  | rngHealthPass
  /-- FIO_DIE_LINK_UP (R387): The field I/O die link comes up again, FIO_STATUS.link is set and FIO register writes are no longer discarded. -/
  | fioDieLinkUp
  /-- SLEEP_ALLOWANCE_END (R486): The allowance ends duration ms after its frame, clearing PWR_STATUS.allow and aborting an entry to WATCH in progress. -/
  | sleepAllowanceEnd
  /-- PLINTH_SUPPLY_RECOVERY (R148): VDD_PLINTH recovering above the cause-2 level before the power block acts clears dg from the next burst. -/
  | plinthSupplyRecovery
  /-- MAINS_OK_FALL (R499): MAINS_OK falling starts the filt filter and, during an outage, restarts the restore hold without changing the shedding. -/
  | mainsOkFall
  deriving DecidableEq, Repr

end Sys2Proof
end

