-- ==== Sys2Proof/Decode.lean ====
section
/-!
DEFINITION. The decoder of the opcode table. No row of spec/opcode_table.json gives bits: a command is an event, and its operands
are what the event brings (assumptions 1, DEDUCED, and 2, DESIGN CHOICE). No word spells a command.
-/

namespace Sys2Proof

/-- The command that a word spells by the table's bits: none, since the table gives no row bits (assumption 1, DEDUCED). -/
def decodeTableWord (_nbits _w : Nat) : Option Instr := none

end Sys2Proof
end

