-- ==== Sys2Proof/Config.lean ====
section
/-!
DEFINITION. What the spec leaves open and what it takes from other standards: opaque constants that no
proof can look into. A statement about them holds for every value they may have.
-/

namespace Sys2Proof.Config

/-- A free value: the n-th value the terminal takes where spec/ states none (assumption 3, DESIGN CHOICE). -/
opaque freeNat : Nat → Nat

/-- The public key of cartridge issuer k, in uncompressed P-256 form, whose fused digest CRT_ISSUER_STATE reports valid; the spec
gives no key (Table 18.3; assumption 6, DESIGN CHOICE). -/
opaque issuerKey : Nat → List Byte

/-- Output n of the DRBG that the entropy source seeds (R412; assumption 6, DESIGN CHOICE). -/
opaque drbg : Nat → List Byte

/-- IEC 60584-1 curves 3 to 10 (Table 14.4, R379): temperature in m°C of an emf in µV; assumption 7, DESIGN CHOICE. -/
opaque sensorCurve : Nat → ℚ → Int

/-- Reference emf in µV of thermocouple curve c at a temperature in m°C (IEC 60584-1; assumption 7, DESIGN CHOICE). -/
opaque sensorEmf : Nat → Int → ℚ

/-- The terminal's own fixed receive latency in ps, to which R317 adds the cartridge's (assumption 33, DESIGN CHOICE). -/
opaque rxLatency : Nat

/-- Extended address of the mesh root, which no register holds (assumption 40, DESIGN CHOICE). -/
opaque meshExt : Nat

end Sys2Proof.Config
end

