-- ==== Sys2Proof/Machine/Operands.lean ====
section
/-!
DEFINITION. How operands are read out of words and bytes: bit fields, signed fields, big-endian and
little-endian groups of bytes (R6), and the check codes that the frames, records and messages carry.
-/

namespace Sys2Proof.Machine

/-! ### Order -/

/-- a put into a list before the first element that it may stand before. -/
def insertBy {α : Type} (le : α → α → Bool) (a : α) : List α → List α
  | [] => [a]
  | b :: l => if le a b then a :: b :: l else b :: insertBy le a l

/-- A list in the order le; elements of equal rank keep their order. -/
def sortBy {α : Type} (le : α → α → Bool) (l : List α) : List α := l.foldr (insertBy le) []

/-! ### Bits -/

/-- Bits [hi:lo] of a number. -/
def bits (w hi lo : Nat) : Nat := w / 2 ^ lo % 2 ^ (hi + 1 - lo)

/-- Bit i of a number. -/
def bit (w i : Nat) : Bool := w / 2 ^ i % 2 == 1

/-- The word w with its bits [hi:lo] replaced by v. -/
def putBits (w : Word) (hi lo v : Nat) : Word :=
  BitVec.ofNat 32
    (w.toNat - w.toNat / 2 ^ lo % 2 ^ (hi + 1 - lo) * 2 ^ lo + v % 2 ^ (hi + 1 - lo) * 2 ^ lo)

/-- The signed number that the low n bits of v spell in two's complement. -/
def toSigned (n v : Nat) : Int :=
  if v % 2 ^ n < 2 ^ (n - 1) then (v % 2 ^ n : Nat) else (v % 2 ^ n : Nat) - (2 ^ n : Nat)

/-- The n-bit two's complement pattern of a signed number. -/
def ofSigned (n : Nat) (v : Int) : Nat := (v % (2 ^ n : Nat)).toNat

/-- v held inside the range of an n-bit signed number. -/
def satSigned (n : Nat) (v : Int) : Int :=
  max (-(2 ^ (n - 1) : Nat)) (min v ((2 ^ (n - 1) : Nat) - 1))

/-- v held inside [lo, hi]. -/
def clampInt (lo hi v : Int) : Int := max lo (min v hi)

/-- One or zero. -/
def bitNat (b : Bool) : Nat := if b then 1 else 0

/-- Number of ones among the low n bits. -/
def popCount : Nat → Nat → Nat
  | 0, _ => 0
  | n + 1, w => w % 2 + popCount n (w / 2)

/-- The positions, below n, of the ones of w, in ascending order. -/
def onesOf (n w : Nat) : List Nat := (List.range n).filter (fun i => bit w i)

/-- w with bit i set. -/
def setBit (w i : Nat) : Nat := w ||| 2 ^ i

/-- w with bit i clear. -/
def clrBit (w i : Nat) : Nat := if bit w i then w - 2 ^ i else w

/-- Quotient rounded up. -/
def ceilDiv (a b : Nat) : Nat := (a + b - 1) / b

/-! ### Bytes -/

/-- Byte i of a byte string; 0 past its end. -/
def byteAt (b : List Byte) (i : Nat) : Nat := (b.getD i 0).toNat

/-- The big-endian number in n bytes from offset i. -/
def beAt (b : List Byte) (i n : Nat) : Nat :=
  ((b.drop i).take n).foldl (fun a x => a * 256 + x.toNat) 0

/-- The little-endian number in n bytes from offset i. -/
def leAt (b : List Byte) (i n : Nat) : Nat :=
  ((b.drop i).take n).foldr (fun x a => a * 256 + x.toNat) 0

/-- v as n bytes, most significant first. -/
def beBytes : Nat → Nat → List Byte
  | 0, _ => []
  | n + 1, v => beBytes n (v / 256) ++ [BitVec.ofNat 8 v]

/-- v as n bytes, least significant first. -/
def leBytes : Nat → Nat → List Byte
  | 0, _ => []
  | n + 1, v => BitVec.ofNat 8 v :: leBytes n (v / 256)

/-- n zero bytes. -/
def zeros (n : Nat) : List Byte := List.replicate n 0

/-- b cut or filled with zero bytes to exactly n bytes. -/
def fitBytes (n : Nat) (b : List Byte) : List Byte := b.take n ++ zeros (n - b.length)

/-- Every byte is zero. -/
def allZero (b : List Byte) : Bool := b.all (· == 0)

/-- Bytewise exclusive or. -/
def xorBytes (a b : List Byte) : List Byte := List.zipWith (· ^^^ ·) a b

/-- b with the bytes of v in place of those from offset i on. -/
def splice (b : List Byte) (i : Nat) (v : List Byte) : List Byte :=
  b.take i ++ v ++ b.drop (i + v.length)

/-- The 32-bit words of a byte string, the first byte of each in [31:24]. -/
def beWords : Nat → List Byte → List Word
  | 0, _ => []
  | n + 1, b => BitVec.ofNat 32 (beAt b 0 4) :: beWords n (b.drop 4)

/-- The bytes of a list of words, [31:24] first. -/
def wordBytes (l : List Word) : List Byte := l.flatMap (fun w => beBytes 4 w.toNat)

/-! ### Check codes -/

/-- One bit step of a CRC register of width n, most significant bit first: polynomial p without its
leading term, register r, data bit d. -/
def crcBit (n p r : Nat) (d : Bool) : Nat :=
  let top := bit r (n - 1) != d
  let r' := r * 2 % 2 ^ n
  if top then r' ^^^ p else r'

/-- A byte, most significant bit first. -/
def crcByteMsb (n p r : Nat) (x : Byte) : Nat :=
  [7, 6, 5, 4, 3, 2, 1, 0].foldl (fun a i => crcBit n p a (bit x.toNat i)) r

/-- A byte, least significant bit first. -/
def crcByteLsb (n p r : Nat) (x : Byte) : Nat :=
  [0, 1, 2, 3, 4, 5, 6, 7].foldl (fun a i => crcBit n p a (bit x.toNat i)) r

/-- Bits of an n-bit register in reversed order. -/
def reflect (n v : Nat) : Nat :=
  (List.range n).foldl (fun a i => a * 2 + v / 2 ^ i % 2) 0

/-- CRC over bytes taken most significant bit first, unreflected. -/
def crcMsb (n p init : Nat) (b : List Byte) : Nat := b.foldl (crcByteMsb n p) init

/-- CRC over bytes taken least significant bit first, result reflected, then complemented by xorOut. -/
def crcLsb (n p init xorOut : Nat) (b : List Byte) : Nat :=
  reflect n (b.foldl (crcByteLsb n p) init) ^^^ xorOut

/-- The CRC-32 of IEEE 802.3, the Ethernet frame check sequence. -/
def crc32 (b : List Byte) : Nat := crcLsb 32 0x04C11DB7 0xFFFFFFFF 0xFFFFFFFF b

/-- The CRC-8 of R80: x⁸ + x² + x + 1, initial value 0, most significant bit first. -/
def crc8 (b : List Byte) : Nat := crcMsb 8 0x07 0 b

/-- The CRC-16 of a wake pattern: x¹⁶ + x¹² + x⁵ + 1, initial value 0xFFFF, most significant bit first. -/
def crc16 (b : List Byte) : Nat := crcMsb 16 0x1021 0xFFFF b

/-- A frame check sequence in the byte order in which IEEE 802.3 transmits it. -/
def fcsBytes (b : List Byte) : List Byte := leBytes 4 (crc32 b)

/-- b ends in the frame check sequence of the bytes before it. -/
def fcsGood (b : List Byte) : Bool :=
  decide (4 ≤ b.length) && b.drop (b.length - 4) == fcsBytes (b.take (b.length - 4))

/-- Even parity of the low n bits. -/
def parityOf (n w : Nat) : Nat := popCount n w % 2

/-! ### Header error control (R78, R79) -/

/-- g(x) = x¹² + x¹⁰ + x⁸ + x⁵ + x⁴ + x³ + 1 without its leading term. -/
def hecPoly : Nat := 0x539

/-- Remainder modulo g(x) of the n-bit word w, most significant bit first. -/
def hecRem (n w : Nat) : Nat :=
  ((List.range n).reverse).foldl (fun r i =>
    let r' := r * 2 + w / 2 ^ i % 2
    if bit r' 12 then (r' - 2 ^ 12) ^^^ hecPoly else r') 0

/-- The 64-bit field that carries the 51 protected bits v (R78). -/
def hecEncode (v : Nat) : Nat :=
  let w := v % 2 ^ 51 * 2 ^ 12
  let c := w + hecRem 63 w
  c * 2 + parityOf 63 c

/-- Positions 0 to 62 of a pair of bits whose remainders sum to syn. -/
def hecPair (rems : List (Nat × Nat)) (syn : Nat) : Option (Nat × Nat) :=
  rems.findSome? (fun p => (rems.find? (fun q => decide (p.1 < q.1) && (p.2 ^^^ q.2 == syn))).map
    (fun q => (p.1, q.1)))

/-- A HEC-protected field as the receiver judges it (R79): its 51 bits and whether a correction was made, or
none where it is uncorrectable. -/
def hecDecode (f : Nat) : Option (Nat × Bool) :=
  let w := f / 2 % 2 ^ 63
  let syn := hecRem 63 w
  let odd := parityOf 64 f == 1
  if syn = 0 then some (w / 2 ^ 12, odd)
  else
    let rems := (List.range 63).map (fun i => (i, hecRem 63 (2 ^ i)))
    if odd then (rems.find? (fun p => p.2 == syn)).map (fun p => ((w ^^^ 2 ^ p.1) / 2 ^ 12, true))
    else (hecPair rems syn).map (fun p => ((w ^^^ 2 ^ p.1 ^^^ 2 ^ p.2) / 2 ^ 12, true))

end Sys2Proof.Machine
end

