-- ==== Sys2Proof/Machine/Regs.lean ====
section
/-!
DEFINITION. The registers of the terminal, as the address tables and layout tables of spec/ give them
(Tables 0.4 to 24.22, index in Table 25.1): one named field per layout row, with its address, and one
`RegRow` per register for the access codes of Table 0.2 and the reset column (R10).
An indexed register takes its indices as arguments.
-/

namespace Sys2Proof.Machine

/-- Offset d from a register's base falls on one of its indexed words. -/
def dimsHit : List (Nat × Nat) → Nat → Bool
  | [], d => d == 0
  | (s, n) :: rest, d => decide (d / s < n) && dimsHit rest (d % s)

/-- Address a is one of the words of register row r. -/
def rowHit (r : RegRow) (a : Nat) : Bool := decide (r.base ≤ a) && dimsHit r.dims (a - r.base)

/-! ### GLB -/

abbrev GLB_ID_vendor : Field := ⟨0x0, 31, 16⟩
abbrev GLB_ID_part : Field := ⟨0x0, 15, 0⟩
abbrev GLB_REV_letter : Field := ⟨0x4, 15, 8⟩
abbrev GLB_REV_step : Field := ⟨0x4, 7, 0⟩
abbrev GLB_PRESENT_fio : Field := ⟨0x8, 2, 2⟩
abbrev GLB_PRESENT_msh : Field := ⟨0x8, 1, 1⟩
abbrev GLB_PRESENT_core : Field := ⟨0x8, 0, 0⟩
abbrev GLB_SERVICE_pendant : Field := ⟨0xC, 17, 16⟩
abbrev GLB_SERVICE_outage : Field := ⟨0xC, 15, 15⟩
abbrev GLB_SERVICE_cal_ok : Field := ⟨0xC, 14, 14⟩
abbrev GLB_SERVICE_v0_ext : Field := ⟨0xC, 13, 13⟩
abbrev GLB_SERVICE_v0_trace : Field := ⟨0xC, 12, 12⟩
abbrev GLB_SERVICE_up_ok : Field := ⟨0xC, 11, 11⟩
abbrev GLB_SERVICE_cart : Field := ⟨0xC, 10, 10⟩
abbrev GLB_SERVICE_tick_line : Field := ⟨0xC, 9, 9⟩
abbrev GLB_SERVICE_arm : Field := ⟨0xC, 8, 8⟩
abbrev GLB_SERVICE_act : Field := ⟨0xC, 2, 0⟩
abbrev GLB_STRAP_bank5 : Field := ⟨0x10, 10, 9⟩
abbrev GLB_STRAP_bank4 : Field := ⟨0x10, 8, 7⟩
abbrev GLB_STRAP_bank3 : Field := ⟨0x10, 6, 5⟩
abbrev GLB_STRAP_bank2 : Field := ⟨0x10, 4, 3⟩
abbrev GLB_STRAP_bank1 : Field := ⟨0x10, 2, 1⟩
abbrev GLB_STRAP_sup_mode : Field := ⟨0x10, 0, 0⟩
abbrev GLB_RAIL_sticky : Field := ⟨0x14, 25, 16⟩
abbrev GLB_RAIL_within : Field := ⟨0x14, 9, 0⟩
abbrev GLB_TEMP_peak : Field := ⟨0x18, 31, 16⟩
abbrev GLB_TEMP_temp : Field := ⟨0x18, 15, 0⟩

/-! ### ARM -/

abbrev ARM_CMD_recarve : Field := ⟨0x10000, 2, 2⟩
abbrev ARM_CMD_accept : Field := ⟨0x10000, 1, 1⟩
abbrev ARM_CMD_check : Field := ⟨0x10000, 0, 0⟩
abbrev ARM_STATUS_code : Field := ⟨0x10004, 31, 16⟩
abbrev ARM_STATUS_recarve_pending : Field := ⟨0x10004, 5, 5⟩
abbrev ARM_STATUS_busy : Field := ⟨0x10004, 4, 4⟩
abbrev ARM_STATUS_last_cmd : Field := ⟨0x10004, 3, 2⟩
abbrev ARM_STATUS_state : Field := ⟨0x10004, 1, 0⟩
abbrev ARM_LOAD_ADDR_end : Field := ⟨0x10008, 18, 18⟩
abbrev ARM_LOAD_ADDR_word : Field := ⟨0x10008, 17, 2⟩
abbrev ARM_LOAD_DATA_data : Field := ⟨0x1000C, 31, 0⟩
abbrev ARM_FAIL_OFF_offset : Field := ⟨0x10010, 31, 0⟩
abbrev ARM_SERIAL_serial : Field := ⟨0x10014, 31, 0⟩
abbrev ARM_EPOCH_epoch : Field := ⟨0x10018, 31, 0⟩
abbrev ARM_EPOCH_FLOOR_floor : Field := ⟨0x1001C, 31, 0⟩
abbrev ARM_NICHES_niches : Field := ⟨0x10020, 15, 0⟩
abbrev ARM_RECARVE_CNT_refused : Field := ⟨0x10024, 31, 16⟩
abbrev ARM_RECARVE_CNT_applied : Field := ⟨0x10024, 15, 0⟩
abbrev ARM_TRUST_revoked : Field := ⟨0x10028, 7, 4⟩
abbrev ARM_TRUST_enrolled : Field := ⟨0x10028, 3, 0⟩
abbrev ARM_DIGEST_digest (n : Nat) : Field := ⟨0x10040 + 4 * n, 31, 0⟩
abbrev ARM_PHASE_COST_cost (n : Nat) : Field := ⟨0x10080 + 4 * n, 15, 0⟩
abbrev ARM_PD_OWNER_owner (n : Nat) : Field := ⟨0x100C0 + 4 * n, 31, 0⟩

/-! ### TICK -/

abbrev TICK_CTRL_force_hold : Field := ⟨0x20000, 0, 0⟩
abbrev TICK_STATUS_microslot : Field := ⟨0x20004, 6, 4⟩
abbrev TICK_STATUS_stretching : Field := ⟨0x20004, 3, 3⟩
abbrev TICK_STATUS_slewing : Field := ⟨0x20004, 2, 2⟩
abbrev TICK_STATUS_state : Field := ⟨0x20004, 1, 0⟩
abbrev TICK_FC_LO_fc_lo : Field := ⟨0x20008, 31, 0⟩
abbrev TICK_FC_HI_fc_hi : Field := ⟨0x2000C, 18, 0⟩
abbrev TICK_HOLD_FREQ_freq : Field := ⟨0x20010, 31, 0⟩
abbrev TICK_ALIGN_ERR_e : Field := ⟨0x20014, 15, 0⟩
abbrev TICK_EVT_CNT_hold : Field := ⟨0x20018, 31, 20⟩
abbrev TICK_EVT_CNT_skip : Field := ⟨0x20018, 19, 10⟩
abbrev TICK_EVT_CNT_stretch : Field := ⟨0x20018, 9, 0⟩
abbrev TICK_FRAME_ADJ_adj : Field := ⟨0x2001C, 31, 0⟩
abbrev TICK_FLAGS_xo_lost : Field := ⟨0x20020, 29, 29⟩
abbrev TICK_FLAGS_xo_range : Field := ⟨0x20020, 28, 28⟩
abbrev TICK_FLAGS_overrun : Field := ⟨0x20020, 27, 16⟩
abbrev TICK_FLAGS_over_budget : Field := ⟨0x20020, 11, 0⟩
abbrev TICK_CMD_hwm_clr : Field := ⟨0x20024, 0, 0⟩
abbrev TICK_PHASE_BUDGET_budget (n : Nat) : Field := ⟨0x20100 + 4 * n, 15, 0⟩
abbrev TICK_PHASE_HWM_over (n : Nat) : Field := ⟨0x20140 + 4 * n, 31, 16⟩
abbrev TICK_PHASE_HWM_hwm (n : Nat) : Field := ⟨0x20140 + 4 * n, 15, 0⟩

/-! ### DSL -/

abbrev DSL_CTRL_rx_en : Field := ⟨0x40000, 0, 0⟩
abbrev DSL_STATUS_cnt_sync : Field := ⟨0x40004, 2, 2⟩
abbrev DSL_STATUS_frame : Field := ⟨0x40004, 1, 0⟩
abbrev DSL_ALIGN_CFG_loss_n : Field := ⟨0x40008, 11, 8⟩
abbrev DSL_ALIGN_CFG_presync_n : Field := ⟨0x40008, 7, 4⟩
abbrev DSL_ALIGN_CFG_marker_err : Field := ⟨0x40008, 3, 0⟩
abbrev DSL_DEFECT_raw : Field := ⟨0x4000C, 21, 16⟩
abbrev DSL_DEFECT_reported : Field := ⟨0x4000C, 5, 0⟩
abbrev DSL_DEFECT_STICKY_changed : Field := ⟨0x40010, 5, 0⟩
abbrev DSL_BER_CFG_sf_exp : Field := ⟨0x40014, 11, 8⟩
abbrev DSL_BER_CFG_sd_exp : Field := ⟨0x40014, 3, 0⟩
abbrev DSL_CNT_count (n : Nat) : Field := ⟨0x40040 + 4 * n, 31, 0⟩
abbrev DSL_KEYPAIR_loaded1 (n : Nat) : Field := ⟨0x40100 + 4 * n, 3, 3⟩
abbrev DSL_KEYPAIR_loaded0 (n : Nat) : Field := ⟨0x40100 + 4 * n, 2, 2⟩
abbrev DSL_KEYPAIR_pending (n : Nat) : Field := ⟨0x40100 + 4 * n, 1, 1⟩
abbrev DSL_KEYPAIR_parity (n : Nat) : Field := ⟨0x40100 + 4 * n, 0, 0⟩
abbrev DSL_LOOP_CTRL_apd_hold : Field := ⟨0x40180, 1, 1⟩
abbrev DSL_LOOP_CTRL_thr_hold : Field := ⟨0x40180, 0, 0⟩
abbrev DSL_THR_ENV_hi : Field := ⟨0x40184, 15, 8⟩
abbrev DSL_THR_ENV_lo : Field := ⟨0x40184, 7, 0⟩
abbrev DSL_THR_STATUS_converging : Field := ⟨0x40188, 18, 18⟩
abbrev DSL_THR_STATUS_pinned_hi : Field := ⟨0x40188, 17, 17⟩
abbrev DSL_THR_STATUS_pinned_lo : Field := ⟨0x40188, 16, 16⟩
abbrev DSL_THR_STATUS_out : Field := ⟨0x40188, 9, 0⟩
abbrev DSL_THR_MAN_value : Field := ⟨0x4018C, 9, 0⟩
abbrev DSL_APD_ENV_hi : Field := ⟨0x40190, 25, 16⟩
abbrev DSL_APD_ENV_lo : Field := ⟨0x40190, 9, 0⟩
abbrev DSL_APD_STATUS_converging : Field := ⟨0x40194, 18, 18⟩
abbrev DSL_APD_STATUS_pinned_hi : Field := ⟨0x40194, 17, 17⟩
abbrev DSL_APD_STATUS_pinned_lo : Field := ⟨0x40194, 16, 16⟩
abbrev DSL_APD_STATUS_out : Field := ⟨0x40194, 9, 0⟩
abbrev DSL_APD_MAN_value : Field := ⟨0x40198, 9, 0⟩
abbrev DSL_FID_fid (n : Nat) : Field := ⟨0x41000 + 4 * n, 31, 16⟩
abbrev DSL_FID_valid (n : Nat) : Field := ⟨0x41000 + 4 * n, 15, 15⟩
abbrev DSL_FID_enc_req (n : Nat) : Field := ⟨0x41000 + 4 * n, 14, 14⟩
abbrev DSL_FID_pair (n : Nat) : Field := ⟨0x41000 + 4 * n, 13, 9⟩
abbrev DSL_FID_dest (n : Nat) : Field := ⟨0x41000 + 4 * n, 8, 7⟩

/-! ### USL -/

abbrev USL_CTRL_force_dark : Field := ⟨0x60000, 1, 1⟩
abbrev USL_CTRL_tx_en : Field := ⟨0x60000, 0, 0⟩
abbrev USL_STATUS_laser : Field := ⟨0x60004, 10, 8⟩
abbrev USL_STATUS_colour : Field := ⟨0x60004, 4, 4⟩
abbrev USL_STATUS_pll_lock : Field := ⟨0x60004, 3, 3⟩
abbrev USL_STATUS_dg : Field := ⟨0x60004, 2, 2⟩
abbrev USL_EQD_eqd : Field := ⟨0x60008, 31, 0⟩
abbrev USL_LEAD_long : Field := ⟨0x6000C, 15, 8⟩
abbrev USL_LEAD_short : Field := ⟨0x6000C, 7, 0⟩
abbrev USL_SAFE_rogue_latched : Field := ⟨0x60010, 28, 28⟩
abbrev USL_SAFE_rogue_trips : Field := ⟨0x60010, 27, 24⟩
abbrev USL_SAFE_clr : Field := ⟨0x60010, 16, 16⟩
abbrev USL_SAFE_cause : Field := ⟨0x60010, 4, 0⟩
abbrev USL_STAND_A_active (n : Nat) : Field := ⟨0x60040 + 8 * n, 31, 31⟩
abbrev USL_STAND_A_pending (n : Nat) : Field := ⟨0x60040 + 8 * n, 30, 30⟩
abbrev USL_STAND_A_aid (n : Nat) : Field := ⟨0x60040 + 8 * n, 27, 16⟩
abbrev USL_STAND_A_mask (n : Nat) : Field := ⟨0x60040 + 8 * n, 15, 8⟩
abbrev USL_STAND_A_flags (n : Nat) : Field := ⟨0x60040 + 8 * n, 3, 0⟩
abbrev USL_STAND_B_offset (n : Nat) : Field := ⟨0x60044 + 8 * n, 26, 16⟩
abbrev USL_STAND_B_size (n : Nat) : Field := ⟨0x60044 + 8 * n, 10, 0⟩
abbrev USL_LOOP_CTRL_hold : Field := ⟨0x60080, 3, 0⟩
abbrev USL_LOOP_ENV_hi (n : Nat) : Field := ⟨0x60084 + 4 * n, 25, 16⟩
abbrev USL_LOOP_ENV_lo (n : Nat) : Field := ⟨0x60084 + 4 * n, 9, 0⟩
abbrev USL_LOOP_STATUS_converging (n : Nat) : Field := ⟨0x60094 + 4 * n, 18, 18⟩
abbrev USL_LOOP_STATUS_pinned_hi (n : Nat) : Field := ⟨0x60094 + 4 * n, 17, 17⟩
abbrev USL_LOOP_STATUS_pinned_lo (n : Nat) : Field := ⟨0x60094 + 4 * n, 16, 16⟩
abbrev USL_LOOP_STATUS_out (n : Nat) : Field := ⟨0x60094 + 4 * n, 9, 0⟩
abbrev USL_LOOP_MAN_value (n : Nat) : Field := ⟨0x600A4 + 4 * n, 9, 0⟩
abbrev USL_ALLOC_aid (n : Nat) : Field := ⟨0x60100 + 4 * n, 27, 16⟩
abbrev USL_ALLOC_valid (n : Nat) : Field := ⟨0x60100 + 4 * n, 15, 15⟩
abbrev USL_ALLOC_bound (n : Nat) : Field := ⟨0x60100 + 4 * n, 14, 14⟩
abbrev USL_ALLOC_niche (n : Nat) : Field := ⟨0x60100 + 4 * n, 11, 8⟩
abbrev USL_CNT_count (n : Nat) : Field := ⟨0x60200 + 4 * n, 31, 0⟩
abbrev USL_FORFEIT_count (n : Nat) : Field := ⟨0x60300 + 4 * n, 31, 0⟩
abbrev USL_FID_fid (n : Nat) : Field := ⟨0x61000 + 4 * n, 31, 16⟩
abbrev USL_FID_valid (n : Nat) : Field := ⟨0x61000 + 4 * n, 15, 15⟩
abbrev USL_FID_enc (n : Nat) : Field := ⟨0x61000 + 4 * n, 14, 14⟩
abbrev USL_FID_pair (n : Nat) : Field := ⟨0x61000 + 4 * n, 13, 9⟩
abbrev USL_FID_alloc (n : Nat) : Field := ⟨0x61000 + 4 * n, 8, 3⟩
abbrev USL_FID_class (n : Nat) : Field := ⟨0x61000 + 4 * n, 2, 0⟩

/-! ### ACT -/

abbrev ACT_CTRL_tc_en : Field := ⟨0x80000, 1, 1⟩
abbrev ACT_CTRL_act_en : Field := ⟨0x80000, 0, 0⟩
abbrev ACT_STATUS_skip : Field := ⟨0x80004, 19, 16⟩
abbrev ACT_STATUS_hold : Field := ⟨0x80004, 15, 15⟩
abbrev ACT_STATUS_tn : Field := ⟨0x80004, 14, 8⟩
abbrev ACT_STATUS_tn_valid : Field := ⟨0x80004, 7, 7⟩
abbrev ACT_STATUS_state : Field := ⟨0x80004, 2, 0⟩
abbrev ACT_SERIAL_LO_serial_lo : Field := ⟨0x80008, 31, 0⟩
abbrev ACT_SERIAL_HI_serial_hi : Field := ⟨0x8000C, 31, 0⟩
abbrev ACT_T3_t3 : Field := ⟨0x80010, 7, 0⟩
abbrev ACT_SILENCE_remain : Field := ⟨0x80014, 31, 16⟩
abbrev ACT_SILENCE_reason : Field := ⟨0x80014, 15, 8⟩
abbrev ACT_SILENCE_silenced : Field := ⟨0x80014, 0, 0⟩
abbrev ACT_RTT_rtt (n : Nat) : Field := ⟨0x80020 + 4 * n, 31, 0⟩
abbrev ACT_TEMP_temp_b : Field := ⟨0x80028, 31, 16⟩
abbrev ACT_TEMP_temp_a : Field := ⟨0x80028, 15, 0⟩
abbrev ACT_TC_LAM0_lam0 : Field := ⟨0x80030, 31, 0⟩
abbrev ACT_TC_S0_s0 : Field := ⟨0x80034, 31, 0⟩
abbrev ACT_TC_TAUG_tau_g : Field := ⟨0x80038, 31, 0⟩
abbrev ACT_TC_TOL_tol : Field := ⟨0x8003C, 15, 0⟩
abbrev ACT_TC_LEN_len : Field := ⟨0x80040, 31, 0⟩
abbrev ACT_TC_ASYM_asym : Field := ⟨0x80044, 31, 0⟩
abbrev ACT_TC_DDOWN_d_down : Field := ⟨0x80048, 31, 0⟩
abbrev ACT_TC_STATUS_age : Field := ⟨0x8004C, 31, 16⟩
abbrev ACT_TC_STATUS_set : Field := ⟨0x8004C, 15, 8⟩
abbrev ACT_TC_STATUS_reason : Field := ⟨0x8004C, 7, 4⟩
abbrev ACT_TC_STATUS_valid : Field := ⟨0x8004C, 0, 0⟩
abbrev ACT_CNT_count (n : Nat) : Field := ⟨0x80080 + 4 * n, 31, 0⟩

/-! ### PND -/

abbrev PND_CTRL_wing_ok : Field := ⟨0xA0000, 1, 1⟩
abbrev PND_CTRL_link_en : Field := ⟨0xA0000, 0, 0⟩
abbrev PND_STATUS_partner_v0 : Field := ⟨0xA0004, 19, 19⟩
abbrev PND_STATUS_partner_aligned : Field := ⟨0xA0004, 18, 18⟩
abbrev PND_STATUS_form : Field := ⟨0xA0004, 17, 16⟩
abbrev PND_STATUS_bound : Field := ⟨0xA0004, 15, 15⟩
abbrev PND_STATUS_paired : Field := ⟨0xA0004, 14, 14⟩
abbrev PND_STATUS_role : Field := ⟨0xA0004, 13, 13⟩
abbrev PND_STATUS_link : Field := ⟨0xA0004, 9, 8⟩
abbrev PND_STATUS_partner_act : Field := ⟨0xA0004, 2, 0⟩
abbrev PND_PAIR_ID_pair_id : Field := ⟨0xA0008, 31, 0⟩
abbrev PND_PARTNER_serial (n : Nat) : Field := ⟨0xA000C + 4 * n, 31, 0⟩
abbrev PND_LINK_DELAY_delay : Field := ⟨0xA0014, 31, 0⟩
abbrev PND_CMD_unbind : Field := ⟨0xA0018, 0, 0⟩
abbrev PND_CNT_count (n : Nat) : Field := ⟨0xA0040 + 4 * n, 31, 0⟩
abbrev PND_SPANMAP_map (n : Nat) : Field := ⟨0xA0100 + 4 * n, 31, 0⟩
abbrev PND_GFLOW_valid (n : Nat) : Field := ⟨0xA1000 + 4 * n, 31, 31⟩
abbrev PND_GFLOW_dir (n : Nat) : Field := ⟨0xA1000 + 4 * n, 30, 30⟩
abbrev PND_GFLOW_egress (n : Nat) : Field := ⟨0xA1000 + 4 * n, 29, 29⟩
abbrev PND_GFLOW_qid (n : Nat) : Field := ⟨0xA1000 + 4 * n, 26, 16⟩
abbrev PND_GFLOW_flow (n : Nat) : Field := ⟨0xA1000 + 4 * n, 9, 0⟩

/-! ### CEL -/

abbrev CEL_CTRL_report_en : Field := ⟨0xC0000, 0, 0⟩
abbrev CEL_FLOOR_floor : Field := ⟨0xC0004, 18, 0⟩
abbrev CEL_PLACE_count (n : Nat) : Field := ⟨0xC0008 + 4 * n, 18, 0⟩
abbrev CEL_CAL_STATUS_breaches : Field := ⟨0xC0020, 31, 16⟩
abbrev CEL_CAL_STATUS_ecc : Field := ⟨0xC0020, 3, 3⟩
abbrev CEL_CAL_STATUS_frame_fail : Field := ⟨0xC0020, 2, 2⟩
abbrev CEL_CAL_STATUS_byte_fail : Field := ⟨0xC0020, 1, 1⟩
abbrev CEL_CAL_STATUS_cell_fail : Field := ⟨0xC0020, 0, 0⟩
abbrev CEL_CAL_LAST_kind : Field := ⟨0xC0024, 31, 30⟩
abbrev CEL_CAL_LAST_dir : Field := ⟨0xC0024, 29, 29⟩
abbrev CEL_CAL_LAST_index : Field := ⟨0xC0024, 7, 0⟩
abbrev CEL_CAL_DELTA_delta : Field := ⟨0xC0028, 31, 0⟩
abbrev CEL_CAL_ACK_ack : Field := ⟨0xC002C, 0, 0⟩
abbrev CEL_DESC_SEL_cell : Field := ⟨0xC0030, 18, 0⟩
abbrev CEL_DESC_LO_desc_lo : Field := ⟨0xC0034, 31, 0⟩
abbrev CEL_DESC_HI_desc_hi : Field := ⟨0xC0038, 31, 0⟩
abbrev CEL_NHELD_held (n : Nat) : Field := ⟨0xC1000 + 0x40 * n, 18, 0⟩
abbrev CEL_NMIN_cells (n : Nat) : Field := ⟨0xC1004 + 0x40 * n, 18, 0⟩
abbrev CEL_NMAX_cells (n : Nat) : Field := ⟨0xC1008 + 0x40 * n, 18, 0⟩
abbrev CEL_NSTATUS_borrowing (n : Nat) : Field := ⟨0xC100C + 0x40 * n, 2, 2⟩
abbrev CEL_NSTATUS_resetting (n : Nat) : Field := ⟨0xC100C + 0x40 * n, 1, 1⟩
abbrev CEL_NSTATUS_exists (n : Nat) : Field := ⟨0xC100C + 0x40 * n, 0, 0⟩
abbrev CEL_NCNT_count (n : Nat) (k : Nat) : Field := ⟨0xC1010 + 0x40 * n + 4 * k, 31, 0⟩
abbrev CEL_AENQ_LO_lo (n : Nat) : Field := ⟨0xC2000 + 0x20 * n, 31, 0⟩
abbrev CEL_AENQ_HI_hi (n : Nat) : Field := ⟨0xC2004 + 0x20 * n, 15, 0⟩
abbrev CEL_ASENT_LO_lo (n : Nat) : Field := ⟨0xC2008 + 0x20 * n, 31, 0⟩
abbrev CEL_ASENT_HI_hi (n : Nat) : Field := ⟨0xC200C + 0x20 * n, 15, 0⟩
abbrev CEL_ADROP_LO_lo (n : Nat) : Field := ⟨0xC2010 + 0x20 * n, 31, 0⟩
abbrev CEL_ADROP_HI_hi (n : Nat) : Field := ⟨0xC2014 + 0x20 * n, 15, 0⟩
abbrev CEL_AOCC_occ (n : Nat) : Field := ⟨0xC2018 + 0x20 * n, 31, 0⟩
abbrev CEL_QCFG_owner (n : Nat) : Field := ⟨0xC8000 + 4 * n, 31, 28⟩
abbrev CEL_QCFG_assigned (n : Nat) : Field := ⟨0xC8000 + 4 * n, 27, 27⟩
abbrev CEL_QCFG_role (n : Nat) : Field := ⟨0xC8000 + 4 * n, 26, 25⟩
abbrev CEL_QCFG_limit (n : Nat) : Field := ⟨0xC8000 + 4 * n, 18, 0⟩
abbrev CEL_QDEPTH_depth (n : Nat) : Field := ⟨0xCA000 + 4 * n, 18, 0⟩
abbrev CEL_QBYTES_bytes (n : Nat) : Field := ⟨0xCC000 + 4 * n, 31, 0⟩

/-! ### ETH -/

abbrev ETH_MAC_CFG_rgmii_rxd (n : Nat) : Field := ⟨0x100000 + 0x4000 * n, 7, 7⟩
abbrev ETH_MAC_CFG_rgmii_txd (n : Nat) : Field := ⟨0x100000 + 0x4000 * n, 6, 6⟩
abbrev ETH_MAC_CFG_hold_down (n : Nat) : Field := ⟨0x100000 + 0x4000 * n, 5, 5⟩
abbrev ETH_MAC_CFG_pause_rx (n : Nat) : Field := ⟨0x100000 + 0x4000 * n, 4, 4⟩
abbrev ETH_MAC_CFG_duplex (n : Nat) : Field := ⟨0x100000 + 0x4000 * n, 3, 3⟩
abbrev ETH_MAC_CFG_speed (n : Nat) : Field := ⟨0x100000 + 0x4000 * n, 2, 1⟩
abbrev ETH_MAC_CFG_an (n : Nat) : Field := ⟨0x100000 + 0x4000 * n, 0, 0⟩
abbrev ETH_STATUS_cbs_over (n : Nat) : Field := ⟨0x100004 + 0x4000 * n, 7, 7⟩
abbrev ETH_STATUS_paused (n : Nat) : Field := ⟨0x100004 + 0x4000 * n, 6, 6⟩
abbrev ETH_STATUS_mode_bad (n : Nat) : Field := ⟨0x100004 + 0x4000 * n, 5, 5⟩
abbrev ETH_STATUS_duplex (n : Nat) : Field := ⟨0x100004 + 0x4000 * n, 4, 4⟩
abbrev ETH_STATUS_speed (n : Nat) : Field := ⟨0x100004 + 0x4000 * n, 3, 2⟩
abbrev ETH_STATUS_link (n : Nat) : Field := ⟨0x100004 + 0x4000 * n, 1, 1⟩
abbrev ETH_STATUS_owned (n : Nat) : Field := ⟨0x100004 + 0x4000 * n, 0, 0⟩
abbrev ETH_MAXLEN_trunc_en (n : Nat) : Field := ⟨0x100008 + 0x4000 * n, 31, 31⟩
abbrev ETH_MAXLEN_tx (n : Nat) : Field := ⟨0x100008 + 0x4000 * n, 30, 16⟩
abbrev ETH_MAXLEN_rx (n : Nat) : Field := ⟨0x100008 + 0x4000 * n, 14, 0⟩
abbrev ETH_TS_TXLAT_lat (n : Nat) : Field := ⟨0x10000C + 0x4000 * n, 31, 0⟩
abbrev ETH_TS_RXLAT_lat (n : Nat) : Field := ⟨0x100010 + 0x4000 * n, 31, 0⟩
abbrev ETH_CLS_MODE_cbs (n : Nat) : Field := ⟨0x100014 + 0x4000 * n, 7, 0⟩
abbrev ETH_CBS_SLOPE_idle (n : Nat) (k : Nat) : Field := ⟨0x100020 + 0x4000 * n + 4 * k, 23, 0⟩
abbrev ETH_CBS_CREDIT_credit (n : Nat) (k : Nat) : Field := ⟨0x100040 + 0x4000 * n + 4 * k, 31, 0⟩
abbrev ETH_WAKE_CTRL_en (n : Nat) : Field := ⟨0x100080 + 0x4000 * n, 8, 8⟩
abbrev ETH_WAKE_CTRL_pat_en (n : Nat) : Field := ⟨0x100080 + 0x4000 * n, 7, 0⟩
abbrev ETH_WAKE_STATUS_matched (n : Nat) : Field := ⟨0x100084 + 0x4000 * n, 3, 3⟩
abbrev ETH_WAKE_STATUS_pattern (n : Nat) : Field := ⟨0x100084 + 0x4000 * n, 2, 0⟩
abbrev ETH_WAKE_CFG_len (n : Nat) (k : Nat) : Field := ⟨0x100100 + 0x4000 * n + 0x20 * k, 23, 16⟩
abbrev ETH_WAKE_CFG_check (n : Nat) (k : Nat) : Field := ⟨0x100100 + 0x4000 * n + 0x20 * k, 15, 0⟩
abbrev ETH_WAKE_MASK_mask (n : Nat) (k : Nat) (j : Nat) : Field := ⟨0x100104 + 0x4000 * n + 0x20 * k + 4 * j, 31, 0⟩
abbrev ETH_CNT_count (n : Nat) (k : Nat) : Field := ⟨0x100200 + 0x4000 * n + 4 * k, 31, 0⟩

/-! ### CLS -/

abbrev CLS_SRC_CFG_def_prof (n : Nat) : Field := ⟨0x140200 + 0x20 * n, 4, 0⟩
abbrev CLS_SRC_RULE_valid (n : Nat) (k : Nat) : Field := ⟨0x140204 + 0x20 * n + 4 * k, 31, 31⟩
abbrev CLS_SRC_RULE_profile (n : Nat) (k : Nat) : Field := ⟨0x140204 + 0x20 * n + 4 * k, 20, 16⟩
abbrev CLS_SRC_RULE_ethertype (n : Nat) (k : Nat) : Field := ⟨0x140204 + 0x20 * n + 4 * k, 15, 0⟩
abbrev CLS_PROF_CFG_chain (n : Nat) : Field := ⟨0x140400 + 0x40 * n, 17, 0⟩
abbrev CLS_PROF_MASK_mask (n : Nat) (k : Nat) : Field := ⟨0x140404 + 0x40 * n + 4 * k, 31, 0⟩
abbrev CLS_PROF_DEF_result (n : Nat) (k : Nat) : Field := ⟨0x14040C + 0x40 * n + 4 * k, 31, 0⟩
abbrev CLS_PROF_FLD_anchor (n : Nat) (k : Nat) : Field := ⟨0x140414 + 0x40 * n + 4 * k, 14, 13⟩
abbrev CLS_PROF_FLD_len (n : Nat) (k : Nat) : Field := ⟨0x140414 + 0x40 * n + 4 * k, 12, 8⟩
abbrev CLS_PROF_FLD_offset (n : Nat) (k : Nat) : Field := ⟨0x140414 + 0x40 * n + 4 * k, 7, 0⟩
abbrev CLS_MGRP_valid1 (n : Nat) (k : Nat) : Field := ⟨0x140C00 + 8 * n + 4 * k, 31, 31⟩
abbrev CLS_MGRP_niche1 (n : Nat) (k : Nat) : Field := ⟨0x140C00 + 8 * n + 4 * k, 30, 27⟩
abbrev CLS_MGRP_qid1 (n : Nat) (k : Nat) : Field := ⟨0x140C00 + 8 * n + 4 * k, 26, 16⟩
abbrev CLS_MGRP_valid0 (n : Nat) (k : Nat) : Field := ⟨0x140C00 + 8 * n + 4 * k, 15, 15⟩
abbrev CLS_MGRP_niche0 (n : Nat) (k : Nat) : Field := ⟨0x140C00 + 8 * n + 4 * k, 14, 11⟩
abbrev CLS_MGRP_qid0 (n : Nat) (k : Nat) : Field := ⟨0x140C00 + 8 * n + 4 * k, 10, 0⟩
abbrev CLS_NCFG_mesh_prof (n : Nat) : Field := ⟨0x141000 + 0x400 * n, 20, 16⟩
abbrev CLS_NCFG_slow_qid (n : Nat) : Field := ⟨0x141000 + 0x400 * n, 10, 0⟩
abbrev CLS_NTAB_hash_b (n : Nat) : Field := ⟨0x141004 + 0x400 * n, 23, 12⟩
abbrev CLS_NTAB_hash_a (n : Nat) : Field := ⟨0x141004 + 0x400 * n, 11, 0⟩
abbrev CLS_UPD_CMD_op (n : Nat) : Field := ⟨0x141008 + 0x400 * n, 2, 0⟩
abbrev CLS_UPD_ADDR_table (n : Nat) : Field := ⟨0x14100C + 0x400 * n, 31, 30⟩
abbrev CLS_UPD_ADDR_index (n : Nat) : Field := ⟨0x14100C + 0x400 * n, 19, 0⟩
abbrev CLS_UPD_STATUS_code (n : Nat) : Field := ⟨0x141010 + 0x400 * n, 31, 16⟩
abbrev CLS_UPD_STATUS_busy (n : Nat) : Field := ⟨0x141010 + 0x400 * n, 0, 0⟩
abbrev CLS_UPD_HASH_bucket2 (n : Nat) : Field := ⟨0x141014 + 0x400 * n, 31, 16⟩
abbrev CLS_UPD_HASH_bucket1 (n : Nat) : Field := ⟨0x141014 + 0x400 * n, 15, 0⟩
abbrev CLS_UPD_DATA_data (n : Nat) (k : Nat) : Field := ⟨0x141040 + 0x400 * n + 4 * k, 31, 0⟩
abbrev CLS_TREE_ROOT_node (n : Nat) (k : Nat) (j : Nat) : Field := ⟨0x141080 + 0x400 * n + 8 * k + 4 * j, 19, 0⟩
abbrev CLS_TREE_SEL_retiring (n : Nat) : Field := ⟨0x1410A0 + 0x400 * n, 7, 4⟩
abbrev CLS_TREE_SEL_sel (n : Nat) : Field := ⟨0x1410A0 + 0x400 * n, 3, 0⟩
abbrev CLS_NCNT_count (n : Nat) (k : Nat) : Field := ⟨0x141100 + 0x400 * n + 4 * k, 31, 0⟩
abbrev CLS_POL_RATE_rate (n : Nat) : Field := ⟨0x148000 + 0x10 * n, 23, 0⟩
abbrev CLS_POL_BURST_burst (n : Nat) : Field := ⟨0x148004 + 0x10 * n, 23, 0⟩
abbrev CLS_POL_CNT_count (n : Nat) (k : Nat) : Field := ⟨0x148008 + 0x10 * n + 4 * k, 31, 0⟩

/-! ### TDM -/

abbrev TDM_CTRL_pm_clr : Field := ⟨0x180000, 0, 0⟩
abbrev TDM_UNBOUND_count : Field := ⟨0x180004, 31, 0⟩
abbrev TDM_TRIB_CFG_owner (n : Nat) : Field := ⟨0x180100 + 0x80 * n, 19, 16⟩
abbrev TDM_TRIB_CFG_type (n : Nat) : Field := ⟨0x180100 + 0x80 * n, 15, 14⟩
abbrev TDM_TRIB_CFG_n (n : Nat) : Field := ⟨0x180100 + 0x80 * n, 11, 8⟩
abbrev TDM_TRIB_CFG_rai_en (n : Nat) : Field := ⟨0x180100 + 0x80 * n, 4, 4⟩
abbrev TDM_TRIB_CFG_fill (n : Nat) : Field := ⟨0x180100 + 0x80 * n, 3, 3⟩
abbrev TDM_TRIB_CFG_loop (n : Nat) : Field := ⟨0x180100 + 0x80 * n, 2, 2⟩
abbrev TDM_TRIB_CFG_esf (n : Nat) : Field := ⟨0x180100 + 0x80 * n, 1, 1⟩
abbrev TDM_TRIB_CFG_crc4 (n : Nat) : Field := ⟨0x180100 + 0x80 * n, 0, 0⟩
abbrev TDM_TRIB_DEFECT_raw (n : Nat) : Field := ⟨0x180104 + 0x80 * n, 21, 16⟩
abbrev TDM_TRIB_DEFECT_unavail (n : Nat) : Field := ⟨0x180104 + 0x80 * n, 8, 8⟩
abbrev TDM_TRIB_DEFECT_reported (n : Nat) : Field := ⟨0x180104 + 0x80 * n, 5, 0⟩
abbrev TDM_TRIB_STICKY_changed (n : Nat) : Field := ⟨0x180108 + 0x80 * n, 5, 0⟩
abbrev TDM_TRIB_CNT_count (n : Nat) (k : Nat) : Field := ⟨0x180110 + 0x80 * n + 4 * k, 31, 0⟩
abbrev TDM_CIR_CFG_valid (n : Nat) : Field := ⟨0x180800 + 0x10 * n, 31, 31⟩
abbrev TDM_CIR_CFG_port (n : Nat) : Field := ⟨0x180800 + 0x10 * n, 27, 24⟩
abbrev TDM_CIR_CFG_delay (n : Nat) : Field := ⟨0x180800 + 0x10 * n, 20, 16⟩
abbrev TDM_CIR_CFG_tag (n : Nat) : Field := ⟨0x180800 + 0x10 * n, 15, 0⟩
abbrev TDM_CIR_STATUS_started (n : Nat) : Field := ⟨0x180804 + 0x10 * n, 31, 31⟩
abbrev TDM_CIR_STATUS_down (n : Nat) : Field := ⟨0x180804 + 0x10 * n, 30, 30⟩
abbrev TDM_CIR_STATUS_up (n : Nat) : Field := ⟨0x180804 + 0x10 * n, 19, 16⟩
abbrev TDM_CIR_STATUS_p (n : Nat) : Field := ⟨0x180804 + 0x10 * n, 15, 0⟩
abbrev TDM_MEM_CFG_valid (n : Nat) : Field := ⟨0x181000 + 0x40 * n, 31, 31⟩
abbrev TDM_MEM_CFG_circuit (n : Nat) : Field := ⟨0x181000 + 0x40 * n, 30, 27⟩
abbrev TDM_MEM_CFG_mnum (n : Nat) : Field := ⟨0x181000 + 0x40 * n, 26, 25⟩
abbrev TDM_MEM_CFG_path (n : Nat) : Field := ⟨0x181000 + 0x40 * n, 24, 24⟩
abbrev TDM_MEM_CFG_pack (n : Nat) : Field := ⟨0x181000 + 0x40 * n, 23, 21⟩
abbrev TDM_MEM_CFG_dfid (n : Nat) : Field := ⟨0x181000 + 0x40 * n, 19, 10⟩
abbrev TDM_MEM_CFG_ufid (n : Nat) : Field := ⟨0x181000 + 0x40 * n, 9, 0⟩
abbrev TDM_MEM_STATUS_up (n : Nat) : Field := ⟨0x181004 + 0x40 * n, 31, 31⟩
abbrev TDM_MEM_STATUS_ais_rx (n : Nat) : Field := ⟨0x181004 + 0x40 * n, 30, 30⟩
abbrev TDM_MEM_STATUS_rdi_rx (n : Nat) : Field := ⟨0x181004 + 0x40 * n, 29, 29⟩
abbrev TDM_MEM_STATUS_slack_min (n : Nat) : Field := ⟨0x181004 + 0x40 * n, 7, 0⟩
abbrev TDM_MEM_CNT_count (n : Nat) (k : Nat) : Field := ⟨0x181010 + 0x40 * n + 4 * k, 31, 0⟩
abbrev TDM_RELAY_valid (n : Nat) : Field := ⟨0x182000 + 4 * n, 31, 31⟩
abbrev TDM_RELAY_dfid (n : Nat) : Field := ⟨0x182000 + 4 * n, 19, 10⟩
abbrev TDM_RELAY_ufid (n : Nat) : Field := ⟨0x182000 + 4 * n, 9, 0⟩
abbrev TDM_RELAY_CNT_count (n : Nat) (k : Nat) : Field := ⟨0x182100 + 8 * n + 4 * k, 31, 0⟩

/-! ### TIM -/

abbrev TIM_CTRL_v2_owner : Field := ⟨0x1C0000, 7, 4⟩
abbrev TIM_CTRL_v0_servo : Field := ⟨0x1C0000, 0, 0⟩
abbrev TIM_STATUS_line_ref : Field := ⟨0x1C0004, 4, 4⟩
abbrev TIM_STATUS_ptp_slave : Field := ⟨0x1C0004, 3, 3⟩
abbrev TIM_STATUS_srv1_locked : Field := ⟨0x1C0004, 2, 2⟩
abbrev TIM_STATUS_srv0_locked : Field := ⟨0x1C0004, 1, 1⟩
abbrev TIM_STATUS_tod_valid : Field := ⟨0x1C0004, 0, 0⟩
abbrev TIM_SNAP_go : Field := ⟨0x1C0008, 0, 0⟩
abbrev TIM_SNAP_TB_LO_ns : Field := ⟨0x1C0014, 31, 0⟩
abbrev TIM_SNAP_TB_HI_ns : Field := ⟨0x1C0018, 31, 0⟩
abbrev TIM_SNAP_TB_FRAC_frac : Field := ⟨0x1C001C, 15, 0⟩
abbrev TIM_SNAP_SLO_s (n : Nat) : Field := ⟨0x1C0020 + 0xC * n, 31, 0⟩
abbrev TIM_SNAP_SHI_s (n : Nat) : Field := ⟨0x1C0024 + 0xC * n, 31, 0⟩
abbrev TIM_SNAP_NS_ns (n : Nat) : Field := ⟨0x1C0028 + 0xC * n, 31, 0⟩
abbrev TIM_VIEW_OFS_SLO_os (n : Nat) : Field := ⟨0x1C0100 + 0x40 * n, 31, 0⟩
abbrev TIM_VIEW_OFS_SHI_os (n : Nat) : Field := ⟨0x1C0104 + 0x40 * n, 15, 0⟩
abbrev TIM_VIEW_OFS_NS_ons (n : Nat) : Field := ⟨0x1C0108 + 0x40 * n, 29, 0⟩
abbrev TIM_VIEW_OFS_FRAC_ofrac (n : Nat) : Field := ⟨0x1C010C + 0x40 * n, 15, 0⟩
abbrev TIM_VIEW_RATE_LO_r (n : Nat) : Field := ⟨0x1C0110 + 0x40 * n, 31, 0⟩
abbrev TIM_VIEW_RATE_HI_r (n : Nat) : Field := ⟨0x1C0114 + 0x40 * n, 7, 0⟩
abbrev TIM_VIEW_STEP_LO_step (n : Nat) : Field := ⟨0x1C0118 + 0x40 * n, 31, 0⟩
abbrev TIM_VIEW_STEP_HI_step (n : Nat) : Field := ⟨0x1C011C + 0x40 * n, 15, 0⟩
abbrev TIM_VIEW_CMD_step (n : Nat) : Field := ⟨0x1C0120 + 0x40 * n, 2, 2⟩
abbrev TIM_VIEW_CMD_rate (n : Nat) : Field := ⟨0x1C0120 + 0x40 * n, 1, 1⟩
abbrev TIM_VIEW_CMD_ofs (n : Nat) : Field := ⟨0x1C0120 + 0x40 * n, 0, 0⟩
abbrev TIM_LINE_STATUS_err_valid : Field := ⟨0x1C0200, 0, 0⟩
abbrev TIM_LINE_ERR_e : Field := ⟨0x1C0204, 31, 0⟩
abbrev TIM_LINE_RXLAT_lat : Field := ⟨0x1C0208, 31, 0⟩
abbrev TIM_LINE_UTC_leap59 : Field := ⟨0x1C020C, 17, 17⟩
abbrev TIM_LINE_UTC_leap61 : Field := ⟨0x1C020C, 16, 16⟩
abbrev TIM_LINE_UTC_utc_off : Field := ⟨0x1C020C, 15, 0⟩
abbrev TIM_LINE_LEAP_LO_leap_tai : Field := ⟨0x1C0210, 31, 0⟩
abbrev TIM_LINE_LEAP_HI_leap_tai : Field := ⟨0x1C0214, 15, 0⟩
abbrev TIM_SRV_CFG_step_thr (n : Nat) : Field := ⟨0x1C0280 + 8 * n, 31, 22⟩
abbrev TIM_SRV_CFG_lock_thr (n : Nat) : Field := ⟨0x1C0280 + 8 * n, 21, 16⟩
abbrev TIM_SRV_CFG_kp (n : Nat) : Field := ⟨0x1C0280 + 8 * n, 15, 12⟩
abbrev TIM_SRV_CFG_ki (n : Nat) : Field := ⟨0x1C0280 + 8 * n, 11, 8⟩
abbrev TIM_SRV_CFG_i (n : Nat) : Field := ⟨0x1C0280 + 8 * n, 7, 0⟩
abbrev TIM_SRV_LIM_lim (n : Nat) : Field := ⟨0x1C0284 + 8 * n, 15, 0⟩
abbrev TIM_PTP_CFG_en : Field := ⟨0x1C0300, 31, 31⟩
abbrev TIM_PTP_CFG_profile : Field := ⟨0x1C0300, 30, 29⟩
abbrev TIM_PTP_CFG_udp : Field := ⟨0x1C0300, 28, 28⟩
abbrev TIM_PTP_CFG_domain : Field := ⟨0x1C0300, 27, 20⟩
abbrev TIM_PTP_CFG_priority1 : Field := ⟨0x1C0300, 19, 12⟩
abbrev TIM_PTP_CFG_hold_s : Field := ⟨0x1C0300, 11, 0⟩
abbrev TIM_PTP_PORT_state (n : Nat) : Field := ⟨0x1C0310 + 4 * n, 3, 0⟩
abbrev TIM_TSQ_STAT_ovf (n : Nat) : Field := ⟨0x1C0400 + 0x20 * n, 31, 31⟩
abbrev TIM_TSQ_STAT_view (n : Nat) : Field := ⟨0x1C0400 + 0x20 * n, 30, 29⟩
abbrev TIM_TSQ_STAT_count (n : Nat) : Field := ⟨0x1C0400 + 0x20 * n, 20, 16⟩
abbrev TIM_TSQ_STAT_dropped (n : Nat) : Field := ⟨0x1C0400 + 0x20 * n, 15, 0⟩
abbrev TIM_TSQ_E_word (n : Nat) (k : Nat) : Field := ⟨0x1C0404 + 0x20 * n + 4 * k, 31, 0⟩
abbrev TIM_TIN_CFG_filt (n : Nat) : Field := ⟨0x1C0500 + 0x20 * n, 5, 2⟩
abbrev TIM_TIN_CFG_fall (n : Nat) : Field := ⟨0x1C0500 + 0x20 * n, 1, 1⟩
abbrev TIM_TIN_CFG_rise (n : Nat) : Field := ⟨0x1C0500 + 0x20 * n, 0, 0⟩
abbrev TIM_TIN_STAT_ovf (n : Nat) : Field := ⟨0x1C0504 + 0x20 * n, 31, 31⟩
abbrev TIM_TIN_STAT_view (n : Nat) : Field := ⟨0x1C0504 + 0x20 * n, 30, 29⟩
abbrev TIM_TIN_STAT_count (n : Nat) : Field := ⟨0x1C0504 + 0x20 * n, 20, 16⟩
abbrev TIM_TIN_STAT_dropped (n : Nat) : Field := ⟨0x1C0504 + 0x20 * n, 15, 0⟩
abbrev TIM_TIN_E_word (n : Nat) (k : Nat) : Field := ⟨0x1C0508 + 0x20 * n + 4 * k, 31, 0⟩
abbrev TIM_TOUT_CFG_local (n : Nat) : Field := ⟨0x1C0600 + 0x40 * n, 31, 24⟩
abbrev TIM_TOUT_CFG_b000 (n : Nat) : Field := ⟨0x1C0600 + 0x40 * n, 6, 6⟩
abbrev TIM_TOUT_CFG_level (n : Nat) : Field := ⟨0x1C0600 + 0x40 * n, 5, 5⟩
abbrev TIM_TOUT_CFG_pol (n : Nat) : Field := ⟨0x1C0600 + 0x40 * n, 4, 4⟩
abbrev TIM_TOUT_CFG_view (n : Nat) : Field := ⟨0x1C0600 + 0x40 * n, 3, 2⟩
abbrev TIM_TOUT_CFG_mode (n : Nat) : Field := ⟨0x1C0600 + 0x40 * n, 1, 0⟩
abbrev TIM_TOUT_TGT_SLO_target (n : Nat) : Field := ⟨0x1C0604 + 0x40 * n, 31, 0⟩
abbrev TIM_TOUT_TGT_SHI_target (n : Nat) : Field := ⟨0x1C0608 + 0x40 * n, 15, 0⟩
abbrev TIM_TOUT_TGT_NS_target (n : Nat) : Field := ⟨0x1C060C + 0x40 * n, 29, 0⟩
abbrev TIM_TOUT_PER_LO_period (n : Nat) : Field := ⟨0x1C0610 + 0x40 * n, 31, 0⟩
abbrev TIM_TOUT_PER_HI_period (n : Nat) : Field := ⟨0x1C0614 + 0x40 * n, 7, 0⟩
abbrev TIM_TOUT_WIDTH_width (n : Nat) : Field := ⟨0x1C0618 + 0x40 * n, 31, 0⟩
abbrev TIM_TOUT_DELAY_delay (n : Nat) : Field := ⟨0x1C061C + 0x40 * n, 31, 0⟩
abbrev TIM_TOUT_CMD_disarm (n : Nat) : Field := ⟨0x1C0620 + 0x40 * n, 1, 1⟩
abbrev TIM_TOUT_CMD_arm (n : Nat) : Field := ⟨0x1C0620 + 0x40 * n, 0, 0⟩
abbrev TIM_TOUT_STAT_skipped (n : Nat) : Field := ⟨0x1C0624 + 0x40 * n, 31, 16⟩
abbrev TIM_TOUT_STAT_late (n : Nat) : Field := ⟨0x1C0624 + 0x40 * n, 1, 1⟩
abbrev TIM_TOUT_STAT_armed (n : Nat) : Field := ⟨0x1C0624 + 0x40 * n, 0, 0⟩
abbrev TIM_CAL_CFG_view : Field := ⟨0x1C0700, 1, 0⟩
abbrev TIM_CAL_DATE_wday : Field := ⟨0x1C0704, 20, 18⟩
abbrev TIM_CAL_DATE_year : Field := ⟨0x1C0704, 17, 9⟩
abbrev TIM_CAL_DATE_month : Field := ⟨0x1C0704, 8, 5⟩
abbrev TIM_CAL_DATE_day : Field := ⟨0x1C0704, 4, 0⟩
abbrev TIM_CAL_TIME_valid : Field := ⟨0x1C0708, 31, 31⟩
abbrev TIM_CAL_TIME_hour : Field := ⟨0x1C0708, 16, 12⟩
abbrev TIM_CAL_TIME_minute : Field := ⟨0x1C0708, 11, 6⟩
abbrev TIM_CAL_TIME_second : Field := ⟨0x1C0708, 5, 0⟩
abbrev TIM_CAL_WDATE_year : Field := ⟨0x1C0710, 17, 9⟩
abbrev TIM_CAL_WDATE_month : Field := ⟨0x1C0710, 8, 5⟩
abbrev TIM_CAL_WDATE_day : Field := ⟨0x1C0710, 4, 0⟩
abbrev TIM_CAL_WTIME_hour : Field := ⟨0x1C0714, 16, 12⟩
abbrev TIM_CAL_WTIME_minute : Field := ⟨0x1C0714, 11, 6⟩
abbrev TIM_CAL_WTIME_second : Field := ⟨0x1C0714, 5, 0⟩
abbrev TIM_CAL_WNS_ns : Field := ⟨0x1C0718, 29, 0⟩
abbrev TIM_CAL_CMD_target : Field := ⟨0x1C071C, 2, 1⟩
abbrev TIM_CAL_CMD_go : Field := ⟨0x1C071C, 0, 0⟩
abbrev TIM_CAL_TAI_LO_tai : Field := ⟨0x1C0720, 31, 0⟩
abbrev TIM_CAL_TAI_HI_tai : Field := ⟨0x1C0724, 15, 0⟩
abbrev TIM_CNT_count (n : Nat) : Field := ⟨0x1C0800 + 4 * n, 31, 0⟩
abbrev TIM_FPB_CFG_dip_thr : Field := ⟨0x1C0900, 11, 0⟩
abbrev TIM_FPB_STAT_dip : Field := ⟨0x1C0904, 0, 0⟩
abbrev TIM_DIN_LEVEL_level : Field := ⟨0x1C0908, 15, 0⟩
abbrev TIM_DIN_CFG_thr (n : Nat) : Field := ⟨0x1C0A00 + 0x20 * n, 31, 21⟩
abbrev TIM_DIN_CFG_hys (n : Nat) : Field := ⟨0x1C0A00 + 0x20 * n, 20, 13⟩
abbrev TIM_DIN_CFG_filt (n : Nat) : Field := ⟨0x1C0A00 + 0x20 * n, 12, 5⟩
abbrev TIM_DIN_CFG_chat (n : Nat) : Field := ⟨0x1C0A00 + 0x20 * n, 4, 2⟩
abbrev TIM_DIN_CFG_fall (n : Nat) : Field := ⟨0x1C0A00 + 0x20 * n, 1, 1⟩
abbrev TIM_DIN_CFG_rise (n : Nat) : Field := ⟨0x1C0A00 + 0x20 * n, 0, 0⟩
abbrev TIM_DIN_STAT_ovf (n : Nat) : Field := ⟨0x1C0A04 + 0x20 * n, 31, 31⟩
abbrev TIM_DIN_STAT_view (n : Nat) : Field := ⟨0x1C0A04 + 0x20 * n, 30, 29⟩
abbrev TIM_DIN_STAT_count (n : Nat) : Field := ⟨0x1C0A04 + 0x20 * n, 20, 16⟩
abbrev TIM_DIN_STAT_dropped (n : Nat) : Field := ⟨0x1C0A04 + 0x20 * n, 15, 0⟩
abbrev TIM_DIN_E_word (n : Nat) (k : Nat) : Field := ⟨0x1C0A08 + 0x20 * n + 4 * k, 31, 0⟩
abbrev TIM_DOUT_CFG_safe (n : Nat) : Field := ⟨0x1C0B00 + 0x10 * n, 8, 8⟩
abbrev TIM_DOUT_CFG_retries (n : Nat) : Field := ⟨0x1C0B00 + 0x10 * n, 3, 0⟩
abbrev TIM_DOUT_CMD_clr (n : Nat) : Field := ⟨0x1C0B04 + 0x10 * n, 8, 8⟩
abbrev TIM_DOUT_CMD_on (n : Nat) : Field := ⟨0x1C0B04 + 0x10 * n, 0, 0⟩
abbrev TIM_DOUT_STAT_tries (n : Nat) : Field := ⟨0x1C0B08 + 0x10 * n, 31, 24⟩
abbrev TIM_DOUT_STAT_readback (n : Nat) : Field := ⟨0x1C0B08 + 0x10 * n, 7, 7⟩
abbrev TIM_DOUT_STAT_contention (n : Nat) : Field := ⟨0x1C0B08 + 0x10 * n, 4, 4⟩
abbrev TIM_DOUT_STAT_short (n : Nat) : Field := ⟨0x1C0B08 + 0x10 * n, 3, 3⟩
abbrev TIM_DOUT_STAT_extdrv (n : Nat) : Field := ⟨0x1C0B08 + 0x10 * n, 2, 2⟩
abbrev TIM_DOUT_STAT_limiting (n : Nat) : Field := ⟨0x1C0B08 + 0x10 * n, 1, 1⟩
abbrev TIM_DOUT_STAT_driven (n : Nat) : Field := ⟨0x1C0B08 + 0x10 * n, 0, 0⟩

/-! ### MSH -/

abbrev MSH_CTRL_min_level : Field := ⟨0x200000, 3, 1⟩
abbrev MSH_CTRL_run : Field := ⟨0x200000, 0, 0⟩
abbrev MSH_STATUS_cal_due : Field := ⟨0x200004, 2, 2⟩
abbrev MSH_STATUS_locked : Field := ⟨0x200004, 1, 1⟩
abbrev MSH_STATUS_running : Field := ⟨0x200004, 0, 0⟩
abbrev MSH_PHY_mode : Field := ⟨0x200008, 0, 0⟩
abbrev MSH_TS_slot : Field := ⟨0x20000C, 15, 0⟩
abbrev MSH_GUARD_lost : Field := ⟨0x200010, 31, 22⟩
abbrev MSH_GUARD_ppm : Field := ⟨0x200010, 21, 16⟩
abbrev MSH_GUARD_max : Field := ⟨0x200010, 15, 11⟩
abbrev MSH_GUARD_base : Field := ⟨0x200010, 10, 0⟩
abbrev MSH_BACKOFF_retries : Field := ⟨0x200014, 11, 8⟩
abbrev MSH_BACKOFF_max_be : Field := ⟨0x200014, 7, 4⟩
abbrev MSH_BACKOFF_min_be : Field := ⟨0x200014, 3, 0⟩
abbrev MSH_IND_hold : Field := ⟨0x200018, 15, 0⟩
abbrev MSH_FLOOD_en : Field := ⟨0x20001C, 16, 16⟩
abbrev MSH_FLOOD_hold : Field := ⟨0x20001C, 15, 0⟩
abbrev MSH_EB_link : Field := ⟨0x200020, 25, 16⟩
abbrev MSH_EB_period : Field := ⟨0x200020, 15, 0⟩
abbrev MSH_PAN_pan_id : Field := ⟨0x200024, 31, 16⟩
abbrev MSH_PAN_short : Field := ⟨0x200024, 15, 0⟩
abbrev MSH_ASN_BASE_LO_asn : Field := ⟨0x200028, 31, 0⟩
abbrev MSH_ASN_BASE_HI_asn : Field := ⟨0x20002C, 7, 0⟩
abbrev MSH_ASN_LO_asn : Field := ⟨0x200030, 31, 0⟩
abbrev MSH_ASN_HI_asn : Field := ⟨0x200034, 7, 0⟩
abbrev MSH_ASN_HWM_LO_asn : Field := ⟨0x200038, 31, 0⟩
abbrev MSH_ASN_HWM_HI_asn : Field := ⟨0x20003C, 7, 0⟩
abbrev MSH_CCA_CTRL_hold : Field := ⟨0x200040, 8, 8⟩
abbrev MSH_CCA_CTRL_margin : Field := ⟨0x200040, 7, 0⟩
abbrev MSH_CCA_ENV_hi : Field := ⟨0x200044, 15, 8⟩
abbrev MSH_CCA_ENV_lo : Field := ⟨0x200044, 7, 0⟩
abbrev MSH_CCA_STATUS_converging : Field := ⟨0x200048, 18, 18⟩
abbrev MSH_CCA_STATUS_pinned_hi : Field := ⟨0x200048, 17, 17⟩
abbrev MSH_CCA_STATUS_pinned_lo : Field := ⟨0x200048, 16, 16⟩
abbrev MSH_CCA_STATUS_out : Field := ⟨0x200048, 7, 0⟩
abbrev MSH_CCA_MAN_value : Field := ⟨0x20004C, 7, 0⟩
abbrev MSH_CAL_period : Field := ⟨0x200050, 15, 0⟩
abbrev MSH_HOP_CTRL_len : Field := ⟨0x200054, 6, 0⟩
abbrev MSH_BLACKLIST_channels (n : Nat) : Field := ⟨0x200060 + 4 * n, 31, 0⟩
abbrev MSH_SF_valid (n : Nat) : Field := ⟨0x200080 + 4 * n, 31, 31⟩
abbrev MSH_SF_size (n : Nat) : Field := ⟨0x200080 + 4 * n, 9, 0⟩
abbrev MSH_HOP_sequence (n : Nat) : Field := ⟨0x200100 + 4 * n, 31, 0⟩
abbrev MSH_CHCNT_noack (n : Nat) : Field := ⟨0x200200 + 4 * n, 31, 16⟩
abbrev MSH_CHCNT_crc (n : Nat) : Field := ⟨0x200200 + 4 * n, 15, 0⟩
abbrev MSH_KID_valid (n : Nat) : Field := ⟨0x200600 + 4 * n, 31, 31⟩
abbrev MSH_KID_kid (n : Nat) : Field := ⟨0x200600 + 4 * n, 7, 0⟩
abbrev MSH_CNT_count (n : Nat) : Field := ⟨0x200800 + 4 * n, 31, 0⟩
abbrev MSH_LINK_valid (n : Nat) : Field := ⟨0x201000 + 4 * n, 31, 31⟩
abbrev MSH_LINK_sf (n : Nat) : Field := ⟨0x201000 + 4 * n, 30, 29⟩
abbrev MSH_LINK_slot (n : Nat) : Field := ⟨0x201000 + 4 * n, 28, 19⟩
abbrev MSH_LINK_chan (n : Nat) : Field := ⟨0x201000 + 4 * n, 18, 13⟩
abbrev MSH_LINK_opt (n : Nat) : Field := ⟨0x201000 + 4 * n, 12, 10⟩
abbrev MSH_LINK_node (n : Nat) : Field := ⟨0x201000 + 4 * n, 9, 0⟩
abbrev MSH_NODE_CFG_valid (n : Nat) : Field := ⟨0x204000 + 0x10 * n, 31, 31⟩
abbrev MSH_NODE_CFG_child (n : Nat) : Field := ⟨0x204000 + 0x10 * n, 30, 30⟩
abbrev MSH_NODE_CFG_sleepy (n : Nat) : Field := ⟨0x204000 + 0x10 * n, 29, 29⟩
abbrev MSH_NODE_CFG_owner (n : Nat) : Field := ⟨0x204000 + 0x10 * n, 23, 20⟩
abbrev MSH_NODE_CFG_short (n : Nat) : Field := ⟨0x204000 + 0x10 * n, 15, 0⟩
abbrev MSH_NODE_EXT_ext (n : Nat) (k : Nat) : Field := ⟨0x204004 + 0x10 * n + 4 * k, 31, 0⟩
abbrev MSH_NODE_STATUS_lost (n : Nat) : Field := ⟨0x20400C + 0x10 * n, 31, 31⟩
abbrev MSH_NODE_STATUS_ind (n : Nat) : Field := ⟨0x20400C + 0x10 * n, 30, 28⟩
abbrev MSH_NODE_STATUS_g (n : Nat) : Field := ⟨0x20400C + 0x10 * n, 27, 16⟩
abbrev MSH_NODE_STATUS_age (n : Nat) : Field := ⟨0x20400C + 0x10 * n, 15, 0⟩

/-! ### FIO -/

abbrev FIO_STATUS_link : Field := ⟨0x240000, 1, 1⟩
abbrev FIO_STATUS_present : Field := ⟨0x240000, 0, 0⟩
abbrev FIO_AIN_CFG_en (n : Nat) : Field := ⟨0x240100 + 0x20 * n, 31, 31⟩
abbrev FIO_AIN_CFG_gain (n : Nat) : Field := ⟨0x240100 + 0x20 * n, 30, 28⟩
abbrev FIO_AIN_CFG_conv (n : Nat) : Field := ⟨0x240100 + 0x20 * n, 27, 25⟩
abbrev FIO_AIN_CFG_curve (n : Nat) : Field := ⟨0x240100 + 0x20 * n, 24, 21⟩
abbrev FIO_AIN_CFG_cjc (n : Nat) : Field := ⟨0x240100 + 0x20 * n, 20, 17⟩
abbrev FIO_AIN_CFG_ratio (n : Nat) : Field := ⟨0x240100 + 0x20 * n, 16, 16⟩
abbrev FIO_AIN_CFG_exc (n : Nat) : Field := ⟨0x240100 + 0x20 * n, 15, 14⟩
abbrev FIO_AIN_CFG_ow_en (n : Nat) : Field := ⟨0x240100 + 0x20 * n, 13, 13⟩
abbrev FIO_AIN_CFG_settle (n : Nat) : Field := ⟨0x240100 + 0x20 * n, 12, 0⟩
abbrev FIO_AIN_CM_hi (n : Nat) : Field := ⟨0x240104 + 0x20 * n, 31, 16⟩
abbrev FIO_AIN_CM_lo (n : Nat) : Field := ⟨0x240104 + 0x20 * n, 15, 0⟩
abbrev FIO_AIN_SPAN_cutoff (n : Nat) : Field := ⟨0x240108 + 0x20 * n, 31, 24⟩
abbrev FIO_AIN_SPAN_span (n : Nat) : Field := ⟨0x240108 + 0x20 * n, 23, 0⟩
abbrev FIO_AIN_RAW_raw (n : Nat) : Field := ⟨0x24010C + 0x20 * n, 23, 0⟩
abbrev FIO_AIN_VAL_val (n : Nat) : Field := ⟨0x240110 + 0x20 * n, 31, 0⟩
abbrev FIO_AIN_STAT_seq (n : Nat) : Field := ⟨0x240114 + 0x20 * n, 31, 16⟩
abbrev FIO_AIN_STAT_susp_run (n : Nat) : Field := ⟨0x240114 + 0x20 * n, 15, 8⟩
abbrev FIO_AIN_STAT_domain (n : Nat) : Field := ⟨0x240114 + 0x20 * n, 5, 5⟩
abbrev FIO_AIN_STAT_open (n : Nat) : Field := ⟨0x240114 + 0x20 * n, 4, 4⟩
abbrev FIO_AIN_STAT_ovr (n : Nat) : Field := ⟨0x240114 + 0x20 * n, 3, 3⟩
abbrev FIO_AIN_STAT_cm (n : Nat) : Field := ⟨0x240114 + 0x20 * n, 2, 2⟩
abbrev FIO_AIN_STAT_suspect (n : Nat) : Field := ⟨0x240114 + 0x20 * n, 1, 1⟩
abbrev FIO_AIN_STAT_new (n : Nat) : Field := ⟨0x240114 + 0x20 * n, 0, 0⟩
abbrev FIO_EXC_CFG_cur (n : Nat) : Field := ⟨0x240200 + 4 * n, 6, 0⟩
abbrev FIO_BRG_CFG_ilim : Field := ⟨0x240208, 24, 16⟩
abbrev FIO_BRG_CFG_volt : Field := ⟨0x240208, 5, 0⟩
abbrev FIO_LOOP_CFG_txm (n : Nat) : Field := ⟨0x240300 + 0x20 * n, 31, 31⟩
abbrev FIO_LOOP_CFG_src (n : Nat) : Field := ⟨0x240300 + 0x20 * n, 30, 27⟩
abbrev FIO_LOOP_CFG_fail (n : Nat) : Field := ⟨0x240300 + 0x20 * n, 26, 26⟩
abbrev FIO_LOOP_CFG_hold_n (n : Nat) : Field := ⟨0x240300 + 0x20 * n, 25, 18⟩
abbrev FIO_LOOP_SET_ua (n : Nat) : Field := ⟨0x240304 + 0x20 * n, 14, 0⟩
abbrev FIO_LOOP_LO_v (n : Nat) : Field := ⟨0x240308 + 0x20 * n, 31, 0⟩
abbrev FIO_LOOP_HI_v (n : Nat) : Field := ⟨0x24030C + 0x20 * n, 31, 0⟩
abbrev FIO_LOOP_STAT_i_meas (n : Nat) : Field := ⟨0x240310 + 0x20 * n, 31, 16⟩
abbrev FIO_LOOP_STAT_faulted (n : Nat) : Field := ⟨0x240310 + 0x20 * n, 4, 4⟩
abbrev FIO_LOOP_STAT_holding (n : Nat) : Field := ⟨0x240310 + 0x20 * n, 3, 3⟩
abbrev FIO_LOOP_STAT_open (n : Nat) : Field := ⟨0x240310 + 0x20 * n, 2, 2⟩
abbrev FIO_LOOP_STAT_overrange (n : Nat) : Field := ⟨0x240310 + 0x20 * n, 1, 1⟩
abbrev FIO_LOOP_STAT_active (n : Nat) : Field := ⟨0x240310 + 0x20 * n, 0, 0⟩
abbrev FIO_CTAB_SEL_table : Field := ⟨0x240400, 1, 0⟩
abbrev FIO_CTAB_CMD_commit : Field := ⟨0x240404, 0, 0⟩
abbrev FIO_CTAB_HDR_kind : Field := ⟨0x240408, 9, 8⟩
abbrev FIO_CTAB_HDR_count : Field := ⟨0x240408, 5, 0⟩
abbrev FIO_CTAB_X_x (n : Nat) : Field := ⟨0x240500 + 8 * n, 31, 0⟩
abbrev FIO_CTAB_Y_y (n : Nat) : Field := ⟨0x240504 + 8 * n, 31, 0⟩
abbrev FIO_CNT_count (n : Nat) : Field := ⟨0x240600 + 4 * n, 31, 0⟩

/-! ### CPH -/

abbrev CPH_CTRL_partition : Field := ⟨0x280000, 1, 1⟩
abbrev CPH_CTRL_la_en : Field := ⟨0x280000, 0, 0⟩
abbrev CPH_STATUS_alarms : Field := ⟨0x280004, 31, 24⟩
abbrev CPH_STATUS_rng_ok : Field := ⟨0x280004, 8, 8⟩
abbrev CPH_STATUS_secret : Field := ⟨0x280004, 7, 7⟩
abbrev CPH_STATUS_lockout : Field := ⟨0x280004, 6, 6⟩
abbrev CPH_STATUS_alarm : Field := ⟨0x280004, 5, 5⟩
abbrev CPH_STATUS_half_b : Field := ⟨0x280004, 4, 4⟩
abbrev CPH_STATUS_half_a : Field := ⟨0x280004, 3, 3⟩
abbrev CPH_ALARM_cause : Field := ⟨0x280008, 5, 0⟩
abbrev CPH_CMD_erase : Field := ⟨0x28000C, 0, 0⟩
abbrev CPH_SECRET_CMD_clear : Field := ⟨0x280010, 1, 1⟩
abbrev CPH_SECRET_CMD_enrol : Field := ⟨0x280010, 0, 0⟩
abbrev CPH_SECRET_KCV_kcv : Field := ⟨0x280014, 23, 0⟩
abbrev CPH_SECRET_DATA_data (n : Nat) : Field := ⟨0x280020 + 4 * n, 31, 0⟩
abbrev CPH_CNT_count (n : Nat) : Field := ⟨0x280040 + 4 * n, 31, 0⟩
abbrev CPH_NLA_en (n : Nat) : Field := ⟨0x281000 + 0x100 * n, 31, 31⟩
abbrev CPH_NLA_ring (n : Nat) : Field := ⟨0x281000 + 0x100 * n, 5, 0⟩
abbrev CPH_LOAD_CMD_wslot (n : Nat) : Field := ⟨0x281004 + 0x100 * n, 23, 16⟩
abbrev CPH_LOAD_CMD_slot (n : Nat) : Field := ⟨0x281004 + 0x100 * n, 15, 8⟩
abbrev CPH_LOAD_CMD_op (n : Nat) : Field := ⟨0x281004 + 0x100 * n, 2, 0⟩
abbrev CPH_LOAD_STATUS_code (n : Nat) : Field := ⟨0x281008 + 0x100 * n, 31, 16⟩
abbrev CPH_LOAD_STATUS_busy (n : Nat) : Field := ⟨0x281008 + 0x100 * n, 0, 0⟩
abbrev CPH_LOAD_DATA_data (n : Nat) (k : Nat) : Field := ⟨0x281020 + 0x100 * n + 4 * k, 31, 0⟩
abbrev CPH_NCNT_count (n : Nat) (k : Nat) : Field := ⟨0x281080 + 0x100 * n + 4 * k, 31, 0⟩
abbrev CPH_SLOT_CFG_owner (n : Nat) : Field := ⟨0x284000 + 8 * n, 31, 28⟩
abbrev CPH_SLOT_CFG_loaded (n : Nat) : Field := ⟨0x284000 + 8 * n, 27, 27⟩
abbrev CPH_SLOT_CFG_single (n : Nat) : Field := ⟨0x284000 + 8 * n, 24, 24⟩
abbrev CPH_SLOT_CFG_wrap (n : Nat) : Field := ⟨0x284000 + 8 * n, 23, 23⟩
abbrev CPH_SLOT_CFG_dec (n : Nat) : Field := ⟨0x284000 + 8 * n, 22, 22⟩
abbrev CPH_SLOT_CFG_enc (n : Nat) : Field := ⟨0x284000 + 8 * n, 21, 21⟩
abbrev CPH_SLOT_CFG_klen (n : Nat) : Field := ⟨0x284000 + 8 * n, 20, 20⟩
abbrev CPH_SLOT_CFG_modes (n : Nat) : Field := ⟨0x284000 + 8 * n, 6, 0⟩
abbrev CPH_SLOT_KCV_kcv (n : Nat) : Field := ⟨0x284004 + 8 * n, 23, 0⟩

/-! ### HIF -/

abbrev HIF_STATUS_num_vfs : Field := ⟨0x2C0000, 12, 8⟩
abbrev HIF_STATUS_vf_enable : Field := ⟨0x2C0000, 7, 7⟩
abbrev HIF_STATUS_width : Field := ⟨0x2C0000, 6, 4⟩
abbrev HIF_STATUS_speed : Field := ⟨0x2C0000, 3, 2⟩
abbrev HIF_STATUS_perst : Field := ⟨0x2C0000, 1, 1⟩
abbrev HIF_STATUS_link : Field := ⟨0x2C0000, 0, 0⟩
abbrev HIF_NSTATUS_flr (n : Nat) : Field := ⟨0x2C0010 + 4 * n, 3, 3⟩
abbrev HIF_NSTATUS_bme (n : Nat) : Field := ⟨0x2C0010 + 4 * n, 2, 2⟩
abbrev HIF_NSTATUS_pf_served (n : Nat) : Field := ⟨0x2C0010 + 4 * n, 1, 1⟩
abbrev HIF_NSTATUS_usable (n : Nat) : Field := ⟨0x2C0010 + 4 * n, 0, 0⟩
abbrev HIF_MBX_TX_word (n : Nat) : Field := ⟨0x2C0100 + 0x10 * n, 31, 0⟩
abbrev HIF_MBX_RX_word (n : Nat) : Field := ⟨0x2C0104 + 0x10 * n, 31, 0⟩
abbrev HIF_MBX_STAT_flush (n : Nat) : Field := ⟨0x2C0108 + 0x10 * n, 31, 31⟩
abbrev HIF_MBX_STAT_rx (n : Nat) : Field := ⟨0x2C0108 + 0x10 * n, 15, 8⟩
abbrev HIF_MBX_STAT_tx (n : Nat) : Field := ⟨0x2C0108 + 0x10 * n, 7, 0⟩
abbrev HIF_NPWR_veto (n : Nat) : Field := ⟨0x2C0200 + 4 * n, 31, 31⟩
abbrev HIF_NPWR_event (n : Nat) : Field := ⟨0x2C0200 + 4 * n, 3, 0⟩
abbrev HIF_NCNT_count (n : Nat) (k : Nat) : Field := ⟨0x2C0400 + 0x20 * n + 4 * k, 31, 0⟩
abbrev HIF_RING_CFG_en (n : Nat) (k : Nat) : Field := ⟨0x2C1000 + 0x1000 * n + 0x40 * k, 31, 31⟩
abbrev HIF_RING_CFG_kind (n : Nat) (k : Nat) : Field := ⟨0x2C1000 + 0x1000 * n + 0x40 * k, 30, 29⟩
abbrev HIF_RING_CFG_log2size (n : Nat) (k : Nat) : Field := ⟨0x2C1000 + 0x1000 * n + 0x40 * k, 23, 20⟩
abbrev HIF_RING_CFG_buf (n : Nat) (k : Nat) : Field := ⟨0x2C1000 + 0x1000 * n + 0x40 * k, 7, 0⟩
abbrev HIF_RING_DBASE_LO_addr (n : Nat) (k : Nat) : Field := ⟨0x2C1004 + 0x1000 * n + 0x40 * k, 31, 0⟩
abbrev HIF_RING_DBASE_HI_addr (n : Nat) (k : Nat) : Field := ⟨0x2C1008 + 0x1000 * n + 0x40 * k, 31, 0⟩
abbrev HIF_RING_CBASE_LO_addr (n : Nat) (k : Nat) : Field := ⟨0x2C100C + 0x1000 * n + 0x40 * k, 31, 0⟩
abbrev HIF_RING_CBASE_HI_addr (n : Nat) (k : Nat) : Field := ⟨0x2C1010 + 0x1000 * n + 0x40 * k, 31, 0⟩
abbrev HIF_RING_WB_LO_addr (n : Nat) (k : Nat) : Field := ⟨0x2C1014 + 0x1000 * n + 0x40 * k, 31, 0⟩
abbrev HIF_RING_WB_HI_addr (n : Nat) (k : Nat) : Field := ⟨0x2C1018 + 0x1000 * n + 0x40 * k, 31, 0⟩
abbrev HIF_RING_DB_p (n : Nat) (k : Nat) : Field := ⟨0x2C101C + 0x1000 * n + 0x40 * k, 31, 0⟩
abbrev HIF_RING_PROD_index (n : Nat) (k : Nat) : Field := ⟨0x2C1020 + 0x1000 * n + 0x40 * k, 31, 0⟩
abbrev HIF_RING_CONS_index (n : Nat) (k : Nat) : Field := ⟨0x2C1024 + 0x1000 * n + 0x40 * k, 31, 0⟩
abbrev HIF_RING_CPROD_index (n : Nat) (k : Nat) : Field := ⟨0x2C1028 + 0x1000 * n + 0x40 * k, 31, 0⟩
abbrev HIF_RING_STATUS_err (n : Nat) (k : Nat) : Field := ⟨0x2C102C + 0x1000 * n + 0x40 * k, 31, 31⟩
abbrev HIF_RING_STATUS_idle (n : Nat) (k : Nat) : Field := ⟨0x2C102C + 0x1000 * n + 0x40 * k, 30, 30⟩
abbrev HIF_RING_STATUS_code (n : Nat) (k : Nat) : Field := ⟨0x2C102C + 0x1000 * n + 0x40 * k, 15, 0⟩
abbrev HIF_RING_ITR_count (n : Nat) (k : Nat) : Field := ⟨0x2C1030 + 0x1000 * n + 0x40 * k, 31, 16⟩
abbrev HIF_RING_ITR_holdoff (n : Nat) (k : Nat) : Field := ⟨0x2C1030 + 0x1000 * n + 0x40 * k, 15, 0⟩

/-! ### SUP -/

abbrev SUP_CTRL_notify : Field := ⟨0x2E0000, 1, 1⟩
abbrev SUP_CTRL_en : Field := ⟨0x2E0000, 0, 0⟩
abbrev SUP_STATUS_tx_level : Field := ⟨0x2E0004, 31, 23⟩
abbrev SUP_STATUS_rx_level : Field := ⟨0x2E0004, 22, 14⟩
abbrev SUP_STATUS_boot : Field := ⟨0x2E0004, 13, 10⟩
abbrev SUP_STATUS_rx_ovf : Field := ⟨0x2E0004, 2, 2⟩
abbrev SUP_STATUS_ready : Field := ⟨0x2E0004, 1, 1⟩
abbrev SUP_STATUS_mode : Field := ⟨0x2E0004, 0, 0⟩
abbrev SUP_PERMIT_class : Field := ⟨0x2E0008, 4, 0⟩
abbrev SUP_PF_TX_word : Field := ⟨0x2E0010, 31, 0⟩
abbrev SUP_PF_RX_word : Field := ⟨0x2E0014, 31, 0⟩
abbrev SUP_PF_STAT_flush : Field := ⟨0x2E0018, 31, 31⟩
abbrev SUP_PF_STAT_rx : Field := ⟨0x2E0018, 15, 8⟩
abbrev SUP_PF_STAT_tx : Field := ⟨0x2E0018, 7, 0⟩
abbrev SUP_CNT_count (n : Nat) : Field := ⟨0x2E0040 + 4 * n, 31, 0⟩

/-! ### CRT -/

abbrev CRT_CFG_speed : Field := ⟨0x300000, 1, 0⟩
abbrev CRT_STATUS_wear : Field := ⟨0x300004, 7, 6⟩
abbrev CRT_STATUS_patched : Field := ⟨0x300004, 5, 5⟩
abbrev CRT_STATUS_stuck : Field := ⟨0x300004, 4, 4⟩
abbrev CRT_STATUS_accepted : Field := ⟨0x300004, 3, 3⟩
abbrev CRT_STATUS_present : Field := ⟨0x300004, 2, 2⟩
abbrev CRT_SERIAL_serial (n : Nat) : Field := ⟨0x300008 + 4 * n, 31, 0⟩
abbrev CRT_TEMP_temp : Field := ⟨0x300010, 15, 0⟩
abbrev CRT_LIFE_life : Field := ⟨0x300014, 31, 24⟩
abbrev CRT_LIFE_ins : Field := ⟨0x300014, 15, 0⟩
abbrev CRT_EQ_A_minutes : Field := ⟨0x300018, 31, 0⟩
abbrev CRT_EQ_B_minutes : Field := ⟨0x30001C, 31, 0⟩
abbrev CRT_ISSUER_STATE_valid : Field := ⟨0x300020, 1, 0⟩
abbrev CRT_RAW_go : Field := ⟨0x300024, 31, 31⟩
abbrev CRT_RAW_addr : Field := ⟨0x300024, 23, 16⟩
abbrev CRT_RAW_offset : Field := ⟨0x300024, 15, 0⟩
abbrev CRT_RAW_DATA_done : Field := ⟨0x300028, 8, 8⟩
abbrev CRT_RAW_DATA_data : Field := ⟨0x300028, 7, 0⟩
abbrev CRT_CNT_count (n : Nat) : Field := ⟨0x300040 + 4 * n, 31, 0⟩

/-! ### PWR -/

abbrev PWR_CTRL_notice : Field := ⟨0x340000, 15, 8⟩
abbrev PWR_CTRL_wake_mode : Field := ⟨0x340000, 0, 0⟩
abbrev PWR_STATUS_lp : Field := ⟨0x340004, 14, 14⟩
abbrev PWR_STATUS_allow : Field := ⟨0x340004, 13, 13⟩
abbrev PWR_STATUS_outage : Field := ⟨0x340004, 12, 12⟩
abbrev PWR_STATUS_target : Field := ⟨0x340004, 11, 9⟩
abbrev PWR_STATUS_entering : Field := ⟨0x340004, 8, 8⟩
abbrev PWR_STATUS_prev : Field := ⟨0x340004, 6, 4⟩
abbrev PWR_STATUS_mode : Field := ⟨0x340004, 2, 0⟩
abbrev PWR_CMD_gasp_clr : Field := ⟨0x340008, 9, 9⟩
abbrev PWR_CMD_gasp : Field := ⟨0x340008, 8, 8⟩
abbrev PWR_CMD_go : Field := ⟨0x340008, 3, 3⟩
abbrev PWR_CMD_target : Field := ⟨0x340008, 2, 0⟩
abbrev PWR_DOM_LO_on : Field := ⟨0x34000C, 31, 0⟩
abbrev PWR_DOM_HI_on : Field := ⟨0x340010, 23, 0⟩
abbrev PWR_MASK_LO_mask (n : Nat) : Field := ⟨0x340020 + 8 * n, 31, 0⟩
abbrev PWR_MASK_HI_mask (n : Nat) : Field := ⟨0x340024 + 8 * n, 23, 0⟩
abbrev PWR_OUTAGE_CFG_battery : Field := ⟨0x340040, 31, 31⟩
abbrev PWR_OUTAGE_CFG_filt : Field := ⟨0x340040, 30, 24⟩
abbrev PWR_OUTAGE_CFG_restore : Field := ⟨0x340040, 23, 16⟩
abbrev PWR_OUTAGE_CFG_step : Field := ⟨0x340040, 15, 8⟩
abbrev PWR_OUTAGE_CFG_delay : Field := ⟨0x340040, 7, 0⟩
abbrev PWR_GASP_act : Field := ⟨0x340044, 7, 0⟩
abbrev PWR_WAKE_EN_src : Field := ⟨0x340048, 6, 0⟩
abbrev PWR_WAKE_CAUSE_src : Field := ⟨0x34004C, 6, 0⟩
abbrev PWR_ALARM_s : Field := ⟨0x340050, 15, 0⟩
abbrev PWR_ALLOW_ms : Field := ⟨0x340054, 15, 0⟩
abbrev PWR_LAST_refuser : Field := ⟨0x340058, 31, 24⟩
abbrev PWR_LAST_target : Field := ⟨0x340058, 18, 16⟩
abbrev PWR_LAST_outcome : Field := ⟨0x340058, 13, 12⟩
abbrev PWR_LAST_wake : Field := ⟨0x340058, 6, 0⟩
abbrev PWR_REFUSE_MAP_niches : Field := ⟨0x34005C, 20, 5⟩
abbrev PWR_REFUSE_MAP_blocks : Field := ⟨0x34005C, 4, 0⟩
abbrev PWR_SHED_shed : Field := ⟨0x340060, 15, 0⟩
abbrev PWR_PLN_STATUS_bor_supply : Field := ⟨0x340064, 2, 2⟩
abbrev PWR_PLN_STATUS_bor_load : Field := ⟨0x340064, 1, 1⟩
abbrev PWR_PLN_STATUS_lp : Field := ⟨0x340064, 0, 0⟩
abbrev PWR_CNT_count (n : Nat) : Field := ⟨0x340100 + 4 * n, 31, 0⟩

/-! ### FLC -/

abbrev FLC_STATUS_open_cnt : Field := ⟨0x380000, 31, 19⟩
abbrev FLC_STATUS_susp_sector : Field := ⟨0x380000, 18, 6⟩
abbrev FLC_STATUS_held : Field := ⟨0x380000, 5, 5⟩
abbrev FLC_STATUS_suspended : Field := ⟨0x380000, 4, 4⟩
abbrev FLC_STATUS_op : Field := ⟨0x380000, 3, 2⟩
abbrev FLC_STATUS_op_bank : Field := ⟨0x380000, 1, 1⟩
abbrev FLC_STATUS_active_bank : Field := ⟨0x380000, 0, 0⟩
abbrev FLC_CFG_idle : Field := ⟨0x380004, 7, 0⟩
abbrev FLC_BOOT_reason : Field := ⟨0x380008, 31, 16⟩
abbrev FLC_BOOT_fallback : Field := ⟨0x380008, 2, 2⟩
abbrev FLC_BOOT_bank : Field := ⟨0x380008, 1, 1⟩
abbrev FLC_BOOT_state : Field := ⟨0x380008, 0, 0⟩
abbrev FLC_SSEL_sector : Field := ⟨0x38000C, 12, 0⟩
abbrev FLC_SSTATE_erasing : Field := ⟨0x380010, 1, 1⟩
abbrev FLC_SSTATE_open : Field := ⟨0x380010, 0, 0⟩
abbrev FLC_STALL_MAX_ns : Field := ⟨0x380014, 31, 0⟩
abbrev FLC_PORT_CMD_op (n : Nat) : Field := ⟨0x380100 + 0x40 * n, 2, 0⟩
abbrev FLC_PORT_ADDR_addr (n : Nat) : Field := ⟨0x380104 + 0x40 * n, 24, 0⟩
abbrev FLC_PORT_STAT_code (n : Nat) : Field := ⟨0x380108 + 0x40 * n, 31, 16⟩
abbrev FLC_PORT_STAT_busy (n : Nat) : Field := ⟨0x380108 + 0x40 * n, 0, 0⟩
abbrev FLC_PORT_RSTAT_ecc (n : Nat) : Field := ⟨0x38010C + 0x40 * n, 1, 1⟩
abbrev FLC_PORT_RSTAT_incomplete (n : Nat) : Field := ⟨0x38010C + 0x40 * n, 0, 0⟩
abbrev FLC_PORT_DATA_data (n : Nat) (k : Nat) : Field := ⟨0x380120 + 0x40 * n + 4 * k, 31, 0⟩
abbrev FLC_CNT_count (n : Nat) : Field := ⟨0x380200 + 4 * n, 31, 0⟩

/-! ### CST -/

abbrev CST_STATUS_code : Field := ⟨0x3A0000, 31, 16⟩
abbrev CST_STATUS_attempts : Field := ⟨0x3A0000, 11, 10⟩
abbrev CST_STATUS_early : Field := ⟨0x3A0000, 9, 9⟩
abbrev CST_STATUS_pair : Field := ⟨0x3A0000, 8, 8⟩
abbrev CST_STATUS_state : Field := ⟨0x3A0000, 3, 0⟩
abbrev CST_CFG_serve_req : Field := ⟨0x3A0004, 16, 16⟩
abbrev CST_CFG_settle : Field := ⟨0x3A0004, 15, 0⟩
abbrev CST_MGMT_prov : Field := ⟨0x3A0008, 16, 16⟩
abbrev CST_MGMT_valid : Field := ⟨0x3A0008, 10, 10⟩
abbrev CST_MGMT_ufid : Field := ⟨0x3A0008, 9, 0⟩
abbrev CST_AT_HI_at : Field := ⟨0x3A000C, 15, 0⟩
abbrev CST_AT_LO_at : Field := ⟨0x3A0010, 31, 0⟩
abbrev CST_RUNNING_serial : Field := ⟨0x3A0014, 31, 0⟩
abbrev CST_STAGED_serial : Field := ⟨0x3A0018, 31, 0⟩
abbrev CST_DIGEST_digest (n : Nat) : Field := ⟨0x3A0040 + 4 * n, 31, 0⟩
abbrev CST_PART_version (n : Nat) : Field := ⟨0x3A0080 + 4 * n, 31, 0⟩
abbrev CST_CNT_count (n : Nat) : Field := ⟨0x3A0100 + 4 * n, 31, 0⟩

/-! ### FLT -/

abbrev FLT_STATUS_fatal : Field := ⟨0x3C0000, 31, 31⟩
abbrev FLT_STATUS_up : Field := ⟨0x3C0000, 30, 30⟩
abbrev FLT_STATUS_dopen : Field := ⟨0x3C0000, 16, 16⟩
abbrev FLT_STATUS_nopen : Field := ⟨0x3C0000, 15, 0⟩
abbrev FLT_CAUSE_boot : Field := ⟨0x3C0004, 31, 16⟩
abbrev FLT_CAUSE_cause : Field := ⟨0x3C0004, 4, 0⟩
abbrev FLT_BOOT_CNT_count : Field := ⟨0x3C0008, 31, 0⟩
abbrev FLT_CMD_warm : Field := ⟨0x3C000C, 0, 0⟩
abbrev FLT_WDOG_timeout : Field := ⟨0x3C0010, 15, 0⟩
abbrev FLT_WDOG_KICK_kick : Field := ⟨0x3C0014, 31, 0⟩
abbrev FLT_BLK_RST_blk : Field := ⟨0x3C0018, 10, 0⟩
abbrev FLT_DLOG_WR_seq : Field := ⟨0x3C001C, 31, 0⟩
abbrev FLT_DACK_seq : Field := ⟨0x3C0020, 31, 0⟩
abbrev FLT_CAUSE_HIST_boot (n : Nat) : Field := ⟨0x3C0040 + 4 * n, 31, 16⟩
abbrev FLT_CAUSE_HIST_rest (n : Nat) : Field := ⟨0x3C0040 + 4 * n, 15, 5⟩
abbrev FLT_CAUSE_HIST_cause (n : Nat) : Field := ⟨0x3C0040 + 4 * n, 4, 0⟩
abbrev FLT_NSTAT_open (n : Nat) : Field := ⟨0x3C0100 + 0x10 * n, 31, 31⟩
abbrev FLT_NSTAT_resetting (n : Nat) : Field := ⟨0x3C0100 + 0x10 * n, 30, 30⟩
abbrev FLT_NSTAT_last_cause (n : Nat) : Field := ⟨0x3C0100 + 0x10 * n, 3, 0⟩
abbrev FLT_NLOG_WR_seq (n : Nat) : Field := ⟨0x3C0104 + 0x10 * n, 31, 0⟩
abbrev FLT_NACK_seq (n : Nat) : Field := ⟨0x3C0108 + 0x10 * n, 31, 0⟩
abbrev FLT_NCMD_reset (n : Nat) : Field := ⟨0x3C010C + 0x10 * n, 0, 0⟩
abbrev FLT_DLOG_REC_word (n : Nat) (k : Nat) : Field := ⟨0x3C1000 + 0x20 * n + 4 * k, 31, 0⟩
abbrev FLT_NLOG_REC_word (n : Nat) (k : Nat) (j : Nat) : Field := ⟨0x3C2000 + 0x400 * n + 0x20 * k + 4 * j, 31, 0⟩

/-- The rows of a block: base address, strides and counts of up to three indices, the write masks of the
access codes of Table 0.2, the bits that survive device warm reset (R10) and the reset word. -/
def rowsGLB : List RegRow :=
  [ ⟨0x0, [], 0x0, 0x0, 0x0, 0x0, 0x7E3D7400⟩
  , ⟨0x4, [], 0x0, 0x0, 0x0, 0x0, 0x201⟩
  , ⟨0x8, [], 0x0, 0x0, 0x0, 0x0, 0x7⟩
  , ⟨0xC, [], 0x0, 0x0, 0x0, 0x0, 0x4000⟩
  , ⟨0x10, [], 0x0, 0x0, 0x0, 0x0, 0x0⟩
  , ⟨0x14, [], 0x0, 0x3FF0000, 0x0, 0x0, 0x3FF⟩
  , ⟨0x18, [], 0x0, 0x0, 0x0, 0x0, 0x80000000⟩ ]

def rowsARM : List RegRow :=
  [ ⟨0x10000, [], 0x0, 0x0, 0x0, 0x0, 0x0⟩
  , ⟨0x10004, [], 0x0, 0x0, 0x0, 0x0, 0x0⟩
  , ⟨0x10008, [], 0x3FFFC, 0x0, 0x0, 0x0, 0x0⟩
  , ⟨0x1000C, [], 0x0, 0x0, 0x0, 0x0, 0x0⟩
  , ⟨0x10010, [], 0x0, 0x0, 0x0, 0x0, 0xFFFFFFFF⟩
  , ⟨0x10014, [], 0x0, 0x0, 0x0, 0x0, 0x0⟩
  , ⟨0x10018, [], 0x0, 0x0, 0x0, 0x0, 0x0⟩
  , ⟨0x1001C, [], 0x0, 0x0, 0x0, 0x0, 0x0⟩
  , ⟨0x10020, [], 0x0, 0x0, 0x0, 0x0, 0x0⟩
  , ⟨0x10024, [], 0x0, 0x0, 0x0, 0x0, 0x0⟩
  , ⟨0x10028, [], 0x0, 0x0, 0x0, 0x0, 0x0⟩
  , ⟨0x10040, [(4, 12)], 0x0, 0x0, 0x0, 0x0, 0x0⟩
  , ⟨0x10080, [(4, 12)], 0x0, 0x0, 0x0, 0x0, 0x0⟩
  , ⟨0x100C0, [(4, 7)], 0x0, 0x0, 0x0, 0x0, 0xFFFFFFFF⟩ ]

def rowsTICK : List RegRow :=
  [ ⟨0x20000, [], 0x1, 0x0, 0x0, 0x0, 0x0⟩
  , ⟨0x20004, [], 0x0, 0x0, 0x0, 0x0, 0x0⟩
  , ⟨0x20008, [], 0x0, 0x0, 0x0, 0x0, 0x0⟩
  , ⟨0x2000C, [], 0x0, 0x0, 0x0, 0x0, 0x0⟩
  , ⟨0x20010, [], 0x0, 0x0, 0x0, 0x0, 0x0⟩
  , ⟨0x20014, [], 0x0, 0x0, 0x0, 0x0, 0x0⟩
  , ⟨0x20018, [], 0x0, 0x0, 0x0, 0x0, 0x0⟩
  , ⟨0x2001C, [], 0x0, 0x0, 0x0, 0x0, 0x0⟩
  , ⟨0x20020, [], 0x0, 0x3FFF0FFF, 0x0, 0x0, 0x0⟩
  , ⟨0x20024, [], 0x0, 0x0, 0x0, 0x0, 0x0⟩
  , ⟨0x20100, [], 0x0, 0x0, 0x0, 0x0, 0xA0⟩
  , ⟨0x20104, [], 0x0, 0x0, 0x0, 0x0, 0x8C0⟩
  , ⟨0x20108, [], 0x0, 0x0, 0x0, 0x0, 0x640⟩
  , ⟨0x2010C, [], 0x0, 0x0, 0x0, 0x0, 0x640⟩
  , ⟨0x20110, [], 0x0, 0x0, 0x0, 0x0, 0x2558⟩
  , ⟨0x20114, [], 0x0, 0x0, 0x0, 0x0, 0x8C0⟩
  , ⟨0x20118, [], 0x0, 0x0, 0x0, 0x0, 0x2198⟩
  , ⟨0x2011C, [], 0x0, 0x0, 0x0, 0x0, 0xA28⟩
  , ⟨0x20120, [], 0x0, 0x0, 0x0, 0x0, 0xA28⟩
  , ⟨0x20124, [], 0x0, 0x0, 0x0, 0x0, 0x3E8⟩
  , ⟨0x20128, [], 0x0, 0x0, 0x0, 0x0, 0xA28⟩
  , ⟨0x2012C, [], 0x0, 0x0, 0x0, 0x0, 0x1E0⟩
  , ⟨0x20140, [(4, 12)], 0x0, 0x0, 0x0, 0x0, 0x0⟩ ]

def rowsDSL : List RegRow :=
  [ ⟨0x40000, [], 0x1, 0x0, 0x0, 0x0, 0x1⟩
  , ⟨0x40004, [], 0x0, 0x0, 0x0, 0x0, 0x0⟩
  , ⟨0x40008, [], 0xFFF, 0x0, 0x0, 0x0, 0x423⟩
  , ⟨0x4000C, [], 0x0, 0x0, 0x0, 0x0, 0x70001⟩
  , ⟨0x40010, [], 0x0, 0x3F, 0x0, 0x0, 0x0⟩
  , ⟨0x40014, [], 0xF0F, 0x0, 0x0, 0x0, 0x306⟩
  , ⟨0x40040, [(4, 20)], 0x0, 0x0, 0x0, 0x0, 0x0⟩
  , ⟨0x40100, [(4, 32)], 0x0, 0x0, 0x0, 0x0, 0x0⟩
  , ⟨0x40180, [], 0x3, 0x0, 0x0, 0x0, 0x0⟩
  , ⟨0x40184, [], 0xFFFF, 0x0, 0x0, 0x0, 0x7F80⟩
  , ⟨0x40188, [], 0x0, 0x0, 0x0, 0x0, 0x0⟩
  , ⟨0x4018C, [], 0x3FF, 0x0, 0x0, 0x0, 0x0⟩
  , ⟨0x40190, [], 0x3FF03FF, 0x0, 0x0, 0x0, 0x2BC0190⟩
  , ⟨0x40194, [], 0x0, 0x0, 0x0, 0x0, 0x0⟩
  , ⟨0x40198, [], 0x3FF, 0x0, 0x0, 0x0, 0x0⟩
  , ⟨0x41000, [(4, 1024)], 0xFFFFFF80, 0x0, 0x0, 0x0, 0x0⟩ ]

def rowsUSL : List RegRow :=
  [ ⟨0x60000, [], 0x3, 0x0, 0x0, 0x0, 0x1⟩
  , ⟨0x60004, [], 0x0, 0x0, 0x0, 0x0, 0x400⟩
  , ⟨0x60008, [], 0x0, 0x0, 0x0, 0x0, 0x0⟩
  , ⟨0x6000C, [], 0x0, 0x0, 0x0, 0x0, 0x1004⟩
  , ⟨0x60010, [], 0x0, 0x0, 0x0, 0x0, 0x0⟩
  , ⟨0x60040, [(8, 8)], 0x0, 0x0, 0x0, 0x0, 0x0⟩
  , ⟨0x60044, [(8, 8)], 0x0, 0x0, 0x0, 0x0, 0x0⟩
  , ⟨0x60080, [], 0xF, 0x0, 0x0, 0x0, 0x0⟩
  , ⟨0x60084, [(4, 4)], 0x3FF03FF, 0x0, 0x0, 0x0, 0x3200000⟩
  , ⟨0x60094, [(4, 4)], 0x0, 0x0, 0x0, 0x0, 0x0⟩
  , ⟨0x600A4, [(4, 4)], 0x3FF, 0x0, 0x0, 0x0, 0x0⟩
  , ⟨0x60100, [(4, 64)], 0xFFF8000, 0x0, 0x0, 0x0, 0x0⟩
  , ⟨0x60200, [(4, 14)], 0x0, 0x0, 0x0, 0x0, 0x0⟩
  , ⟨0x60300, [(4, 64)], 0x0, 0x0, 0x0, 0x0, 0x0⟩
  , ⟨0x61000, [(4, 1024)], 0xFFFFFFFF, 0x0, 0x0, 0x0, 0x0⟩ ]

def rowsACT : List RegRow :=
  [ ⟨0x80000, [], 0x3, 0x0, 0x0, 0x0, 0x3⟩
  , ⟨0x80004, [], 0x0, 0x0, 0x0, 0x0, 0x0⟩
  , ⟨0x80008, [], 0x0, 0x0, 0x0, 0x0, 0x0⟩
  , ⟨0x8000C, [], 0x0, 0x0, 0x0, 0x0, 0x0⟩
  , ⟨0x80010, [], 0xFF, 0x0, 0x0, 0x0, 0x32⟩
  , ⟨0x80014, [], 0xFFFFFF01, 0x0, 0x0, 0xFFFFFF01, 0x0⟩
  , ⟨0x80020, [(4, 2)], 0x0, 0x0, 0x0, 0x0, 0x0⟩
  , ⟨0x80028, [], 0x0, 0x0, 0x0, 0x0, 0x0⟩
  , ⟨0x80030, [], 0xFFFFFFFF, 0x0, 0x0, 0x0, 0x140500⟩
  , ⟨0x80034, [], 0xFFFFFFFF, 0x0, 0x0, 0x0, 0x23F0⟩
  , ⟨0x80038, [], 0xFFFFFFFF, 0x0, 0x0, 0x0, 0x4ABADC⟩
  , ⟨0x8003C, [], 0xFFFF, 0x0, 0x0, 0x0, 0x7D0⟩
  , ⟨0x80040, [], 0x0, 0x0, 0x0, 0x0, 0x0⟩
  , ⟨0x80044, [], 0x0, 0x0, 0x0, 0x0, 0x0⟩
  , ⟨0x80048, [], 0x0, 0x0, 0x0, 0x0, 0x0⟩
  , ⟨0x8004C, [], 0x0, 0x0, 0x0, 0x0, 0xFFFF0000⟩
  , ⟨0x80080, [(4, 14)], 0x0, 0x0, 0x0, 0x0, 0x0⟩ ]

def rowsPND : List RegRow :=
  [ ⟨0xA0000, [], 0x3, 0x0, 0x0, 0x0, 0x0⟩
  , ⟨0xA0004, [], 0x0, 0x0, 0x0, 0x0, 0x0⟩
  , ⟨0xA0008, [], 0x0, 0x0, 0x0, 0x0, 0x0⟩
  , ⟨0xA000C, [(4, 2)], 0x0, 0x0, 0x0, 0x0, 0x0⟩
  , ⟨0xA0014, [], 0x0, 0x0, 0x0, 0x0, 0x0⟩
  , ⟨0xA0018, [], 0x0, 0x0, 0x0, 0x0, 0x0⟩
  , ⟨0xA0040, [(4, 14)], 0x0, 0x0, 0x0, 0x0, 0x0⟩
  , ⟨0xA0100, [(4, 32)], 0xFFFFFFFF, 0x0, 0x0, 0x0, 0x0⟩
  , ⟨0xA1000, [(4, 256)], 0xE7FF03FF, 0x0, 0x0, 0x0, 0x0⟩ ]

def rowsCEL : List RegRow :=
  [ ⟨0xC0000, [], 0x1, 0x0, 0x0, 0x0, 0x1⟩
  , ⟨0xC0004, [], 0x7FFFF, 0x0, 0x0, 0x0, 0x1000⟩
  , ⟨0xC0008, [(4, 6)], 0x0, 0x0, 0x0, 0x0, 0x0⟩
  , ⟨0xC0020, [], 0x0, 0x0, 0x0, 0x0, 0x0⟩
  , ⟨0xC0024, [], 0x0, 0x0, 0x0, 0x0, 0x0⟩
  , ⟨0xC0028, [], 0x0, 0x0, 0x0, 0x0, 0x0⟩
  , ⟨0xC002C, [], 0x0, 0x0, 0x0, 0x0, 0x0⟩
  , ⟨0xC0030, [], 0x7FFFF, 0x0, 0x0, 0x0, 0x0⟩
  , ⟨0xC0034, [], 0x0, 0x0, 0x0, 0x0, 0x0⟩
  , ⟨0xC0038, [], 0x0, 0x0, 0x0, 0x0, 0x0⟩
  , ⟨0xC1000, [(0x40, 16)], 0x0, 0x0, 0x0, 0x0, 0x0⟩
  , ⟨0xC1004, [(0x40, 16)], 0x0, 0x0, 0x0, 0x0, 0x0⟩
  , ⟨0xC1008, [(0x40, 16)], 0x0, 0x0, 0x0, 0x0, 0x0⟩
  , ⟨0xC100C, [(0x40, 16)], 0x0, 0x0, 0x0, 0x0, 0x0⟩
  , ⟨0xC1010, [(0x40, 16), (4, 12)], 0x0, 0x0, 0x0, 0x0, 0x0⟩
  , ⟨0xC2000, [(0x20, 64)], 0x0, 0x0, 0x0, 0x0, 0x0⟩
  , ⟨0xC2004, [(0x20, 64)], 0x0, 0x0, 0x0, 0x0, 0x0⟩
  , ⟨0xC2008, [(0x20, 64)], 0x0, 0x0, 0x0, 0x0, 0x0⟩
  , ⟨0xC200C, [(0x20, 64)], 0x0, 0x0, 0x0, 0x0, 0x0⟩
  , ⟨0xC2010, [(0x20, 64)], 0x0, 0x0, 0x0, 0x0, 0x0⟩
  , ⟨0xC2014, [(0x20, 64)], 0x0, 0x0, 0x0, 0x0, 0x0⟩
  , ⟨0xC2018, [(0x20, 64)], 0x0, 0x0, 0x0, 0x0, 0x0⟩
  , ⟨0xC8000, [(4, 2048)], 0x7FFFF, 0x0, 0x0, 0x0, 0x0⟩
  , ⟨0xCA000, [(4, 2048)], 0x0, 0x0, 0x0, 0x0, 0x0⟩
  , ⟨0xCC000, [(4, 2048)], 0x0, 0x0, 0x0, 0x0, 0x0⟩ ]

def rowsETH : List RegRow :=
  [ ⟨0x100000, [(0x4000, 6)], 0xFF, 0x0, 0x0, 0x0, 0xD⟩
  , ⟨0x100004, [(0x4000, 6)], 0x0, 0x0, 0x0, 0x0, 0x0⟩
  , ⟨0x100008, [(0x4000, 6)], 0xFFFF7FFF, 0x0, 0x0, 0x0, 0x5EE05F2⟩
  , ⟨0x10000C, [(0x4000, 6)], 0xFFFFFFFF, 0x0, 0x0, 0x0, 0x0⟩
  , ⟨0x100010, [(0x4000, 6)], 0xFFFFFFFF, 0x0, 0x0, 0x0, 0x0⟩
  , ⟨0x100014, [(0x4000, 6)], 0xFF, 0x0, 0x0, 0x0, 0x0⟩
  , ⟨0x100020, [(0x4000, 6), (4, 8)], 0xFFFFFF, 0x0, 0x0, 0x0, 0x0⟩
  , ⟨0x100040, [(0x4000, 6), (4, 8)], 0x0, 0x0, 0x0, 0x0, 0x0⟩
  , ⟨0x100080, [(0x4000, 6)], 0x1FF, 0x0, 0x0, 0x0, 0x0⟩
  , ⟨0x100084, [(0x4000, 6)], 0x0, 0x8, 0x0, 0x0, 0x0⟩
  , ⟨0x100100, [(0x4000, 6), (0x20, 8)], 0xFFFFFF, 0x0, 0x0, 0x0, 0x0⟩
  , ⟨0x100104, [(0x4000, 6), (0x20, 8), (4, 4)], 0xFFFFFFFF, 0x0, 0x0, 0x0, 0x0⟩
  , ⟨0x100200, [(0x4000, 6), (4, 24)], 0x0, 0x0, 0x0, 0x0, 0x0⟩ ]

def rowsCLS : List RegRow :=
  [ ⟨0x140200, [(0x20, 7)], 0x1F, 0x0, 0x0, 0x0, 0x0⟩
  , ⟨0x140204, [(0x20, 7), (4, 4)], 0x801FFFFF, 0x0, 0x0, 0x0, 0x0⟩
  , ⟨0x140400, [(0x40, 32)], 0x3FFFF, 0x0, 0x0, 0x0, 0x0⟩
  , ⟨0x140404, [(0x40, 32), (4, 2)], 0xFFFFFFFF, 0x0, 0x0, 0x0, 0x0⟩
  , ⟨0x14040C, [(0x40, 32), (4, 2)], 0xFFFFFFFF, 0x0, 0x0, 0x0, 0x0⟩
  , ⟨0x140414, [(0x40, 32), (4, 8)], 0x7FFF, 0x0, 0x0, 0x0, 0x0⟩
  , ⟨0x140C00, [(8, 64), (4, 2)], 0xFFFFFFFF, 0x0, 0x0, 0x0, 0x0⟩
  , ⟨0x141000, [(0x400, 17)], 0x1F07FF, 0x0, 0x0, 0x0, 0x0⟩
  , ⟨0x141004, [(0x400, 17)], 0xFFFFFF, 0x0, 0x0, 0x0, 0x0⟩
  , ⟨0x141008, [(0x400, 17)], 0x0, 0x0, 0x0, 0x0, 0x0⟩
  , ⟨0x14100C, [(0x400, 17)], 0xC00FFFFF, 0x0, 0x0, 0x0, 0x0⟩
  , ⟨0x141010, [(0x400, 17)], 0x0, 0x0, 0x0, 0x0, 0x0⟩
  , ⟨0x141014, [(0x400, 17)], 0x0, 0x0, 0x0, 0x0, 0x0⟩
  , ⟨0x141040, [(0x400, 17), (4, 16)], 0xFFFFFFFF, 0x0, 0x0, 0x0, 0x0⟩
  , ⟨0x141080, [(0x400, 17), (8, 4), (4, 2)], 0xFFFFF, 0x0, 0x0, 0x0, 0x0⟩
  , ⟨0x1410A0, [(0x400, 17)], 0xF, 0x0, 0x0, 0x0, 0x0⟩
  , ⟨0x141100, [(0x400, 17), (4, 12)], 0x0, 0x0, 0x0, 0x0, 0x0⟩
  , ⟨0x148000, [(0x10, 256)], 0xFFFFFF, 0x0, 0x0, 0x0, 0x0⟩
  , ⟨0x148004, [(0x10, 256)], 0xFFFFFF, 0x0, 0x0, 0x0, 0x600⟩
  , ⟨0x148008, [(0x10, 256), (4, 2)], 0x0, 0x0, 0x0, 0x0, 0x0⟩ ]

def rowsTDM : List RegRow :=
  [ ⟨0x180000, [], 0x0, 0x0, 0x0, 0x0, 0x0⟩
  , ⟨0x180004, [], 0x0, 0x0, 0x0, 0x0, 0x0⟩
  , ⟨0x180100, [(0x80, 12)], 0xF1F, 0x0, 0x0, 0x0, 0xF0113⟩
  , ⟨0x180104, [(0x80, 12)], 0x0, 0x0, 0x0, 0x0, 0x0⟩
  , ⟨0x180108, [(0x80, 12)], 0x0, 0x3F, 0x0, 0x0, 0x0⟩
  , ⟨0x180110, [(0x80, 12), (4, 16)], 0x0, 0x0, 0x0, 0x0, 0x0⟩
  , ⟨0x180800, [(0x10, 12)], 0x8F1FFFFF, 0x0, 0x0, 0x0, 0x40000⟩
  , ⟨0x180804, [(0x10, 12)], 0x0, 0x0, 0x0, 0x0, 0x0⟩
  , ⟨0x181000, [(0x40, 48)], 0xFFEFFFFF, 0x0, 0x0, 0x0, 0x0⟩
  , ⟨0x181004, [(0x40, 48)], 0x0, 0x0, 0x0, 0x0, 0x0⟩
  , ⟨0x181010, [(0x40, 48), (4, 8)], 0x0, 0x0, 0x0, 0x0, 0x0⟩
  , ⟨0x182000, [(4, 48)], 0x800FFFFF, 0x0, 0x0, 0x0, 0x0⟩
  , ⟨0x182100, [(8, 48), (4, 2)], 0x0, 0x0, 0x0, 0x0, 0x0⟩ ]

def rowsTIM : List RegRow :=
  [ ⟨0x1C0000, [], 0xF1, 0x0, 0x0, 0x0, 0xF1⟩
  , ⟨0x1C0004, [], 0x0, 0x0, 0x0, 0x0, 0x0⟩
  , ⟨0x1C0008, [], 0x0, 0x0, 0x0, 0x0, 0x0⟩
  , ⟨0x1C0014, [], 0x0, 0x0, 0x0, 0x0, 0x0⟩
  , ⟨0x1C0018, [], 0x0, 0x0, 0x0, 0x0, 0x0⟩
  , ⟨0x1C001C, [], 0x0, 0x0, 0x0, 0x0, 0x0⟩
  , ⟨0x1C0020, [(0xc, 4)], 0x0, 0x0, 0x0, 0x0, 0x0⟩
  , ⟨0x1C0024, [(0xc, 4)], 0x0, 0x0, 0x0, 0x0, 0x0⟩
  , ⟨0x1C0028, [(0xc, 4)], 0x0, 0x0, 0x0, 0x0, 0x0⟩
  , ⟨0x1C0100, [(0x40, 4)], 0xFFFFFFFF, 0x0, 0x0, 0x0, 0x0⟩
  , ⟨0x1C0104, [(0x40, 4)], 0xFFFF, 0x0, 0x0, 0x0, 0x0⟩
  , ⟨0x1C0108, [(0x40, 4)], 0x3FFFFFFF, 0x0, 0x0, 0x0, 0x0⟩
  , ⟨0x1C010C, [(0x40, 4)], 0xFFFF, 0x0, 0x0, 0x0, 0x0⟩
  , ⟨0x1C0110, [(0x40, 4)], 0xFFFFFFFF, 0x0, 0x0, 0x0, 0x0⟩
  , ⟨0x1C0114, [(0x40, 4)], 0xFF, 0x0, 0x0, 0x0, 0x0⟩
  , ⟨0x1C0118, [(0x40, 4)], 0xFFFFFFFF, 0x0, 0x0, 0x0, 0x0⟩
  , ⟨0x1C011C, [(0x40, 4)], 0xFFFF, 0x0, 0x0, 0x0, 0x0⟩
  , ⟨0x1C0120, [(0x40, 4)], 0x0, 0x0, 0x0, 0x0, 0x0⟩
  , ⟨0x1C0200, [], 0x0, 0x0, 0x0, 0x0, 0x0⟩
  , ⟨0x1C0204, [], 0x0, 0x0, 0x0, 0x0, 0x0⟩
  , ⟨0x1C0208, [], 0x0, 0x0, 0x0, 0x0, 0x0⟩
  , ⟨0x1C020C, [], 0x0, 0x0, 0x0, 0x0, 0x0⟩
  , ⟨0x1C0210, [], 0x0, 0x0, 0x0, 0x0, 0x0⟩
  , ⟨0x1C0214, [], 0x0, 0x0, 0x0, 0x0, 0x0⟩
  , ⟨0x1C0280, [(8, 2)], 0xFFFFFFFF, 0x0, 0x0, 0x0, 0xFA143640⟩
  , ⟨0x1C0284, [(8, 2)], 0xFFFF, 0x0, 0x0, 0x0, 0xC8⟩
  , ⟨0x1C0300, [], 0xFFFFFFFF, 0x0, 0x0, 0x0, 0x8012C⟩
  , ⟨0x1C0310, [(4, 6)], 0x0, 0x0, 0x0, 0x0, 0x0⟩
  , ⟨0x1C0400, [(0x20, 6)], 0x60000000, 0x80000000, 0x0, 0x0, 0x0⟩
  , ⟨0x1C0404, [(0x20, 6), (4, 6)], 0x0, 0x0, 0x0, 0x0, 0x0⟩
  , ⟨0x1C0500, [(0x20, 4)], 0x3F, 0x0, 0x0, 0x0, 0x0⟩
  , ⟨0x1C0504, [(0x20, 4)], 0x60000000, 0x80000000, 0x0, 0x0, 0x0⟩
  , ⟨0x1C0508, [(0x20, 4), (4, 6)], 0x0, 0x0, 0x0, 0x0, 0x0⟩
  , ⟨0x1C0600, [(0x40, 4)], 0xFF00007F, 0x0, 0x0, 0x0, 0x0⟩
  , ⟨0x1C0604, [(0x40, 4)], 0xFFFFFFFF, 0x0, 0x0, 0x0, 0x0⟩
  , ⟨0x1C0608, [(0x40, 4)], 0xFFFF, 0x0, 0x0, 0x0, 0x0⟩
  , ⟨0x1C060C, [(0x40, 4)], 0x3FFFFFFF, 0x0, 0x0, 0x0, 0x0⟩
  , ⟨0x1C0610, [(0x40, 4)], 0xFFFFFFFF, 0x0, 0x0, 0x0, 0x0⟩
  , ⟨0x1C0614, [(0x40, 4)], 0xFF, 0x0, 0x0, 0x0, 0x0⟩
  , ⟨0x1C0618, [(0x40, 4)], 0xFFFFFFFF, 0x0, 0x0, 0x0, 0x0⟩
  , ⟨0x1C061C, [(0x40, 4)], 0xFFFFFFFF, 0x0, 0x0, 0x0, 0x0⟩
  , ⟨0x1C0620, [(0x40, 4)], 0x0, 0x0, 0x0, 0x0, 0x0⟩
  , ⟨0x1C0624, [(0x40, 4)], 0x0, 0x2, 0x0, 0x0, 0x0⟩
  , ⟨0x1C0700, [], 0x3, 0x0, 0x0, 0x0, 0x0⟩
  , ⟨0x1C0704, [], 0x0, 0x0, 0x0, 0x0, 0x0⟩
  , ⟨0x1C0708, [], 0x0, 0x0, 0x0, 0x0, 0x0⟩
  , ⟨0x1C0710, [], 0x3FFFF, 0x0, 0x0, 0x0, 0x0⟩
  , ⟨0x1C0714, [], 0x1FFFF, 0x0, 0x0, 0x0, 0x0⟩
  , ⟨0x1C0718, [], 0x3FFFFFFF, 0x0, 0x0, 0x0, 0x0⟩
  , ⟨0x1C071C, [], 0x0, 0x0, 0x0, 0x0, 0x0⟩
  , ⟨0x1C0720, [], 0x0, 0x0, 0x0, 0x0, 0x0⟩
  , ⟨0x1C0724, [], 0x0, 0x0, 0x0, 0x0, 0x0⟩
  , ⟨0x1C0800, [(4, 8)], 0x0, 0x0, 0x0, 0x0, 0x0⟩
  , ⟨0x1C0900, [], 0xFFF, 0x0, 0x0, 0x0, 0x0⟩
  , ⟨0x1C0904, [], 0x0, 0x0, 0x0, 0x0, 0x0⟩
  , ⟨0x1C0908, [], 0x0, 0x0, 0x0, 0x0, 0xAAAA⟩
  , ⟨0x1C0A00, [(0x20, 8)], 0xFFFFFFFF, 0x0, 0x0, 0x0, 0x5DC32280⟩
  , ⟨0x1C0A04, [(0x20, 8)], 0x60000000, 0x80000000, 0x0, 0x0, 0x0⟩
  , ⟨0x1C0A08, [(0x20, 8), (4, 6)], 0x0, 0x0, 0x0, 0x0, 0x0⟩
  , ⟨0x1C0B00, [(0x10, 4)], 0x10F, 0x0, 0x0, 0x0, 0x3⟩
  , ⟨0x1C0B04, [(0x10, 4)], 0x1, 0x0, 0x0, 0x0, 0x0⟩
  , ⟨0x1C0B08, [(0x10, 4)], 0x0, 0x0, 0x0, 0x0, 0x0⟩ ]

def rowsMSH : List RegRow :=
  [ ⟨0x200000, [], 0xF, 0x0, 0x0, 0x0, 0xA⟩
  , ⟨0x200004, [], 0x0, 0x0, 0x0, 0x0, 0x0⟩
  , ⟨0x200008, [], 0x1, 0x0, 0x0, 0x0, 0x0⟩
  , ⟨0x20000C, [], 0xFFFF, 0x0, 0x0, 0x0, 0x2710⟩
  , ⟨0x200010, [], 0xFFFFFFFF, 0x0, 0x0, 0x0, 0x96149C4C⟩
  , ⟨0x200014, [], 0xFFF, 0x0, 0x0, 0x0, 0x351⟩
  , ⟨0x200018, [], 0xFFFF, 0x0, 0x0, 0x0, 0x3C⟩
  , ⟨0x20001C, [], 0x1FFFF, 0x0, 0x0, 0x0, 0x40⟩
  , ⟨0x200020, [], 0x3FFFFFF, 0x0, 0x0, 0x0, 0x64⟩
  , ⟨0x200024, [], 0xFFFFFFFF, 0x0, 0x0, 0x0, 0xFFFF0000⟩
  , ⟨0x200028, [], 0xFFFFFFFF, 0x0, 0x0, 0x0, 0x0⟩
  , ⟨0x20002C, [], 0xFF, 0x0, 0x0, 0x0, 0x0⟩
  , ⟨0x200030, [], 0x0, 0x0, 0x0, 0x0, 0x0⟩
  , ⟨0x200034, [], 0x0, 0x0, 0x0, 0x0, 0x0⟩
  , ⟨0x200038, [], 0xFFFFFFFF, 0x0, 0x0, 0xFFFFFFFF, 0x0⟩
  , ⟨0x20003C, [], 0xFF, 0x0, 0x0, 0xFF, 0x0⟩
  , ⟨0x200040, [], 0x1FF, 0x0, 0x0, 0x0, 0xA⟩
  , ⟨0x200044, [], 0xFFFF, 0x0, 0x0, 0x0, 0xD888⟩
  , ⟨0x200048, [], 0x0, 0x0, 0x0, 0x0, 0xB5⟩
  , ⟨0x20004C, [], 0xFF, 0x0, 0x0, 0x0, 0x0⟩
  , ⟨0x200050, [], 0xFFFF, 0x0, 0x0, 0x0, 0x3C⟩
  , ⟨0x200054, [], 0x7F, 0x0, 0x0, 0x0, 0x10⟩
  , ⟨0x200060, [(4, 5)], 0xFFFFFFFF, 0x0, 0x0, 0x0, 0x0⟩
  , ⟨0x200080, [(4, 4)], 0x800003FF, 0x0, 0x0, 0x0, 0x65⟩
  , ⟨0x200100, [(4, 16)], 0xFFFFFFFF, 0x0, 0x0, 0x0, 0x0⟩
  , ⟨0x200200, [(4, 129)], 0x0, 0x0, 0x0, 0x0, 0x0⟩
  , ⟨0x200600, [(4, 32)], 0x800000FF, 0x0, 0x0, 0x0, 0x0⟩
  , ⟨0x200800, [(4, 20)], 0x0, 0x0, 0x0, 0x0, 0x0⟩
  , ⟨0x201000, [(4, 1024)], 0xFFFFFFFF, 0x0, 0x0, 0x0, 0x0⟩
  , ⟨0x204000, [(0x10, 512)], 0xE0F0FFFF, 0x0, 0x0, 0x0, 0xFFFF⟩
  , ⟨0x204004, [(0x10, 512), (4, 2)], 0xFFFFFFFF, 0x0, 0x0, 0x0, 0x0⟩
  , ⟨0x20400C, [(0x10, 512)], 0x0, 0x0, 0x0, 0x0, 0xFFFF⟩ ]

def rowsFIO : List RegRow :=
  [ ⟨0x240000, [], 0x0, 0x0, 0x0, 0x0, 0x1⟩
  , ⟨0x240100, [(0x20, 8)], 0xFFFFFFFF, 0x0, 0x0, 0x0, 0x4000064⟩
  , ⟨0x240104, [(0x20, 8)], 0xFFFFFFFF, 0x0, 0x0, 0x0, 0x1388FF38⟩
  , ⟨0x240108, [(0x20, 8)], 0xFFFFFFFF, 0x0, 0x0, 0x0, 0xA000000⟩
  , ⟨0x24010C, [(0x20, 8)], 0x0, 0x0, 0x0, 0x0, 0x0⟩
  , ⟨0x240110, [(0x20, 8)], 0x0, 0x0, 0x0, 0x0, 0x0⟩
  , ⟨0x240114, [(0x20, 8)], 0x0, 0x0, 0x0, 0x0, 0x0⟩
  , ⟨0x240200, [(4, 2)], 0x7F, 0x0, 0x0, 0x0, 0xA⟩
  , ⟨0x240208, [], 0x1FF003F, 0x0, 0x0, 0x0, 0xA0019⟩
  , ⟨0x240300, [(0x20, 2)], 0xFFFC0000, 0x0, 0x0, 0x0, 0x0⟩
  , ⟨0x240304, [(0x20, 2)], 0x7FFF, 0x0, 0x0, 0x0, 0xE10⟩
  , ⟨0x240308, [(0x20, 2)], 0xFFFFFFFF, 0x0, 0x0, 0x0, 0x0⟩
  , ⟨0x24030C, [(0x20, 2)], 0xFFFFFFFF, 0x0, 0x0, 0x0, 0x0⟩
  , ⟨0x240310, [(0x20, 2)], 0x0, 0x0, 0x0, 0x0, 0x0⟩
  , ⟨0x240400, [], 0x3, 0x0, 0x0, 0x0, 0x0⟩
  , ⟨0x240404, [], 0x0, 0x0, 0x0, 0x0, 0x0⟩
  , ⟨0x240408, [], 0x33F, 0x0, 0x0, 0x0, 0x0⟩
  , ⟨0x240500, [(8, 32)], 0xFFFFFFFF, 0x0, 0x0, 0x0, 0x0⟩
  , ⟨0x240504, [(8, 32)], 0xFFFFFFFF, 0x0, 0x0, 0x0, 0x0⟩
  , ⟨0x240600, [(4, 6)], 0x0, 0x0, 0x0, 0x0, 0x0⟩ ]

def rowsCPH : List RegRow :=
  [ ⟨0x280000, [], 0x3, 0x0, 0x0, 0x0, 0x1⟩
  , ⟨0x280004, [], 0x0, 0x0, 0x0, 0x0, 0x0⟩
  , ⟨0x280008, [], 0x0, 0x3F, 0x0, 0x0, 0x0⟩
  , ⟨0x28000C, [], 0x0, 0x0, 0x0, 0x0, 0x0⟩
  , ⟨0x280010, [], 0x0, 0x0, 0x0, 0x0, 0x0⟩
  , ⟨0x280014, [], 0xFFFFFF, 0x0, 0x0, 0x0, 0x0⟩
  , ⟨0x280020, [(4, 8)], 0x0, 0x0, 0x0, 0x0, 0x0⟩
  , ⟨0x280040, [(4, 8)], 0x0, 0x0, 0x0, 0x0, 0x0⟩
  , ⟨0x281000, [(0x100, 17)], 0x8000003F, 0x0, 0x0, 0x0, 0x0⟩
  , ⟨0x281004, [(0x100, 17)], 0x0, 0x0, 0x0, 0x0, 0x0⟩
  , ⟨0x281008, [(0x100, 17)], 0x0, 0x0, 0x0, 0x0, 0x0⟩
  , ⟨0x281020, [(0x100, 17), (4, 10)], 0x0, 0x0, 0x0, 0x0, 0x0⟩
  , ⟨0x281080, [(0x100, 17), (4, 8)], 0x0, 0x0, 0x0, 0x0, 0x0⟩
  , ⟨0x284000, [(8, 256)], 0x1F0007F, 0x0, 0x0, 0x0, 0xF0100000⟩
  , ⟨0x284004, [(8, 256)], 0x0, 0x0, 0x0, 0x0, 0x0⟩ ]

def rowsHIF : List RegRow :=
  [ ⟨0x2C0000, [], 0x0, 0x0, 0x0, 0x0, 0x0⟩
  , ⟨0x2C0010, [(4, 16)], 0x0, 0x0, 0x0, 0x0, 0x0⟩
  , ⟨0x2C0100, [(0x10, 16)], 0x0, 0x0, 0x0, 0x0, 0x0⟩
  , ⟨0x2C0104, [(0x10, 16)], 0x0, 0x0, 0x0, 0x0, 0x0⟩
  , ⟨0x2C0108, [(0x10, 16)], 0x0, 0x0, 0x0, 0x0, 0x0⟩
  , ⟨0x2C0200, [(4, 16)], 0x80000000, 0x0, 0x0, 0x0, 0x0⟩
  , ⟨0x2C0400, [(0x20, 16), (4, 6)], 0x0, 0x0, 0x0, 0x0, 0x0⟩
  , ⟨0x2C1000, [(0x1000, 16), (0x40, 64)], 0xE0F000FF, 0x0, 0x0, 0x0, 0x0⟩
  , ⟨0x2C1004, [(0x1000, 16), (0x40, 64)], 0xFFFFFFFF, 0x0, 0x0, 0x0, 0x0⟩
  , ⟨0x2C1008, [(0x1000, 16), (0x40, 64)], 0xFFFFFFFF, 0x0, 0x0, 0x0, 0x0⟩
  , ⟨0x2C100C, [(0x1000, 16), (0x40, 64)], 0xFFFFFFFF, 0x0, 0x0, 0x0, 0x0⟩
  , ⟨0x2C1010, [(0x1000, 16), (0x40, 64)], 0xFFFFFFFF, 0x0, 0x0, 0x0, 0x0⟩
  , ⟨0x2C1014, [(0x1000, 16), (0x40, 64)], 0xFFFFFFFF, 0x0, 0x0, 0x0, 0x0⟩
  , ⟨0x2C1018, [(0x1000, 16), (0x40, 64)], 0xFFFFFFFF, 0x0, 0x0, 0x0, 0x0⟩
  , ⟨0x2C101C, [(0x1000, 16), (0x40, 64)], 0x0, 0x0, 0x0, 0x0, 0x0⟩
  , ⟨0x2C1020, [(0x1000, 16), (0x40, 64)], 0x0, 0x0, 0x0, 0x0, 0x0⟩
  , ⟨0x2C1024, [(0x1000, 16), (0x40, 64)], 0x0, 0x0, 0x0, 0x0, 0x0⟩
  , ⟨0x2C1028, [(0x1000, 16), (0x40, 64)], 0x0, 0x0, 0x0, 0x0, 0x0⟩
  , ⟨0x2C102C, [(0x1000, 16), (0x40, 64)], 0x0, 0x0, 0x0, 0x0, 0x40000000⟩
  , ⟨0x2C1030, [(0x1000, 16), (0x40, 64)], 0xFFFFFFFF, 0x0, 0x0, 0x0, 0x10000⟩ ]

def rowsSUP : List RegRow :=
  [ ⟨0x2E0000, [], 0x3, 0x0, 0x0, 0x0, 0x1⟩
  , ⟨0x2E0004, [], 0x0, 0x4, 0x0, 0x0, 0x0⟩
  , ⟨0x2E0008, [], 0x0, 0x1F, 0x0, 0x0, 0x1F⟩
  , ⟨0x2E0010, [], 0x0, 0x0, 0x0, 0x0, 0x0⟩
  , ⟨0x2E0014, [], 0x0, 0x0, 0x0, 0x0, 0x0⟩
  , ⟨0x2E0018, [], 0x0, 0x0, 0x0, 0x0, 0x0⟩
  , ⟨0x2E0040, [(4, 8)], 0x0, 0x0, 0x0, 0x0, 0x0⟩ ]

def rowsCRT : List RegRow :=
  [ ⟨0x300000, [], 0x3, 0x0, 0x0, 0x0, 0x1⟩
  , ⟨0x300004, [], 0x0, 0x0, 0x0, 0x0, 0x0⟩
  , ⟨0x300008, [(4, 2)], 0x0, 0x0, 0x0, 0x0, 0x0⟩
  , ⟨0x300010, [], 0x0, 0x0, 0x0, 0x0, 0x0⟩
  , ⟨0x300014, [], 0x0, 0x0, 0x0, 0x0, 0x0⟩
  , ⟨0x300018, [], 0x0, 0x0, 0x0, 0x0, 0x0⟩
  , ⟨0x30001C, [], 0x0, 0x0, 0x0, 0x0, 0x0⟩
  , ⟨0x300020, [], 0x0, 0x0, 0x0, 0x0, 0x3⟩
  , ⟨0x300024, [], 0xFFFFFF, 0x0, 0x0, 0x0, 0x0⟩
  , ⟨0x300028, [], 0x0, 0x0, 0x0, 0x0, 0x0⟩
  , ⟨0x300040, [(4, 6)], 0x0, 0x0, 0x0, 0x0, 0x0⟩ ]

def rowsPWR : List RegRow :=
  [ ⟨0x340000, [], 0xFF01, 0x0, 0x0, 0x0, 0x800⟩
  , ⟨0x340004, [], 0x0, 0x0, 0x0, 0x0, 0x0⟩
  , ⟨0x340008, [], 0x0, 0x0, 0x0, 0x0, 0x0⟩
  , ⟨0x34000C, [], 0x0, 0x0, 0x0, 0x0, 0x0⟩
  , ⟨0x340010, [], 0x0, 0x0, 0x0, 0x0, 0x0⟩
  , ⟨0x340020, [], 0xFFFFFFFF, 0x0, 0x0, 0x0, 0xFDFE03C0⟩
  , ⟨0x340028, [], 0xFFFFFFFF, 0x0, 0x0, 0x0, 0xFDFE03C0⟩
  , ⟨0x340030, [], 0xFFFFFFFF, 0x0, 0x0, 0x0, 0xFDFE03C0⟩
  , ⟨0x340038, [], 0xFFFFFFFF, 0x0, 0x0, 0x0, 0x64000000⟩
  , ⟨0x340024, [], 0xFFFFFF, 0x0, 0x0, 0x0, 0x400020⟩
  , ⟨0x34002C, [], 0xFFFFFF, 0x0, 0x0, 0x0, 0x20⟩
  , ⟨0x340034, [], 0xFFFFFF, 0x0, 0x0, 0x0, 0x20⟩
  , ⟨0x34003C, [], 0xFFFFFF, 0x0, 0x0, 0x0, 0x0⟩
  , ⟨0x340040, [], 0xFFFFFFFF, 0x0, 0x0, 0x0, 0x141E3C0A⟩
  , ⟨0x340044, [], 0xFF, 0x0, 0x0, 0x0, 0xA⟩
  , ⟨0x340048, [], 0x7F, 0x0, 0x0, 0x0, 0x3⟩
  , ⟨0x34004C, [], 0x0, 0x7F, 0x0, 0x0, 0x0⟩
  , ⟨0x340050, [], 0xFFFF, 0x0, 0x0, 0x0, 0x0⟩
  , ⟨0x340054, [], 0x0, 0x0, 0x0, 0x0, 0x0⟩
  , ⟨0x340058, [], 0x0, 0x0, 0x0, 0x0, 0x0⟩
  , ⟨0x34005C, [], 0x0, 0x0, 0x0, 0x0, 0x0⟩
  , ⟨0x340060, [], 0x0, 0x0, 0x0, 0x0, 0x0⟩
  , ⟨0x340064, [], 0x0, 0x6, 0x0, 0x0, 0x0⟩
  , ⟨0x340100, [(4, 26)], 0x0, 0x0, 0x0, 0x0, 0x0⟩ ]

def rowsFLC : List RegRow :=
  [ ⟨0x380000, [], 0x0, 0x0, 0x0, 0x0, 0x0⟩
  , ⟨0x380004, [], 0xFF, 0x0, 0x0, 0x0, 0x14⟩
  , ⟨0x380008, [], 0x0, 0x0, 0x0, 0x0, 0x1⟩
  , ⟨0x38000C, [], 0x1FFF, 0x0, 0x0, 0x0, 0x0⟩
  , ⟨0x380010, [], 0x0, 0x0, 0x0, 0x0, 0x0⟩
  , ⟨0x380014, [], 0x0, 0xFFFFFFFF, 0x0, 0x0, 0x0⟩
  , ⟨0x380100, [(0x40, 3)], 0x0, 0x0, 0x0, 0x0, 0x0⟩
  , ⟨0x380104, [(0x40, 3)], 0x1FFFFFF, 0x0, 0x0, 0x0, 0x0⟩
  , ⟨0x380108, [(0x40, 3)], 0x0, 0x0, 0x0, 0x0, 0x0⟩
  , ⟨0x38010C, [(0x40, 3)], 0x0, 0x3, 0x0, 0x0, 0x0⟩
  , ⟨0x380120, [(0x40, 3), (4, 8)], 0xFFFFFFFF, 0x0, 0x0, 0x0, 0x0⟩
  , ⟨0x380200, [(4, 8)], 0x0, 0x0, 0x0, 0x0, 0x0⟩ ]

def rowsCST : List RegRow :=
  [ ⟨0x3A0000, [], 0x0, 0x0, 0x0, 0x0, 0x0⟩
  , ⟨0x3A0004, [], 0x1FFFF, 0x0, 0x0, 0x0, 0x10078⟩
  , ⟨0x3A0008, [], 0x107FF, 0x0, 0x0, 0x0, 0x10000⟩
  , ⟨0x3A000C, [], 0x0, 0x0, 0x0, 0x0, 0x0⟩
  , ⟨0x3A0010, [], 0x0, 0x0, 0x0, 0x0, 0x0⟩
  , ⟨0x3A0014, [], 0x0, 0x0, 0x0, 0x0, 0x0⟩
  , ⟨0x3A0018, [], 0x0, 0x0, 0x0, 0x0, 0x0⟩
  , ⟨0x3A0040, [(4, 12)], 0x0, 0x0, 0x0, 0x0, 0x0⟩
  , ⟨0x3A0080, [(4, 32)], 0x0, 0x0, 0x0, 0x0, 0x0⟩
  , ⟨0x3A0100, [(4, 7)], 0x0, 0x0, 0x0, 0x0, 0x0⟩ ]

def rowsFLT : List RegRow :=
  [ ⟨0x3C0000, [], 0x0, 0x0, 0x0, 0x0, 0x0⟩
  , ⟨0x3C0004, [], 0xFFFF001F, 0x0, 0x0, 0xFFFF001F, 0x0⟩
  , ⟨0x3C0008, [], 0x0, 0x0, 0x0, 0x0, 0x0⟩
  , ⟨0x3C000C, [], 0x0, 0x0, 0x0, 0x0, 0x0⟩
  , ⟨0x3C0010, [], 0xFFFF, 0x0, 0x0, 0x0, 0x3E8⟩
  , ⟨0x3C0014, [], 0x0, 0x0, 0x0, 0x0, 0x0⟩
  , ⟨0x3C0018, [], 0x0, 0x0, 0x7FF, 0x0, 0x0⟩
  , ⟨0x3C001C, [], 0xFFFFFFFF, 0x0, 0x0, 0xFFFFFFFF, 0x0⟩
  , ⟨0x3C0020, [], 0x0, 0x0, 0x0, 0x0, 0x0⟩
  , ⟨0x3C0040, [(4, 8)], 0xFFFFFFFF, 0x0, 0x0, 0xFFFFFFFF, 0x0⟩
  , ⟨0x3C0100, [(0x10, 16)], 0x0, 0x0, 0x0, 0x0, 0x0⟩
  , ⟨0x3C0104, [(0x10, 16)], 0x0, 0x0, 0x0, 0x0, 0x0⟩
  , ⟨0x3C0108, [(0x10, 16)], 0x0, 0x0, 0x0, 0x0, 0x0⟩
  , ⟨0x3C010C, [(0x10, 16)], 0x0, 0x0, 0x0, 0x0, 0x0⟩
  , ⟨0x3C1000, [(0x20, 64), (4, 8)], 0x0, 0x0, 0x0, 0x0, 0x0⟩
  , ⟨0x3C2000, [(0x400, 16), (0x20, 32), (4, 8)], 0x0, 0x0, 0x0, 0x0, 0x0⟩ ]

/-- Rows of the block whose base range of Table 25.1 holds address a. -/
def rowsAt (a : Nat) : List RegRow :=
  if a < 0x10000 then rowsGLB else
  if a < 0x20000 then rowsARM else
  if a < 0x40000 then rowsTICK else
  if a < 0x60000 then rowsDSL else
  if a < 0x80000 then rowsUSL else
  if a < 0xA0000 then rowsACT else
  if a < 0xC0000 then rowsPND else
  if a < 0x100000 then rowsCEL else
  if a < 0x140000 then rowsETH else
  if a < 0x180000 then rowsCLS else
  if a < 0x1C0000 then rowsTDM else
  if a < 0x200000 then rowsTIM else
  if a < 0x240000 then rowsMSH else
  if a < 0x280000 then rowsFIO else
  if a < 0x2C0000 then rowsCPH else
  if a < 0x2E0000 then rowsHIF else
  if a < 0x300000 then rowsSUP else
  if a < 0x340000 then rowsCRT else
  if a < 0x380000 then rowsPWR else
  if a < 0x3A0000 then rowsFLC else
  if a < 0x3C0000 then rowsCST else
  if a < 0x400000 then rowsFLT else []

/-- The register row that address a belongs to, if a chapter assigns one. -/
def rowOf (a : Nat) : Option RegRow := (rowsAt a).find? (fun r => rowHit r a)

/-- Reset value of the register at address a (Reset columns, R10); 0 where no register is assigned. -/
def resetWord (a : Nat) : Word :=
  match rowOf a with
  | some r => r.reset
  | none => 0

end Sys2Proof.Machine
end

