-- ==== Sys2Proof/Machine/BaseTypes.lean ====
section
/-!
DEFINITION. The plain data that more than one block of the terminal works with: fault records and logs
(spec/22_faults_and_resets.md), the tick engine (spec/02), the PCI Express functions (spec/16), what the
terminal sends out, and the parts fixed at manufacture.
-/

namespace Sys2Proof.Machine

/-- Fuses of the part: the variant (Table 0.1), the serial number (R155) and the valid issuer keys
(CRT_ISSUER_STATE) (assumption 13, DESIGN CHOICE). -/
structure Fuses where
  is7401 : Bool
  serial : BitVec 64
  issuers : BitVec 2
  deriving DecidableEq, Repr

/-- The bits of a transmitted TDM frame outside its channels (R283): none in an unframed one, timeslot 0 of E1, the F bit of T1, or
the yellow bit and the N field of a C37.94 header. -/
inductive TdmHead where
  | unframed
  | ts0 (b : Byte)
  | fbit (b : Bool)
  | c37 (yellow : Bool) (n : Nat)
  deriving DecidableEq, Repr

/-- What the terminal sends out of the block. The trace is the model's own record of it (assumption 4, DESIGN CHOICE). -/
inductive Emit where
  /-- MSI-X message of vector vec of function fn (0 the PF, v the VF v). -/
  | msix (fn vec : Nat)
  /-- Posted write by function fn into host memory. -/
  | dmaWrite (fn addr : Nat) (data : List Byte)
  /-- Completion of a register access: status 0 or DENIED, and the data returned. -/
  | completion (source : Nat) (status : Nat) (data : Word)
  /-- An upstream burst on the line: colour, upstream frame, its start bit on the line's bit count (R117), the preamble and
  delimiter sent immediately before that bit (Table 5.1), and the scrambled bytes from it on. -/
  | burst (colour frame start : Nat) (lead bytes : List Byte)
  /-- An Ethernet frame with its frame check sequence on port p. -/
  | ethFrame (port : Nat) (bytes : List Byte)
  /-- An Ethernet frame cut short, with an inverted frame check sequence (R226). -/
  | ethAbort (port : Nat)
  /-- An attempt that ended in a collision: its preamble whole, the bits that followed the SFD, and a 32-bit jam (R253). -/
  | ethJam (port bits : Nat)
  /-- A link frame on the Pendant link (R179, Table 7.2): the sync header of each of its blocks and the block's eight scrambled
  octets. -/
  | pendant (blocks : List (BitVec 2 × List Byte))
  /-- One frame that TDM port t transmits: its framing, and the channel bytes that follow it. -/
  | tdmFrame (port : Nat) (head : TdmHead) (bytes : List Byte)
  /-- A frame on the field radio: channel, ASN, kind (0 Enhanced Beacon, 1 Data, 2 Enhanced Acknowledgement), neighbour,
  Frame Pending, time correction in µs, security level and key index, MAC payload before it is secured. -/
  | radio (channel asn kind node : Nat) (pending : Bool) (correction : Int) (level kid : Nat) (payload : List Byte)
  /-- A TOUT ball driven to a level, its edge delay ps before this instant (R329). -/
  | tout (k : Nat) (level : Bool) (delay : Int)
  /-- An IRIG-B frame of 100 symbols (0, 1, and 2 for a position marker) that starts on TOUT k. -/
  | irig (k : Nat) (symbols : List Nat)
  /-- The current of loop j in 0.1 µA. -/
  | loop (j : Nat) (current : Int)
  /-- DOUT k switched on or off. -/
  | dout (k : Nat) (on : Bool)
  /-- A PTP message on port p. -/
  | ptp (port : Nat) (bytes : List Byte)
  /-- A write on the cartridge bus: target, register or offset, data. -/
  | bus (target reg : Nat) (data : List Byte)
  /-- A recovery of the cartridge bus: so many SCL pulses, then a STOP (R463). -/
  | scl (pulses : Nat)
  /-- Words that a mailbox source or the supervisor port hands out. -/
  | word (source : Nat) (w : Word)
  deriving DecidableEq, Repr

/-- One 32-byte fault record (Table 22.4). -/
structure LogRec where
  code : Nat
  niche : Nat
  cls : Nat
  nested : Bool
  escalated : Bool
  seq : Nat
  link : Nat
  fc : Nat
  ts : Nat
  count : Nat
  data : Nat
  deriving DecidableEq, Repr

/-- A fault log: its newest records first, the seq of the next record (FLT_DLOG_WR, FLT_NLOG_WRn), and the
seqs of its open records, oldest first (R543 to R545). -/
structure FaultLog where
  recs : List LogRec
  next : Nat
  opened : List Nat
  deriving DecidableEq, Repr

/-- A rate-limited condition of the present multiframe (R542): its log (16 the device log, n the log of
niche n), code, niche field, kind (conditions that share a code and are counted apart), occurrences so far and data. -/
structure LimRec where
  log : Nat
  code : Nat
  niche : Nat
  kind : Nat
  count : Nat
  data : Nat
  deriving DecidableEq, Repr

/-- Where the terminal stands between reset and service (R536 to R540, R514). -/
inductive Phase where
  /-- A cold or device warm reset holds every domain but PD00 (R536). -/
  | held
  /-- The reset is released and the boot ROM has yet to run (R514). -/
  | boot
  /-- The firmware is starting the running set (bring-up). -/
  | bringUp
  /-- FLT_STATUS.up is set. -/
  | up
  deriving DecidableEq, Repr

/-- Resets, the watchdog and the logs (spec/22). -/
structure FltState where
  phase : Phase
  fatal : Bool
  devLog : FaultLog
  nicheLogs : List FaultLog
  limited : List LimRec
  /-- PF vector 0 is owed at the end of bring-up (R550). -/
  deferred : Bool
  /-- Instant of the last reset trigger. -/
  resetAt : Nat
  /-- RST_N low. -/
  rstLow : Bool
  /-- TEST_EN at a level other than low. -/
  testEn : Bool
  /-- SUP_MODE is sampled at the next rise of RST_N (R566). -/
  strapDue : Bool
  /-- A trip of the plinth brown-out awaits its BOR record (R493). -/
  borDue : Bool
  /-- Instant at which the watchdog was last restarted, and the timeout in force since then. -/
  wdogAt : Nat
  wdogMs : Nat
  /-- Blocks whose block reset is requested for the next tick edge, and those in progress (R549). -/
  blkPending : BitVec 11
  blkActive : BitVec 11
  /-- Latch fed by VDD_PLINTH: FLT_BOOT_CNT, bor_load and bor_supply. -/
  bootCount : BitVec 32
  borLoad : Bool
  borSupply : Bool
  deriving DecidableEq, Repr

/-- The tick engine beyond its registers (spec/02). -/
structure TickState where
  /-- Frame counter of the present tick (R28). -/
  fc : Nat
  /-- Tick edges since reset; the model's own count. -/
  edges : Nat
  /-- Cycles of the present tick (R39). -/
  len : Nat
  /-- Cycles by which a slew changes each tick (R40): -1, 0 or 1. -/
  slew : Int
  /-- Frequency measurements of XO_IN in locked ticks, newest first, at most 8,208 (R30). -/
  meas : List Int
  /-- force_hold as taken at the last tick edge (R45). -/
  forced : Bool
  /-- hwm_clr waits for the next edge (R35). -/
  hwmClr : Bool
  /-- XO_IN shows no transition (R47). -/
  xoLost : Bool
  /-- Phases of the present tick: number, and the tick cycle at which its work ends. -/
  phaseEnd : List (Nat × Nat)
  /-- Instant of the present tick's edge on the timebase (the edge stamp of phase EDGE). -/
  stamp : Nat
  deriving DecidableEq, Repr

/-- One PCI Express function: Bus Master Enable, MSI-X Enable, Function Mask and its pending bits. -/
structure FnState where
  bme : Bool
  msix : Bool
  mask : Bool
  pba : BitVec 68
  deriving DecidableEq, Repr

/-- What holds a niche in reset after its reset has completed (R558). -/
inductive Hold where
  | shed
  | sleep
  | recarve
  deriving DecidableEq, Repr

/-- Niche reset of one niche (R225 to R227, R546, R558): in progress, its first request, and the holds. -/
structure NicheReset where
  active : Bool
  /-- Instant and tick of the request. -/
  at_ : Nat
  tick : Nat
  /-- The queues have been released (R226). -/
  flushed : Bool
  /-- NRESET_SLOW has been taken for this request. -/
  slow : Bool
  holds : List Hold
  deriving DecidableEq, Repr

end Sys2Proof.Machine
end

