-- ==== Sys2Proof/Machine/DslTypes.lean ====
section
/-!
DEFINITION. The downstream line beyond its registers, as plain data (spec/04_downstream_frames.md).
-/

namespace Sys2Proof.Machine

/-- Reassembly of flow n (R91 to R94): the SDU in progress by its id, the frame of its first fragment,
the broken mark, and whether fragments are discarded up to the next last one. -/
structure Flow where
  flow : Nat
  sdu : Option Nat
  first : Nat
  broken : Bool
  skip : Bool
  deriving DecidableEq, Repr

/-- Key state of one pair (R99 to R103): the pending switch (frame, new parity), the parity that an implicit
switch waits to make current, and the old parity with the frame F its retirement runs from. -/
structure KeyPair where
  pending : Option (Nat × Nat)
  implicit : Option Nat
  old : Option (Nat × Nat)
  deriving DecidableEq, Repr

/-- A completed SDU that waits for its destination (R91): its id and the DSL_FIDn index it came on. -/
structure ReadySdu where
  sdu : Nat
  flow : Nat
  deriving DecidableEq, Repr

/-- A line message as PHASE_MAP released it to the activation block (R86, R87). -/
structure LineMsg where
  bytes : List Byte
  deriving DecidableEq, Repr

/-- A grant entry as PHASE_MAP released it to the upstream block (Table 4.4, R85). -/
structure MapGrant where
  aid : Nat
  start : Nat
  size : Nat
  report : Bool
  longLead : Bool
  colour : Nat
  fec : Bool
  msgOk : Bool
  cls : Nat
  ranging : Bool
  deriving DecidableEq, Repr

/-- What the FEC decoder reports of one frame (R75, R77): codewords corrected, bits corrected from 0 to 1 and
from 1 to 0, and codewords uncorrectable. -/
structure FecCount where
  words : Nat
  rose : Nat
  fell : Nat
  bad : Nat
  deriving DecidableEq, Repr

/-- The downstream line. -/
structure DslState where
  /-- Data bytes of the present frame (R74), empty before the first one, and its uncorrectable codewords (R77). -/
  data : List Byte
  marked : List Nat
  /-- Data byte at which the next fragment of the frame begins, once the first has been looked for (R88), and its index (R90). -/
  pos : Option Nat
  index : Nat
  /-- The position of a marker has been reported since the last tick edge (R81, R581). -/
  mark : Bool
  /-- Matches in PRESYNC, or misses in SYNC, one after another. -/
  run : Nat
  /-- The valid counter block that the next one is paired with in CNT_HUNT (R584). -/
  held : Option Nat
  /-- Counter of the last frame received, as adopted or predicted. -/
  count : Nat
  /-- Candidate of a counter jump (R584). -/
  cand : Option Nat
  /-- Uncorrectable counter blocks one after another in CNT_SYNC. -/
  uncor : Nat
  /-- Corrected bits and uncorrectable codewords of the multiframe window, corrected bits of the key-epoch
  window (R104), and whether each window is to be evaluated. -/
  sfBits : Nat
  sfUncor : Nat
  sdBits : Nat
  sfValid : Bool
  sdValid : Bool
  /-- Clean multiframe windows one after another (Table 4.7, SF exit). -/
  sfClean : Nat
  /-- Corrected 0 to 1 and 1 to 0 bits of the multiframe (threshold loop). -/
  rose : Nat
  fell : Nat
  /-- The parsing of the present frame has ended (R83, R89). -/
  ended : Bool
  flows : List Flow
  pairs : List KeyPair
  /-- DSL_FIDn and USL_FIDn writes accepted since the last tick edge (R113): index and word. -/
  fidWrites : List (Nat × Word)
  ufidWrites : List (Nat × Word)
  /-- Completed SDUs on their way to their destination. -/
  ready : List ReadySdu
  /-- Grants and messages released by PHASE_MAP in the present tick, and its quiet bit. -/
  grants : List MapGrant
  msgs : List LineMsg
  quiet : Bool
  /-- Loops and sides whose LOOP_PINNED is logged until the loop leaves the bound (R107): 2 × loop + side. -/
  pinned : List Nat
  deriving DecidableEq, Repr

end Sys2Proof.Machine
end

