-- ==== Sys2Proof/Machine/ActTypes.lean ====
section
/-!
DEFINITION. Activation beyond its registers, as plain data (spec/06_activation_and_twin_colour_ranging.md).
-/

namespace Sys2Proof.Machine

/-- A message that activation remembers (R154): address class (0 directed, 1 0xFE, 2 0xFF), type, sequence
number, frame of arrival, and the ACK it was answered with (result, code). -/
structure Heard where
  cls : Nat
  type : Nat
  seq : Nat
  frame : Nat
  ack : Option (Nat × Nat)
  /-- Copies of the same frame that were heard before the command was answered: each gets its own ACK (R155). -/
  copies : Nat := 0
  deriving DecidableEq, Repr

/-- An upstream message in the queue: its 48 bytes without their check sequence being computed again, its
type and sequence number. -/
structure UpMsg where
  type : Nat
  seq : Nat
  bytes : List Byte
  deriving DecidableEq, Repr

/-- An upstream message held for its downstream ACK (R156): sends so far, frame of the last send, and for a
KEY_REPORT whether it waits for the next key epoch (R171). -/
structure HeldMsg where
  msg : UpMsg
  sends : Nat
  last : Nat
  dormant : Bool
  deriving DecidableEq, Repr

/-- A RANGE_SET of a measurement set (R174): set number, colour, rtt, wavelength, instant, and whether no one cartridge has been
accepted throughout since. -/
structure RangeHalf where
  set : Nat
  colour : Nat
  rtt : Nat
  lamD : Nat
  at_ : Nat
  other : Bool
  deriving DecidableEq, Repr

/-- An accepted twin-colour result (R176). -/
structure TwinResult where
  set : Nat
  len : Nat
  asym : Int
  dDown : Int
  /-- The line has been lost since (R23). -/
  stale : Bool
  deriving DecidableEq, Repr

/-- Activation. -/
structure ActState where
  /-- Sequence counter of the upstream messages (R156). -/
  seq : Nat
  /-- The upstream queue in order of arrival, and the messages held. -/
  queue : List UpMsg
  held : List HeldMsg
  heard : List Heard
  /-- Messages of the present tick that passed the duplicate filter and await their command. -/
  inbox : List (List Byte)
  /-- Deadlines of T1 to T4. -/
  t1 : Option Nat
  t2 : Option Nat
  t3 : Option Nat
  t4 : Option Nat
  /-- State to which SILENCE op 0 returns (R166). -/
  prior : Nat
  /-- KEY_REPORT halves of slot 0 acknowledged since entry to Ranged (Table 6.4). -/
  acked : BitVec 2
  half : Option RangeHalf
  twin : Option TwinResult
  /-- Instant of the last accepted result; none where there is none. -/
  twinAt : Option Nat
  /-- A result has been accepted since the line was last acquired (R23). -/
  traceTwin : Bool
  /-- The state at the start of phase ACT of a tick, by which the messages of that tick's frame are judged (R152): the tick and
  the state. -/
  judged : Option (Nat × Nat)
  deriving DecidableEq, Repr

end Sys2Proof.Machine
end

