-- ==== Sys2Proof/Machine/ArmTypes.lean ====
section
/-!
DEFINITION. The structure that an Armature image carves, as plain data (spec/03_armature_images.md,
Tables 3.3 to 3.5), and the image work in progress.
-/

namespace Sys2Proof.Machine

/-- An entry of a QUEUES TLV: first QID, count, role (0 host rings, 1 allocation classes, 2 Ethernet egress,
3 mesh indirect) and, for role 2, the port. -/
structure QueueGroup where
  first : Nat
  count : Nat
  role : Nat
  port : Nat
  deriving DecidableEq, Repr

/-- The TLVs of one niche (Table 3.5). -/
structure NicheSec where
  vf : Bool
  veto : Bool
  policers : Nat
  cellMin : Nat
  cellMax : Nat
  clsBlocks : Nat
  queues : List QueueGroup
  /-- Allocation index and first QID of its class group. -/
  allocs : List (Nat × Nat)
  /-- First key slot and count. -/
  keys : List (Nat × Nat)
  eth : Nat
  trib : Nat
  c37 : Nat
  tout : Nat
  tin : Nat
  ptp : Nat
  circuits : Nat
  members : Nat
  nodes : Nat
  children : Nat
  ain : Nat
  exc : Nat
  loops : Nat
  txm : Nat
  din : Nat
  dout : Nat
  profiles : Nat
  deriving DecidableEq, Repr

/-- The energy record of one analog channel: mV, µA, mW, µA. -/
structure EnergyChan where
  uo : Nat
  io : Nat
  po : Nat
  exc : Nat
  deriving DecidableEq, Repr

/-- The device section of a full image (Table 3.4). -/
structure DevSec where
  niches : Nat
  ranks : List Nat
  eth : List Nat
  tribEn : Nat
  tribT1 : Nat
  c37 : Nat
  tout : Nat
  tin : Nat
  band : Nat
  slotframes : Nat
  budget : List Nat
  energy : List EnergyChan
  portPo : Nat
  loopEn : Nat
  deriving DecidableEq, Repr

/-- One trust slot: enrolled digest and whether it is revoked (R53). -/
structure TrustSlot where
  digest : Option (List Byte)
  revoked : Bool
  deriving DecidableEq, Repr

/-- Which command the checks in progress serve. -/
inductive ArmCmd where
  | check
  | accept
  | recarve
  deriving DecidableEq, Repr

/-- Checks or a digest comparison in progress: the command, and whether it is the digest comparison of R62. The
staged bytes cannot change meanwhile (R69). -/
structure ArmJob where
  cmd : ArmCmd
  compare : Bool
  deriving DecidableEq, Repr

/-- A structure with its phase costs and what it came from. -/
structure Structure where
  dev : DevSec
  /-- Niche sections by niche number. -/
  secs : List (Nat × NicheSec)
  costs : List Nat
  deriving DecidableEq, Repr

/-- A passed full image that waits for its tick edge (R61). -/
structure ReadyImage where
  struct_ : Structure
  serial : Nat
  epoch : Nat
  digest : List Byte
  devBytes : List Byte
  deriving DecidableEq, Repr

/-- A passed re-carve that waits for R66: the niche, the merged structure, and whether its own niche reset
request has been made (R71). -/
structure ReadyCarve where
  niche : Nat
  struct_ : Structure
  requested : Bool
  deriving DecidableEq, Repr

/-- The Armature block beyond its registers. -/
structure ArmState where
  /-- Staging buffer by word offset; words not listed are 0. -/
  staging : List (Nat × Word)
  /-- Staged words that were copied from flash with incomplete or ecc set (Table 3.8, order 1). -/
  badWords : List Nat
  /-- Flash: trust slots and the epoch floor, which persist through every reset. -/
  trust : List TrustSlot
  floor : Nat
  job : Option ArmJob
  ready : Option ReadyImage
  carve : Option ReadyCarve
  /-- The structure in force, once an image is accepted. -/
  accepted : Option Structure
  /-- Bytes of the accepted image's device section (BASE, Table 3.4). -/
  devBytes : List Byte
  deriving DecidableEq, Repr

end Sys2Proof.Machine
end

