-- ==== Sys2Proof/Machine/CelTypes.lean ====
section
/-!
DEFINITION. Cells, service data units and queues as plain data (spec/08_niches_cells_and_the_caliper.md),
the PCI Express rings (spec/16) and the mailbox (spec/17).
-/

namespace Sys2Proof.Machine

/-- Where a whole SDU of the line or of a Pendant record goes on to: delivery of downstream flow f (R91), the window of guard flow
n (R201), or the destination of DSL_FIDn entry f (R195). -/
inductive Onward where
  | line (f : Nat)
  | copy (n f : Nat)
  | dest (f : Nat)
  deriving DecidableEq, Repr

/-- One service data unit: its owner (the niche charged for its cells), its place (queued on a QID, or in
flight), the cells it fills and what travels with it (Tables 8.2, 10.2, 16.6, 16.7). -/
structure Sdu where
  id : Nat
  owner : Nat
  data : List Byte
  /-- The QID it is queued on; none while it is in flight (R212). -/
  queue : Option Nat := none
  /-- The QID it is directed to while it is being written. -/
  dest : Option Nat := none
  cells : List Nat := []
  /-- Source of Table 10.1. -/
  source : Nat := 0
  /-- Timebase stamp of its first bit (R256), where it has one: nanoseconds and 2⁻¹⁶ fractions. -/
  stamp : Option (Nat × Nat) := none
  trunc : Bool := false
  ais : Bool := false
  /-- Flow tag and slow-path reason of the classifier result. -/
  flow : Nat := 0
  slow : Nat := 0
  /-- Key metadata bytes 0 to 3 (Table 10.2), most significant byte first. -/
  keyMeta : Nat := 0
  tsReq : Bool := false
  tsId : Nat := 0
  /-- Mesh word of the transmit descriptor (Table 16.7). -/
  mesh : Nat := 0
  /-- Bytes that earlier cuts have taken (R122). -/
  taken : Nat := 0
  /-- The PF owns it, though its cells are charged to N0 (R343). -/
  pf : Bool := false
  /-- Its last byte has arrived, and where it goes on to once the cells that it waits for are granted (R218, R219). -/
  onward : Option Onward := none
  deriving DecidableEq, Repr

/-- An SDU whose writing source waits for cells (R215, R218): its id, the cells it still needs and the
instant the wait began. -/
structure CellWait where
  id : Nat
  need : Nat
  since : Nat
  deriving DecidableEq, Repr

/-- A run of scrub-pending cells: first cell, count, and the niche that released them (R213, R227). -/
structure ScrubRun where
  first : Nat
  count : Nat
  niche : Nat
  deriving DecidableEq, Repr

/-- One packet-memory quadrant (R216, R217, R479). -/
structure Quadrant where
  draining : Bool
  parked : Bool
  deriving DecidableEq, Repr

/-- A failing balance as the Caliper last saw it (R234): kind, index, direction, delta. -/
structure Breach where
  kind : Nat
  index : Nat
  dir : Nat
  delta : Int
  deriving DecidableEq, Repr

/-- A refused cross-niche request on its way to DENIED (R222): the niche, the function or mailbox source
that sent it, the target and the instant of arrival. -/
structure DeniedReq where
  niche : Nat
  source : Nat
  target : Nat
  arrived : Nat
  deriving DecidableEq, Repr

/-- Cells, queues and the Caliper (spec/08). -/
structure CelState where
  /-- Queued and in-flight SDUs; the SDUs of one queue in their order of arrival. -/
  sdus : List Sdu
  nextId : Nat
  waits : List CellWait
  scrub : List ScrubRun
  /-- Cells withdrawn by an uncorrectable descriptor (R237). -/
  lost : List Nat
  quads : List Quadrant
  /-- Cells granted in the present tick (R215). -/
  granted : Nat
  /-- 48-bit byte counts of the allocations: index 3a enqueued, 3a + 1 sent, 3a + 2 dropped (R231). -/
  bytes48 : List (Nat × Nat)
  /-- The balances that failed at the last audit (R234). -/
  failing : List Breach
  /-- Failing audits since the last CALIPER_REPORT (R234). -/
  unreported : Nat
  /-- A CEL_CAL_ACK.ack waits for an audit with every balance holding (R235). -/
  acked : Bool
  denied : List DeniedReq
  /-- The model's own: the counter of Table 8.12 (8 for CAP_DROP, 9 for RX_NOT_RX) of the last drop at admission (R434). -/
  why : Nat
  deriving DecidableEq, Repr

/-- What one host ring holds beyond its registers (R435, R436): CPROD as last signalled, the instant of the
first completion not yet signalled. -/
structure RingState where
  signalled : Nat
  firstAt : Option Nat
  deriving DecidableEq, Repr

/-- A transmit SDU of a host ring that waits for cells (R218, R434): its id, niche, ring, first descriptor and their number,
and the ident. -/
structure TxWait where
  sdu : Nat
  niche : Nat
  ring : Nat
  first : Nat
  count : Nat
  ident : Nat
  deriving DecidableEq, Repr

/-- The PCI Express interface beyond its registers (spec/16). -/
structure HifState where
  /-- The PF and VF 1 to 16. -/
  fns : List FnState
  /-- MSI-X table words: key 4,096 × function + byte offset. -/
  table : List (Nat × Word)
  /-- Rings by 64 × niche + ring. -/
  rings : List (Nat × RingState)
  /-- Functions with a function-level reset in progress. -/
  flr : List Nat
  txWait : List TxWait
  deriving DecidableEq, Repr

/-- A remembered sequence tag (R456): tag, CRC word of the request, complete response. -/
structure TagEntry where
  tag : Nat
  crc : Word
  resp : List Word
  deriving DecidableEq, Repr

/-- One mailbox source (R450, R456): words received and not yet parsed, words to hand out, whether the
parser discards, and its tag memory, most recent first. -/
structure Mbx where
  rx : List Word
  tx : List Word
  discard : Bool
  tags : List TagEntry
  /-- Words still to come of a message that an overflow has cut (R444). -/
  skip : Nat
  deriving DecidableEq, Repr

/-- The supervisor port and the mailboxes (spec/17). -/
structure SupState where
  /-- SUP_CS_N low: a select period is open. -/
  selected : Bool
  /-- The rest of the present period is discarded. -/
  cutRest : Bool
  /-- The word in transmission, and whether it is the head of the transmit FIFO (R443, R445). -/
  out : Bool × Word
  /-- Received words that stand in the FIFO, by select period, the oldest first (R447). -/
  marks : List Nat
  port : Mbx
  pf : Mbx
  niches : List Mbx
  /-- The line source: the words of its messages, and its tag memory (R129, R553). -/
  line : Mbx
  /-- PF vectors owed to the next NOTICE, and the terminal's own tag counter (R458). -/
  notice : BitVec 14
  noticeTag : BitVec 16
  /-- A RESET op 2 of a source waits for its response to be read or for this instant (R455). -/
  resetAt : Option (Nat × Nat)
  /-- Level of SUP_MODE at its last sampling (R566). -/
  mode : Bool
  deriving DecidableEq, Repr

end Sys2Proof.Machine
end

