-- ==== Sys2Proof/Machine/ClsTypes.lean ====
section
/-!
DEFINITION. The classifier (spec/10_classifier.md), the Ethernet ports (spec/09_ethernet_ports.md) and the Pendant
link (spec/07_pendant_mode.md) beyond their registers, as plain data.
-/

namespace Sys2Proof.Machine

/-- A table operation in progress (R275, R279): its op of CLS_UPD_CMD (5 for a CLS_NTAB clear), the table and index of
CLS_UPD_ADDR, and its data. -/
structure ClsJob where
  op : Nat
  table : Nat
  index : Nat
  data : List Byte
  deriving DecidableEq, Repr

/-- The classifier. -/
structure ClsState where
  /-- The 12 MiB of table SRAM by 16-byte unit; one that is not listed is zero. -/
  sram : List (Nat × List Byte)
  /-- Operations in progress by owner (16 the PF). -/
  jobs : List (Nat × ClsJob)
  /-- Policer credits in 1/64 byte (R271). -/
  credits : List (Nat × Nat)
  /-- Profile, source and CLS_NCFG writes that await the tick edge (R278): address and word. -/
  shadow : List (Nat × Word)
  /-- The selections in force by owner, and by tree (4 times the owner's number and the tree's) the tick of the last
  CLS_TREE_SEL write that changed its root, where the old root is not retired (R277). -/
  sel : List (Nat × Nat)
  wrote : List (Nat × Nat)
  /-- SDUs that wait to be classified, in order. -/
  waiting : List Nat
  deriving DecidableEq, Repr

/-- A frame that a port sends or has still to send after a collision: its SDU and bytes with FCS, its class, the instant of
its first preamble bit or the one from which it may be tried, its collisions, and whether its defer time has been
counted (R247 to R255). A message of the PTP service has no SDU; its bytes are those of the message (R321). -/
structure EthTx where
  sdu : Option Nat
  bytes : List Byte
  cls : Nat
  at_ : Nat
  collisions : Nat
  deferred : Bool
  deriving DecidableEq, Repr

/-- One Ethernet port. -/
structure EthPort where
  /-- Credits of the classes in 10⁻⁶ bit as they stood at an instant (R250). -/
  credits : List Int
  at_ : Nat
  /-- End of the pause in force (R248). -/
  pause : Option Nat
  /-- The frame in transmission, and the one that waits for its backoff (R253). -/
  tx : Option EthTx
  again : Option EthTx
  /-- Shaper writes that await phase SCHED of the next tick (R251) and latency writes that await the tick edge: tick, address and
  word. -/
  pend : List (Nat × Nat × Word)
  /-- 48-bit byte counts received and sent. -/
  rx48 : Nat
  tx48 : Nat
  /-- Speed code and full duplex that the interface reports; none without link (R239, R240). -/
  iface : Option (Nat × Bool)
  /-- The combination outside Table 9.1 that keeps the link down (R239). -/
  bad : Option (Nat × Bool)
  /-- Messages of the PTP service that wait for the frame in transmission to end (R321). -/
  ptp : List (List Byte)
  deriving DecidableEq, Repr

/-- The Ethernet ports. -/
structure EthState where
  ports : List EthPort
  deriving DecidableEq, Repr

/-- The partner as its latest STATE record shows it (Table 7.6). -/
structure Peer where
  serial : Nat
  partner : Nat
  pairId : Nat
  form : Nat
  role : Nat
  bound : Bool
  act : Nat
  tnValid : Bool
  tn : Nat
  flags : Nat
  fc : Nat
  v0s : Nat
  v0ns : Nat
  dep : Nat
  arr : Nat
  niches : Nat
  boot : Nat
  deriving DecidableEq, Repr

/-- Content of a PENDANT_BIND (Table 7.8). -/
structure BindBody where
  op : Nat
  side : Nat
  partner : Nat
  pairId : Nat
  deriving DecidableEq, Repr

/-- The window of a downstream guard flow (R201): the highest accepted number, the marks (bit i for high − i), and the
stale discards one after another. -/
structure GuardWin where
  started : Bool
  high : Nat
  marks : BitVec 1024
  stale : Nat
  deriving DecidableEq, Repr

/-- A CONSENT_REQ sent (R206): number, target mode, tick of sending, and the answer with the partner's refuser byte. -/
structure ConsentReq where
  number : Nat
  target : Nat
  tick : Nat
  answer : Option (Bool × Nat)
  deriving DecidableEq, Repr

/-- A record that waits for the lane (R182): its place in the order of service, the block of the present link frame from which
it may leave, and its bytes. -/
structure LinkItem where
  cls : Nat
  ready : Nat
  bytes : List Byte
  deriving DecidableEq, Repr

/-- The Pendant link. -/
structure PndState where
  /-- Instant at which the present state of the link began, or from which training is retried (Table 7.7). -/
  since : Nat
  /-- Expected marker blocks missing one after another; marker blocks seen in TRAIN 22,680 blocks apart. -/
  missing : Nat
  markers : Nat
  /-- A marker block has been received since the last tick edge. -/
  marker : Bool
  /-- Record parsing has ended until the next marker block (R181). -/
  stopped : Bool
  peer : Option Peer
  /-- The partner's tick state as its last marker showed it (Table 7.3). -/
  peerTick : Nat
  /-- Delay samples in 2⁻⁵ ns, newest first, at most 1,024 (R184), with the stamps of the own marker's departure and of the
  partner's arrival in 2⁻⁴ ns (R309). -/
  samples : List Int
  dep : Nat
  arr : Nat
  /-- Binds and unbinds that await their frames, in the order in which they take effect (R186), and an unbind that awaits the
  tick edge (R189). -/
  pend : List (Nat × BindBody)
  unbind : Bool
  /-- Upstream sequence counters and downstream windows by guard flow. -/
  upSeq : List (Nat × Nat)
  wins : List (Nat × GuardWin)
  /-- PND_GFLOWn and PND_SPANMAPn writes that await the tick edge: address and word. -/
  writes : List (Nat × Word)
  /-- Body of the last accepted TIME_OF_DAY that the face sends on, owed to the next link frame, and the link frames
  since the last TOD record (R193). -/
  tod : Option (List Byte)
  todOwed : Bool
  todAge : Nat
  /-- A TOD record has been applied since the pair last became paired (R193). -/
  todSeen : Bool
  reqNo : Nat
  req : Option ConsentReq
  /-- The pair has been paired since it was bound; ROLE_CLASH has been logged for the present clash (R187, R188). -/
  met : Bool
  clash : Bool
  /-- The wing's own activation state, which its activation block keeps while it does not run (R191, R205). -/
  own : Nat
  /-- The link frame on the lane: its marker block (none before the first), the instant at which it began, and the records that
  leave in it or wait for the next (R182). -/
  head : List Byte
  frameAt : Nat
  queue : List LinkItem
  /-- The last 58 bits that the scrambler has sent, the latest in bit 57 (R179). -/
  scr : Nat
  deriving DecidableEq, Repr

end Sys2Proof.Machine
end

