-- ==== Sys2Proof/Machine/CphTypes.lean ====
section
/-!
DEFINITION. The cipher engine and key store beyond their registers, as plain data (spec/15).
-/

namespace Sys2Proof.Machine

/-- A key command in progress in an owner set: op, slot and, for a load, the key it brings (none where the
unwrap failed). -/
structure KeyJob where
  owner : Nat
  op : Nat
  slot : Nat
  key : Option (List Byte)
  deriving DecidableEq, Repr

/-- A lookaside operation: owner set, ring, descriptor, instant of the fetch, status of a refusal (0 where it
passed its checks) and the key it holds. -/
structure LaJob where
  owner : Nat
  ring : Nat
  /-- Absolute index of its descriptor. -/
  index : Nat
  desc : List Byte
  fetched : Nat
  status : Nat
  key : List Byte
  /-- Rounds still to be served (R402). -/
  rounds : Nat
  /-- Its completion is written; CPROD waits for the ones before it. -/
  done : Bool
  deriving DecidableEq, Repr

/-- The cipher engine and the key store. -/
structure CphState where
  /-- Key bytes of the loaded slots (Table 15.4). -/
  keys : List (Nat × List Byte)
  /-- Key number of each line key pair (Table 6.3). -/
  keyNo : List (Nat × Nat)
  /-- The loaded copy of the line enrolment secret, and its sealed copy in flash (R410). -/
  secret : Option (List Byte)
  sealed : Option (List Byte)
  /-- The DRBG is seeded; outputs drawn, and generate calls since the last reseed (R412). -/
  seeded : Bool
  drawn : Nat
  calls : Nat
  /-- The entropy source passes its health tests. -/
  healthy : Bool
  /-- Instants of the alarms of the last 600 s (R415). -/
  alarms : List Nat
  /-- Keys are erased and R414 has yet to run. -/
  erased : Bool
  jobs : List KeyJob
  la : List LaJob
  /-- Rounds left to each owner set in the present microslot (R402, partition = 1). -/
  portions : List (Nat × Nat)
  deriving DecidableEq, Repr

end Sys2Proof.Machine
end

