-- ==== Sys2Proof/Machine/CrtTypes.lean ====
section
/-!
DEFINITION. The optical cartridge as the terminal knows it, beyond its registers (spec/18).
-/

namespace Sys2Proof.Machine

/-- The wear figures of the accepted cartridge: the current Patina record and what has accrued since
(Table 18.5). Burst time is counted in line bit periods times the factor of R472. -/
structure Wear where
  seq : Nat
  eqA : Nat
  eqB : Nat
  accA : Nat
  accB : Nat
  ins : Nat
  tMax : Int
  powered : Nat
  worn : Bool
  deriving DecidableEq, Repr

/-- The optical cartridge. -/
structure CrtState where
  /-- Bytes 0 to 127 of the accepted identity record, as patched (R470, R471). -/
  cal : Option (List Byte)
  /-- The same bytes as they were read. -/
  record : List Byte
  /-- Stored calibration patches of 64 bytes each, in flash with the active set (R471). -/
  patches : List (List Byte)
  wear : Wear
  /-- Failed transactions one after another (R466). -/
  fails : Nat
  /-- Instant of the last Patina record written. -/
  lastPatina : Nat
  /-- BUS_STUCK is logged and no recovery has succeeded since (R476). -/
  stuckLogged : Bool
  /-- A CRT_RAW read in progress: target and offset. -/
  raw : Option (Nat × Nat)
  deriving DecidableEq, Repr

end Sys2Proof.Machine
end

