-- ==== Sys2Proof/Machine/TimTypes.lean ====
section
/-!
DEFINITION. The time block beyond its registers, as plain data (spec/12_time.md). Timebase values are natural numbers of
2⁻¹⁶ ns.
-/

namespace Sys2Proof.Machine

/-- The three parameters of a clock view: offset seconds, nanoseconds and fraction, rate in 2⁻⁴⁴, anchor. -/
structure View where
  os : Nat
  ons : Nat
  ofrac : Nat
  r : Int
  e : Nat
  deriving DecidableEq, Repr

/-- What awaits phase TIME for a view (R311): an offset, a rate, a step in 2⁻¹⁶ ns, an instant that the view is to read at
the edge (R336), or the parameters of view 0 (R324). It takes effect in phase TIME of the tick that follows tick. -/
structure ViewJob where
  view : Nat
  tick : Nat
  ofs : Option (Nat × Nat × Nat)
  rate : Option Int
  step : Int
  aim : Option (Nat × Nat)
  copy : Bool
  deriving DecidableEq, Repr

/-- One entry of a stamp queue (Table 12.4): E0 [15:0], E0 [16], E0 [19:18] (R391, R392), gap, view, timebase stamp and view reading. -/
structure StampEntry where
  id : Nat
  edge : Bool
  flags : Nat
  gap : Bool
  view : Nat
  stamp : Nat
  vs : Nat
  vns : Nat
  deriving DecidableEq, Repr

/-- A stamp queue: its entries, oldest first, and whether entries have been dropped since the last one (R325). -/
structure StampFifo where
  entries : List StampEntry
  gap : Bool
  deriving DecidableEq, Repr

/-- Body of a TIME_OF_DAY (Table 12.2). -/
structure TodBody where
  f : Nat
  tai : Nat
  ns : Nat
  utc : Int
  leap61 : Bool
  leap59 : Bool
  traceable : Bool
  leapTai : Nat
  gm : Nat
  deriving DecidableEq, Repr

/-- A servo (R320): the errors of the present interval in ps, their number, the ticks of the interval, the integrator,
whether the next update is the first since traceability began, and good. -/
structure Servo where
  sum : Int
  valid : Nat
  ticks : Nat
  integ : ℚ
  first : Bool
  good : Nat
  deriving DecidableEq, Repr

/-- A TOUT schedule (Table 12.5): mode, view, level and polarity, target, period and width in ns, and the
niche that asked for it. -/
structure Sched where
  mode : Nat
  view : Nat
  level : Bool
  pol : Bool
  s : Nat
  ns : Nat
  period : Nat
  width : Nat
  niche : Option Nat
  deriving DecidableEq, Repr

/-- A TOUT: the schedule armed, the one that awaits phase TIME and the tick in which it was written, the end of the pulse in
its view, the last target fired, and the level of the ball. -/
structure Tout where
  armed : Option Sched
  asked : Option (Sched × Nat)
  fall : Option (Nat × Nat × Nat)
  last : Option (Nat × Nat × Nat)
  ball : Bool
  deriving DecidableEq, Repr

/-- A TIN: its queue, edge sequence number and the stamp of the last counted edge (R326). -/
structure Tin where
  fifo : StampFifo
  seq : Nat
  last : Option Nat
  deriving DecidableEq, Repr

/-- The time block. -/
structure TimState where
  /-- Instant at which the timebase was last 0 (R307). -/
  zero : Nat
  views : List View
  jobs : List ViewJob
  /-- TIME_OF_DAY in force, the one that awaits the tick edge, and the tick of its acceptance (R315). -/
  tod : Option TodBody
  todNext : Option (TodBody × Nat)
  /-- TAI - UTC that the calendar has adopted (R334). -/
  utcNow : Int
  /-- d_down in force and the one passed in the present tick (R318). -/
  dDown : Int
  dNext : Option Int
  servos : List Servo
  /-- Last instant at which the condition of clockClass 6 held (R323). -/
  class6 : Option Nat
  tsq : List StampFifo
  tins : List Tin
  touts : List Tout
  deriving DecidableEq, Repr

end Sys2Proof.Machine
end

