-- ==== Sys2Proof/Machine/FioTypes.lean ====
section
/-!
DEFINITION. The field ports beyond their registers, as plain data (spec/14_field_ports.md).
-/

namespace Sys2Proof.Machine

/-- A sample that a conversion has produced and phase FIO has yet to hand over (R375). -/
structure AinSample where
  ch : Nat
  raw : Int
  val : Int
  cm : Bool
  ovr : Bool
  open_ : Bool
  domain : Bool
  suspect : Bool
  deriving DecidableEq, Repr

/-- A custom table in force (Table 14.4): kind, count and points. -/
structure CurveTab where
  kind : Nat
  points : List (Int × Int)
  deriving DecidableEq, Repr

/-- A loop output: its current in µA, the consecutive suspect samples of its source, and the instant since which the die
no longer refreshes it (R387). -/
structure LoopOut where
  ua : Nat
  run : Nat
  stale : Option Nat
  deriving DecidableEq, Repr

/-- A binary input: queue and sequence number, the level of its last event or resolution, the crossing that began the
present run (new level, stamp, instant), the instants of its edges of the last second, and chatter (R388 to R391). -/
structure DinState where
  fifo : StampFifo
  seq : Nat
  level : Option Bool
  run : Option (Bool × Nat × Nat)
  edges : List Nat
  chatter : Bool
  lastEdge : Nat
  deriving DecidableEq, Repr

/-- A binary output: instant of its next retry, and the instant from which the present retry runs (R393). -/
structure DoutState where
  retry : Option Nat
  trying : Option Nat
  deriving DecidableEq, Repr

/-- The field ports. -/
structure FioState where
  /-- Channel in its settle or conversion, the channel before it, visits by channel, and the configurations in force: word
  3n + 0 FIO_AINn_CFG, + 1 _CM, + 2 _SPAN, and the words of EXC0, EXC1 and the bridge (R373). -/
  cur : Option Nat
  last : Nat
  visits : List Nat
  cfg : List Word
  exc : List Word
  /-- The open flag stands, and the last sample was suspect, by channel (R377, R378). -/
  open_ : List Bool
  susp : List Bool
  done : List AinSample
  /-- Shadow words of the custom tables: key 65 × table + (0 header, 1 + 2p x, 2 + 2p y). -/
  shadow : List (Nat × Word)
  tabs : List CurveTab
  /-- Tables committed that await the tick edge (R380). -/
  commit : List (Nat × CurveTab)
  loops : List LoopOut
  /-- DIE_LOST has been logged for this onset (R387). -/
  dieLogged : Bool
  /-- Instant at which the wetting supply recovered (R392). -/
  recovered : Option Nat
  dins : List DinState
  douts : List DoutState
  deriving DecidableEq, Repr

end Sys2Proof.Machine
end

