-- ==== Sys2Proof/Machine/FlcTypes.lean ====
section
/-!
DEFINITION. The flash arrays (spec/20_flash_arrays.md) and the Cast session (spec/21_cast.md) as plain data.
-/

namespace Sys2Proof.Machine

/-- A program or an erase that a port runs: its port, the flash address, the 32 bytes of a program, the instant of its
command, the instant from which it runs and the nanoseconds that it ran before (R506 to R510). -/
structure FlashOp where
  port : Nat
  erase : Bool
  addr : Nat
  data : List Byte
  since : Nat
  at_ : Nat
  ran : Nat
  /-- ERASE_SLOW has been logged for it (R509). -/
  slow : Bool
  deriving DecidableEq, Repr

/-- The flash controller and the two banks. -/
structure FlcState where
  /-- Program units by flash address / 32; one that is not listed is erased (R502). -/
  units : List (Nat × List Byte)
  /-- Units that read with an uncorrectable error. -/
  badUnits : List Nat
  /-- Sectors (bank × 4,096 + sector) whose erase was cut short: what they hold is open (R513). -/
  torn : List Nat
  active : Option FlashOp
  susp : Option FlashOp
  /-- The suspended erase is held by command (R510). -/
  held : Bool
  /-- Instant of the last read of the suspended erase's bank (R509). -/
  lastRead : Nat
  /-- Fetch banks of the management cores A and B. -/
  fetch : List (Option Nat)
  deriving DecidableEq, Repr

/-- The Pendant partner's latest Cast STATE record (Table 21.10). -/
structure CastPeer where
  state : Nat
  digest : List Byte
  at_ : Nat
  settled : Bool
  reverted : Bool
  deriving DecidableEq, Repr

/-- The Cast session beyond its registers. -/
structure CstState where
  /-- Length of the manifest as BEGIN states it. -/
  length : Nat
  /-- Bytes programmed: object, first byte and the byte after the last. -/
  got : List (Nat × Nat × Nat)
  /-- The manifest has passed orders 1 to 6 and the sectors of its entries are erased and its keep parts copied
  (R518). -/
  ready : Bool
  /-- The checks of VERIFY are in progress (R521). -/
  verifying : Bool
  /-- The second that ARM or CAST_AT names; none while no second is scheduled. -/
  second : Option Nat
  /-- Second that an ARM in progress will set once the commit is durable: none where it waits. -/
  arming : Option (Option Nat)
  /-- The selector write of the freeze is in progress (R526). -/
  freezing : Bool
  /-- Aligned ticks counted toward settling (R528), and whether every part has started. -/
  settle : Nat
  started : Bool
  /-- Ticks of the trial without an aligned verdict while LOS is not reported (R554). -/
  deaf : Nat
  /-- An outage or a dying gasp has put the freeze off (R555). -/
  postponed : Bool
  peer : Option CastPeer
  /-- Trial, early and reverted as the boot ROM found them (R527). -/
  trial : Bool
  /-- CST_STATUS.state before the last reset, which the boot ROM and the firmware read out of flash (Table 21.9). -/
  prior : Nat
  /-- CST_STATUS.early before the last reset. -/
  priorEarly : Bool
  deriving DecidableEq, Repr

end Sys2Proof.Machine
end

