-- ==== Sys2Proof/Machine/MshTypes.lean ====
section
/-!
DEFINITION. The field mesh radio beyond its registers, as plain data (spec/13_field_mesh.md).
-/

namespace Sys2Proof.Machine

/-- A frame of the transmit store or of an indirect queue: its SDU, niche, neighbour (0x3FF for broadcast), request for an
acknowledgement, security level and key index, flood TTL, instant of entry, retries so far, backoff exponent, shared cells
still to let pass, and whether it has been announced as pending (R352, R353, R359, R360). -/
structure MeshTx where
  sdu : Nat
  niche : Nat
  node : Nat
  ack : Bool
  level : Nat
  kid : Nat
  flood : Option Nat
  at_ : Nat
  tries : Nat
  be : Nat
  wait : Nat
  due : Bool
  /-- A flood copy that the terminal forwards (R363): its mesh header stands in the SDU. -/
  copy : Bool
  deriving DecidableEq, Repr

/-- A transmission that awaits its acknowledgement: the SDU, the channel, a shared cell, an indirect entry. -/
structure MeshAir where
  sdu : Nat
  node : Nat
  channel : Nat
  shared : Bool
  indirect : Bool
  /-- Channel offset of the cell that the pending slot follows (R360). -/
  chan : Nat
  asn : Nat
  deriving DecidableEq, Repr

/-- A cell that is listened on: its link's neighbour, options and channel offset, the channel, ASN and start on the
timebase. -/
structure MeshListen where
  node : Nat
  shared : Bool
  chan : Nat
  channel : Nat
  asn : Nat
  start : Nat
  deriving DecidableEq, Repr

/-- A key of the seen cache with the instant of its entry (R363): originator address, its width, BC0 number. -/
structure SeenKey where
  addr : Nat
  wide : Bool
  seq : Nat
  at_ : Nat
  deriving DecidableEq, Repr

/-- The MSH block. -/
structure MshState where
  /-- T₀ on the timebase while the schedule runs, and whether run awaits its tick edge (R345). -/
  t0 : Option Nat
  starting : Bool
  /-- ASN of the latest slot, and the number of the next one (R345). -/
  asn : Nat
  next : Nat
  store : List MeshTx
  ind : List MeshTx
  /-- QID served last by MESH_DEQUEUE (R352). -/
  lastQ : Nat
  /-- Mesh key slots loaded since MSH_ASN_HWM was set: bit k for slot 64 + k (R345). -/
  fresh : Nat
  air : Option MeshAir
  listen : Option MeshListen
  /-- Pending slot: ASN, node, channel offset (R360). -/
  pending : Option (Nat × Nat × Nat)
  /-- Instants of the last contact by node. -/
  heard : List (Nat × Nat)
  seen : List SeenKey
  /-- ASN of the last Enhanced Beacon. -/
  beacon : Option Nat
  /-- Blacklist in force (R348). -/
  black : List Word
  /-- Last calibration: instant and temperature; instant since which one is scheduled; CAL_STARVED logged. -/
  calAt : Nat
  calTemp : Int
  calDue : Option Nat
  starved : Bool
  /-- The present slot is idle (R357). -/
  idle : Bool
  deriving DecidableEq, Repr

end Sys2Proof.Machine
end

