-- ==== Sys2Proof/Machine/PwrTypes.lean ====
section
/-!
DEFINITION. Power domains and modes beyond their registers, as plain data
(spec/19_power_domains_and_modes.md).
-/

namespace Sys2Proof.Machine

/-- How far an entry has come (Table 19.3). -/
inductive EntryStage where
  /-- Consent is being collected (R481). -/
  | consent
  /-- Step 1 has been taken; the notice runs. -/
  | notice
  /-- Step 2: the niche resets run (DORMANT and OFF). -/
  | resets
  /-- Step 3: domain groups go off, this one next. -/
  | groups (next : Nat)
  /-- Step 4: the wake loss window. -/
  | window
  deriving DecidableEq, Repr

/-- A mode entry in progress. -/
structure PwrEntry where
  target : Nat
  forced : Bool
  stage : EntryStage
  /-- Tick of the request, of the decision and of the last group. -/
  asked : Nat
  decided : Nat
  last : Nat
  /-- Instant at which it began, for a forced entry. -/
  at_ : Nat
  /-- Niches that received the notice, and those that step 2 reset (bit n: niche n). -/
  notified : Nat
  held : Nat
  deriving DecidableEq, Repr

/-- Domains on their way on (R489, R483): the mode to be in once they are on, the next group counted from the last, the
instant from which it may go on, and the domains wanted. -/
structure PwrRise where
  mode : Nat
  next : Nat
  at_ : Nat
  want : Nat
  /-- It leaves DORMANT: niche resets are released at its end. -/
  release : Bool
  deriving DecidableEq, Repr

/-- The power controller. -/
structure PwrState where
  /-- Bit d: domain PDd is on. -/
  on : Nat
  entry : Option PwrEntry
  rise : Option PwrRise
  /-- An exit that is to begin: the mode it goes to (R489). -/
  exit_ : Option Nat
  /-- Mode from which WATCH was entered, and the mode before the outage (R488, R499). -/
  watchFrom : Nat
  before : Nat
  /-- Frame count at which WATCH was entered, while the terminal is in it: resend timers stand still (R487). -/
  watchFc : Option Nat
  /-- Instant at which the sleep allowance ends (R486). -/
  allow : Option Nat
  /-- Balls and supply as the plinth sees them: WAKE_N low, MAINS_OK high and the instant of its last change,
  VDD_PLINTH below 2.95 V. -/
  wakeLow : Bool
  mains : Bool
  mainsAt : Nat
  supplyLow : Bool
  /-- Cause and instant of the dying gasp in progress (R495). -/
  gasp : Option (Nat × Nat)
  /-- Instants at which the outage began and at which the next shedding step falls; niches warned of it; niches shed whose
  reset has yet to complete. -/
  outage : Option Nat
  step : Nat
  warned : Nat
  shedding : Nat
  /-- Instant at which the plinth alarm expires. -/
  alarm : Option Nat
  /-- Port and pattern number of the last wake pattern match that was signalled (R258). -/
  wakeEth : Option (Nat × Nat)
  deriving DecidableEq, Repr

end Sys2Proof.Machine
end

