-- ==== Sys2Proof/Machine/TdmTypes.lean ====
section
/-!
DEFINITION. The TDM ports, circuits and members beyond their registers, as plain data
(spec/11_tdm_tributaries_and_circuits.md).
-/

namespace Sys2Proof.Machine

/-- A frame in a slip buffer: its bytes, whether it is a substitute frame (R286), and, toward the port, its number in the CRC-4
multiframe (R283). -/
structure SlipFrame where
  bytes : List Byte
  subst : Bool
  num : Nat
  deriving DecidableEq, Repr

/-- One direction of a port: the unread frames, oldest first, the frame read last (R290), and the frames that its starts have put
into it beyond those they took out of it (R236; assumption 48, DEDUCED). -/
structure SlipBuf where
  unread : List SlipFrame
  last : SlipFrame
  base : Int
  deriving DecidableEq, Repr

/-- A performance second that is not committed: errored, severely errored, in unavailable time (R289). -/
structure PmSecond where
  es : Bool
  ses : Bool
  un : Bool
  deriving DecidableEq, Repr

/-- A transmit framer: the T1 frames sent, modulo 96, the check sum of the present CRC-4 submultiframe or ESF superframe so far,
and that of the last whole one. -/
structure TdmTx where
  no : Nat
  crc : Nat
  done : Nat
  deriving DecidableEq, Repr

/-- One TDM port. -/
structure TdmPort where
  line : SlipBuf
  port : SlipBuf
  /-- The frame played last (R299). -/
  played : List Byte
  /-- Defects reported at any time of the present second, and the seconds not yet committed, oldest first. -/
  seen : Nat
  secs : List PmSecond
  tx : TdmTx
  /-- Whether the last two CRC-4 submultiframes received had no CRC error, the newest first: the E-bits (R283). -/
  smf : List Bool
  deriving DecidableEq, Repr

/-- A slot of a skew buffer: frame number, bytes, ais, the member whose copy it is, and the slack of the first copy. -/
structure SkewSlot where
  f : Nat
  bytes : List Byte
  ais : Bool
  mem : Nat
  slack : Nat
  deriving DecidableEq, Repr

/-- One circuit: its slots that are filled, wait count, early run, consecutive fills for slot p, next frame number toward
the line, and the least slack of the first copies played in the present second. -/
structure Circuit where
  slots : List SkewSlot
  wait : Nat
  early : Nat
  fills : Nat
  seq : Nat
  least : Option Nat
  deriving DecidableEq, Repr

/-- One member: frames collected since its previous SDU, K and tick of its last accepted SDU, first tick of its present run
without a gap, and the least slack of the present second. -/
structure Member where
  got : List SlipFrame
  k : Nat
  last : Option Nat
  runFrom : Option Nat
  least : Option Nat
  /-- Its allocation is bound, as UP_BLOCKED has shown it (R305). -/
  blocked : Bool
  deriving DecidableEq, Repr

/-- The TDM block. -/
structure TdmState where
  ports : List TdmPort
  circuits : List Circuit
  members : List Member
  /-- Accepted TDM_CIRc and TDM_MEMm writes that await the tick edge: address and word (R294). -/
  writes : List (Nat × Word)
  pmClr : Bool
  /-- Tick of the last second boundary. -/
  second : Option Nat
  deriving DecidableEq, Repr

end Sys2Proof.Machine
end

