-- ==== Sys2Proof/Machine/UslTypes.lean ====
section
/-!
DEFINITION. The upstream line beyond its registers, as plain data (spec/05_upstream_bursts.md).
-/

namespace Sys2Proof.Machine

/-- Content of a standing grant (Table 5.5). -/
structure StandBody where
  aid : Nat
  mask : Nat
  offset : Nat
  size : Nat
  flags : Nat
  deriving DecidableEq, Repr

/-- A change of a standing grant that awaits frame F: an install, or a removal where none. -/
structure StandChange where
  frame : Nat
  body : Option StandBody
  deriving DecidableEq, Repr

/-- A grant of the burst schedule: the entry, and whether a standing grant acts as it. -/
structure UpGrant where
  entry : MapGrant
  standing : Bool
  deriving DecidableEq, Repr

/-- A piece of a cut: bytes sent as they stand, or with a key a fragment's header and its payload, which the engine encrypts
and tags as it is serialised (R125); whether a fragment header begins it, and that header's fid. -/
structure Piece where
  head : List Byte
  key : Option (List Byte)
  body : List Byte
  frag : Bool
  fid : Nat
  deriving DecidableEq, Repr

/-- Bytes of a piece on the line. -/
def Piece.size (p : Piece) : Nat := p.head.length + p.body.length + if p.key.isSome then 8 else 0

/-- Bytes sent as they stand. -/
def Piece.plain (b : List Byte) : Piece := ⟨b, none, [], false, 0⟩

/-- A member SDU of a TDM circuit that waits for its section (R295, R303): member, or 48 + relay; index of its USL_FIDn entry,
bytes, and the bytes that cuts have taken. -/
structure MemberSdu where
  member : Nat
  flow : Nat
  data : List Byte
  taken : Nat
  deriving DecidableEq, Repr

/-- What a cut took from a queued SDU: its id, its queue and the bytes taken before, the allocation its queue served and the
bytes that this cut took. -/
structure CutSdu where
  id : Nat
  queue : Option Nat
  taken : Nat
  bytes : Nat
  deriving DecidableEq, Repr

/-- A burst of the schedule: its upstream frame, its grants in chained order (R121), its preamble in bit
periods, its start bit on the line's bit count, and where it stands. -/
structure Burst where
  id : Nat
  frame : Nat
  grants : List UpGrant
  pre : Nat
  start : Nat
  /-- The equalisation delay that its schedule used (R145). -/
  eqd : Nat := 0
  /-- ANNOUNCE message of an announce burst (R158). -/
  announce : Option (List Byte)
  /-- The PLL lock test has passed (R139). -/
  locked : Bool
  /-- Once cut (R122): the pieces of each grant without the burst header; and, once it is serialised, their bytes, each
  with a mark where it is ciphertext or tag. -/
  content : Option (List (List Piece))
  bytes : List (List (Byte × Bool)) := []
  /-- The line message that the cut took, and whether it is the dying gasp (R120, R146). -/
  msg : Option (List Byte) := none
  held : Option UpMsg := none
  gasp : Bool := false
  /-- SDUs that the cut took from, and member SDUs as they stood before it with the bytes that it took, in order. -/
  cutFrom : List CutSdu := []
  cutMembers : List (MemberSdu × Nat) := []
  /-- Reports in the burst, and the allocations whose report tells a forfeit (R126). -/
  reports : Nat := 0
  told : List Nat := []
  /-- The laser is on, since this instant (R115). -/
  running : Bool
  at_ : Nat := 0
  /-- The burst header as sent. -/
  header : List Byte := []
  deriving DecidableEq, Repr

/-- Equalisation delay and preambles (units of 32 bits). -/
structure Timing where
  eqd : Nat
  short : Nat
  long : Nat
  deriving DecidableEq, Repr

/-- The upstream line. -/
structure UslState where
  /-- Changes that await their frame, by standing index (R132). -/
  changes : List (Option StandChange)
  /-- Standing grants to remove at the next tick edge (R134), by index: the installed one, or else the change that awaits its
  frame. -/
  removals : List (Nat × Bool)
  /-- The schedule of bursts, and the next burst's id. -/
  plan : List Burst
  nextId : Nat
  /-- Timing in force, and those that govern from later frames, in order (R165). -/
  timing : Timing
  later : List (Nat × Timing)
  /-- An equalisation delay has been set since activation last cleared it (R151). -/
  eqdSet : Bool
  /-- End of the last executed occupancy on the line's bit count, and the equalisation delay it was sent with (R145). -/
  lastEnd : Nat
  lastEqd : Nat
  /-- BIP-8 and count of the bursts sent (Table 5.2). -/
  bip : Byte
  bseq : Nat
  /-- Fragment headers sent in the upstream frame of this counter (R125). -/
  fragFrame : Nat
  fragIndex : Nat
  /-- Forfeit flag of each allocation (R126). -/
  forfeited : BitVec 64
  /-- A relock of the serializer PLL is in progress, with the instant it began (R140). -/
  relock : Option Nat
  /-- Member SDUs of the TDM circuits (R295), in the order they were formed. -/
  members : List MemberSdu
  /-- DYING_GASP message held for its first burst and its repeats, and the sends left (R146). -/
  gasp : Option (List Byte × Nat)
  /-- Instants of the rogue trips of the last 24 h (Table 5.8). -/
  trips : List Nat
  /-- Counts of Table 5.17 that the bursts since the last tick edge have added, by counter (Table 5.7). -/
  owed : List (Nat × Nat)
  /-- The last upstream frame in which the terminal had a grant or a standing entry (R143). -/
  granted : Option Nat
  /-- Dark level and slope of each colour's monitor photodiode at its last calibration (R143). -/
  apc : List (Option (Nat × Nat))
  /-- Key epoch in which each colour was last calibrated (R143), the instant it has waited from, and whether
  APC_STARVED is logged (R149). -/
  apcEpoch : List (Option Nat)
  apcSince : List Nat
  apcLogged : List Bool
  deriving DecidableEq, Repr

end Sys2Proof.Machine
end

