-- ==== Sys2Proof/Machine/State.lean ====
section
/-!
DEFINITION. The state of the terminal, the reasons a step can stop, and the state right after reset.
-/

namespace Sys2Proof.Machine

open Sys2Proof

/-- Reasons a step stops with a fault. -/
inductive Fault where
  /-- Raised by no command: every command of the table has an effect in every state. -/
  | none
  deriving DecidableEq, Repr

/-- Reasons a command is refused. -/
inductive Refusal where
  /-- A command whose meaning is not written: raised by the dispatch alone; safe. -/
  | notModelled (mnemonic : String)
  deriving DecidableEq, Repr

/-- The state of the terminal: every register in one sparse file, and beside it what the spec gives the
blocks without a register of its own. -/
structure State where
  /-- Commands that wait, first in, first out; the block's queue, not the hardware's. -/
  pending : List Instr
  /-- The registers of Table 25.1 by PF address; one that is not listed reads its reset word. -/
  regs : List (Nat × Word)
  /-- Parts fixed at manufacture. -/
  fuse : Fuses
  /-- Cycles of the 1 GHz clock since VDD_PLINTH came up (R580); the deadlines of timers are instants of it. -/
  clk : Nat
  /-- The model's own: free values taken so far (assumption 3, DESIGN CHOICE). -/
  freeCount : Nat
  /-- The model's own: what the terminal has sent out, newest first (assumption 4, DESIGN CHOICE). -/
  sent : List Emit
  /-- Latched partners of the LO registers by source and address (R577). -/
  latch : List (Nat × Word)
  /-- Resets, watchdog, fault logs (spec/22). -/
  flt : FltState
  /-- The tick engine (spec/02). -/
  tick : TickState
  /-- Niche reset of N0 to N15 (R225, R558). -/
  nres : List NicheReset
  /-- Cells, SDUs and the Caliper (spec/08). -/
  cel : CelState
  /-- The host interface (spec/16). -/
  hif : HifState
  /-- The supervisor port and the mailboxes (spec/17). -/
  sup : SupState
  /-- The Armature: staging, trust slots, accepted structure (spec/03). -/
  arm : ArmState
  /-- The downstream line (spec/04). -/
  dsl : DslState
  /-- The upstream line (spec/05). -/
  usl : UslState
  /-- Activation (spec/06). -/
  act : ActState
  /-- The cipher engine and the key store (spec/15). -/
  cph : CphState
  /-- The optical cartridge (spec/18). -/
  crt : CrtState
  /-- The flash arrays (spec/20). -/
  flc : FlcState
  /-- The Cast session (spec/21). -/
  cst : CstState
  /-- Power domains and modes (spec/19). -/
  pwr : PwrState
  /-- The classifier (spec/10). -/
  cls : ClsState
  /-- The Ethernet ports (spec/09). -/
  eth : EthState
  /-- The Pendant link (spec/07). -/
  pnd : PndState
  /-- The time block (spec/12). -/
  tim : TimState
  /-- The TDM block (spec/11). -/
  tdm : TdmState
  /-- The field mesh (spec/13). -/
  msh : MshState
  /-- The field ports (spec/14). -/
  fio : FioState
  deriving DecidableEq, Repr

/-- An empty fault log. -/
def FaultLog.empty : FaultLog := ⟨[], 0, []⟩

/-- Resets, watchdog and logs after reset. -/
def FltState.reset : FltState :=
  { phase := .boot, fatal := false, devLog := .empty, nicheLogs := List.replicate 16 .empty, limited := [],
    deferred := false, resetAt := 0, rstLow := false, testEn := false, strapDue := false, borDue := false, wdogAt := 0, wdogMs := 1000,
    blkPending := 0, blkActive := 0, bootCount := 0, borLoad := false, borSupply := false }

/-- The tick engine after reset: FREE, counter 0. -/
def TickState.reset : TickState :=
  { fc := 0, edges := 0, len := 19440, slew := 0, meas := [], forced := false, hwmClr := false,
    xoLost := false, phaseEnd := [], stamp := 0 }

/-- A niche that is not in reset. -/
def NicheReset.none : NicheReset :=
  { active := false, at_ := 0, tick := 0, flushed := false, slow := false, holds := [] }

/-- Packet memory after reset: every cell in the scrub list with owner 0 (R216). -/
def CelState.reset : CelState :=
  { sdus := [], nextId := 0, waits := [], scrub := [⟨0, 393216, 0⟩], lost := [],
    quads := List.replicate 4 ⟨false, false⟩, granted := 0, bytes48 := [], failing := [], unreported := 0,
    acked := false, denied := [], why := 0 }

/-- The host interface after reset. -/
def HifState.reset : HifState :=
  { fns := List.replicate 17 ⟨false, false, false, 0⟩, table := [], rings := [], flr := [], txWait := [] }

/-- A mailbox source with nothing in it. -/
def Mbx.empty : Mbx := ⟨[], [], false, [], 0⟩

/-- The supervisor port and the mailboxes after reset. -/
def SupState.reset : SupState :=
  { selected := false, cutRest := false, out := (false, 0), marks := [], port := .empty, pf := .empty,
    niches := List.replicate 16 .empty, line := .empty, notice := 0, noticeTag := 0, resetAt := none,
    mode := false }

/-- The Armature block after reset: nothing staged, no slot enrolled, no image accepted (assumption 30, DESIGN CHOICE). -/
def ArmState.reset : ArmState :=
  { staging := [], badWords := [], trust := List.replicate 4 ⟨none, false⟩, floor := 0, job := none,
    ready := none, carve := none, accepted := none, devBytes := [] }

/-- The flash arrays after reset: both banks erased (R502; what a part holds at its first power-on is not stated,
assumption 38, PRESUMED), no core has fetched. -/
def FlcState.reset : FlcState :=
  { units := [], badUnits := [], torn := [], active := none, susp := none, held := false, lastRead := 0,
    fetch := [none, none] }

/-- The power controller after reset: FULL, every domain of Table 19.1 that is on or in its mask on; the niche logic of
PD38 to PD53 but N0's is off (R210). -/
def PwrState.reset : PwrState :=
  { on := 2 ^ 39 - 1 + 2 ^ 54 + 2 ^ 55, entry := none, rise := none, exit_ := none, watchFrom := 0, before := 0, watchFc := none,
    allow := none, wakeLow := false, mains := true, mainsAt := 0, supplyLow := false, gasp := none, outage := none,
    step := 0, warned := 0, shedding := 0, alarm := none, wakeEth := none }

/-- The classifier after reset: every table zero. -/
def ClsState.reset : ClsState := ⟨[], [], [], [], [], [], []⟩

/-- A port after reset. -/
def EthPort.reset : EthPort := ⟨List.replicate 8 0, 0, none, none, none, [], 0, 0, none, none, []⟩

/-- The ports after reset. -/
def EthState.reset : EthState := ⟨List.replicate 6 EthPort.reset⟩

/-- The Pendant link after reset: DOWN, unbound. -/
def PndState.reset : PndState :=
  { since := 0, missing := 0, markers := 0, marker := false, stopped := false, peer := none, peerTick := 0, samples := [], dep := 0,
    arr := 0, pend := [], unbind := false, upSeq := [], wins := [], writes := [], tod := none,
    todOwed := false, todAge := 0, todSeen := false, reqNo := 0, req := none, met := false, clash := false, own := 0, head := [],
    frameAt := 0, queue := [], scr := 0 }

/-- No Cast session. -/
def CstState.reset : CstState :=
  { length := 0, got := [], ready := false, verifying := false, second := none, arming := none,
    freezing := false, settle := 0, started := false, deaf := 0, postponed := false, peer := none, trial := false, prior := 0, priorEarly := false }

/-- The downstream line after reset: hunting. -/
def DslState.reset : DslState :=
  { data := [], marked := [], pos := none, index := 0, mark := false, run := 0, held := none, count := 0, cand := none, uncor := 0, sfBits := 0, sfUncor := 0, sdBits := 0,
    sfValid := false, sdValid := false, sfClean := 0, rose := 0, fell := 0, ended := false, flows := [],
    pairs := List.replicate 32 ⟨none, none, none⟩, fidWrites := [], ufidWrites := [], ready := [],
    grants := [], msgs := [], quiet := false, pinned := [] }

/-- The upstream line after reset: nothing installed, nothing scheduled. -/
def UslState.reset : UslState :=
  { changes := List.replicate 8 .none, removals := [], plan := [], nextId := 0, timing := ⟨0, 4, 16⟩,
    later := [], eqdSet := false, lastEnd := 0, lastEqd := 0, bip := 0, bseq := 0, fragFrame := 0,
    fragIndex := 0, forfeited := 0, relock := .none, members := [], gasp := .none, trips := [], owed := [], granted := .none,
    apc := [.none, .none], apcEpoch := [.none, .none],
    apcSince := [0, 0], apcLogged := [false, false] }

/-- Activation after reset: Dark. -/
def ActState.reset : ActState :=
  { seq := 0, queue := [], held := [], heard := [], inbox := [], t1 := .none, t2 := .none, t3 := .none,
    t4 := .none, prior := 0, acked := 0, half := .none, twin := .none,
    twinAt := .none, traceTwin := false, judged := .none }

/-- The cipher engine after reset: no key loaded, nothing enrolled (assumption 30, DESIGN CHOICE). -/
def CphState.reset : CphState :=
  { keys := [], keyNo := [], secret := .none, sealed := .none, seeded := false, drawn := 0, calls := 0,
    healthy := false, alarms := [], erased := false, jobs := [], la := [],
    portions := [] }

/-- No cartridge accepted (assumption 30, DESIGN CHOICE). -/
def CrtState.reset : CrtState :=
  { cal := .none, record := [], patches := [],
    wear := ⟨0, 0, 0, 0, 0, 0, 0, 0, false⟩, fails := 0, lastPatina := 0, stuckLogged := false, raw := .none }


/-- An empty stamp queue. -/
def StampFifo.empty : StampFifo := ⟨[], false⟩

/-- The time block after reset: every view reads the timebase, nothing is queued or armed. -/
def TimState.reset : TimState :=
  { zero := 0, views := List.replicate 4 ⟨0, 0, 0, 0, 0⟩, jobs := [], tod := none, todNext := none, utcNow := 0,
    dDown := 0, dNext := none, servos := List.replicate 2 ⟨0, 0, 0, 0, true, 0⟩, class6 := none,
    tsq := List.replicate 6 StampFifo.empty, tins := List.replicate 4 ⟨StampFifo.empty, 0, none⟩,
    touts := List.replicate 4 ⟨none, none, none, none, false⟩ }

/-- A frame of n bytes of 0xFF. -/
def onesFrame (n : Nat) : SlipFrame := ⟨List.replicate n 0xFF, false, 0⟩

/-- A slip buffer with nothing in it. -/
def SlipBuf.empty : SlipBuf := ⟨[], onesFrame 0, 0⟩

/-- A port that is not framed. -/
def TdmPort.none : TdmPort := ⟨.empty, .empty, [], 0, [], ⟨0, 0, 0⟩, []⟩

/-- The TDM block after reset: nothing framed, no circuit. -/
def TdmState.reset : TdmState :=
  { ports := List.replicate 12 .none,
    circuits := List.replicate 12 ⟨[], 0, 0, 0, 0, none⟩,
    members := List.replicate 48 ⟨[], 1, none, none, none, false⟩, writes := [], pmClr := false, second := none }

/-- The mesh after reset: not running. -/
def MshState.reset : MshState :=
  { t0 := none, starting := false, asn := 0, next := 0, store := [], ind := [], lastQ := 0, fresh := 0, air := none, listen := none,
    pending := none, heard := [], seen := [], beacon := none, black := List.replicate 5 0, calAt := 0, calTemp := 0,
    calDue := none, starved := false, idle := false }

/-- The field ports after reset: nothing scanned; every loop at 3.6 mA; every binary input INDET. -/
def FioState.reset : FioState :=
  { cur := none, last := 7, visits := List.replicate 8 0, cfg := List.replicate 24 0, exc := List.replicate 3 0,
    open_ := List.replicate 8 false, susp := List.replicate 8 false, done := [], shadow := [],
    tabs := List.replicate 4 ⟨0, []⟩, commit := [], loops := List.replicate 2 ⟨3600, 0, none⟩, dieLogged := false,
    recovered := none, dins := List.replicate 8 ⟨StampFifo.empty, 0, none, none, [], false, 0⟩,
    douts := List.replicate 4 ⟨none, none⟩ }
/-- The terminal right after reset (R10, Table 22.2): every register at its Reset column (an unlisted
register reads as its reset word), every queue empty, every cell scrub-pending (R216). The reset is released
and the boot ROM has yet to run (assumption 5, DESIGN CHOICE; assumption 13, DESIGN CHOICE). -/
def State.reset : State where
  pending := []
  regs := []
  fuse := ⟨false, 0, 3⟩
  clk := 0
  freeCount := 0
  sent := []
  latch := []
  flt := FltState.reset
  tick := TickState.reset
  nres := List.replicate 16 NicheReset.none
  cel := CelState.reset
  hif := HifState.reset
  sup := SupState.reset
  arm := ArmState.reset
  dsl := DslState.reset
  usl := UslState.reset
  act := ActState.reset
  cph := CphState.reset
  crt := CrtState.reset
  flc := FlcState.reset
  cst := CstState.reset
  pwr := PwrState.reset
  cls := ClsState.reset
  eth := EthState.reset
  pnd := PndState.reset
  tim := TimState.reset
  tdm := TdmState.reset
  msh := MshState.reset
  fio := FioState.reset

end Sys2Proof.Machine
end

