-- ==== Sys2Proof/Machine/Ops.lean ====
section
/-!
DEFINITION. The named operations of the terminal over its state: sparse stores, register words and fields,
free values, what leaves the block, interrupt vectors, fault records, niche reset requests and device
warm reset.
-/

namespace Sys2Proof.Machine

open Sys2Proof

/-! ### Sparse stores

A store is a list of (key, value) pairs in one canonical form: keys strictly rising and no entry equal to
what an unlisted key reads as. -/

/-- The value at key k; an unlisted key reads d k. -/
def storeGet {α : Type} (d : Nat → α) (m : List (Nat × α)) (k : Nat) : α :=
  match m.find? (fun p => p.1 == k) with
  | some p => p.2
  | none => d k

/-- m with the pair (k, v) put in its place among keys that do not hold k. -/
def storeInsert {α : Type} (k : Nat) (v : α) : List (Nat × α) → List (Nat × α)
  | [] => [(k, v)]
  | p :: m => if k < p.1 then (k, v) :: p :: m else p :: storeInsert k v m

/-- m without key k. -/
def storeErase {α : Type} (m : List (Nat × α)) (k : Nat) : List (Nat × α) := m.filter (fun p => p.1 != k)

/-- m with value v at key k, in canonical form. -/
def storeSet {α : Type} [DecidableEq α] (d : Nat → α) (m : List (Nat × α)) (k : Nat) (v : α) :
    List (Nat × α) :=
  if v = d k then storeErase m k else storeInsert k v (storeErase m k)

/-- The canonical form of a store. -/
def storeWf {α : Type} [DecidableEq α] (d : Nat → α) : List (Nat × α) → Bool
  | [] => true
  | p :: m => decide (p.2 ≠ d p.1) && m.all (fun q => decide (p.1 < q.1)) && storeWf d m

/-! ### Registers -/

/-- The word held for the register at address a. -/
def State.word (s : State) (a : Nat) : Word := storeGet resetWord s.regs a

/-- s with word w in the register at address a. -/
def State.setWord (s : State) (a : Nat) (w : Word) : State :=
  { s with regs := storeSet resetWord s.regs a w }

/-- The value of a field. -/
def State.get (s : State) (f : Field) : Nat := bits (s.word f.addr).toNat f.hi f.lo

/-- A one-bit field is set. -/
def State.on (s : State) (f : Field) : Bool := s.get f == 1

/-- The value of a field read as a signed number. -/
def State.getS (s : State) (f : Field) : Int := toSigned (f.hi + 1 - f.lo) (s.get f)

/-- s with value v in a field; every other bit of the register is kept. -/
def State.put (s : State) (f : Field) (v : Nat) : State :=
  s.setWord f.addr (putBits (s.word f.addr) f.hi f.lo v)

/-- s with a signed value in a field. -/
def State.putS (s : State) (f : Field) (v : Int) : State := s.put f (ofSigned (f.hi + 1 - f.lo) v)

/-- s with a one-bit field set to b. -/
def State.putB (s : State) (f : Field) (b : Bool) : State := s.put f (bitNat b)

/-- Largest value of a field. -/
def fieldMax (f : Field) : Nat := 2 ^ (f.hi + 1 - f.lo) - 1

/-- s with n added to a counter that saturates. -/
def State.satBy (s : State) (f : Field) (n : Nat) : State := s.put f (min (s.get f + n) (fieldMax f))

/-- s with one added to a counter that saturates (assumption 14, DEDUCED). -/
def State.sat (s : State) (f : Field) : State := s.satBy f 1

/-- s with one added to a counter that wraps (assumption 14, DEDUCED). -/
def State.wrap (s : State) (f : Field) : State := s.put f (s.get f + 1)

/-- s with bit i of a field set. -/
def State.mark (s : State) (f : Field) (i : Nat) : State := s.put f (setBit (s.get f) i)

/-- s with bit i of a field clear. -/
def State.unmark (s : State) (f : Field) (i : Nat) : State := s.put f (clrBit (s.get f) i)

/-- Bit i of a field is set. -/
def State.marked (s : State) (f : Field) (i : Nat) : Bool := bit (s.get f) i

/-- f applied to s when c holds, s otherwise. -/
def State.when (s : State) (c : Bool) (f : State → State) : State := if c then f s else s

/-- f applied to s for each element of a list in turn. -/
def State.each {α : Type} (s : State) (l : List α) (f : α → State → State) : State :=
  l.foldl (fun a x => f x a) s

/-! ### Free values, what leaves the block, time -/

/-- The next free value (assumption 3, DESIGN CHOICE; assumption 93, DESIGN CHOICE). -/
def State.free (s : State) : Nat := Config.freeNat s.freeCount

/-- s after a free value has been taken (assumption 3, DESIGN CHOICE). -/
def State.tookFree (s : State) : State := { s with freeCount := s.freeCount + 1 }

/-- s after it has sent e (assumption 4, DESIGN CHOICE). -/
def State.send (s : State) (e : Emit) : State := { s with sent := e :: s.sent }

/-- n nanoseconds have passed since instant t. -/
def State.since (s : State) (t n : Nat) : Bool := decide (t + n ≤ s.clk)

/-- One microsecond, millisecond and second in cycles of the 1 GHz clock. -/
abbrev us : Nat := 1000
abbrev ms : Nat := 1000000
abbrev sec : Nat := 1000000000

/-- Domain PDd is on. -/
def State.domainOn (s : State) (d : Nat) : Bool := bit s.pwr.on d

/-! ### The structure in force -/

/-- The section of niche n in the accepted structure. -/
def State.section (s : State) (n : Nat) : Option NicheSec :=
  s.arm.accepted.bind (fun x => (x.secs.find? (fun p => p.1 == n)).map (fun p => p.2))

/-- The device section of the accepted structure. -/
def State.device (s : State) : Option DevSec := s.arm.accepted.map (fun x => x.dev)

/-- A property of the section of niche n; false where the niche has none. -/
def State.owns (s : State) (n : Nat) (p : NicheSec → Bool) : Bool :=
  match s.section n with
  | some x => p x
  | none => false

/-- The niche, if any, whose section has property p. -/
def State.ownerWith (s : State) (p : NicheSec → Bool) : Option Nat :=
  (List.range 16).find? (fun n => s.owns n p)

/-- Niche n exists (R210, R211). -/
def State.exists_ (s : State) (n : Nat) : Bool := n == 0 || bit (s.get ARM_NICHES_niches) n

/-- The queue group that names QID q in a section. -/
def groupOf (x : NicheSec) (q : Nat) : Option QueueGroup :=
  x.queues.find? (fun g => decide (g.first ≤ q) && decide (q < g.first + g.count))

/-- The niche whose PORTS bit names Ethernet port p (R241). -/
def State.ethOwner (s : State) (p : Nat) : Option Nat := s.ownerWith (fun x => bit x.eth p)

/-- Section x of niche n names QID q in a group that counts: a role-2 group only where niche n owns its port, and as the
first that names that port (R242). -/
def State.namesQid (s : State) (n : Nat) (x : NicheSec) (q : Nat) : Bool :=
  match groupOf x q with
  | none => false
  | some g => g.role != 2 || (s.ethOwner g.port == some n &&
      (x.queues.find? (fun h => h.role == 2 && h.port == g.port)) == some g)

/-- Owner of QID q; none where no QUEUES entry names it, or R242 takes it as unassigned (Table 3.1). -/
def State.qidOwner (s : State) (q : Nat) : Option Nat :=
  (List.range 16).find? (fun n => match s.section n with
    | some x => s.namesQid n x q
    | none => false)

/-- The queue group of QID q. -/
def State.qidGroup (s : State) (q : Nat) : Option QueueGroup :=
  (s.qidOwner q).bind (fun n => (s.section n).bind (fun x => groupOf x q))

/-- Owner of allocation index a. -/
def State.allocOwner (s : State) (a : Nat) : Option Nat :=
  s.ownerWith (fun x => x.allocs.any (fun e => e.1 == a))

/-- First QID of the class group of allocation index a. -/
def State.allocBase (s : State) (a : Nat) : Option Nat :=
  (s.allocOwner a).bind (fun n => (s.section n).bind (fun x =>
    (x.allocs.find? (fun e => e.1 == a)).map (fun e => e.2)))

/-- Allocation index and class of a role-1 QID. -/
def State.allocOfQid (s : State) (q : Nat) : Option (Nat × Nat) :=
  (s.qidOwner q).bind (fun n => (s.section n).bind (fun x =>
    (x.allocs.find? (fun e => decide (e.2 ≤ q) && decide (q < e.2 + 8))).map (fun e => (e.1, q - e.2))))

/-- Owner of key slot k; none means the PF (R405). -/
def State.slotOwner (s : State) (k : Nat) : Option Nat :=
  s.ownerWith (fun x => x.keys.any (fun e => decide (e.1 ≤ k) && decide (k < e.1 + e.2)))

/-- Owner of TDM tributary or C37.94 port t (8 to 11), TOUT k, TIN i, DIN, DOUT. -/
def State.tdmOwner (s : State) (t : Nat) : Option Nat :=
  s.ownerWith (fun x => if t < 8 then bit x.trib t else bit x.c37 (t - 8))
def State.toutOwner (s : State) (k : Nat) : Option Nat := s.ownerWith (fun x => bit x.tout k)
def State.tinOwner (s : State) (i : Nat) : Option Nat := s.ownerWith (fun x => bit x.tin i)
def State.dinOwner (s : State) (i : Nat) : Option Nat := s.ownerWith (fun x => bit x.din i)
def State.doutOwner (s : State) (k : Nat) : Option Nat := s.ownerWith (fun x => bit x.dout k)
def State.ainOwner (s : State) (n : Nat) : Option Nat := s.ownerWith (fun x => bit x.ain n)
def State.loopOwner (s : State) (j : Nat) : Option Nat := s.ownerWith (fun x => bit x.loops j)

/-- Owner of policer i: the niches' policers follow one another in niche order (assumption 24, DEDUCED). -/
def State.policerOwner (s : State) (i : Nat) : Option Nat :=
  let f := fun (a : Nat × Option Nat) (n : Nat) =>
    let k := match s.section n with | some x => x.policers | none => 0
    (a.1 + k, if a.2.isNone && decide (a.1 ≤ i) && decide (i < a.1 + k) then some n else a.2)
  ((List.range 16).foldl f (0, none)).2

/-- Owner of profile p; none means the PF. -/
def State.profileOwner (s : State) (p : Nat) : Option Nat := s.ownerWith (fun x => bit x.profiles p)

/-- Ring r of niche n: its r-th role-0 QID in ascending order (spec/16, Host rings). -/
def ringQids (x : NicheSec) : List Nat :=
  (List.range 2048).filter (fun q => match groupOf x q with | some g => g.role == 0 | none => false)

/-- QID of ring r of niche n. -/
def State.ringQid (s : State) (n r : Nat) : Option Nat :=
  (s.section n).bind (fun x => (ringQids x)[r]?)

/-! ### Functions and interrupt vectors (spec/16, MSI-X) -/

/-- VF v is usable (R425): v from 1 to 16 serves niche v - 1. -/
def State.usable (s : State) (v : Nat) : Bool :=
  decide (1 ≤ v) && decide (v ≤ s.get HIF_STATUS_num_vfs) && s.on HIF_STATUS_vf_enable &&
    s.exists_ (v - 1) && s.owns (v - 1) (fun x => x.vf) && !s.flt.fatal

/-- The function that serves niche n (R426): 0 is the PF. -/
def State.servedBy (s : State) (n : Nat) : Option Nat :=
  if s.usable (n + 1) then some (n + 1)
  else if n == 0 && !s.owns 0 (fun x => x.vf) then some 0 else none

/-- A function of the PCI Express interface. -/
def State.fn (s : State) (f : Nat) : FnState := s.hif.fns.getD f ⟨false, false, false, 0⟩

/-- s with function f changed by g. -/
def State.modFn (s : State) (f : Nat) (g : FnState → FnState) : State :=
  { s with hif := { s.hif with fns := s.hif.fns.modify f g } }

/-- Reset word of an MSI-X table entry: the vector control word of each entry resets with its mask bit set
(MSI-X capability; assumption 8, PRESUMED). -/
def msixReset (k : Nat) : Word := if k % 16 = 12 then 1 else 0

/-- Word of function f's MSI-X table at a byte offset. -/
def State.msixWord (s : State) (f off : Nat) : Word := storeGet msixReset s.hif.table (f * 4096 + off)

/-- s with word w at byte offset off of the MSI-X table of function f. -/
def State.putMsix (s : State) (f off : Nat) (w : Word) : State :=
  { s with hif := { s.hif with table := storeSet msixReset s.hif.table (f * 4096 + off) w } }

/-- Vector v of function f may be sent now: MSI-X enabled, Bus Master Enable set, nothing masked. -/
def State.mayInterrupt (s : State) (f v : Nat) : Bool :=
  (s.fn f).bme && (s.fn f).msix && !(s.fn f).mask && !bit (s.msixWord f (16 * v + 12)).toNat 0

/-- The words of a message with its CRC-32 (R448). -/
def withCrc (m : List Word) : List Word := m ++ [BitVec.ofNat 32 (crc32 (wordBytes m))]

/-- s with the NOTICE that carries the vectors owed, where the transmit FIFO can hold it (R458). -/
def State.sendNotice (s : State) : State :=
  if s.sup.notice = 0 || decide (s.sup.port.tx.length + 4 > 256) then s
  else
    let hdr : Word := BitVec.ofNat 32 (2 ^ 31 + 12 * 2 ^ 26 + s.sup.noticeTag.toNat * 64 + 2)
    let m := withCrc [hdr, s.sup.notice.zeroExtend 32, BitVec.ofNat 32 s.flt.devLog.next]
    { s with sup := { s.sup with port := { s.sup.port with tx := s.sup.port.tx ++ m },
                                 notice := 0, noticeTag := s.sup.noticeTag + 1 } }

/-- s after vector v of function f has been raised: sent, or left pending. -/
def State.raiseFn (s : State) (f v : Nat) : State :=
  if s.mayInterrupt f v then s.send (.msix f v)
  else s.modFn f (fun x => { x with pba := x.pba ||| BitVec.ofNat 68 (2 ^ v) })

/-- s after PF vector v has been raised, with its NOTICE to the supervisor (R458). -/
def State.raisePf (s : State) (v : Nat) : State :=
  let s := s.raiseFn 0 v
  if s.on SUP_CTRL_notify && decide (v < 14) then
    { s with sup := { s.sup with notice := s.sup.notice ||| BitVec.ofNat 14 (2 ^ v) } }.sendNotice
  else s

/-- s after vector v (0 to 67) of niche n has been raised on the function that serves it (Table 16.10). -/
def State.raiseNiche (s : State) (n v : Nat) : State :=
  match s.servedBy n with
  | some 0 => if v < 49 then s.raiseFn 0 (14 + v) else if v < 64 then s.raiseFn 0 63 else s
  | some f => s.raiseFn f v
  | none => s

/-! ### Fault records (spec/22) -/

/-- Class of a fault code (Table 22.5): 0 NOTE, 1 ALERT, 2 RESET, 3 FATAL. -/
def classOf (code : Nat) : Nat :=
  if code = 0x1507 then 3
  else if code ∈ [0x0203, 0x0206, 0x1501, 0x1502, 0x1503, 0x1505, 0x1506] then 2
  else if code ∈ [0x0202, 0x0401, 0x0701, 0x0702, 0x0D0A, 0x0E01, 0x0E02, 0x0E04, 0x1101, 0x1307, 0x130D,
      0x1504, 0x0903, 0x0E0B, 0x0F03] then 1
  else 0

/-- Data of a record (R542): index in [47:40], second index in [39:32], value in [31:0]. -/
def fdata (index second value : Nat) : Nat :=
  index % 256 * 2 ^ 40 + second % 256 * 2 ^ 32 + value % 2 ^ 32

/-- l with record r written: its class, seq, nesting and link are set here (R543, R544). -/
def FaultLog.add (l : FaultLog) (cap : Nat) (r : LogRec) : FaultLog :=
  let c := classOf r.code
  let nest := decide (c ≠ 0) && !l.opened.isEmpty
  let r' := { r with cls := c, seq := l.next, nested := nest,
                     link := if nest then l.opened.headD 0 else 0xFFFFFFFF }
  { recs := (r' :: l.recs).take cap, next := (l.next + 1) % 2 ^ 32,
    opened := if c = 1 then l.opened ++ [l.next] else l.opened }

/-- The timebase, in ns (R307), and a stamp on it in 2⁻¹⁶ ns with the given 2⁻⁴ ns (R309; assumption 15, DESIGN CHOICE). -/
def State.tb (s : State) : Nat := s.clk - s.tim.zero
def State.stampAt (s : State) (frac : Nat) : Nat := s.tb * 65536 + frac % 16 * 4096

/-- A record that states code, niche field, count and data, stamped with counter and timebase. -/
def State.mkRec (s : State) (code niche count data : Nat) : LogRec :=
  { code := code, niche := niche, cls := 0, nested := false, escalated := false, seq := 0, link := 0,
    fc := s.tick.fc % 2 ^ 32, ts := s.tb, count := min count 0xFFFF, data := data % 2 ^ 48 }

/-- s after a record of the FLT block raised PF vector 0 (R550), which waits for the end of bring-up. -/
def State.raiseFlt (s : State) (code : Nat) : State :=
  if code / 256 = 0x15 ∧ classOf code = 3 then s.raisePf 0
  else if code / 256 = 0x15 ∧ classOf code = 2 then
    if s.flt.phase = .up then s.raisePf 0 else { s with flt := { s.flt with deferred := true } }
  else s

/-- s with a record in the device log, covering count occurrences. -/
def State.logDevN (s : State) (code niche count data : Nat) : State :=
  let s' := { s with flt := { s.flt with devLog := s.flt.devLog.add 64 (s.mkRec code niche count data) } }
  (s'.when (classOf code == 1) (fun t => t.raisePf 0)).raiseFlt code

/-- s with a record in the device log. -/
def State.logDev (s : State) (code niche data : Nat) : State := s.logDevN code niche 1 data

/-- s with a record in the log of niche n, without regard to escalation. -/
def State.logNicheRaw (s : State) (n code count data : Nat) (esc : Bool) : State :=
  let r := { s.mkRec code n count data with escalated := esc }
  let s' := { s with flt := { s.flt with nicheLogs := s.flt.nicheLogs.modify n (fun l => l.add 32 r) } }
  s'.when (classOf code == 1) (fun t => t.raiseNiche n 64)

/-- The log of niche n. -/
def State.nicheLog (s : State) (n : Nat) : FaultLog := s.flt.nicheLogs.getD n .empty

/-- s with one more occurrence of a rate-limited condition (R542): log 16 is the device log; conditions of one code that a rule
counts apart are told apart by their kind (assumption 27, DESIGN CHOICE). -/
def State.limitKind (s : State) (log code niche kind data : Nat) : State :=
  let same := fun (r : LimRec) => r.log == log && r.code == code && r.niche == niche && r.kind == kind
  let l := s.flt.limited
  let l' := if l.any same then l.map (fun r => if same r then { r with count := r.count + 1 } else r)
            else l ++ [⟨log, code, niche, kind, 1, data⟩]
  { s with flt := { s.flt with limited := l' } }

/-- s with one more occurrence of the rate-limited condition of a code. -/
def State.limit (s : State) (log code niche data : Nat) : State := s.limitKind log code niche 0 data

/-- One occurrence of a rate-limited condition of the device log. -/
def State.limDev (s : State) (code niche data : Nat) : State := s.limit 16 code niche data

/-- One occurrence of a rate-limited condition of the log of niche n. -/
def State.limNiche (s : State) (n code data : Nat) : State := s.limit n code n data

/-! ### Niche reset requests (R225, R548, R558, R585) -/

/-- Niche reset of niche n. -/
def State.nreset (s : State) (n : Nat) : NicheReset := s.nres.getD n .none

/-- s with the niche reset of n changed by g. -/
def State.modNreset (s : State) (n : Nat) (g : NicheReset → NicheReset) : State :=
  { s with nres := s.nres.modify n g }

/-- Niche n is in niche reset or held in it, or a Cast has frozen: its ingress is closed (R225, R526, R558). -/
def State.closed (s : State) (n : Nat) : Bool :=
  (s.nreset n).active || !(s.nreset n).holds.isEmpty || s.cst.freezing

end Sys2Proof.Machine
end

