-- ==== Sys2Proof/Machine/FlcOps.lean ====
section
/-!
DEFINITION. What the flash arrays hold and how the controller's own writes change it: program units, the
sector-state table and the bank selector (spec/20_flash_arrays.md, R502, R511 to R514).
-/

namespace Sys2Proof.Machine

open Sys2Proof

/-! ### Program units -/

/-- Flash address of byte o of sector t (0 to 4,095) of a bank. -/
def flashAddr (bank t o : Nat) : Nat := bank * 2 ^ 24 + t * 4096 + o

/-- An erased unit (assumption 38, PRESUMED). -/
def erasedUnit : List Byte := List.replicate 32 0xFF

/-- The 32 bytes stored in the unit that holds flash address a. -/
def State.unit (s : State) (a : Nat) : List Byte := storeGet (fun _ => erasedUnit) s.flc.units (a / 32)

/-- s with those bytes changed to b. -/
def State.setUnit (s : State) (a : Nat) (b : List Byte) : State :=
  { s with flc := { s.flc with units := storeSet (fun _ => erasedUnit) s.flc.units (a / 32) b,
                               badUnits := s.flc.badUnits.filter (fun u => u != a / 32) } }

/-- The unit that holds flash address a reads with an uncorrectable error. -/
def State.badUnit (s : State) (a : Nat) : Bool := s.flc.badUnits.contains (a / 32)

/-- n stored bytes from flash address a (assumption 57, DEDUCED). -/
def State.flashBytes (s : State) (a n : Nat) : List Byte :=
  (((List.range (ceilDiv (a % 32 + n) 32)).flatMap (fun i => s.unit (a - a % 32 + 32 * i))).drop (a % 32)).take n

/-- s with every unit of a sector (bank × 4,096 + sector) erased. -/
def State.eraseSector (s : State) (t : Nat) : State :=
  { s with flc := { s.flc with
    units := s.flc.units.filter (fun p => p.1 / 128 != t)
    badUnits := s.flc.badUnits.filter (fun u => u / 128 != t)
    torn := s.flc.torn.filter (fun x => x != t) } }

/-! ### Records (Table 20.3) -/

/-- A 32-byte record with its CRC. -/
def flashRec (magic : Nat) (b2 b3 seq h8 : Nat) : List Byte :=
  let b := beBytes 2 magic ++ beBytes 1 b2 ++ beBytes 1 b3 ++ beBytes 4 seq ++ beBytes 2 h8 ++ zeros 18
  b ++ beBytes 4 (crc32 b)

/-- A unit holds a readable record of a magic (its CRC checks and it reads without ecc). -/
def State.validRec (s : State) (magic a : Nat) : Bool :=
  let u := s.unit a
  !s.badUnit a && beAt u 0 2 == magic && beAt u 28 4 == crc32 (u.take 28)

/-! ### The sector-state table (R511 to R513) -/

/-- Flash address of unit i of half h of the state table's copy c. -/
def stateUnit (c h i : Nat) : Nat := flashAddr c (4 + 2 * h) (32 * i)

/-- Half number of a half whose header is valid. -/
def State.halfNumber (s : State) (c h : Nat) : Option Nat :=
  let a := stateUnit c h 0
  if s.validRec 0x5354 a && byteAt (s.unit a) 2 == 0 then some (beAt (s.unit a) 4 4) else none

/-- The half of copy c that is in use, with its number. -/
def State.halfInUse (s : State) (c : Nat) : Option (Nat × Nat) :=
  match s.halfNumber c 0, s.halfNumber c 1 with
  | some a, some b => if a < b then some (1, b) else some (0, a)
  | some a, none => some (0, a)
  | none, some b => some (1, b)
  | none, none => none

/-- The last state record of a sector in copy c: 1 OPEN, 2 CLOSE. -/
def State.lastRecord (s : State) (c t : Nat) : Option Nat :=
  (s.halfInUse c).bind (fun h =>
    ((List.range' 1 255).reverse.find? (fun i =>
      let a := stateUnit c h.1 i
      s.validRec 0x5354 a && byteAt (s.unit a) 2 != 0 && beAt (s.unit a) 8 2 == t)).map
      (fun i => byteAt (s.unit (stateUnit c h.1 i)) 2))

/-- Sector t (bank × 4,096 + sector) is ERASE_OPEN (R511). -/
def State.eraseOpen (s : State) (t : Nat) : Bool :=
  s.lastRecord 0 t == some 1 || s.lastRecord 1 t == some 1

/-- The ERASE_OPEN sectors. -/
def State.openSectors (s : State) : List Nat :=
  let named := (List.range 2).flatMap (fun c => match s.halfInUse c with
    | some h => (List.range' 1 255).filterMap (fun i =>
        let a := stateUnit c h.1 i
        if s.validRec 0x5354 a then some (beAt (s.unit a) 8 2) else none)
    | none => [])
  named.eraseDups.filter s.eraseOpen

/-- s with records written into half h of copy c from unit i on. -/
def State.putRecords (s : State) (c h i : Nat) (l : List (Nat × Nat)) : State :=
  (l.foldl (fun (a : State × Nat) (r : Nat × Nat) =>
    (a.1.setUnit (stateUnit c h a.2) (flashRec 0x5354 r.1 0 a.2 r.2), a.2 + 1)) (s, i)).1

/-- s with a state record (op 1 OPEN, 2 CLOSE) of sector t appended to copy c (R511), the halves changing over where
the one in use is full (R512). -/
def State.appendState (s : State) (c op t : Nat) : State :=
  match s.halfInUse c with
  | none => (s.setUnit (stateUnit c 0 0) (flashRec 0x5354 0 0 0 0)).putRecords c 0 1 [(op, t)]
  | some (h, n) =>
    match (List.range' 1 255).find? (fun i => s.unit (stateUnit c h i) == erasedUnit) with
    | some i => s.putRecords c h i [(op, t)]
    | none =>
      let l := s.openSectors.map (fun x => (1, x))
      let s := s.setUnit (stateUnit c (1 - h) 0) (flashRec 0x5354 0 0 (n + 1) 0)
      let s := (s.putRecords c (1 - h) 1 l).eraseSector (c * 4096 + 4 + 2 * h)
      (s.eraseSector (c * 4096 + 5 + 2 * h)).putRecords c (1 - h) (1 + l.length) [(op, t)]

/-- s with the record appended to copy 0 and then to copy 1. -/
def State.markSector (s : State) (op t : Nat) : State := (s.appendState 0 op t).appendState 1 op t

/-! ### The bank selector (R514, R527) -/

/-- A selector record: bank, trial, seq, attempts. -/
structure Selector where
  bank : Nat
  trial : Bool
  seq : Nat
  attempts : Nat
  deriving DecidableEq, Repr

/-- The valid selector records of both copies. -/
def State.selectors (s : State) : List Selector :=
  (List.range 256).filterMap (fun i =>
    let a := flashAddr (i / 128) 0 (32 * (i % 128))
    let u := s.unit a
    if s.validRec 0x5345 a then some ⟨byteAt u 2 % 2, bit (byteAt u 3) 0, beAt u 4 4, beAt u 8 2⟩ else none)

/-- The newest valid selector record. -/
def State.selector (s : State) : Option Selector :=
  s.selectors.foldl (fun (a : Option Selector) (r : Selector) => match a with
    | some x => if x.seq < r.seq then some r else a
    | none => some r) none

/-- The bank that the selector names, bank 0 where no record is valid (R514). -/
def State.selectorBank (s : State) : Nat := match s.selector with | some r => r.bank | none => 0

/-- The active bank: the one that the boot ROM started, which is the selector's unless it fell back (R514;
assumption 84, DEDUCED). -/
def State.activeBank (s : State) : Nat := if s.on FLC_BOOT_fallback then s.get FLC_BOOT_bank else s.selectorBank

/-- s with a selector record appended to copy c; a full copy is erased and restarted with it. -/
def State.putSelector (s : State) (c : Nat) (r : Selector) : State :=
  let rec_ := flashRec 0x5345 r.bank (bitNat r.trial) r.seq r.attempts
  match (List.range 128).find? (fun i => s.unit (flashAddr c 0 (32 * i)) == erasedUnit) with
  | some i => s.setUnit (flashAddr c 0 (32 * i)) rec_
  | none => (s.eraseSector (c * 4096)).setUnit (flashAddr c 0 0) rec_

/-- s with a selector record naming a bank appended to the copy in bank 0 and then to the copy in bank 1. -/
def State.select (s : State) (bank : Nat) (trial : Bool) (attempts : Nat) : State :=
  let r : Selector := ⟨bank, trial, (match s.selector with | some x => x.seq + 1 | none => 0), attempts⟩
  (s.putSelector 0 r).putSelector 1 r

/-! ### A reset -/

/-- Sector (bank × 4,096 + sector) and bank of a flash address. -/
def sectorOf (a : Nat) : Nat := a / 4096 % 8192
def bankOf (a : Nat) : Nat := a / 2 ^ 24 % 2

/-- n bytes that the spec leaves open: the bytes of one free value. -/
def State.freeBytes (s : State) (n : Nat) : List Byte := beBytes n s.free

/-- What a reset leaves of the flash (Table 22.2): the contents. A program that it cut leaves its unit with ecc set or with
mixed bits, which is open; an erase that it cut leaves its sector ERASE_OPEN (spec/20, If a program is
interrupted by reset; assumption 58, DEDUCED). -/
def State.flashAfterReset (s : State) : FlcState :=
  let cut := fun (o : Option FlashOp) => match o with
    | some x => if x.erase then [sectorOf x.addr] else []
    | none => []
  let t := match s.flc.active with
    | some o => if o.erase then s
      else
        let u := s.setUnit o.addr (s.freeBytes 32)
        if s.free % 2 = 0 then u
        else { u with flc := { u.flc with badUnits := u.flc.badUnits ++ [o.addr / 32] } }
    | none => s
  { FlcState.reset with
    units := t.flc.units, badUnits := t.flc.badUnits
    torn := s.flc.torn ++ cut s.flc.active ++ cut s.flc.susp }

end Sys2Proof.Machine
end

