-- ==== Sys2Proof/Machine/Stops.lean ====
section
/-!
DEFINITION. What ends with a niche or with a domain: circuits and members (spec/11), binary outputs and the queues of
the binary inputs (R396).
-/

namespace Sys2Proof.Machine

open Sys2Proof

/-! ### Circuits and members -/

/-- Circuit c and member m. -/
def State.circuit (s : State) (c : Nat) : Circuit := s.tdm.circuits.getD c ⟨[], 0, 0, 0, 0, none⟩
def State.setCircuit (s : State) (c : Nat) (x : Circuit) : State :=
  { s with tdm := { s.tdm with circuits := s.tdm.circuits.set c x } }
def State.mem (s : State) (m : Nat) : Member := s.tdm.members.getD m ⟨[], 1, none, none, none, false⟩
def State.setMem (s : State) (m : Nat) (x : Member) : State :=
  { s with tdm := { s.tdm with members := s.tdm.members.set m x } }

/-- The valid members of circuit c, in ascending order. -/
def State.membersOf (s : State) (c : Nat) : List Nat :=
  (List.range 48).filter (fun m => s.on (TDM_MEM_CFG_valid m) && s.get (TDM_MEM_CFG_circuit m) == c)

/-- Owner of circuit c. -/
def State.circuitOwner (s : State) (c : Nat) : Option Nat := s.tdmOwner (s.get (TDM_CIR_CFG_port c))

/-- Valid member m sends nothing upstream, because the allocation of its flow is bound (R305). -/
def State.memberBlocked (s : State) (m : Nat) : Bool :=
  s.on (TDM_MEM_CFG_valid m) && !s.on (TDM_MEM_CFG_path m) &&
    s.on (USL_ALLOC_bound (s.get (USL_FID_alloc (s.get (TDM_MEM_CFG_ufid m)))))

/-- Queued SDUs of member m (or 48 + relay) are discarded as UP_STALE. -/
def State.dropMembers (s : State) (m : Nat) : State :=
  let k := (s.usl.members.filter (fun x => x.member == m)).length
  let s := if m < 48 then s.satBy (TDM_MEM_CNT_count m 7) k else s
  { s with usl := { s.usl with members := s.usl.members.filter (fun x => x.member != m) } }

/-- The playout of circuit c becomes unstarted, its slots are cleared. -/
def State.unstart (s : State) (c : Nat) : State :=
  let x := s.circuit c
  (s.putB (TDM_CIR_STATUS_started c) false).setCircuit c { x with slots := [], wait := 0, early := 0, fills := 0 }

/-! ### Binary outputs and inputs (R396) -/

/-- Binary output k. -/
def State.dout (s : State) (k : Nat) : DoutState := s.fio.douts.getD k ⟨none, none⟩
def State.setDout (s : State) (k : Nat) (x : DoutState) : State :=
  { s with fio := { s.fio with douts := s.fio.douts.set k x } }

/-- Output k is switched. -/
def State.switchDout (s : State) (k : Nat) (b : Bool) : State :=
  ((s.putB (TIM_DOUT_STAT_driven k) b).putB (TIM_DOUT_STAT_readback k) b).send (.dout k b)

/-- Output k goes off, whatever drove it. -/
def State.doutOff (s : State) (k : Nat) : State :=
  let s := (s.putB (TIM_DOUT_CMD_on k) false).putB (TIM_DOUT_STAT_limiting k) false
  let was := s.on (TIM_DOUT_STAT_driven k)
  (s.setDout k ⟨none, none⟩).when was (fun t => t.switchDout k false)

/-- The FIFO of binary input i is emptied, its entries counted in dropped. -/
def State.emptyDin (s : State) (i : Nat) : State :=
  let x := s.fio.dins.getD i ⟨.empty, 0, none, none, [], false, 0⟩
  let s := (s.satBy (TIM_DIN_STAT_dropped i) x.fifo.entries.length).put (TIM_DIN_STAT_count i) 0
  { s with fio := { s.fio with dins := s.fio.dins.set i { x with fifo := { x.fifo with entries := [] } } } }

/-- What the request of a niche reset ends in the field points and circuits of niche n (R396; spec/11, "If the owning niche
enters niche reset"). -/
def State.stopPoints (s : State) (n : Nat) : State :=
  let s := s.each ((List.range 4).filter (fun k => s.doutOwner k == some n && !s.on (TIM_DOUT_CFG_safe k)))
    (fun k t => t.doutOff k)
  let s := s.each ((List.range 8).filter (fun i => s.dinOwner i == some n)) (fun i t => t.emptyDin i)
  s.each ((List.range 12).filter (fun c => s.on (TDM_CIR_CFG_valid c) && s.circuitOwner c == some n))
    (fun c t => (t.each (t.membersOf c) (fun m u => u.dropMembers m)).unstart c)

end Sys2Proof.Machine
end

