-- ==== Sys2Proof/Machine/Resets.lean ====
section
/-!
DEFINITION. Device warm reset, the FATAL latch, niche reset requests and the escalation of fault records
(spec/22_faults_and_resets.md, R225, R536 to R548, R558, R585).
-/

namespace Sys2Proof.Machine

open Sys2Proof

/-- A register store with each word changed by f, in canonical form. -/
def remapRegs (m : List (Nat × Word)) (f : Nat → Word → Word) : List (Nat × Word) :=
  m.filterMap (fun e => if f e.1 e.2 = resetWord e.1 then none else some (e.1, f e.1 e.2))

/-- The bits of a word that access code RS keeps. -/
def keptBits (a : Nat) : Word := match rowOf a with | some r => r.kept | none => 0

/-- A word with its RS bits kept and the rest at the reset value (R10). -/
def wordReset (a : Nat) (w : Word) : Word := (w &&& keptBits a) ||| (resetWord a &&& ~~~(keptBits a))

/-- A word with its RS bits at the reset value, as cold reset leaves them. -/
def wordForget (a : Nat) (w : Word) : Word := (w &&& ~~~(keptBits a)) ||| (resetWord a &&& keptBits a)

/-- The registers after device warm reset: the bits of access code RS keep their value, the others take
their reset value (R10). -/
def keepRegs (m : List (Nat × Word)) : List (Nat × Word) := remapRegs m wordReset

/-- s with every pending rate-limited record of the device log written, with its count so far (R542). -/
def State.flushDevice (s : State) : State :=
  let s' := (s.flt.limited.filter (fun r => r.log == 16)).foldl
    (fun t r => t.logDevN r.code r.niche r.count r.data) s
  { s' with flt := { s'.flt with limited := s'.flt.limited.filter (fun r => r.log != 16) } }

/-- FLT_CAUSE and its history after a reset with the given cause; boot is FLT_BOOT_CNT after its
increment (R536). -/
def State.recordCause (s : State) (cause boot : Nat) : State :=
  let s1 := s.each ((List.range 7).reverse) (fun k t =>
    (t.put (FLT_CAUSE_HIST_boot (k + 1)) (t.get (FLT_CAUSE_HIST_boot k))).put
      (FLT_CAUSE_HIST_cause (k + 1)) (t.get (FLT_CAUSE_HIST_cause k)))
  let s2 := (s1.put (FLT_CAUSE_HIST_boot 0) (s1.get FLT_CAUSE_boot)).put (FLT_CAUSE_HIST_cause 0)
    (s1.get FLT_CAUSE_cause)
  (s2.put FLT_CAUSE_boot boot).put FLT_CAUSE_cause cause

/-- What a device warm reset leaves of s: every field at its reset value but what Table 22.2 keeps, namely
the RS registers, the device log, the contents of flash and the latches of the plinth. -/
def survive (s : State) : State :=
  { State.reset with
    pending := s.pending, fuse := s.fuse, clk := s.clk, freeCount := s.freeCount + 2, sent := s.sent,
    regs := keepRegs s.regs,
    flt := { FltState.reset with
      fatal := s.flt.fatal, devLog := s.flt.devLog, rstLow := s.flt.rstLow, testEn := s.flt.testEn, strapDue := s.flt.strapDue, borDue := s.flt.borDue,
      bootCount := s.flt.bootCount, borLoad := s.flt.borLoad, borSupply := s.flt.borSupply },
    arm := { ArmState.reset with trust := s.arm.trust, floor := s.arm.floor },
    flc := s.flashAfterReset,
    cst := { CstState.reset with prior := s.get CST_STATUS_state, priorEarly := s.on CST_STATUS_early },
    cph := { CphState.reset with sealed := s.cph.sealed },
    usl := { UslState.reset with apcSince := [s.clk, s.clk] },
    sup := { SupState.reset with mode := s.sup.mode },
    crt := { CrtState.reset with patches := s.crt.patches },
    pwr := { PwrState.reset with
      wakeLow := s.pwr.wakeLow, mains := s.pwr.mains, mainsAt := s.pwr.mainsAt, supplyLow := s.pwr.supplyLow },
    tim := { TimState.reset with zero := s.clk } }

/-- SAFE_OFF for a cause of Table 5.8: the laser is held off, and an entry to SAFE_OFF is logged with its cause bits (R150). -/
def State.safeFor (s : State) (cause : Nat) : State :=
  let old := s.get USL_SAFE_cause
  let s := ((s.mark USL_SAFE_cause cause).put USL_STATUS_laser 4).putB GLB_SERVICE_up_ok false
  if old = 0 then s.logDev 0x0405 0xF (fdata 0 0 (setBit old cause)) else s

/-- The ROGUE latch of three trips within 24 h, which only a cold reset or another cartridge clears (Table 5.8), is carried
over from s (assumption 99, DEDUCED). -/
def State.keepRogue (t s : State) : State :=
  if s.on USL_SAFE_rogue_latched then
    ((t.putB USL_SAFE_rogue_latched true).mark USL_SAFE_cause 0).put USL_STATUS_laser 4
  else t

/-- Device warm reset with a cause of Table 22.3, in the cycle of its trigger (R536): the items of Table 22.2
are cleared, the laser and the outputs are off, and every domain but PD00 is held in reset. -/
def State.warmReset (s : State) (cause : Nat) : State :=
  let s := s.flushDevice
  -- a selector write of a Cast freeze that this reset cuts is done, or is not (Table 21.9)
  let s := if s.cst.freezing && s.free % 2 == 1 then s.select (1 - s.activeBank) true 0 else s
  let boot := s.flt.bootCount + 1
  let t : State := survive s
  let t := { t with flt := { t.flt with phase := .held, resetAt := s.clk, bootCount := boot } }
  let t := t.put GLB_RAIL_within (s.get GLB_RAIL_within)
  let t := (if t.flt.fatal then (t.mark USL_SAFE_cause 3).put USL_STATUS_laser 4 else t).keepRogue s
  t.recordCause cause (boot.toNat % 2 ^ 16)

/-- Cold reset (R537): the items of Table 22.2 are cleared, then the effect of a device warm reset with a cold cause. -/
def State.coldReset (s : State) (cause : Nat) : State :=
  let s := s.putB USL_SAFE_rogue_latched false
  let s := { s with regs := remapRegs s.regs wordForget, flt := { s.flt with
    fatal := false, devLog := .empty, limited := [], strapDue := true } }
  s.warmReset cause

/-- A cause that Table 22.3 marks as a fault. -/
def faultCause (c : Nat) : Bool := c ∈ [4, 5, 6, 9, 12]

/-- Bring-up: from the release of a reset until FLT_STATUS.up. -/
def State.bringingUp (s : State) : Bool := !s.flt.fatal && (s.flt.phase == .boot || s.flt.phase == .bringUp)

/-- The newest valid selector record has trial = 1 (R539, R514). -/
def State.trialBoot (s : State) : Bool := match s.selector with | some r => r.trial | none => false

/-- ARM_EPOCH_FLOOR raised to the accepted image's epoch (R63). -/
def State.raiseFloor (s : State) : State :=
  { s with arm := { s.arm with floor := max s.arm.floor (s.get ARM_EPOCH_epoch) } }

/-- FATAL latched in the plinth (R539, R540): the laser in SAFE_OFF, FATAL logged with the cause. -/
def State.latchFatal (s : State) (cause : Nat) : State :=
  let s := { s with flt := { s.flt with fatal := true } }
  let s := (s.safeFor 3).each (List.range 4) (fun k t => t.doutOff k)
  let s := { s with fio := { s.fio with loops := s.fio.loops.map (fun (x : LoopOut) => { x with ua := min x.ua 3600 }) } }
  s.logDev 0x1507 0xF (fdata 0 0 cause)

/-- Device warm reset, or during bring-up the outcome that R539 gives a fault cause. -/
def State.faultReset (s : State) (cause : Nat) : State :=
  if s.bringingUp && faultCause cause then
    if s.trialBoot then s.warmReset 8 else s.latchFatal cause
  else s.warmReset cause

/-- A niche's lookaside requests in progress are discarded (R422). -/
def State.discardLa (s : State) (n : Nat) : State :=
  let k := (s.cph.la.filter (fun j => j.owner == n && !j.done)).length
  let s := (s.satBy (CPH_NCNT_count n 3) k).satBy (CPH_CNT_count 6) k
  { s with cph := { s.cph with la := s.cph.la.filter (fun j => j.owner != n) } }

/-- The credit of the policers and shapers of niche n is discarded, and no completion of its host rings follows (R225). -/
def State.stopFlows (s : State) (n : Nat) : State :=
  { s with
    cls := { s.cls with credits := (List.range 256).foldl (fun l i =>
      if s.policerOwner i = some n then storeSet (fun _ => 98304) l i 0 else l) s.cls.credits }
    eth := { s.eth with ports := s.eth.ports.mapIdx (fun p (x : EthPort) =>
      if s.ethOwner p = some n then { x with credits := List.replicate 8 0, at_ := s.clk } else x) }
    hif := { s.hif with txWait := s.hif.txWait.filter (fun x => x.niche != n) } }

/-- What a niche reset request stops at once in the blocks of niche n beyond its ingress (R225, R396, R422). -/
def stopNiche (s : State) (n : Nat) : State := ((s.stopFlows n).discardLa n).stopPoints n

/-- Niche reset requested for niche n with a cause of R548: it is logged, the niche's ingress closes, its
lookaside requests are discarded and its field outputs follow R396. A request during a reset merges with it
(R558); a niche that does not exist changes nothing and is logged as NO_NICHE (R585). -/
def State.requestReset (s : State) (n cause : Nat) : State :=
  if !s.exists_ n then s.logDev 0x150A n (fdata n 0 0)
  else
    let s := (s.logNicheRaw n 0x1503 1 (fdata n cause 0) false).logDev 0x1503 n (fdata n cause 0)
    let s := (s.put (FLT_NSTAT_last_cause n) cause).sat (CEL_NCNT_count n 10)
    if (s.nreset n).active then s
    else
      let s := s.modNreset n (fun r =>
        { r with active := true, at_ := s.clk, tick := s.tick.edges, flushed := false, slow := false })
      stopNiche s n

/-- Niche reset requested, the niche then being held until the given hold is released (R558). -/
def State.requestHeld (s : State) (n cause : Nat) (h : Hold) : State :=
  if !s.exists_ n then s.requestReset n cause
  else (s.requestReset n cause).modNreset n (fun r =>
    { r with holds := if r.holds.contains h then r.holds else r.holds ++ [h] })

/-- s with a record in the log of niche n, with the escalation of R546. -/
def State.logNicheN (s : State) (n code count data : Nat) : State :=
  if classOf code ≠ 1 then s.logNicheRaw n code count data false
  else if (s.nreset n).active then
    let s := s.logNicheRaw n code count data false
    let s := (s.logNicheRaw n 0x1502 1 (fdata n 0 0) false).logDev 0x1502 n (fdata n 0 0)
    s.faultReset 9
  else if !(s.nicheLog n).opened.isEmpty then
    let s := s.logNicheRaw n code count data true
    let s := (s.logNicheRaw n 0x1502 1 (fdata n 0 0) false).logDev 0x1502 n (fdata n 0 0)
    s.requestReset n 6
  else s.logNicheRaw n code count data false

/-- s with a record in the log of niche n. -/
def State.logNiche (s : State) (n code data : Nat) : State := s.logNicheN n code 1 data

/-- s with a record in the log of its owner: niche o, or the device log where the PF owns it. -/
def State.logOwner (s : State) (o : Option Nat) (code data : Nat) : State :=
  match o with
  | some n => s.logNiche n code data
  | none => s.logDev code 0xF data

/-- One rate-limited occurrence in the log of its owner. -/
def State.limOwner (s : State) (o : Option Nat) (code data : Nat) : State :=
  match o with
  | some n => s.limNiche n code data
  | none => s.limDev code 0xF data

/-- A cross-niche request of niche n, refused as DENIED (R222): it is on its way out of the owner check
(assumption 19, DESIGN CHOICE). -/
def State.deny (s : State) (n source target : Nat) : State :=
  { s with cel := { s.cel with denied := s.cel.denied ++ [⟨n, source, target, s.clk⟩] } }

/-- What a refusal under R222 leaves behind (R223): DENIED_OUT, and DENIED at most once per multiframe in the
niche's log without the target and in the device log with it. -/
def State.countDenied (s : State) (n target : Nat) : State :=
  ((s.sat (CEL_NCNT_count n 8)).limNiche n 0x0001 0).limDev 0x0001 n (fdata 0 0 target)

end Sys2Proof.Machine
end

