-- ==== Sys2Proof/Machine/Flags.lean ====
section
/-!
DEFINITION. The verdicts and status bits that a block computes from its state: the aligned verdict (R81),
the reported line defects (R106), the phase windows and budgets (Table 2.3, R34) and GLB_SERVICE.
-/

namespace Sys2Proof.Machine

open Sys2Proof

/-! ### Tick phases -/

/-- First tick cycle of phase p (Table 2.3). -/
def phaseFirst (p : Nat) : Nat :=
  [0, 160, 1800, 1800, 160, 160, 3400, 3400, 3400, 12000, 16200, 18800].getD p 0

/-- Tick cycle after the last of phase p's window (Table 2.3). -/
def phaseLimit (p : Nat) : Nat :=
  [160, 2400, 3400, 3400, 9720, 2400, 12000, 6000, 6000, 13000, 18800, 19280].getD p 0

/-- Length of phase p's window. -/
def phaseLen (p : Nat) : Nat := phaseLimit p - phaseFirst p

/-- Budget of phase p: its window length until an Armature is accepted (R34). -/
def State.phaseBudget (s : State) (p : Nat) : Nat :=
  if s.on GLB_SERVICE_arm then s.get (TICK_PHASE_BUDGET_budget p) else phaseLen p

/-- Phase p has used n cycles and waited w more for line data (R35, R36): the largest count of cycles used is kept; a phase
above its budget that completes inside its window is logged as OVERBUDGET with its number (assumption 11, DESIGN CHOICE). -/
def State.phaseUsedAfter (s : State) (p n w : Nat) : State :=
  let s := s.put (TICK_PHASE_HWM_hwm p) (max (s.get (TICK_PHASE_HWM_hwm p)) (min n 0xFFFF))
  let s := { s with tick := { s.tick with phaseEnd := s.tick.phaseEnd ++ [(p, phaseFirst p + n + w)] } }
  if n > s.phaseBudget p ∧ n + w ≤ phaseLen p then
    ((s.sat (TICK_PHASE_HWM_over p)).mark TICK_FLAGS_over_budget p).logDev 0x0201 0xF (fdata p 0 0)
  else s

/-- Phase p, which waits for no line data, has used n cycles. -/
def State.phaseUsed (s : State) (p n : Nat) : State := s.phaseUsedAfter p n 0

/-! ### The line -/

/-- The terminal is bound as a wing (R187). -/
def State.isWing (s : State) : Bool := s.on PND_STATUS_bound && s.get PND_STATUS_form == 1 && s.on PND_STATUS_role

/-- The downstream block reports aligned (R81); in a wing, while the link is UP and the face's marker blocks show LOCKED
(R190). -/
def State.aligned (s : State) : Bool :=
  if s.isWing then s.get PND_STATUS_link == 2 && s.pnd.peerTick == 1
  else s.get DSL_STATUS_frame == 2 && s.on DSL_STATUS_cnt_sync

/-- The defects that are reported: raw, with no defect above them in Table 4.7 raw (R106). -/
def reportedOf (raw : Nat) : Nat :=
  (List.range 6).foldl (fun a i => if bit raw i && raw % 2 ^ i == 0 then setBit a i else a) 0

/-- Raw line defects set to raw: a change of a reported defect sets its sticky bit, is logged as DEFECT with
the defect number, and raises PF vector 2 (R106). -/
def State.lineRaw (s : State) (raw : Nat) : State :=
  let old := s.get DSL_DEFECT_reported
  let new := reportedOf raw
  let s := (s.put DSL_DEFECT_raw raw).put DSL_DEFECT_reported new
  s.each (onesOf 6 (old ^^^ new)) (fun i t =>
    ((t.mark DSL_DEFECT_STICKY_changed i).logDev 0x0301 0xF (fdata i 0 0)).raisePf 2)

/-- Bit i of the raw line defects set to b. -/
def State.setRaw (s : State) (i : Nat) (b : Bool) : State :=
  s.lineRaw (if b then setBit (s.get DSL_DEFECT_raw) i else clrBit (s.get DSL_DEFECT_raw) i)

/-- LOS, LOL or LOF is raw (R111). -/
def State.lineDown (s : State) : Bool := s.get DSL_DEFECT_raw % 8 != 0

/-! ### Upstream permission -/

/-- GLB_SERVICE.up_ok (Table 1.7): equalisation delay set, cartridge readable, lasers not in a safe-off
state. -/
def State.upOk (s : State) : Bool :=
  s.on GLB_SERVICE_cart && s.get USL_SAFE_cause == 0 && s.usl.eqdSet

/-- s with GLB_SERVICE.up_ok brought up to date (R26). -/
def State.syncUp (s : State) : State := s.putB GLB_SERVICE_up_ok s.upOk

/-- USL_STATUS.laser with the laser off or in SAFE_OFF: SAFE_OFF while a cause is set or no cartridge is accepted
(Tables 5.8 and 5.11, R467; assumption 34, DEDUCED). -/
def State.syncLaser (s : State) : State :=
  if s.get USL_SAFE_cause != 0 || !s.on GLB_SERVICE_cart then s.put USL_STATUS_laser 4
  else if s.get USL_STATUS_laser = 4 then s.put USL_STATUS_laser 0 else s

/-- The cartridge is accepted no more: no measurement set begun before completes (R174, R177). -/
def State.endSet (s : State) : State :=
  { s with act := { s.act with half := s.act.half.map (fun (h : RangeHalf) => { h with other := true }) } }

/-- A relock of the serializer PLL begins (R140). -/
def State.startRelock (s : State) : State :=
  { s.putB USL_STATUS_pll_lock false with usl := { s.usl with relock := some s.clk } }

end Sys2Proof.Machine
end

