-- ==== Sys2Proof/Machine/Credit.lean ====
section
/-!
DEFINITION. The credit of the shaped egress classes of the Ethernet ports as time passes (spec/09_ethernet_ports.md, R250,
R252): what each change of a class queue settles first.
-/

namespace Sys2Proof.Machine

open Sys2Proof

/-- Port p beyond its registers. -/
def State.ethPort (s : State) (p : Nat) : EthPort := s.eth.ports.getD p EthPort.reset

/-- s with port p changed by g. -/
def State.modEth (s : State) (p : Nat) (g : EthPort → EthPort) : State :=
  { s with eth := { s.eth with ports := s.eth.ports.modify p g } }

/-- portRate in kbit/s of a speed code (Table 9.6). -/
def rateOf (speed : Nat) : Nat := [10000, 100000, 1000000, 10000000].getD speed 10000

/-- portRate of the present link of port p, 10,000,000 kbit/s while it is down (R251). -/
def State.portRate (s : State) (p : Nat) : Nat :=
  if s.on (ETH_STATUS_link p) then rateOf (s.get (ETH_STATUS_speed p)) else 10000000

/-- The egress class group of port p (R242). -/
def State.ethGroup (s : State) (p : Nat) : Option QueueGroup :=
  (s.ethOwner p).bind (fun n => (s.section n).bind (fun x =>
    x.queues.find? (fun g => g.role == 2 && g.port == p)))

/-- The port whose egress class QID q is. -/
def State.portOfQid (s : State) (q : Nat) : Option Nat :=
  (s.qidGroup q).bind (fun g => if g.role = 2 then some g.port else none)

/-- The queue of class c of port p holds a frame. -/
def State.classBusy (s : State) (p c : Nat) : Bool :=
  match s.ethGroup p with
  | some g => s.cel.sdus.any (fun d => d.queue == some (g.first + c))
  | none => false

/-- Class c of port p is treated as strict because its idle slope is at or above the present portRate
(assumption 50, DEDUCED). -/
def State.overRate (s : State) (p c : Nat) : Bool :=
  s.on (ETH_STATUS_link p) && s.marked (ETH_CLS_MODE_cbs p) c && decide (s.portRate p ≤ s.get (ETH_CBS_SLOPE_idle p c))

/-- Class c of port p runs the shaper. -/
def State.shaped (s : State) (p c : Nat) : Bool := s.marked (ETH_CLS_MODE_cbs p) c && !s.overRate p c

/-- Credit of class c of port p in 10⁻⁶ bit at this instant (R250, R252). -/
def State.creditNow (s : State) (p c : Nat) : Int :=
  let x := s.ethPort p
  let k := x.credits.getD c 0
  let dt : Int := (s.clk - x.at_ : Nat)
  let idle : Int := s.get (ETH_CBS_SLOPE_idle p c)
  if !s.shaped p c then 0
  else if x.tx.any (fun t => t.cls == c) then k + (idle - s.portRate p) * dt
  else if s.classBusy p c || x.again.any (fun t => t.cls == c) then k + idle * dt
  else min 0 (k + idle * dt)

/-- Credits of port p brought to this instant. -/
def State.settlePort (s : State) (p : Nat) : State :=
  s.modEth p (fun x => { x with credits := (List.range 8).map (s.creditNow p), at_ := s.clk })

/-- Credits of the port whose egress class QID q is, where it is one. -/
def State.settleQid (s : State) (q : Option Nat) : State :=
  match q.bind s.portOfQid with
  | some p => s.settlePort p
  | none => s

end Sys2Proof.Machine
end

