-- ==== Sys2Proof/Machine/PwrOps.lean ====
section
/-!
DEFINITION. What the power controller does for other blocks (spec/19): records and niche notices, the domains that a mode
wants on, the abort of an entry and the wake events.
-/

namespace Sys2Proof.Machine

open Sys2Proof

/-! ### Records and notices -/

/-- A PWR record: the device log and PF vector 6 (R501). -/
def State.pwrLog (s : State) (code data : Nat) : State := (s.logDev code 0xF data).raisePf 6

/-- PWR_CNTn. -/
def State.pwrCnt (s : State) (n : Nat) : State := s.sat (PWR_CNT_count n)

/-- Notice e to niche n on vector 67. -/
def State.pwrEvent (s : State) (n e : Nat) : State := (s.put (HIF_NPWR_event n) e).raiseNiche n 67

/-- Notice e to the niches of a bitmap. -/
def State.pwrEvents (s : State) (mask e : Nat) : State := s.each (onesOf 16 mask) (fun n t => t.pwrEvent n e)

/-- The present mode: 0 FULL, 1 TRIM, 2 WATCH, 3 DORMANT, 4 OFF. -/
def State.mode (s : State) : Nat := s.get PWR_STATUS_mode

/-! ### Domains (Table 19.1, R477) -/

/-- A set of domains as a bitmap. -/
def domainSet (l : List Nat) : Nat := l.foldl (fun a d => setBit a d) 0

/-- The flash bank's domain from which core A fetches, and the other one. -/
def State.fetchDomain (s : State) : Nat := 35 + s.get FLC_BOOT_bank
def State.spareDomain (s : State) : Nat := 36 - s.get FLC_BOOT_bank

/-- The domains that Table 19.1 marks "mask" in mode m. -/
def State.optionalSet (s : State) (m : Nat) : Nat :=
  let common := [6, 7, 8, 9, 17, 18, 19, 20, 21, 22, 23, 24, 26, 27, 28, 29, 30, 31, 37]
  match m with
  | 0 => domainSet (common ++ [54])
  | 1 => domainSet (common ++ [34, s.spareDomain])
  | 2 => domainSet common
  | 3 => domainSet [17, 18, 19, 20, 21, 22, 26, 29, 30, 32]
  | _ => 0

/-- The domains that Table 19.1 marks "on" in mode m. -/
def State.fixedSet (s : State) (m : Nat) : Nat :=
  match m with
  | 0 => domainSet [0, 1, 2, 3, 4, 5, 10, 11, 12, 13, 14, 15, 16, 25, 32, 33, 34, 35, 36, 55]
  | 1 => domainSet [0, 1, 2, 3, 4, 5, 10, 11, 12, 13, 14, 15, 16, 25, 32, 33, s.fetchDomain, 55]
  | 2 => domainSet [0, 1, 3, 4, 5, 10, 11, 12, 13, 14, 15, 16, 25, 32, 33, s.fetchDomain, 55]
  | 3 => domainSet [0, 25, 33, 55]
  | _ => domainSet [0]

/-- PWR_MASKm; the EVT-7401 has no PD27 to PD30. -/
def State.pwrMask (s : State) (m : Nat) : Nat :=
  let w := s.get (PWR_MASK_HI_mask m) * 2 ^ 32 + s.get (PWR_MASK_LO_mask m)
  if s.fuse.is7401 then w &&& (2 ^ 56 - 1 - domainSet [27, 28, 29, 30]) else w

/-- The domain logic of the existing niches (R210), in FULL, TRIM and WATCH. -/
def State.nicheSet (s : State) (m : Nat) : Nat :=
  if 3 ≤ m then 0 else domainSet (((List.range 16).filter s.exists_).map (fun n => 38 + n))

/-- Owner of domain d: a niche, or 15 for the PF (Table 3.17). -/
def State.domainOwner (s : State) (d : Nat) : Nat :=
  bits (s.get (ARM_PD_OWNER_owner (d / 8))) (4 * (d % 8) + 3) (4 * (d % 8))

/-- The domains of the shed niches (R498); the PF's code 15 is no shed niche. -/
def State.shedSet (s : State) : Nat :=
  domainSet ((List.range 56).filter (fun d =>
    let o := s.domainOwner d
    (decide (o < 15) && bit (s.get PWR_SHED_shed) o) || (d == 53 && bit (s.get PWR_SHED_shed) 15)))

/-- The domains that are to be on in mode m (R477, R498); both flash banks while a Cast is armed or in trial (R556). -/
def State.wanted (s : State) (m : Nat) : Nat :=
  let on := s.fixedSet m ||| (s.pwrMask m &&& s.optionalSet m) ||| s.nicheSet m |||
    (if (m == 1 || m == 2) && (s.get CST_STATUS_state == 3 || s.get CST_STATUS_state == 4) then 2 ^ s.spareDomain else 0)
  let off := s.shedSet ||| (if s.fuse.is7401 then domainSet [27, 28, 29, 30] else 0)
  domainSet ((onesOf 56 on).filter (fun d => !bit off d))

/-! ### Exits and aborts (R483, R489) -/

/-- The terminal is to leave a lower mode for mode m. -/
def State.leaveFor (s : State) (m : Nat) : State :=
  if s.pwr.exit_.isSome ∨ s.pwr.rise.isSome then s else { s with pwr := { s.pwr with exit_ := some m } }

/-- WATCH is left for the mode from which it was entered (R488). -/
def State.leaveWatch (s : State) : State := if s.mode = 2 then s.leaveFor s.pwr.watchFrom else s

/-- The mode that a wake leads to from the present one: the mode before WATCH, PWR_CTRL.wake_mode from DORMANT, and FULL,
by way of a reset, from OFF. -/
def State.wakeMode (s : State) : Nat :=
  if s.mode = 2 then s.pwr.watchFrom else if s.mode = 3 then s.get PWR_CTRL_wake_mode else 0

/-- Domains on their way back on, to mode m. -/
def State.startRise (s : State) (m : Nat) (release : Bool) : State :=
  { s with pwr := { s.pwr with rise := some ⟨m, 0, s.clk + 20 * us, s.wanted m, release⟩, exit_ := none } }

/-- A niche's hold of one kind is released. -/
def State.unhold (s : State) (n : Nat) (h : Hold) : State :=
  s.modNreset n (fun r => { r with holds := r.holds.filter (fun x => x != h) })

/-- The entry in progress is aborted by a refuser or a wake source (R483); while consent is still being collected the
request is dropped. -/
def State.pwrAbort (s : State) (refuser wake : Nat) : State :=
  match s.pwr.entry with
  | none => s
  | some e =>
    let s := { s with pwr := { s.pwr with entry := none } }
    let s := (s.putB PWR_STATUS_entering false).put PWR_STATUS_target 0
    let s := ((s.pwrCnt 22).put PWR_LAST_outcome 3).put PWR_LAST_refuser refuser
    let s := (s.put PWR_LAST_wake wake).pwrLog 0x1202 (fdata 0 0 (if refuser = 0 then wake else refuser))
    if e.stage = .consent then s
    else
      let s := s.pwrEvents e.notified 2
      let s := s.each (onesOf 16 e.held) (fun n t => t.unhold n .sleep)
      s.startRise s.mode false

/-- Wake source bit of Table 19.5 wakes from mode m. -/
def wakesFrom (m b : Nat) : Bool :=
  if m = 2 then decide (b ≤ 1) else if m = 3 then decide (b ≤ 6) else if m = 4 then decide (b ≤ 2) else false

/-- Wake source b fires (Table 19.5, R483, R488, R490): where it is enabled it aborts an entry to a mode that it wakes
from, is lost or left to the end of the wake loss window, and otherwise begins an exit. -/
def State.wakeEvent (s : State) (b : Nat) : State :=
  if !bit (s.get PWR_WAKE_EN_src) b then s
  else match s.pwr.entry with
  | some e =>
    if e.stage = .window ∨ !wakesFrom e.target b then s else s.pwrAbort 0 (2 ^ b)
  | none =>
    if wakesFrom s.mode b && s.pwr.exit_.isNone && s.pwr.rise.isNone then
      (s.mark PWR_WAKE_CAUSE_src b).leaveFor s.wakeMode
    else s

/-- A wake pattern match of Ethernet port p, signalled with the port and the number of the pattern (R258). -/
def State.wakeFrom (s : State) (p w : Nat) : State :=
  ({ s with pwr := { s.pwr with wakeEth := some (p, w) } }).wakeEvent 3

end Sys2Proof.Machine
end

