-- ==== Sys2Proof/Machine/CelOps.lean ====
section
/-!
DEFINITION. Cells, admission and queues (spec/08, R210 to R224): what every source and every sink does with
its service data units.
-/

namespace Sys2Proof.Machine

open Sys2Proof

/-! ### Counts -/

/-- The SDU of an id. -/
def State.sdu (s : State) (id : Nat) : Option Sdu := s.cel.sdus.find? (fun d => d.id == id)

/-- s with the SDU of an id changed by g. -/
def State.modSdu (s : State) (id : Nat) (g : Sdu → Sdu) : State :=
  { s with cel := { s.cel with sdus := s.cel.sdus.map (fun d => if d.id = id then g d else d) } }

/-- The SDUs queued on QID q in their order of arrival. -/
def State.queueOf (s : State) (q : Nat) : List Sdu := s.cel.sdus.filter (fun d => d.queue == some q)

/-- Cells queued on QID q (CEL_QDEPTHn). -/
def State.depth (s : State) (q : Nat) : Nat := ((s.queueOf q).map (fun d => d.cells.length)).sum

/-- Bytes queued on QID q (CEL_QBYTESn). -/
def State.qbytes (s : State) (q : Nat) : Nat := ((s.queueOf q).map (fun d => d.data.length - d.taken)).sum

/-- held(n): cells of niche n that are queued or in flight. -/
def State.held (s : State) (n : Nat) : Nat :=
  ((s.cel.sdus.filter (fun d => d.owner == n)).map (fun d => d.cells.length)).sum

/-- cell_min(n) and cell_max(n). -/
def State.cellMin (s : State) (n : Nat) : Nat := s.get (CEL_NMIN_cells n)
def State.cellMax (s : State) (n : Nat) : Nat := s.get (CEL_NMAX_cells n)

/-- borrowed: the sum over the niches of max(0, held − cell_min). -/
def State.borrowed (s : State) : Nat := ((List.range 16).map (fun n => s.held n - s.cellMin n)).sum

/-- Shared − CEL_FLOOR.floor: where borrowing stops (R217). -/
def State.borrowLimit (s : State) : Nat :=
  393216 - ((List.range 16).map s.cellMin).sum - s.get CEL_FLOOR_floor

/-- Cell c is in the free pool (R212). -/
def State.isFree (s : State) (c : Nat) : Bool :=
  !(s.cel.sdus.any (fun d => d.cells.contains c)) && !s.cel.lost.contains c &&
    !(s.cel.scrub.any (fun r => decide (r.first ≤ c) && decide (c < r.first + r.count)))

/-- The role of QID q. -/
def State.roleOf (s : State) (q : Nat) : Option Nat := (s.qidGroup q).map (fun g => g.role)

/-- A packet-memory quadrant. -/
def State.quad (s : State) (q : Nat) : Quadrant := s.cel.quads.getD q ⟨true, true⟩

/-- The free cells of quadrant q, where it may be granted from (assumption 47, DESIGN CHOICE). -/
def State.freeCells (s : State) (q : Nat) : List Nat :=
  if (s.quad q).draining || (s.quad q).parked then []
  else (List.range' (98304 * q) 98304).filter s.isFree

/-- The cell that a grant takes: of the lowest quadrant that has one, any free cell (R217; assumption 47, DESIGN
CHOICE). -/
def State.pickCell (s : State) : Option Nat :=
  let l := ((List.range 4).map s.freeCells).find? (fun l => !l.isEmpty)
  l.bind (fun l => l[s.free % l.length]?)

/-! ### Counters -/

/-- Counter k of niche n (Table 8.12), n more. -/
def State.ncnt (s : State) (n k : Nat) : State := s.sat (CEL_NCNT_count n k)

/-- HELD_HWM of niche n brought up to date. -/
def State.heldHwm (s : State) (n : Nat) : State :=
  s.put (CEL_NCNT_count n 11) (max (s.get (CEL_NCNT_count n 11)) (s.held n))

/-- The 48-bit count j of allocation a: 0 enqueued, 1 sent, 2 dropped (R231). -/
def State.abytes (s : State) (a j : Nat) : Nat := storeGet (fun _ => 0) s.cel.bytes48 (3 * a + j)

/-- s with n added to a 48-bit count (assumption 14, DEDUCED). -/
def State.addBytes (s : State) (a j n : Nat) : State :=
  { s with cel := { s.cel with
    bytes48 := storeSet (fun _ => 0) s.cel.bytes48 (3 * a + j) ((s.abytes a j + n) % 2 ^ 48) } }

/-- s with n added to count j of the allocation whose class QID q is, where it is one. -/
def State.countQid (s : State) (q : Option Nat) (j n : Nat) : State :=
  match q.bind s.allocOfQid with
  | some (a, _) => s.addBytes a j n
  | none => s

/-! ### Release and drop -/

/-- The cells of an SDU go to the scrub list and the SDU is gone (R213). -/
def State.release (s : State) (id : Nat) : State :=
  match s.sdu id with
  | none => s
  | some d =>
    let s := (s.satBy (CEL_NCNT_count d.owner 9) d.cells.length).settleQid d.queue
    { s with cel := { s.cel with
      sdus := s.cel.sdus.filter (fun x => x.id != id)
      waits := s.cel.waits.filter (fun w => w.id != id)
      scrub := s.cel.scrub ++ d.cells.map (fun c => ⟨c, 1, d.owner⟩) } }

/-- An SDU that is not yet queued is dropped: where it was directed to an allocation class its bytes count as
enqueued and dropped (R231). -/
def State.dropNew (s : State) (id : Nat) : State :=
  match s.sdu id with
  | none => s
  | some d =>
    let n := d.data.length
    ((s.countQid d.dest 0 n).countQid d.dest 2 n).release id

/-- An SDU not yet queued is dropped and counted in counter k of its owner. -/
def State.dropAs (s : State) (id k : Nat) : State :=
  match s.sdu id with
  | none => s
  | some d =>
    let s := (s.ncnt d.owner k).dropNew id
    { s with cel := { s.cel with why := k } }

/-- A queued SDU leaves its queue unsent: its unsent bytes count as dropped. -/
def State.dropQueued (s : State) (id : Nat) : State :=
  match s.sdu id with
  | none => s
  | some d => (s.countQid d.queue 2 (d.data.length - d.taken)).release id

/-! ### Admission (R215 to R220) -/

/-- R217 for one cell: none where it is permitted, otherwise the counter of the drop. -/
def admits (held borrowed mn mx lim : Nat) : Option Nat :=
  if held < mn then none
  else if held < mx ∧ borrowed < lim then none
  else if mx ≤ held then some 2 else some 3

/-- R217 for one more cell of niche n. -/
def State.refusal (s : State) (n : Nat) : Option Nat :=
  admits (s.held n) s.borrowed (s.cellMin n) (s.cellMax n) s.borrowLimit

/-- The tests of R217 for k cells that move to niche n together (R214). -/
def State.handoffRefusal (s : State) (n k : Nat) : Option Nat :=
  let h := s.held n
  let mn := s.cellMin n
  (List.range k).findSome? (fun i =>
    admits (h + i) (s.borrowed + ((h + i - mn) - (h - mn))) mn (s.cellMax n) s.borrowLimit)

/-- Cell c is granted to an SDU. -/
def State.giveCell (s : State) (id c : Nat) : State :=
  match s.sdu id with
  | none => s
  | some d =>
    let s := s.sat (CEL_NCNT_count d.owner (if s.held d.owner < s.cellMin d.owner then 0 else 1))
    let s := (s.modSdu id (fun d => { d with cells := d.cells ++ [c] })).heldHwm d.owner
    { s with cel := { s.cel with granted := s.cel.granted + 1 } }.tookFree

/-- Cells that an SDU of n bytes fills. -/
def cellsFor (n : Nat) : Nat := max 1 (ceilDiv n 256)

/-- The source of an SDU requests k cells one after another (R219): it gets them all, is dropped, or waits. -/
def State.writeCells : Nat → Nat → State → State
  | 0, _, s => s
  | k + 1, id, s =>
    match s.sdu id with
    | none => s
    | some d =>
      match s.refusal d.owner with
      | some c => s.dropAs id c
      | none =>
        match if s.cel.granted < 15625 then s.pickCell else none with
        | some c => State.writeCells k id (s.giveCell id c)
        | none => { s with cel := { s.cel with waits := s.cel.waits ++ [⟨id, k + 1, s.clk⟩] } }

/-- s with a new SDU in flight, not yet written; its id is s.cel.nextId. -/
def State.newSdu (s : State) (d : Sdu) : State :=
  { s with cel := { s.cel with
    sdus := s.cel.sdus ++ [{ d with id := s.cel.nextId, queue := none, cells := [], taken := 0 }],
    nextId := s.cel.nextId + 1 } }

/-- An SDU is in flight and whole: every cell it needs is granted. -/
def State.written (s : State) (id : Nat) : Bool :=
  (s.sdu id).isSome && !s.cel.waits.any (fun w => w.id == id)

/-! ### Queues -/

/-- Data bytes that n units of a burst carry (R119). -/
def burstRoom (n : Nat) (fec : Bool) : Nat :=
  let b := 16 * n
  if fec then 224 * (b / 240) + (b % 240 - 16) else b

/-- USL_FIDn entry n is named by the management channel or by a TDM member: it serves no class queue
(Table 5.16). -/
def State.namedFlow (s : State) (n : Nat) : Bool :=
  (s.on CST_MGMT_valid && s.get CST_MGMT_ufid == n) ||
    (List.range 48).any (fun m => s.on (TDM_MEM_CFG_valid m) && !s.on (TDM_MEM_CFG_path m) &&
      s.get (TDM_MEM_CFG_ufid m) == n)

/-- The flow that serves class c of allocation a: index of its USL_FIDn entry, where one is valid. -/
def State.classFlow (s : State) (a c : Nat) : Option Nat :=
  (List.range 1024).find? (fun n =>
    !s.namedFlow n && s.on (USL_FID_valid n) && s.get (USL_FID_alloc n) == a && s.get (USL_FID_class n) == c)

/-- What a queued SDU of n bytes counts on class c of allocation a under R135. -/
def State.capCost (s : State) (a c n : Nat) : Nat :=
  n + 8 + (match s.classFlow a c with | some f => if s.on (USL_FID_enc f) then 8 else 0 | none => 0)

/-- The standing grant bound to all 8 microslots of allocation a, where there is one. -/
def State.boundGrant (s : State) (a : Nat) : Option Nat :=
  (List.range 8).find? (fun k => s.on (USL_STAND_A_active k) && s.get (USL_STAND_A_mask k) == 0xFF &&
    s.on (USL_ALLOC_valid a) && s.get (USL_STAND_A_aid k) == s.get (USL_ALLOC_aid a))

/-- Room of one standing burst of grant k (R135). -/
def State.standRoom (s : State) (k : Nat) : Nat :=
  let f := s.get (USL_STAND_A_flags k)
  burstRoom (s.get (USL_STAND_B_size k)) (bit f 2) - (12 + if bit f 0 then 4 else 0)

/-- R135 refuses an SDU of n bytes on class c of allocation a. -/
def State.capRefuses (s : State) (a c n : Nat) : Bool :=
  match s.boundGrant a, s.allocBase a with
  | some k, some q =>
    let have_ := ((List.range 8).map (fun i => ((s.queueOf (q + i)).map
      (fun d => s.capCost a i (d.data.length - d.taken))).sum)).sum
    decide (s.standRoom k < have_ + s.capCost a c n)
  | _, _ => false

/-- Queue of the upstream management channel, whose SDUs are charged to N0 (R211, R128); it has no QID of its own
and stands beyond the 2,048 QIDs. -/
abbrev mgmtQueue : Nat := 2048

/-- PF address of the registers of ring r of niche n. -/
def ringBase (n r : Nat) : Nat := 0x2C1000 + 0x1000 * n + 0x40 * r

/-- Ring of a role-0 QID: its niche and number. -/
def State.ringOfQid (s : State) (q : Nat) : Option (Nat × Nat) :=
  (s.qidOwner q).bind (fun n => (s.section n).bind (fun x =>
    ((ringQids x).findIdx? (· == q)).map (fun r => (n, r))))

/-- Why QID q refuses an SDU of n bytes and k cells: none where it takes it, 4 DROP_QLIMIT, 6 DROP_RESET,
8 CAP_DROP, 9 RX_NOT_RX. -/
def State.queueRefusal (s : State) (q n k : Nat) : Option Nat :=
  if q = mgmtQueue then none
  else match s.qidOwner q, s.qidGroup q with
  | some o, some g =>
    let lim := s.get (CEL_QCFG_limit q)
    if s.closed o then some 6
    else if g.role == 0 && (match s.ringOfQid q with
        | some (m, r) => decide (bits (s.word (ringBase m r)).toNat 30 29 ≥ 2)
        | none => false) then some 9
    else if lim ≠ 0 ∧ lim < s.depth q + k then some 4
    else match s.allocOfQid q with
      | some (a, c) => if s.capRefuses a c n then some 8 else none
      | none => none
  | _, _ => some 9

/-- A written SDU is refused by QID q and dropped, counted as its reason says. -/
def State.refuseOn (s : State) (id q reason : Nat) : State :=
  let s := match reason with
    | 8 => (s.sat (USL_CNT_count 8)).dropNew id
    | 9 => match s.qidOwner q with
      | some o => (s.sat (HIF_NCNT_count o 2)).dropNew id
      | none => s.dropNew id
    | k => s.dropAs id k
  { s with cel := { s.cel with why := reason } }

/-- An SDU in flight moves to its new owner n (R214): dropped in the new owner where it is closed (R225) or
the tests of R217 fail. -/
def State.handoff (s : State) (id n : Nat) : State :=
  match s.sdu id with
  | none => s
  | some d =>
    if d.owner = n then s
    else
      let k := if s.closed n then some 6 else s.handoffRefusal n d.cells.length
      match k with
      | some k =>
        let s := (s.ncnt n k).dropNew id
        { s with cel := { s.cel with why := k } }
      | none => ((s.modSdu id (fun d => { d with owner := n })).ncnt n 7).heldHwm n

/-- A written SDU is enqueued on QID q: handed off to the QID's owner where that is another niche, then
admitted or refused (R214, R220, R225, R430, R135). One that is admitted to an allocation's class ends WATCH (R488). -/
def State.enqueue (s : State) (id q : Nat) : State :=
  let s := s.modSdu id (fun d => { d with dest := some q })
  let s := match s.qidOwner q with
    | some n => s.handoff id n
    | none => s
  match s.sdu id with
  | none => s
  | some d =>
    match s.queueRefusal q d.data.length d.cells.length with
    | some r => s.refuseOn id q r
    | none =>
      let s := ((s.countQid (some q) 0 d.data.length).settleQid (some q)).when (s.roleOf q == some 1) State.leaveWatch
      { s with cel := { s.cel with
        sdus := s.cel.sdus.filter (fun x => x.id != id) ++ [{ d with queue := some q }] } }

/-- An SDU is written into cells of its owner and, once whole, enqueued on the QID it is directed to; an
owner in niche reset takes none (R225). -/
def State.admitSdu (s : State) (d : Sdu) : State :=
  let id := s.cel.nextId
  let s := s.newSdu d
  if s.closed d.owner then s.dropAs id 6
  else
    let s := State.writeCells (cellsFor d.data.length) id s
    match d.dest with
    | some q => if s.written id then s.enqueue id q else s
    | none => s

/-- An SDU of a classifier source is written into cells of its owner and waits for the classifier (Table 10.1). -/
def State.toClassifier (s : State) (d : Sdu) : State :=
  let id := s.cel.nextId
  let s := s.admitSdu { d with dest := none }
  if (s.sdu id).isSome then { s with cls := { s.cls with waiting := s.cls.waiting ++ [id] } } else s

/-- The head SDU of QID q. -/
def State.headOf (s : State) (q : Nat) : Option Sdu := (s.queueOf q).head?

/-- The head SDU of a queue passes to its sink: it is in flight (Table 8.3). -/
def State.dequeue (s : State) (id : Nat) : State := s.modSdu id (fun d => { d with queue := none, dest := none })

/-! ### Frames that the mesh holds (spec/13) -/

/-- The indirect queues hold l: the counts of the nodes follow. -/
def State.setInd (s : State) (l : List MeshTx) : State :=
  let s := s.each ((s.msh.ind ++ l).map (fun x => x.node)) (fun n t =>
    t.put (MSH_NODE_STATUS_ind n) (l.filter (fun x => x.node == n)).length)
  { s with msh := { s.msh with ind := l } }

/-- The frames of the transmit store and the indirect queues for which p holds leave them, each counted by f, and their
cells are released. -/
def State.dropMesh (s : State) (p : MeshTx → Bool) (f : MeshTx → State → State) : State :=
  let gone := (s.msh.store ++ s.msh.ind).filter p
  let s := { s with msh := { s.msh with store := s.msh.store.filter (fun x => !p x) } }
  (s.setInd (s.msh.ind.filter (fun x => !p x))).each gone (fun x t => (f x t).release x.sdu)

/-- The SDU of an id is copied into cells of niche n and directed to QID q (R214). -/
def State.copyTo (s : State) (id n q : Nat) : State :=
  match s.sdu id with
  | none => s
  | some d => s.admitSdu { d with owner := n, dest := some q }

end Sys2Proof.Machine
end

