-- ==== Sys2Proof/Machine/Cipher.lean ====
section
/-!
DEFINITION. The functions of other standards that the spec names: AES (R95, R403), the product of GHASH (R95), SHA-256 and
SHA-384 (R53, R59, Table 18.3), and the verification of ECDSA signatures over P-384 and P-256 (R53, Table 18.3). Assumption 6,
PRESUMED: they are written from FIPS 197, SP 800-38D, FIPS 180-4, FIPS 186-4 and SP 800-186, which the spec names and does not
repeat.
-/

namespace Sys2Proof.Machine

open Sys2Proof

/-! ### AES (FIPS 197) -/

/-- The S-box of FIPS 197. -/
def sBox : List Nat :=
  [0x63, 0x7c, 0x77, 0x7b, 0xf2, 0x6b, 0x6f, 0xc5, 0x30, 0x01, 0x67, 0x2b, 0xfe, 0xd7, 0xab, 0x76] ++
  [0xca, 0x82, 0xc9, 0x7d, 0xfa, 0x59, 0x47, 0xf0, 0xad, 0xd4, 0xa2, 0xaf, 0x9c, 0xa4, 0x72, 0xc0] ++
  [0xb7, 0xfd, 0x93, 0x26, 0x36, 0x3f, 0xf7, 0xcc, 0x34, 0xa5, 0xe5, 0xf1, 0x71, 0xd8, 0x31, 0x15] ++
  [0x04, 0xc7, 0x23, 0xc3, 0x18, 0x96, 0x05, 0x9a, 0x07, 0x12, 0x80, 0xe2, 0xeb, 0x27, 0xb2, 0x75] ++
  [0x09, 0x83, 0x2c, 0x1a, 0x1b, 0x6e, 0x5a, 0xa0, 0x52, 0x3b, 0xd6, 0xb3, 0x29, 0xe3, 0x2f, 0x84] ++
  [0x53, 0xd1, 0x00, 0xed, 0x20, 0xfc, 0xb1, 0x5b, 0x6a, 0xcb, 0xbe, 0x39, 0x4a, 0x4c, 0x58, 0xcf] ++
  [0xd0, 0xef, 0xaa, 0xfb, 0x43, 0x4d, 0x33, 0x85, 0x45, 0xf9, 0x02, 0x7f, 0x50, 0x3c, 0x9f, 0xa8] ++
  [0x51, 0xa3, 0x40, 0x8f, 0x92, 0x9d, 0x38, 0xf5, 0xbc, 0xb6, 0xda, 0x21, 0x10, 0xff, 0xf3, 0xd2] ++
  [0xcd, 0x0c, 0x13, 0xec, 0x5f, 0x97, 0x44, 0x17, 0xc4, 0xa7, 0x7e, 0x3d, 0x64, 0x5d, 0x19, 0x73] ++
  [0x60, 0x81, 0x4f, 0xdc, 0x22, 0x2a, 0x90, 0x88, 0x46, 0xee, 0xb8, 0x14, 0xde, 0x5e, 0x0b, 0xdb] ++
  [0xe0, 0x32, 0x3a, 0x0a, 0x49, 0x06, 0x24, 0x5c, 0xc2, 0xd3, 0xac, 0x62, 0x91, 0x95, 0xe4, 0x79] ++
  [0xe7, 0xc8, 0x37, 0x6d, 0x8d, 0xd5, 0x4e, 0xa9, 0x6c, 0x56, 0xf4, 0xea, 0x65, 0x7a, 0xae, 0x08] ++
  [0xba, 0x78, 0x25, 0x2e, 0x1c, 0xa6, 0xb4, 0xc6, 0xe8, 0xdd, 0x74, 0x1f, 0x4b, 0xbd, 0x8b, 0x8a] ++
  [0x70, 0x3e, 0xb5, 0x66, 0x48, 0x03, 0xf6, 0x0e, 0x61, 0x35, 0x57, 0xb9, 0x86, 0xc1, 0x1d, 0x9e] ++
  [0xe1, 0xf8, 0x98, 0x11, 0x69, 0xd9, 0x8e, 0x94, 0x9b, 0x1e, 0x87, 0xe9, 0xce, 0x55, 0x28, 0xdf] ++
  [0x8c, 0xa1, 0x89, 0x0d, 0xbf, 0xe6, 0x42, 0x68, 0x41, 0x99, 0x2d, 0x0f, 0xb0, 0x54, 0xbb, 0x16]

/-- A byte through the S-box, and back through it. -/
def subByte (x : Byte) : Byte := BitVec.ofNat 8 (sBox.getD x.toNat 0)
def subByteInv (x : Byte) : Byte := BitVec.ofNat 8 (sBox.findIdx (fun y => y == x.toNat))

/-- Multiplication by x modulo x⁸ + x⁴ + x³ + x + 1. -/
def aesDouble (x : Byte) : Byte := (x <<< 1) ^^^ (if x.toNat < 128 then 0 else 0x1B)

/-- Multiplication by c < 16 modulo the same polynomial. -/
def aesMul (c : Nat) (x : Byte) : Byte :=
  let x2 := aesDouble x
  let x4 := aesDouble x2
  (if bit c 0 then x else 0) ^^^ (if bit c 1 then x2 else 0) ^^^ (if bit c 2 then x4 else 0) ^^^
    (if bit c 3 then aesDouble x4 else 0)

/-- The columns of the state, 4 bytes each, through the circulant matrix whose first row is m. -/
def mixColumns (m : List Nat) (b : List Byte) : List Byte :=
  (List.range 16).map (fun i =>
    ((m.zipIdx).map (fun p => aesMul p.1 (b.getD (i / 4 * 4 + (i % 4 + p.2) % 4) 0))).foldl (· ^^^ ·) 0)

/-- The rows of the state turned: row r by k · r places to the left. -/
def shiftRows (k : Nat) (b : List Byte) : List Byte :=
  (List.range 16).map (fun i => b.getD ((i + 4 * k * (i % 4)) % 16) 0)

/-- One more word of the key schedule of a key of nk words; w holds the words so far, the newest first, rc the round constant. -/
def nextKeyWord (nk : Nat) (a : List (List Byte) × Byte) (i : Nat) : List (List Byte) × Byte :=
  let t := a.1.headD []
  let old := a.1.getD (nk - 1) []
  if i % nk = 0 then
    (xorBytes old (xorBytes ((t.drop 1 ++ t.take 1).map subByte) [a.2, 0, 0, 0]) :: a.1, aesDouble a.2)
  else if 6 < nk ∧ i % nk = 4 then (xorBytes old (t.map subByte) :: a.1, a.2)
  else (xorBytes old t :: a.1, a.2)

/-- The rounds of a key of 16 or 32 bytes: 10 or 14. -/
def aesRounds (key : List Byte) : Nat := key.length / 4 + 6

/-- The round keys of a key, 16 bytes each, in order. -/
def roundKeys (key : List Byte) : List (List Byte) :=
  let nk := key.length / 4
  let first := (List.range nk).foldl (fun l i => (key.drop (4 * i)).take 4 :: l) []
  let w := (((List.range (4 * (aesRounds key + 1))).drop nk).foldl (nextKeyWord nk) (first, 1)).1.reverse.flatten
  (List.range (aesRounds key + 1)).map (fun r => (w.drop (16 * r)).take 16)

/-- The AES forward cipher on one 16-byte block under a key of 16 or 32 bytes. -/
def aesBlock (key block : List Byte) : List Byte :=
  let k := roundKeys key
  let s := (k.tail.dropLast).foldl (fun s r => xorBytes (mixColumns [2, 3, 1, 1] (shiftRows 1 (s.map subByte))) r)
    (xorBytes block (k.headD []))
  xorBytes (shiftRows 1 (s.map subByte)) (k.getLastD [])

/-- The AES inverse cipher on one 16-byte block. -/
def aesBlockInv (key block : List Byte) : List Byte :=
  let k := (roundKeys key).reverse
  let s := (k.tail.dropLast).foldl
    (fun s r => mixColumns [14, 11, 13, 9] (xorBytes ((shiftRows 3 s).map subByteInv) r))
    (xorBytes block (k.headD []))
  xorBytes ((shiftRows 3 s).map subByteInv) (k.getLastD [])

/-! ### GHASH (SP 800-38D) -/

/-- The product of two 16-byte blocks in the field of GHASH, whose first bit is the constant term. -/
def ghashMul (x y : List Byte) : List Byte :=
  let v := beAt x 0 16
  beBytes 16 (((List.range 128).foldl (fun (a : Nat × Nat) i =>
    (if bit v (127 - i) then a.1 ^^^ a.2 else a.1, if bit a.2 0 then a.2 / 2 ^^^ 0xE1 * 2 ^ 120 else a.2 / 2))
    (0, beAt y 0 16)).1)

/-! ### SHA-2 (FIPS 180-4) -/

/-- The constants K of SHA-512 (FIPS 180-4): the first 64 bits of the fractions of the cube roots of the first 80 primes. Those of
SHA-256 are the first 32 bits of the first 64. -/
def shaRoots : List Nat :=
  [0x428a2f98d728ae22, 0x7137449123ef65cd, 0xb5c0fbcfec4d3b2f, 0xe9b5dba58189dbbc] ++
  [0x3956c25bf348b538, 0x59f111f1b605d019, 0x923f82a4af194f9b, 0xab1c5ed5da6d8118] ++
  [0xd807aa98a3030242, 0x12835b0145706fbe, 0x243185be4ee4b28c, 0x550c7dc3d5ffb4e2] ++
  [0x72be5d74f27b896f, 0x80deb1fe3b1696b1, 0x9bdc06a725c71235, 0xc19bf174cf692694] ++
  [0xe49b69c19ef14ad2, 0xefbe4786384f25e3, 0x0fc19dc68b8cd5b5, 0x240ca1cc77ac9c65] ++
  [0x2de92c6f592b0275, 0x4a7484aa6ea6e483, 0x5cb0a9dcbd41fbd4, 0x76f988da831153b5] ++
  [0x983e5152ee66dfab, 0xa831c66d2db43210, 0xb00327c898fb213f, 0xbf597fc7beef0ee4] ++
  [0xc6e00bf33da88fc2, 0xd5a79147930aa725, 0x06ca6351e003826f, 0x142929670a0e6e70] ++
  [0x27b70a8546d22ffc, 0x2e1b21385c26c926, 0x4d2c6dfc5ac42aed, 0x53380d139d95b3df] ++
  [0x650a73548baf63de, 0x766a0abb3c77b2a8, 0x81c2c92e47edaee6, 0x92722c851482353b] ++
  [0xa2bfe8a14cf10364, 0xa81a664bbc423001, 0xc24b8b70d0f89791, 0xc76c51a30654be30] ++
  [0xd192e819d6ef5218, 0xd69906245565a910, 0xf40e35855771202a, 0x106aa07032bbd1b8] ++
  [0x19a4c116b8d2d0c8, 0x1e376c085141ab53, 0x2748774cdf8eeb99, 0x34b0bcb5e19b48a8] ++
  [0x391c0cb3c5c95a63, 0x4ed8aa4ae3418acb, 0x5b9cca4f7763e373, 0x682e6ff3d6b2b8a3] ++
  [0x748f82ee5defb2fc, 0x78a5636f43172f60, 0x84c87814a1f0ab72, 0x8cc702081a6439ec] ++
  [0x90befffa23631e28, 0xa4506cebde82bde9, 0xbef9a3f7b2c67915, 0xc67178f2e372532b] ++
  [0xca273eceea26619c, 0xd186b8c721c0c207, 0xeada7dd6cde0eb1e, 0xf57d4f7fee6ed178] ++
  [0x06f067aa72176fba, 0x0a637dc5a2c898a6, 0x113f9804bef90dae, 0x1b710b35131c471b] ++
  [0x28db77f523047d84, 0x32caab7b40c72493, 0x3c9ebe0a15c9bebc, 0x431d67c49c100d4c] ++
  [0x4cc5d4becb3e42b6, 0x597f299cfc657e2a, 0x5fcb6fab3ad6faec, 0x6c44198c4a475817]

/-- The first 64 bits of the fractions of the square roots of the first 16 primes, from which the initial values of SHA-256 and
SHA-384 are taken (FIPS 180-4). -/
def shaStart : List Nat :=
  [0x6a09e667f3bcc908, 0xbb67ae8584caa73b, 0x3c6ef372fe94f82b, 0xa54ff53a5f1d36f1] ++
  [0x510e527fade682d1, 0x9b05688c2b3e6c1f, 0x1f83d9abfb41bd6b, 0x5be0cd19137e2179] ++
  [0xcbbb9d5dc1059ed8, 0x629a292a367cd507, 0x9159015a3070dd17, 0x152fecd8f70e5939] ++
  [0x67332667ffc00b31, 0x8eb44a8768581511, 0xdb0c2e0d64f98fa7, 0x47b5481dbefa4fa4]

/-- What tells SHA-256 from SHA-384: the bits of a word, the rounds, and the shifts of the functions Σ0, Σ1, σ0 and σ1, where the
last one of a σ shifts and every other one turns. -/
structure ShaKind where
  width : Nat
  rounds : Nat
  big0 : List Nat
  big1 : List Nat
  small0 : List Nat × Nat
  small1 : List Nat × Nat

def sha256Kind : ShaKind := ⟨32, 64, [2, 13, 22], [6, 11, 25], ([7, 18], 3), ([17, 19], 10)⟩
def sha512Kind : ShaKind := ⟨64, 80, [28, 34, 39], [14, 18, 41], ([1, 8], 7), ([19, 61], 6)⟩

/-- x, a word of n bits, turned right by each of l, all of these in exclusive or. -/
def turns (n : Nat) (l : List Nat) (x : Nat) : Nat :=
  l.foldl (fun a r => a ^^^ (x / 2 ^ r + x % 2 ^ r * 2 ^ (n - r))) 0

/-- The function σ with turns l and shift k. -/
def smallSigma (n : Nat) (l : List Nat × Nat) (x : Nat) : Nat := turns n l.1 x ^^^ x / 2 ^ l.2

/-- The message schedule, newest word first, one word longer; it holds at least 16 words. -/
def shaSchedule (k : ShaKind) (w : List Nat) : List Nat :=
  let at_ (i : Nat) := w.getD (i - 1) 0
  ((smallSigma k.width k.small1 (at_ 2) + at_ 7 + smallSigma k.width k.small0 (at_ 15) + at_ 16) % 2 ^ k.width) :: w

/-- One round on the eight working words, c being the round's constant plus the schedule's word. -/
def shaRound (k : ShaKind) (v : List Nat) (c : Nat) : List Nat :=
  match v with
  | [a, b, c', d, e, f, g, h] =>
    let t1 := h + turns k.width k.big1 e + ((e &&& f) ^^^ ((2 ^ k.width - 1 - e) &&& g)) + c
    let t2 := turns k.width k.big0 a + ((a &&& b) ^^^ (a &&& c') ^^^ (b &&& c'))
    [(t1 + t2) % 2 ^ k.width, a, b, c', (d + t1) % 2 ^ k.width, e, f, g]
  | _ => v

/-- The chaining value h after one block. -/
def shaBlock (k : ShaKind) (h : List Nat) (block : List Byte) : List Nat :=
  let n := k.width / 8
  let first := (List.range 16).foldl (fun l i => beAt block (n * i) n :: l) []
  let w := ((List.range (k.rounds - 16)).foldl (fun w _ => shaSchedule k w) first).reverse
  let cs := List.zipWith (fun a b => a / 2 ^ (64 - k.width) + b) shaRoots w
  List.zipWith (fun a b => (a + b) % 2 ^ k.width) h (cs.foldl (shaRound k) h)

/-- The digest of a message from the initial value h, before it is cut. -/
def sha2 (k : ShaKind) (h : List Nat) (msg : List Byte) : List Byte :=
  let n := 2 * k.width
  let len := k.width / 4
  let zerosNeeded := (2 * n - (msg.length + 1 + len) % n) % n
  let m := msg ++ [0x80] ++ zeros zerosNeeded ++ beBytes len (8 * msg.length)
  (((List.range (m.length / n)).foldl (fun h i => shaBlock k h ((m.drop (n * i)).take n)) h).map (beBytes (k.width / 8))).flatten

/-- SHA-256 of a byte string. -/
def sha256 (msg : List Byte) : List Byte := sha2 sha256Kind ((shaStart.take 8).map (fun x => x / 2 ^ 32)) msg

/-- SHA-384 of a byte string. -/
def sha384 (msg : List Byte) : List Byte := (sha2 sha512Kind (shaStart.drop 8) msg).take 48

/-! ### ECDSA (FIPS 186-4, SP 800-186) -/

/-- A curve y² = x³ − 3x + b over the integers modulo p, its base point and the order of that, and the bytes of a coordinate. -/
structure Curve where
  p : Nat
  b : Nat
  n : Nat
  gx : Nat
  gy : Nat
  size : Nat

/-- P-384. -/
def curveP384 : Curve where
  p := 0xfffffffffffffffffffffffffffffffffffffffffffffffffffffffffffffffeffffffff0000000000000000ffffffff
  b := 0xb3312fa7e23ee7e4988e056be3f82d19181d9c6efe8141120314088f5013875ac656398d8a2ed19d2a85c8edd3ec2aef
  n := 0xffffffffffffffffffffffffffffffffffffffffffffffffc7634d81f4372ddf581a0db248b0a77aecec196accc52973
  gx := 0xaa87ca22be8b05378eb1c71ef320ad746e1d3b628ba79b9859f741e082542a385502f25dbf55296c3a545e3872760ab7
  gy := 0x3617de4a96262c6f5d9e98bf9292dc29f8f41dbd289a147ce9da3113b5f0b8c00a60b1ce1d7e819d7a431d7c90ea0e5f
  size := 48

/-- P-256. -/
def curveP256 : Curve where
  p := 0xffffffff00000001000000000000000000000000ffffffffffffffffffffffff
  b := 0x5ac635d8aa3a93e7b3ebbd55769886bc651d06b0cc53b0f63bce3c3e27d2604b
  n := 0xffffffff00000000ffffffffffffffffbce6faada7179e84f3b9cac2fc632551
  gx := 0x6b17d1f2e12c4247f8bce6e563a440f277037d812deb33a0f4a13945d898c296
  gy := 0x4fe342e2fe1a7f9b8ee7eb4a7c0f9e162bce33576b315ececbb6406837bf51f5
  size := 32

/-- a to the power e modulo m, over the low k bits of e. -/
def powMod (m a : Nat) : Nat → Nat → Nat
  | 0, _ => 1 % m
  | k + 1, e =>
    let h := powMod m (a * a % m) k (e / 2)
    if e % 2 = 1 then a * h % m else h

/-- The inverse of a modulo the prime m. -/
def invMod (m a : Nat) : Nat := powMod m (a % m) 384 (m - 2)

/-- The sum of two points; none is the point at infinity. -/
def Curve.add (c : Curve) (x y : Option (Nat × Nat)) : Option (Nat × Nat) :=
  match x, y with
  | none, _ => y
  | _, none => x
  | some (x1, y1), some (x2, y2) =>
    if x1 = x2 ∧ (y1 + y2) % c.p = 0 then none
    else
      let l := if x1 = x2 then (3 * x1 * x1 + c.p - 3) * invMod c.p (2 * y1) % c.p
        else (y2 + c.p - y1) * invMod c.p (x2 + c.p - x1) % c.p
      let x3 := (l * l + 2 * c.p - x1 - x2) % c.p
      some (x3, (l * (x1 + c.p - x3) + c.p - y1) % c.p)

/-- The point q added e times, over the low k bits of e. -/
def Curve.mul (c : Curve) (q : Option (Nat × Nat)) : Nat → Nat → Option (Nat × Nat)
  | 0, _ => none
  | k + 1, e =>
    let h := c.mul (c.add q q) k (e / 2)
    if e % 2 = 1 then c.add q h else h

/-- The point (x, y) lies on the curve. -/
def Curve.has (c : Curve) (x y : Nat) : Bool :=
  decide (x < c.p) && decide (y < c.p) && y * y % c.p == (x * x % c.p * x + (c.p - 3) * x + c.b) % c.p

/-- The signature sig (r, then s) of a message with the digest d verifies under the public key key, in uncompressed form. -/
def Curve.verify (c : Curve) (key d sig : List Byte) : Bool :=
  let qx := beAt key 1 c.size
  let qy := beAt key (1 + c.size) c.size
  let r := beAt sig 0 c.size
  let s := beAt sig c.size c.size
  let w := invMod c.n s
  let u := c.mul (some (c.gx, c.gy)) 384 (beAt d 0 c.size * w % c.n)
  let v := c.mul (some (qx, qy)) 384 (r * w % c.n)
  byteAt key 0 == 4 && c.has qx qy && decide (0 < r) && decide (r < c.n) && decide (0 < s) && decide (s < c.n) &&
    (match c.add u v with
    | some (x, _) => x % c.n == r
    | none => false)

/-- ECDSA P-384 over SHA-384: key, message, signature. -/
def ecdsaP384 (key msg sig : List Byte) : Bool := curveP384.verify key (sha384 msg) sig

/-- ECDSA P-256 over SHA-256: key, message, signature. -/
def ecdsaP256 (key msg sig : List Byte) : Bool := curveP256.verify key (sha256 msg) sig

end Sys2Proof.Machine
end

