-- ==== Sys2Proof/Machine/Crypto.lean ====
section
/-!
DEFINITION. The cipher modes of Table 15.3 and the RFC 3394 key wrap, over the AES block cipher and the
GHASH product of Cipher.lean.
-/

namespace Sys2Proof.Machine

open Sys2Proof

/-- The 16-byte pieces of a byte string, the last one cut short. -/
def pieces (b : List Byte) : List (List Byte) :=
  (List.range (ceilDiv b.length 16)).map (fun i => (b.drop (16 * i)).take 16)

/-- b filled with zero bytes to a whole number of blocks. -/
def padBlocks (b : List Byte) : List Byte := fitBytes (16 * ceilDiv b.length 16) b

/-- Key check value of a key: the first 3 bytes of AES_K(0¹²⁸) (spec/15, Key slots). -/
def keyCheck (key : List Byte) : Nat := beAt (aesBlock key (zeros 16)) 0 3

/-- A block read as one 128-bit big-endian counter, n later. -/
def counterBlock (c : List Byte) (n : Nat) : List Byte := beBytes 16 (beAt c 0 16 + n)

/-- Text XORed with the key stream of the counters from c on. -/
def ctrText (key c text : List Byte) : List Byte :=
  ((pieces text).zipIdx).flatMap (fun p => xorBytes p.1 (aesBlock key (counterBlock c p.2)))

/-- The counter block of GCM with a 96-bit IV and 32-bit count n. -/
def gcmBlock (iv : List Byte) (n : Nat) : List Byte := iv ++ beBytes 4 n

/-- Text XORed with the GCM key stream. -/
def gcmText (key iv text : List Byte) : List Byte :=
  ((pieces text).zipIdx).flatMap (fun p => xorBytes p.1 (aesBlock key (gcmBlock iv (p.2 + 2))))

/-- GHASH under h of the blocks of b. -/
def ghash (h b : List Byte) : List Byte :=
  (pieces b).foldl (fun y x => ghashMul h (xorBytes y x)) (zeros 16)

/-- The 16-byte GCM tag of a ciphertext and its additional data. -/
def gcmTag (key iv aad ct : List Byte) : List Byte :=
  let h := aesBlock key (zeros 16)
  let g := ghash h (padBlocks aad ++ padBlocks ct ++ beBytes 8 (8 * aad.length) ++ beBytes 8 (8 * ct.length))
  xorBytes g (aesBlock key (gcmBlock iv 1))

/-- CBC encryption of whole blocks. -/
def cbcSeal (key iv text : List Byte) : List Byte :=
  ((pieces text).foldl (fun (a : List Byte × List Byte) p =>
    let c := aesBlock key (xorBytes p a.1); (c, a.2 ++ c)) (iv, [])).2

/-- CBC decryption of whole blocks. -/
def cbcOpen (key iv text : List Byte) : List Byte :=
  ((pieces text).foldl (fun (a : List Byte × List Byte) c =>
    (c, a.2 ++ xorBytes a.1 (aesBlockInv key c))) (iv, [])).2

/-- ECB over whole blocks. -/
def ecbSeal (key text : List Byte) : List Byte := (pieces text).flatMap (aesBlock key)
def ecbOpen (key text : List Byte) : List Byte := (pieces text).flatMap (aesBlockInv key)

/-- Doubling in the field of CMAC (SP 800-38B). -/
def cmacDouble (b : List Byte) : List Byte :=
  let v := beAt b 0 16
  beBytes 16 ((v * 2 % 2 ^ 128) ^^^ (if v < 2 ^ 127 then 0 else 0x87))

/-- The last block of CMAC: whole, or padded with 0x80. -/
def cmacLast (k1 k2 m : List Byte) : List Byte :=
  if m.length = 16 then xorBytes k1 m else xorBytes k2 (fitBytes 16 (m ++ [0x80]))

/-- CMAC of a message. -/
def cmac (key msg : List Byte) : List Byte :=
  let k1 := cmacDouble (aesBlock key (zeros 16))
  let k2 := cmacDouble k1
  let n := if msg.isEmpty then 0 else ceilDiv msg.length 16 - 1
  let y := (pieces (msg.take (16 * n))).foldl (fun y x => aesBlock key (xorBytes y x)) (zeros 16)
  aesBlock key (xorBytes y (cmacLast k1 k2 (msg.drop (16 * n))))

/-- The additional data of CCM with its length in front, padded (SP 800-38C; the lengths of Table 15.3 take
the two-byte form). -/
def ccmAad (aad : List Byte) : List Byte :=
  if aad.isEmpty then [] else padBlocks (beBytes 2 aad.length ++ aad)

/-- The CBC-MAC of CCM, cut to the tag length. -/
def ccmMac (key nonce aad text : List Byte) (tagLen : Nat) : List Byte :=
  let q := 15 - nonce.length
  let f := (if aad.isEmpty then 0 else 64) + (if tagLen = 0 then 0 else 8 * ((tagLen - 2) / 2)) + (q - 1)
  let b0 := beBytes 1 f ++ nonce ++ beBytes q text.length
  ((pieces (b0 ++ ccmAad aad ++ padBlocks text)).foldl
    (fun y x => aesBlock key (xorBytes y x)) (zeros 16)).take tagLen

/-- The counter block of CCM with count n. -/
def ccmBlock (nonce : List Byte) (n : Nat) : List Byte :=
  let q := 15 - nonce.length
  beBytes 1 (q - 1) ++ nonce ++ beBytes q n

/-- CCM and CCM* tag of a plaintext as sent. -/
def ccmTag (key nonce aad text : List Byte) (tagLen : Nat) : List Byte :=
  xorBytes (ccmMac key nonce aad text tagLen) (aesBlock key (ccmBlock nonce 0))

/-- CCM and CCM* text, either way. -/
def ccmText (key nonce text : List Byte) : List Byte := ctrText key (ccmBlock nonce 1) text

/-- One step of the RFC 3394 wrap: the register A and the words R, t the step number and i its word. -/
def wrapStep (key : List Byte) (n : Nat) (a : List Byte × List (List Byte)) (t : Nat) :
    List Byte × List (List Byte) :=
  let i := (t - 1) % n
  let b := aesBlock key (a.1 ++ a.2.getD i [])
  (beBytes 8 (beAt b 0 8 ^^^ t), a.2.set i (b.drop 8))

/-- The inverse of a step of the wrap. -/
def unwrapStep (key : List Byte) (n : Nat) (a : List Byte × List (List Byte)) (t : Nat) :
    List Byte × List (List Byte) :=
  let i := (t - 1) % n
  let b := aesBlockInv key (beBytes 8 (beAt a.1 0 8 ^^^ t) ++ a.2.getD i [])
  (b.take 8, a.2.set i (b.drop 8))

/-- The 8-byte words of a byte string. -/
def words8 (b : List Byte) : List (List Byte) :=
  (List.range (b.length / 8)).map (fun i => (b.drop (8 * i)).take 8)

/-- RFC 3394 wrap with the default initial value. -/
def keyWrap (key data : List Byte) : List Byte :=
  let n := data.length / 8
  let r := ((List.range (6 * n)).map (· + 1)).foldl (wrapStep key n) (beBytes 8 0xA6A6A6A6A6A6A6A6, words8 data)
  r.1 ++ r.2.flatten

/-- RFC 3394 unwrap: none where its integrity check fails. -/
def keyUnwrap (key data : List Byte) : Option (List Byte) :=
  let n := data.length / 8 - 1
  let r := ((List.range (6 * n)).map (fun j => 6 * n - j)).foldl (unwrapStep key n)
    (data.take 8, words8 (data.drop 8))
  if r.1 = beBytes 8 0xA6A6A6A6A6A6A6A6 then some r.2.flatten else none

/-! ### FEC and scrambling of the line (R75, R76, R118, R119) -/

/-- Multiplication in GF(2⁸) under x⁸ + x⁴ + x³ + x² + 1. -/
def gfMul (a b : Nat) : Nat :=
  (List.range 8).foldl (fun r i => if bit b i then r ^^^ gfShift a i else r) 0
where
  /-- a times x to the power i. -/
  gfShift (a : Nat) : Nat → Nat
    | 0 => a
    | i + 1 => let t := gfShift a i * 2; if t < 256 then t else t ^^^ 0x11D

/-- α to the power i. -/
def gfPow : Nat → Nat
  | 0 => 1
  | i + 1 => gfMul 2 (gfPow i)

/-- The generator g(x) of R75 without its leading term, highest power first. -/
def rsGen : List Nat :=
  ((List.range 16).foldl (fun (g : List Nat) i =>
    List.zipWith (fun a b => a ^^^ gfMul (gfPow i) b) (g ++ [0]) (0 :: g)) [1]).drop 1

/-- The 16 parity bytes of a codeword's data bytes (R75). -/
def rsParity (data : List Byte) : List Byte :=
  (data.foldl (fun (r : List Nat) d =>
    let f := d.toNat ^^^ r.headD 0
    List.zipWith (fun a g => a ^^^ gfMul f g) (r.drop 1 ++ [0]) rsGen) (List.replicate 16 0)).map
    (BitVec.ofNat 8)

/-- b with the parity of its codewords: n data bytes of 224 a codeword, the last one shortened (R119). -/
def rsEncode (b : List Byte) : List Byte :=
  (List.range (ceilDiv b.length 224)).flatMap (fun i =>
    let d := (b.drop (224 * i)).take 224
    d ++ rsParity d)

/-- The next 8 bits of the sequence of R76 after the 58 bits held in h, newest in bit 0, and h after them. -/
def scrambleByte (h : Nat) : Nat × Nat :=
  (List.range 8).foldl (fun (a : Nat × Nat) _ =>
    let b := (a.2 / 2 ^ 57 + a.2 / 2 ^ 38) % 2
    (a.1 * 2 + b, (a.2 * 2 + b) % 2 ^ 58)) (0, h)

/-- b XORed with the sequence of R76 from its restart. -/
def scramble (b : List Byte) : List Byte :=
  (b.foldl (fun (a : List Byte × Nat) x =>
    let r := scrambleByte a.2
    (a.1 ++ [x ^^^ BitVec.ofNat 8 r.1], r.2)) ([], 2 ^ 58 - 1)).1

/-- A byte string XORed into one byte (the BIP-8 of Table 5.2). -/
def bip8 (b : List Byte) : Byte := b.foldl (· ^^^ ·) 0

end Sys2Proof.Machine
end

