-- ==== Sys2Proof/Machine/ActOps.lean ====
section
/-!
DEFINITION. What several blocks do to activation: the upstream message queue (R120, R156), the laser's safe-off
causes (Table 5.8), state changes with R151 and R133, line keys (R169), and the fields of the accepted
calibration record (Table 18.3).
-/

namespace Sys2Proof.Machine

open Sys2Proof

/-! ### Calibration record (Table 18.3) -/

/-- Unsigned and signed fields of the accepted calibration record; 0 without one. -/
def State.calU (s : State) (off n : Nat) : Nat :=
  match s.crt.cal with
  | some b => beAt b off n
  | none => 0
def State.calS (s : State) (off n : Nat) : Int := toSigned (8 * n) (s.calU off n)

/-- The quotient rounded to the nearest whole number, up or down as told where two are equally near. -/
def roundDiv (num : Int) (den : Nat) (up : Bool) : Int :=
  let q := num / den
  let r := num % den
  if 2 * r < den then q else if den < 2 * r then q + 1 else if up then q + 1 else q

/-- Present wavelength of colour c in pm (R475): the calibration at the latest temperature. -/
def State.lambda (s : State) (c : Nat) : Nat :=
  let dt := s.getS CRT_TEMP_temp - s.calS 32 2
  -- coefficient in 0.1 pm/K, temperature in 0.01 °C
  ((s.calU (20 + 4 * c) 4 : Int) + roundDiv (s.calS (28 + 2 * c) 2 * dt) 1000 (s.free % 2 == 1)).toNat

/-! ### Upstream messages -/

/-- TN that the terminal's messages carry: 0xFE before one is assigned. -/
def State.ownTn (s : State) : Nat := if s.on ACT_STATUS_tn_valid then s.get ACT_STATUS_tn else 0xFE

/-- The 48 bytes of a line message (Table 4.5). -/
def lineMsg (tn type seq : Nat) (body : List Byte) : List Byte :=
  let m := beBytes 1 tn ++ beBytes 1 type ++ beBytes 1 seq ++ [0] ++ fitBytes 40 body
  m ++ fcsBytes m

/-- Types that are held until they are acknowledged (R156). -/
def heldType (t : Nat) : Bool := t == 0x83 || t == 0x85 || t == 0x86 || t == 0x87

/-- An upstream message of a type and body is queued under the next sequence number. -/
def State.queueUp (s : State) (type : Nat) (body : List Byte) : State :=
  let m : UpMsg := ⟨type, s.act.seq, lineMsg s.ownTn type s.act.seq body⟩
  { s with act := { s.act with
    seq := (s.act.seq + 1) % 256, queue := s.act.queue ++ [m],
    held := if heldType type then s.act.held ++ [⟨m, 0, 0, false⟩] else s.act.held } }

/-- Address class of a downstream message (R153): 0 directed, 1 to 0xFE, 2 to 0xFF. -/
def addrClass (m : List Byte) : Nat :=
  if byteAt m 0 = 0xFE then 1 else if byteAt m 0 = 0xFF then 2 else 0

/-- The upstream ACK of a downstream message (Table 6.3), whose result is remembered with it, and one for each copy of it that
was heard before (R155; assumption 44, DEDUCED). -/
def State.ackMsg (s : State) (m : List Byte) (result code : Nat) : State :=
  let same := fun (h : Heard) => h.cls == addrClass m && h.type == byteAt m 1 && h.seq == byteAt m 2
  let n := 1 + ((s.act.heard.filter same).map (fun h => h.copies)).sum
  let heard := s.act.heard.map (fun (h : Heard) =>
    if same h then { h with ack := some (result, code), copies := 0 } else h)
  { s with act := { s.act with heard := heard } }.each (List.range n) (fun _ t => t.queueUp 0x82
    ([byteAt m 1, byteAt m 2, result].flatMap (beBytes 1) ++ beBytes 2 code))

/-- Message m awaits its command. -/
def State.inInbox (s : State) (m : List Byte) (type : Nat) : Bool :=
  s.act.inbox.contains m && byteAt m 1 == type

/-- s with message m taken out of the inbox. -/
def State.tookMsg (s : State) (m : List Byte) : State :=
  { s with act := { s.act with inbox := s.act.inbox.erase m } }

/-- PATINA_REPORT with a cause is queued (Table 18.7, R475). -/
def State.patinaReport (s : State) (cause : Nat) : State :=
  if s.on GLB_SERVICE_cart then
    s.queueUp 0x85 (beBytes 1 (s.get CRT_STATUS_wear) ++ beBytes 1 (s.get CRT_LIFE_life) ++
      beBytes 4 (s.get (CRT_SERIAL_serial 1)) ++ beBytes 4 (s.get (CRT_SERIAL_serial 0)) ++
      beBytes 4 (s.get CRT_EQ_A_minutes / 60) ++ beBytes 4 (s.get CRT_EQ_B_minutes / 60) ++
      beBytes 2 (s.get CRT_LIFE_ins) ++ beBytes 2 (s.get (USL_LOOP_STATUS_out 0)) ++
      beBytes 2 (s.get (USL_LOOP_STATUS_out 2)) ++ beBytes 2 (s.get CRT_TEMP_temp) ++ beBytes 1 cause)
  else s.queueUp 0x85 (beBytes 1 0xFF ++ zeros 25 ++ beBytes 1 cause)

/-! ### Laser -/

/-- Causes of SAFE_OFF, one bit each (Table 5.8): an entry to SAFE_OFF is logged with them (R150), the laser
state follows and GLB_SERVICE.up_ok is brought up to date. -/
def State.setSafe (s : State) (cause : Nat) (b : Bool) : State :=
  let old := s.get USL_SAFE_cause
  let new := if b then setBit old cause else clrBit old cause
  let s := s.put USL_SAFE_cause new
  let s := s.syncLaser.syncUp
  if old = 0 ∧ new ≠ 0 then s.logDev 0x0405 0xF (fdata 0 0 new) else s

/-- The laser is in SAFE_OFF (Table 5.8). -/
def State.safeOff (s : State) : Bool := s.get USL_SAFE_cause != 0

/-- The laser path and the PLL turn to a colour where that differs (R140). -/
def State.turnColour (s : State) (colour : Nat) : State :=
  if s.get USL_STATUS_colour = colour then s
  else
    let s := (s.put USL_STATUS_colour colour).send (.bus 0x58 0x14 (beBytes 2 colour))
    let s := (s.sat (USL_CNT_count 11)).startRelock
    if s.get USL_STATUS_laser = 0 then s.put USL_STATUS_laser 1 else s

/-- Colour of a burst. -/
def Burst.colour (b : Burst) : Nat := (b.grants.map (fun g => g.entry.colour)).headD 0

/-- No burst is running: the path turns to the colour of the next one. -/
def State.nextColour (s : State) : State :=
  if s.usl.plan.any (fun b => b.running) then s
  else match s.usl.plan.head? with
    | some b => s.turnColour b.colour
    | none => s

/-! ### Standing grants -/

/-- USL_ALLOCn.bound of every allocation. -/
def State.syncBound (s : State) : State :=
  s.each (List.range 64) (fun a t => t.putB (USL_ALLOC_bound a) (t.boundGrant a).isSome)

/-- Standing grant k holds body b, or none. -/
def State.setStanding (s : State) (k : Nat) (b : Option StandBody) : State :=
  let x := b.getD ⟨0, 0, 0, 0, 0⟩
  let s := (s.putB (USL_STAND_A_active k) b.isSome).put (USL_STAND_A_aid k) x.aid
  let s := (s.put (USL_STAND_A_mask k) x.mask).put (USL_STAND_A_flags k) x.flags
  (s.put (USL_STAND_B_offset k) x.offset).put (USL_STAND_B_size k) x.size

/-- The change of standing grant k that awaits its frame. -/
def State.setChange (s : State) (k : Nat) (c : Option StandChange) : State :=
  { s.putB (USL_STAND_A_pending k) c.isSome with usl := { s.usl with changes := s.usl.changes.set k c } }

/-- Every standing grant, installed or pending, is removed (R133). -/
def State.clearStanding (s : State) : State :=
  (s.each (List.range 8) (fun k t => (t.setStanding k none).setChange k none)).syncBound

/-! ### Keys -/

/-- Slot k emptied: its key and round keys are zeroed (R409). -/
def State.emptySlot (s : State) (k : Nat) : State :=
  let s := (s.putB (CPH_SLOT_CFG_loaded k) false).put (CPH_SLOT_KCV_kcv k) 0
  { s with cph := { s.cph with keys := storeErase s.cph.keys k } }

/-- Slot k loaded with a key. -/
def State.fillSlot (s : State) (k : Nat) (key : List Byte) : State :=
  let s := (s.putB (CPH_SLOT_CFG_loaded k) true).put (CPH_SLOT_KCV_kcv k) (keyCheck key)
  let s := if 64 ≤ k ∧ k < 96 then { s with msh := { s.msh with fresh := setBit s.msh.fresh (k - 64) } } else s
  { s with cph := { s.cph with keys := storeInsert k key (storeErase s.cph.keys k) } }

/-- The key in slot k. -/
def State.keyIn (s : State) (k : Nat) : Option (List Byte) :=
  (s.cph.keys.find? (fun p => p.1 == k)).map (fun p => p.2)

/-- The next output of the DRBG, n bytes long (R412): every 2²⁰ generate calls it is reseeded. -/
def State.random (s : State) (n : Nat) : List Byte := fitBytes n (Config.drbg s.cph.drawn)
def State.tookRandom (s : State) : State :=
  let again := decide (s.cph.calls + 1 ≥ 2 ^ 20)
  { s.when again (fun t => t.sat (CPH_CNT_count 4)) with
    cph := { s.cph with drawn := s.cph.drawn + 1, calls := if again then 0 else s.cph.calls + 1 } }

/-- The held KEY_REPORTs of slot p of pair k are withdrawn with its key (assumption 44, DEDUCED). -/
def State.dropReports (s : State) (k p : Nat) : State :=
  let mine := fun (m : UpMsg) => m.type == 0x83 && byteAt m.bytes 4 == k && byteAt m.bytes 5 % 2 == p
  { s with act := { s.act with
    held := s.act.held.filter (fun h => !mine h.msg), queue := s.act.queue.filter (fun m => !mine m) } }

/-- The line slots 0 to 63 are emptied. -/
def State.emptyLines (s : State) : State :=
  s.each (List.range 64) (fun i t => (t.emptySlot i).dropReports (i / 2) (i % 2))

/-- Key pair k is in use (spec/06, Key reports); a wing has no line keys (spec/07, Binding). -/
def State.pairInUse (s : State) (k : Nat) : Bool :=
  let st := s.get ACT_STATUS_state
  (st == 3 || st == 4) && !s.isWing && (k == 0 ||
    (List.range 1024).any (fun n => (s.on (DSL_FID_valid n) && s.get (DSL_FID_pair n) == k) ||
      (s.on (USL_FID_valid n) && s.get (USL_FID_pair n) == k)))

/-- KEY_REPORT of a half of a key (Table 6.3), where the enrolment secret is held (R173). -/
def State.keyReport (s : State) (k p half no : Nat) (key : List Byte) : State :=
  match s.cph.secret with
  | none => s
  | some w =>
    (s.queueUp 0x83 (beBytes 1 k ++ beBytes 1 (p + 2 * half) ++ beBytes 2 no ++
      keyWrap w ((key.drop (16 * half)).take 16))).sat (ACT_CNT_count 8)

/-- The slot of parity p of pair k is filled and reported (R169), unless it holds a key, or no key may be
generated (R412, R415). -/
def State.fillLine (s : State) (k p : Nat) : State :=
  if (s.keyIn (2 * k + p)).isSome || !s.on CPH_STATUS_rng_ok || s.on CPH_STATUS_lockout then s
  else
    let key := s.random 32
    let s := s.tookRandom.fillSlot (2 * k + p) key
    let no := (storeGet (fun _ => 0) s.cph.keyNo k + 1) % 65536
    let s := { s with cph := { s.cph with keyNo := storeSet (fun _ => 0) s.cph.keyNo k no } }
    (s.keyReport k p 0 no key).keyReport k p 1 no key

/-- Bytes of a running burst that the engine has not released: an alarm sends each as 0x00 (R416). The line takes
9.95328 bits a nanosecond; what has left it stays. -/
def Burst.zeroUnsent (b : Burst) (now : Nat) : Burst :=
  if b.running then
    let out := (now - b.at_) * 995328 / 800000
    let f := fun (a : Nat × List (List (Byte × Bool))) (g : List (Byte × Bool)) =>
      (a.1 + g.length, a.2 ++ [g.zipIdx.map (fun x =>
        if x.1.2 && decide (out ≤ a.1 + x.2 + b.pre / 8 + 12) then (0, x.1.2) else x.1)])
    { b with bytes := (b.bytes.foldl f (0, [])).2 }
  else b

/-- What an alarm does to the burst that is being serialised (R416). -/
def State.zeroBursts (s : State) : State :=
  { s with usl := { s.usl with plan := s.usl.plan.map (fun (b : Burst) => b.zeroUnsent s.clk) } }

/-- Every empty slot of a pair in use is filled, slot 0 of a pair before slot 1 (R169). -/
def State.fillLines (s : State) : State :=
  s.each ((List.range 32).filter s.pairInUse) (fun k t => (t.fillLine k 0).fillLine k 1)

/-! ### Activation state -/

/-- What entering Dark, Listening or Silenced discards (R151). -/
def State.forgetTn (s : State) : State :=
  let s := ((s.putB ACT_STATUS_tn_valid false).put ACT_STATUS_tn 0).put USL_EQD_eqd 0
  let s := (s.put USL_LEAD_short 4).put USL_LEAD_long 16
  let s := { s with usl := { s.usl with timing := ⟨0, 4, 16⟩, later := [], eqdSet := false } }
  let s := s.emptyLines
  let s := { s with dsl := { s.dsl with
    pairs := s.dsl.pairs.map (fun (p : KeyPair) => { p with pending := none, implicit := none }) } }
  let s := s.each (List.range 64) (fun a t => t.putB (USL_ALLOC_valid a) false)
  let s := { s with act := { s.act with traceTwin := false } }
  s.clearStanding.put GLB_SERVICE_v0_trace 0

/-- Activation moves to another state (Table 6.4): DEACTIVATED, R151 and R133 where they apply, the timers
that run only in the state left, GLB_SERVICE.act, the epoch floor outside a trial (R63), and PF vector 3
(assumption 44, DEDUCED). -/
def State.setAct (s : State) (next : Nat) : State :=
  let old := s.get ACT_STATUS_state
  if old = next then s
  else
    let out := next == 0 || next == 1 || next == 6
    let s := s.when (out && (old == 3 || old == 4 || old == 5)) (fun t =>
      (t.logDev 0x0501 0xF (fdata 0 0 t.free)).tookFree)
    let s := s.when out State.forgetTn
    let s := s.when (old == 4) State.clearStanding
    let s := (s.put ACT_STATUS_state next).put GLB_SERVICE_act next
    let keep3 := next == 3 || next == 4 || next == 5
    let s := s.when (!keep3) (fun t => t.putB ACT_STATUS_hold false)
    let s := { s with act := { s.act with
      t1 := if next = 2 then s.act.t1 else none, t2 := if next = 3 then s.act.t2 else none,
      t3 := if keep3 then s.act.t3 else none, t4 := if next = 6 then s.act.t4 else none,
      seq := if next = 2 then 0 else s.act.seq } }
    -- the repeats of a dying gasp that remain are not sent (spec/06, If SILENCE op 1 arrives while a dying gasp is repeated)
    let s := s.when (next == 6) (fun t => { t with usl := { t.usl with gasp := none } })
    let s := s.when (next == 4 && s.on GLB_SERVICE_arm && !s.trialBoot) State.raiseFloor
    (s.raisePf 3).syncUp

end Sys2Proof.Machine
end

