-- ==== Sys2Proof/Machine/Double.lean ====
section
/-!
DEFINITION. IEEE 754 double precision for the twin-colour computation of R175: finite values as rational numbers, the
infinities and NaN; every result is rounded to nearest, ties to even. The sign of a zero is not kept: no divisor of
R175 can be a negative zero.
-/

namespace Sys2Proof.Machine

/-- A double-precision value. -/
inductive Dbl where
  | fin (q : ℚ)
  | inf (neg : Bool)
  | nan
  deriving DecidableEq

/-- The quotient n / d of natural numbers rounded to the nearest whole number, ties to even. -/
def roundEven (n d : Nat) : Nat :=
  let q := n / d
  let r := n % d
  if 2 * r < d then q else if d < 2 * r then q + 1 else if q % 2 = 0 then q else q + 1

/-- n / d times 2 to the power -e, as a pair. -/
def scaleBy (n d : Nat) (e : Int) : Nat × Nat :=
  if 0 ≤ e then (n, d * 2 ^ e.toNat) else (n * 2 ^ (-e).toNat, d)

/-- The magnitude of a rational number other than 0 rounded to 53 significant bits, or fewer in the subnormal range. -/
def dblMag (x : ℚ) : ℚ :=
  let n := x.num.natAbs
  let e0 : Int := (Nat.log2 n : Int) - Nat.log2 x.den - 52
  let p := scaleBy n x.den e0
  -- the quotient lies in (2⁵¹, 2⁵³); one binary place lower where it is below 2⁵²
  let e := max (if p.1 < p.2 * 2 ^ 52 then e0 - 1 else e0) (-1074)
  let p := scaleBy n x.den e
  let m : ℚ := roundEven p.1 p.2
  if 0 ≤ e then m * 2 ^ e.toNat else m / 2 ^ (-e).toNat

/-- A rational number rounded to double precision. -/
def dbl (x : ℚ) : Dbl :=
  if x = 0 then .fin 0
  else if 2 ^ 1024 ≤ dblMag x then .inf (decide (x < 0))
  else .fin (if x < 0 then -dblMag x else dblMag x)

/-- The value with its sign changed. -/
def dNeg : Dbl → Dbl
  | .fin a => .fin (-a)
  | .inf n => .inf (!n)
  | .nan => .nan

/-- The four operations in double precision. -/
def dAdd : Dbl → Dbl → Dbl
  | .fin a, .fin b => dbl (a + b)
  | .nan, _ | _, .nan => .nan
  | .inf m, .inf n => if m = n then .inf m else .nan
  | .inf m, .fin _ | .fin _, .inf m => .inf m
def dSub (a b : Dbl) : Dbl := dAdd a (dNeg b)
def dMul : Dbl → Dbl → Dbl
  | .fin a, .fin b => dbl (a * b)
  | .nan, _ | _, .nan => .nan
  | .inf m, .inf n => .inf (m != n)
  | .inf m, .fin a | .fin a, .inf m => if a = 0 then .nan else .inf (m != decide (a < 0))
def dDiv : Dbl → Dbl → Dbl
  | .fin a, .fin b => if b = 0 then (if a = 0 then .nan else .inf (decide (a < 0))) else dbl (a / b)
  | .nan, _ | _, .nan => .nan
  | .inf _, .inf _ => .nan
  | .inf m, .fin b => .inf (m != decide (b < 0))
  | .fin _, .inf _ => .fin 0

/-- Magnitude, and the comparison a ≤ b, which no NaN meets. -/
def dAbs : Dbl → Dbl
  | .fin a => .fin |a|
  | .inf _ => .inf false
  | .nan => .nan
def dLe : Dbl → Dbl → Bool
  | .fin a, .fin b => decide (a ≤ b)
  | .nan, _ | _, .nan => false
  | .inf m, .inf n => m || !n
  | .inf m, .fin _ => m
  | .fin _, .inf n => !n

/-- τ(λ) of R175 in ps/km: s0 / 8 · (λ − λ₀²/λ)². -/
def groupDelay (s0 lam0 lam : Dbl) : Dbl :=
  let x := dSub lam (dDiv (dMul lam0 lam0) lam)
  dMul (dMul (dDiv s0 (.fin 8)) x) x

end Sys2Proof.Machine
end

