-- ==== Sys2Proof/Machine/Act.lean ====
section
/-!
DEFINITION. Activation and twin-colour ranging (spec/06_activation_and_twin_colour_ranging.md).
-/

namespace Sys2Proof.Machine

open Sys2Proof

/-! ### Phase ACT: duplicates, verdict, announce windows -/

/-- A message that passed PHASE_MAP is remembered and released to its command, or is a duplicate, whose stored
ACK is repeated (R154, R155). A directed one other than a SLEEP_ALLOW with op 1 ends WATCH (R488). -/
def State.hear (s : State) (m : List Byte) : State :=
  let t := byteAt m 1
  let s := s.when (addrClass m == 0 && !(t == 8 && byteAt m 4 == 1)) State.leaveWatch
  let same := fun (h : Heard) => h.cls == addrClass m && h.type == t && h.seq == byteAt m 2 &&
    decide (s.tick.fc < h.frame + 512)
  let exempt := t == 3 || t == 4 || t == 6
  match if exempt then none else s.act.heard.find? same with
  | some h =>
    let s := s.sat (ACT_CNT_count 5)
    match h.ack with
    | some (r, c) => s.ackMsg m r c
    | none => { s with act := { s.act with heard := s.act.heard.map (fun (x : Heard) =>
        if x = h then { x with copies := x.copies + 1 } else x) } }
  | none =>
    let l := s.act.heard.filter (fun h => decide (s.tick.fc < h.frame + 512))
    { s with act := { s.act with heard := l ++ [⟨addrClass m, t, byteAt m 2, s.tick.fc, none, 0⟩],
                                 inbox := s.act.inbox ++ [m] } }

/-- Loss or return of the aligned verdict and of the cartridge (Table 6.4, R166). -/
def State.actVerdict (s : State) : State :=
  let ok := s.aligned
  let cart := s.on GLB_SERVICE_cart
  match s.get ACT_STATUS_state with
  | 0 =>
    if s.on ACT_SILENCE_silenced then
      let r := s.get ACT_SILENCE_remain
      let s := s.setAct 6
      { s with act := { s.act with t4 := if r = 0 then none else some (s.clk + r * sec) } }
    else if ok && s.get TICK_STATUS_state == 1 then s.setAct 1 else s
  | 1 => if ok then s else s.setAct 0
  | 2 => if !ok then s.setAct 0 else if !cart || s.safeOff then s.setAct 1 else s
  | 6 => s
  | _ =>
    if ok && cart then
      { s.putB ACT_STATUS_hold false with act := { s.act with t3 := none } }
    else if s.on ACT_STATUS_hold then s
    else
      let t := s.clk + s.get ACT_T3_t3 * 100 * ms
      { (s.putB ACT_STATUS_hold true).sat (ACT_CNT_count 12) with act := { s.act with t3 := some t } }

/-- What remains of T4 in whole seconds, and the age of the last twin-colour result. -/
def State.actClocks (s : State) : State :=
  let s := match s.act.t4 with
    | some d => s.put ACT_SILENCE_remain (ceilDiv (d - s.clk) sec)
    | none => s
  match s.act.twinAt with
  | some t => s.put ACT_TC_STATUS_age (min ((s.clk - t) / sec) 0xFFFF)
  | none => s

/-- Serial number of the terminal as messages carry it. -/
def State.serialBytes (s : State) : List Byte := beBytes 8 s.fuse.serial.toNat

/-- GLB_ID.part of the variant (Table 0.1). -/
def State.part (s : State) : Nat := if s.fuse.is7401 then 0x7401 else 0x7400

/-- ANNOUNCE body with random offset r (Table 6.3). -/
def State.announceBody (s : State) (r : Nat) : List Byte :=
  s.serialBytes ++ beBytes 2 s.part ++ beBytes 1 (s.get GLB_REV_letter) ++ beBytes 1 (s.get GLB_REV_step) ++
    beBytes 2 r ++
    beBytes 1 (bitNat (s.on GLB_SERVICE_arm) + 2 * bitNat (bit (s.calU 17 1) 0)) ++ [0] ++
    beBytes 4 (s.lambda 0) ++ beBytes 4 (s.lambda 1)

/-- T1 starts: 10.0 s (Table 6.5). -/
def State.startT1 (s : State) : State := { s with act := { s.act with t1 := some (s.clk + 10 * sec) } }

/-- The terminal announces in a window (R157 to R159): r and the skip count are drawn, and the burst joins the
schedule. -/
def State.announce (s : State) (g : MapGrant) : State :=
  let b := if g.fec then 6 else 4
  let r := s.free % (g.size - b + 1)
  let s := s.tookFree
  let s := (s.put ACT_STATUS_skip (s.free % 8)).tookFree
  let first := s.get ACT_STATUS_state == 1
  let s := if first then (s.setAct 2).startT1 else s
  let m := lineMsg 0xFE 0x81 s.act.seq (s.announceBody r)
  let g := { g with start := g.start + r, size := b }
  let pre := 32 * (if g.longLead then s.usl.timing.long else s.usl.timing.short)
  let b : Burst :=
    { id := s.usl.nextId, frame := s.tick.fc, grants := [⟨g, false⟩], pre := pre,
      start := s.tick.fc * 1244160 + 128 * g.start, announce := some m, locked := false, content := none,
      running := false }
  ({ s with
    act := { s.act with seq := (s.act.seq + 1) % 256 },
    usl := { s.usl with nextId := s.usl.nextId + 1, plan := s.usl.plan ++ [b], granted := some s.tick.fc } }).nextColour

/-- An announce window of a quiet map (R157 to R159). -/
def State.announceWindow (s : State) (g : MapGrant) : State :=
  let st := s.get ACT_STATUS_state
  if !(st == 1 || (st == 2 && !s.on ACT_STATUS_tn_valid)) then s
  else if g.size < (if g.fec then 6 else 4) then s.sat (ACT_CNT_count 1)
  else if s.get ACT_STATUS_skip ≠ 0 then s.put ACT_STATUS_skip (s.get ACT_STATUS_skip - 1)
  else if s.on GLB_SERVICE_cart && !s.safeOff && s.on ACT_CTRL_act_en then s.announce g
  else s

/-- The first n messages of the map are heard, in a tick that is LOCKED (R582): those that phase MAP has released when phase ACT
acts (R33). They are judged by the state at the start of the phase. -/
def State.hearAll (s : State) (n : Nat) : State :=
  let t := s.each (if s.get TICK_STATUS_state = 1 then s.dsl.msgs.take n else []) (fun m t => t.hear m.bytes)
  { t with dsl := { t.dsl with msgs := [] },
           act := { t.act with judged := some (s.tick.edges, s.get ACT_STATUS_state) } }

/-- The state by which a message is judged: that at the start of phase ACT of its tick, whose state changes take effect at the
end of the phase (R152; assumption 100, DEDUCED). -/
def State.judgedState (s : State) : Nat :=
  match s.act.judged with
  | some (e, st) => if e = s.tick.edges then st else s.get ACT_STATUS_state
  | none => s.get ACT_STATUS_state

/-- A message moves activation from the state by which it is judged to another; where an earlier event of the phase has already
left that state, the earlier change stands (assumption 100, DEDUCED). -/
def State.moveAct (s : State) (next : Nat) : State :=
  if s.get ACT_STATUS_state = s.judgedState then s.setAct next else s

/-- The announce windows of a quiet map are used, in a tick that is LOCKED (R157). -/
def State.useWindows (s : State) : State :=
  s.each (if s.get TICK_STATUS_state = 1 ∧ s.dsl.quiet then s.dsl.grants.filter (fun g => g.aid == 0xFFF) else [])
    (fun g t => t.announceWindow g)

/-- PHASE_ACT (R33, R152, R582): the messages that phase MAP has released are heard, an announce window of a quiet map is used,
and the verdicts are acted on, a state change taking effect at the end of the phase. In a wing the block does not run
(R191). -/
def execPhaseAct (cycles waited released : Nat) (s : State) : Host.Outcome State Fault Refusal :=
  .next (if s.isWing then s.phaseUsedAfter 3 cycles waited
    else (s.hearAll released).useWindows.actVerdict.actClocks.phaseUsedAfter 3 cycles waited)

/-! ### Terminal number and ranging -/

/-- The terminal adopts TN tn. -/
def State.adoptTn (s : State) (tn : Nat) : State :=
  ((s.put ACT_STATUS_tn tn).putB ACT_STATUS_tn_valid true).sat (ACT_CNT_count 2)

/-- ASSIGN_TN (R160, Table 6.4). -/
def execAssignTn (msg : List Byte) (s : State) : Host.Outcome State Fault Refusal :=
  if !s.inInbox msg 1 then .next s
  else
    let s := s.tookMsg msg
    let tn := byteAt msg 12
    let st := s.judgedState
    if byteAt msg 0 ≠ 0xFE ∨ beAt msg 4 8 ≠ s.fuse.serial.toNat then .next s
    else if 127 < tn then .next ((s.logDev 0x050A 0xF 0).ackMsg msg 1 0x050A)
    else
      let new := !s.on ACT_STATUS_tn_valid || s.get ACT_STATUS_tn != tn
      if s.get ACT_STATUS_state ≠ st then .next (s.ackMsg msg 2 0)
      else if st = 2 ∧ new then .next ((s.adoptTn tn).ackMsg msg 0 0)
      else if (st = 3 ∨ st = 4) ∧ new then
        let s := s.clearStanding.put USL_EQD_eqd 0
        let s := { s with usl := { s.usl with timing := { s.usl.timing with eqd := 0 }, later := [],
                                              eqdSet := false } }
        let s := (s.setAct 2).startT1
        .next ((s.adoptTn tn).ackMsg msg 0 0).syncUp
      else .next (s.ackMsg msg 2 0)

/-- The default management channel where none is configured (R127): the entries are written as any other
write, for the next tick edge. -/
def State.defaultMgmt (s : State) : State :=
  let d := fidAfterOf s 0x41000 s.dsl.fidWrites
  let u := fidAfterOf s 0x61000 s.dsl.ufidWrites
  let tn := s.get ACT_STATUS_tn
  let free := fun (f : Nat → Word) => (List.range 1024).reverse.find? (fun n => !bit (f n).toNat 15)
  let hasD := (List.range 1024).any (fun n => bit (d n).toNat 15 && bits (d n).toNat 8 7 == 2)
  let hasU := s.on CST_MGMT_valid && bit (u (s.get CST_MGMT_ufid)).toNat 15
  let s := if hasD then s else match free d with
    | some n => { s with dsl := { s.dsl with
        fidWrites := s.dsl.fidWrites ++ [(n, BitVec.ofNat 32 ((0xFE00 + tn) * 65536 + 0xC100))] } }
    | none => s.logDev 0x030A 0xF 0
  if hasU then s else match free u with
    | some n =>
      let s := (s.put CST_MGMT_ufid n).putB CST_MGMT_valid true
      { s with dsl := { s.dsl with
        ufidWrites := s.dsl.ufidWrites ++ [(n, BitVec.ofNat 32 ((0xFE80 + tn) * 65536 + 0xC000))] } }
    | none => s.logDev 0x030A 0xF 0
where
  /-- The entries of a flow table at base as they will stand at the next tick edge. -/
  fidAfterOf (s : State) (base : Nat) (w : List (Nat × Word)) (n : Nat) : Word :=
    match w.reverse.find? (fun x => x.1 == n) with
    | some x => x.2
    | none => s.word (base + 4 * n)

/-- What each entry to Ranged does (R127, R173, Table 5.2, Table 6.5): T2, the default management channel, and the next burst
reports no BIP-8. -/
def State.atRanged (s : State) : State :=
  let s := { s with act := { s.act with t2 := some (s.clk + 2 * sec) }, usl := { s.usl with bip := 0 } }
  let s := s.defaultMgmt
  if s.cph.sealed.isNone then s.logDev 0x050B 0xF 0 else s

/-- Entry to Ranged from Announced (R165, R169): no line slot holds a key, and those in use are filled (assumption 44, DEDUCED). -/
def State.enterRanged (s : State) : State :=
  let s := (s.setAct 3).emptyLines
  let s := { s with act := { s.act with acked := 0 } }
  s.atRanged.fillLines

/-- Fields of a RANGE_SET (Table 6.2). -/
def rangeRefused (s : State) (m : List Byte) : Bool :=
  let st := s.judgedState
  decide (4976640 < beAt m 6 4) || decide (650000000 < beAt m 10 4) ||
    !(decide (4 ≤ byteAt m 14) && decide (byteAt m 14 ≤ byteAt m 15) && decide (byteAt m 15 ≤ 16)) ||
    (bit (byteAt m 5) 0 && bit (byteAt m 5) 1) || !((st == 2 && s.on ACT_STATUS_tn_valid) || st == 3 || st == 4)

/-- A twin-colour set is discarded with a reason (Table 6.11). -/
def State.tcReject (s : State) (reason : Nat) : State :=
  ((s.put ACT_TC_STATUS_reason reason).sat (ACT_CNT_count 11)).logDev 0x0506 0xF (fdata 0 0 reason)

/-- The uncompensated residual of a laser path delay in ps (R468). -/
def residual (tx : Nat) (up : Bool) : Int :=
  let p := roundDiv (tx * 1000) 100469 up
  roundDiv ((tx : Int) * 1000 - p * 100469) 1000 up

/-- The computation and judgement of R175 and R176 on a complete set: reason of a refusal, or the result
(assumption 45, DEDUCED). -/
def State.twinColour (s : State) (set rttA rttB lamD : Nat) : Nat ⊕ TwinResult :=
  let up := s.free % 2 == 1
  let nm := fun (pm : Int) => dbl ((pm : ℚ) / 1000)
  let lamAt := fun (c : Nat) (temp : Int) =>
    dAdd (nm (s.calU (20 + 4 * c) 4)) (dMul (dbl ((s.calS (28 + 2 * c) 2 : ℚ) / 10000))
      (dSub (dbl ((temp : ℚ) / 100)) (dbl ((s.calS 32 2 : ℚ) / 100))))
  let s0 := dbl ((s.get ACT_TC_S0_s0 : ℚ) / 100000)
  let lam0 := nm (s.get ACT_TC_LAM0_lam0)
  let tauA := groupDelay s0 lam0 (lamAt 0 (s.getS ACT_TEMP_temp_a))
  let tauB := groupDelay s0 lam0 (lamAt 1 (s.getS ACT_TEMP_temp_b))
  let tauD := groupDelay s0 lam0 (nm (if lamD = 0 then 1577500 else lamD))
  let skew : Int := residual (s.calU 42 4) up - residual (s.calU 38 4) up
  let spread := dSub tauB tauA
  let rtt := fun (n : Nat) => Dbl.fin (n : ℚ)
  let diff := dSub (dSub (rtt rttB) (rtt rttA)) (.fin (skew : ℚ))
  let len := dDiv diff spread
  let asym := dMul len (dSub tauA tauD)
  let dDown := dDiv (dSub (rtt rttA) asym) (.fin 2)
  let coarse := dDiv (rtt rttA) (dMul (.fin 2) (.fin (s.get ACT_TC_TAUG_tau_g : ℚ)))
  -- a result that is not finite has no rounded value (assumption 45, DESIGN CHOICE)
  let rnd := fun (x : Dbl) (k : Nat) => match x with
    | .fin q => roundDiv q.num q.den up
    | _ => (Config.freeNat (s.freeCount + k) : Int)
  if !dLe (.fin 20) (dAbs spread) then .inl 3
  else if !(dLe (.fin 0) len && dLe len (.fin 60)) then .inl 4
  else if !dLe (dAbs (dSub len coarse)) (dbl ((s.get ACT_TC_TOL_tol : ℚ) / 1000)) then .inl 5
  else .inr ⟨set, (rnd (dMul len (.fin 1000)) 1).toNat, rnd asym 1, rnd dDown 2, false⟩

/-- A measurement set is complete (R174): its first half h and the second half (assumption 45, DEDUCED). -/
def State.twinSet (s : State) (h k : RangeHalf) : State :=
  let a := if h.colour = 0 then h else k
  let b := if h.colour = 0 then k else h
  let s := { s with act := { s.act with half := none } }
  if !s.on ACT_CTRL_tc_en then s.tcReject 0
  else if h.other || k.other then s.tcReject 6
  else if 2 * sec < k.at_ - h.at_ then s.tcReject 2
  else if 200 < (s.getS ACT_TEMP_temp_a - s.getS ACT_TEMP_temp_b).natAbs then s.tcReject 1
  else match s.twinColour h.set a.rtt b.rtt a.lamD with
    | .inl r => s.tookFree.tcReject r
    | .inr r =>
      let s := s.tookFree.tookFree.tookFree
      { s with act := { s.act with twin := some r } }

/-- An accepted RANGE_SET enters twin-colour ranging (R174). -/
def State.twinHalf (s : State) (m : List Byte) : State :=
  let k : RangeHalf := ⟨byteAt m 4, byteAt m 5 % 2, beAt m 10 4, beAt m 16 4, s.clk, !s.on GLB_SERVICE_cart⟩
  match s.act.half with
  | some h =>
    if h.set = k.set ∧ h.colour ≠ k.colour then s.twinSet h k
    else { s with act := { s.act with half := some k } }
  | none => { s with act := { s.act with half := some k } }

/-- RANGE_SET (R164, R165, R174). -/
def execRangeSet (msg : List Byte) (s : State) : Host.Outcome State Fault Refusal :=
  if !s.inInbox msg 2 || decide (0x7F < byteAt msg 0) then .next s
  else
    let s := s.tookMsg msg
    if rangeRefused s msg then
      .next (((s.logDev 0x0505 0xF 0).sat (ACT_CNT_count 4)).ackMsg msg 1 0x0505)
    else
      let st := s.judgedState
      let colour := byteAt msg 5 % 2
      let s := (s.put (ACT_RTT_rtt colour) (beAt msg 10 4)).sat (ACT_CNT_count 3)
      let s := if st = 3 ∨ st = 4 then s.twinHalf msg else s
      -- R151 has discarded the delay where an event of the phase has already led out of these states
      let out := st != s.get ACT_STATUS_state && decide (s.get ACT_STATUS_state ∉ [3, 4, 5])
      if bit (byteAt msg 5) 1 && !out then
        let t : Timing := ⟨beAt msg 6 4, byteAt msg 14, byteAt msg 15⟩
        let s := ((s.put USL_EQD_eqd t.eqd).put USL_LEAD_short t.short).put USL_LEAD_long t.long
        let s := { s with usl := { s.usl with later := s.usl.later ++ [(s.tick.fc + 2, t)], eqdSet := true } }
        let s := if st = 2 then s.enterRanged else s
        .next (s.ackMsg msg 0 0).syncUp
      else .next (s.ackMsg msg 0 0)

/-! ### Silence -/

/-- The terminal that a SILENCE addresses (Table 6.2). -/
def State.silenceMine (s : State) (m : List Byte) : Bool :=
  byteAt m 0 == 0xFF || (byteAt m 0 == 0xFE && beAt m 8 8 == s.fuse.serial.toNat) ||
    decide (byteAt m 0 ≤ 0x7F)

/-- A SILENCE with op o that is for this terminal waits. -/
def State.silenceDue (s : State) (m : List Byte) (o : Nat) : Bool :=
  s.inInbox m 7 && byteAt m 4 == o && s.silenceMine m

/-- A SILENCE is taken: its reason recorded, and counted. -/
def State.tookSilence (s : State) (m : List Byte) : State :=
  ((s.tookMsg m).put ACT_SILENCE_reason (byteAt m 5)).sat (ACT_CNT_count 13)

/-- Leaving Silenced or Quarantined on a release (Table 6.4), also where a device warm reset has left silenced set and phase ACT
has not yet acted on it (R168); a state that lists no release stays. In a wing activation does not run (R191). -/
def State.unsilence (s : State) : State :=
  if s.isWing then s
  else if s.get ACT_STATUS_state = 6 then
    let s := (s.putB ACT_SILENCE_silenced false).put ACT_SILENCE_remain 0
    s.setAct (if s.aligned then 1 else 0)
  else if s.get ACT_STATUS_state = 0 && s.on ACT_SILENCE_silenced then
    (s.putB ACT_SILENCE_silenced false).put ACT_SILENCE_remain 0
  else if s.get ACT_STATUS_state = 5 then
    let s := s.setAct s.act.prior
    (if s.act.prior = 3 then s.atRanged else s).fillLines
  else s

/-- SILENCE_RELEASE (op 0): acknowledged where it is directed (R155), with result 2 where the state does not
list it. -/
def execSilenceRelease (msg : List Byte) (s : State) : Host.Outcome State Fault Refusal :=
  if !s.silenceDue msg 0 then .next s
  else
    let st := s.judgedState
    let now := s.get ACT_STATUS_state
    let s := s.tookSilence msg
    if st = 6 then .next s.unsilence
    else if st = 5 ∧ now = 5 then .next (s.unsilence.ackMsg msg 0 0)
    else .next (s.ackMsg msg 2 0)

/-- SILENCE_SILENCE (op 1): Silenced for duration seconds, or until released. -/
def execSilenceSilence (msg : List Byte) (s : State) : Host.Outcome State Fault Refusal :=
  if !s.silenceDue msg 1 then .next s
  else
    let st := s.judgedState
    let now := s.get ACT_STATUS_state
    let s := s.tookSilence msg
    if st = 0 ∨ st = 6 ∨ now = 0 ∨ now = 6 then .next s
    else
      let d := beAt msg 6 2
      let s := (s.setAct 6).logDev 0x0507 0xF 0
      let s := (s.putB ACT_SILENCE_silenced true).put ACT_SILENCE_remain d
      .next { s with act := { s.act with t4 := if d = 0 then none else some (s.clk + d * sec) } }

/-- SILENCE_QUARANTINE (op 2): Quarantined from Ranged or Serving, acknowledged with result 2 elsewhere. -/
def execSilenceQuarantine (msg : List Byte) (s : State) : Host.Outcome State Fault Refusal :=
  if !s.silenceDue msg 2 then .next s
  else
    let st := s.judgedState
    let now := s.get ACT_STATUS_state
    let s := s.tookSilence msg
    if (st = 3 ∨ st = 4) ∧ now = st then
      let s := { s with act := { s.act with prior := st } }
      .next ((s.setAct 5).logDev 0x0508 0xF 0)
    else .next (s.ackMsg msg 2 0)

/-- SILENCE_DEREGISTER (op 3): Listening, with R151. -/
def execSilenceDeregister (msg : List Byte) (s : State) : Host.Outcome State Fault Refusal :=
  if !s.silenceDue msg 3 then .next s
  else
    let st := s.judgedState
    let now := s.get ACT_STATUS_state
    let s := s.tookSilence msg
    if 2 ≤ st ∧ st ≤ 5 ∧ now = 2 then .next ((s.logDev 0x0501 0xF 0).setAct 1)
    else if 2 ≤ st ∧ st ≤ 5 ∧ 3 ≤ now ∧ now ≤ 5 then .next (s.setAct 1)
    else .next s

/-- SILENCE_RELEASE_WRITE (R168): a host write to ACT_SILENCE; 0 in silenced acts as SILENCE op 0. -/
def execSilenceReleaseWrite (data : Word) (s : State) : Host.Outcome State Fault Refusal :=
  .next (if bit data.toNat 0 then s else s.unsilence)

/-! ### Timers -/

/-- A deadline has come. -/
def State.due (s : State) (d : Option Nat) : Bool :=
  match d with
  | some t => decide (t ≤ s.clk)
  | none => false

/-- T1_EXPIRY (R157, Table 6.4). -/
def execT1Expiry (s : State) : Host.Outcome State Fault Refusal :=
  .next (if s.due s.act.t1 then (s.logDev 0x0502 0xF 0).setAct 1 else s)

/-- T2_EXPIRY (R173). -/
def execT2Expiry (s : State) : Host.Outcome State Fault Refusal :=
  .next (if s.due s.act.t2 then (s.logDev 0x0503 0xF 0).setAct 1 else s)

/-- T3_EXPIRY: Dark where the aligned verdict is lost, otherwise Listening. -/
def execT3Expiry (s : State) : Host.Outcome State Fault Refusal :=
  .next (if s.due s.act.t3 then (s.logDev 0x0504 0xF 0).setAct (if s.aligned then 1 else 0) else s)

/-- T4_EXPIRY (R168). -/
def execT4Expiry (s : State) : Host.Outcome State Fault Refusal :=
  .next (if s.due s.act.t4 then s.unsilence else s)

/-! ### Held messages and keys -/

/-- The held message of a type and sequence number. -/
def State.heldMsg (s : State) (type seq : Nat) : Option HeldMsg :=
  s.act.held.find? (fun h => h.msg.type == type && h.msg.seq == seq)

/-- s without the held message of a type and sequence number, queued or not. -/
def State.dropHeld (s : State) (type seq : Nat) : State :=
  let keep := fun (m : UpMsg) => !(m.type == type && m.seq == seq)
  { s with act := { s.act with held := s.act.held.filter (fun h => keep h.msg),
                               queue := s.act.queue.filter keep } }

/-- A KEY_REPORT refused with status 1 (R170). -/
def State.keyRefused (s : State) (k p : Nat) : State :=
  let s := s.sat (ACT_CNT_count 9)
  if s.get ACT_STATUS_state = 4 ∧ p = s.get (DSL_KEYPAIR_parity k) then s.logDev 0x050E 0xF 0
  else
    let s := s.dropReports k p
    let s := { s with act := { s.act with acked := if k = 0 ∧ p = 0 then 0 else s.act.acked } }
    let s := s.emptySlot (2 * k + p)
    if s.pairInUse k then s.fillLine k p else s

/-- A KEY_REPORT half acknowledged with status 0: both halves of slot 0 take Ranged to Serving (Table 6.4). -/
def State.keyAcked (s : State) (k p half : Nat) : State :=
  if k = 0 ∧ p = 0 ∧ s.get ACT_STATUS_state = 3 ∧ s.judgedState = 3 then
    let a := s.act.acked ||| BitVec.ofNat 2 (2 ^ half)
    let s := { s with act := { s.act with acked := a } }
    if a = 3 then s.setAct 4 else s
  else s

/-- ACK_DOWNSTREAM (R156, R170). -/
def execAckDownstream (msg : List Byte) (s : State) : Host.Outcome State Fault Refusal :=
  if !s.inInbox msg 0x0B then .next s
  else
    let s := s.tookMsg msg
    match s.heldMsg (byteAt msg 4) (byteAt msg 5) with
    | none => .next s
    | some h =>
      let s := s.dropHeld h.msg.type h.msg.seq
      if h.msg.type = 0x83 then
        let k := byteAt h.msg.bytes 4
        let f := byteAt h.msg.bytes 5
        .next (if byteAt msg 6 = 1 then s.keyRefused k (f % 2) else s.keyAcked k (f % 2) (f / 2 % 2))
      else .next s

/-- UPSTREAM_MSG_RESEND (R156, R171, R487): 16 frames after each send a held message is queued again; after the
eighth it is dropped, and a KEY_REPORT waits for the next key epoch (assumption 45, DEDUCED). -/
def execUpstreamMsgResend (type seq : Byte) (s : State) : Host.Outcome State Fault Refusal :=
  match s.heldMsg type.toNat seq.toNat with
  | none => .next s
  | some h =>
    if h.sends = 0 ∨ h.dormant ∨ s.tick.fc < h.last + 16 ∨ s.act.queue.contains h.msg ∨
        s.get PWR_STATUS_mode = 2 then .next s
    else if h.sends < 8 then
      .next ({ s with act := { s.act with queue := s.act.queue ++ [h.msg] } }.sat (ACT_CNT_count 6))
    else if type.toNat = 0x83 then
      let held := s.act.held.map (fun (x : HeldMsg) => if x.msg = h.msg then { x with dormant := true } else x)
      .next (({ s with act := { s.act with held := held } }.sat (ACT_CNT_count 7)).logDev 0x0509 0xF 0)
    else
      .next (((s.dropHeld type.toNat seq.toNat).sat (ACT_CNT_count 7)).logDev 0x050D 0xF 0)

/-- KEY_REPORT_RESERIES (R171): at the next key-epoch boundary an unacknowledged KEY_REPORT starts again
(assumption 45, DEDUCED). -/
def execKeyReportReseries (seq : Byte) (s : State) : Host.Outcome State Fault Refusal :=
  match s.heldMsg 0x83 seq.toNat with
  | none => .next s
  | some h =>
    if h.dormant && decide (h.last / 8192 < s.tick.fc / 8192) then
      let held := s.act.held.map (fun (x : HeldMsg) =>
        if x.msg = h.msg then { x with dormant := false, sends := 0 } else x)
      .next { s with act := { s.act with held := held, queue := s.act.queue ++ [h.msg] } }
    else .next s

end Sys2Proof.Machine
end

