-- ==== Sys2Proof/Machine/ArmImage.lean ====
section
/-!
DEFINITION. Armature images: header, TLVs, the structure they carve, and the checks of Table 3.8
(spec/03_armature_images.md).
-/

namespace Sys2Proof.Machine

open Sys2Proof

/-! ### Layout (Tables 3.2 to 3.5) -/

/-- A TLV: type, niche byte, offset of its header, body length and body. -/
structure Tlv where
  typ : Nat
  niche : Nat
  off : Nat
  len : Nat
  body : List Byte
  deriving DecidableEq, Repr

/-- An image: its bytes, its TLVs and the offset of the signer key. -/
structure Image where
  data : List Byte
  tlvs : List Tlv
  key : Nat
  deriving DecidableEq, Repr

/-- A failed check: its code of Table 3.8 and the offset that ARM_FAIL_OFF takes (R583). -/
abbrev Failure := Nat × Nat

/-- The header flag that marks a re-carve image, and its niche. -/
def Image.recarve (m : Image) : Bool := bit (beAt m.data 6 2) 0
def Image.niche (m : Image) : Nat := beAt m.data 24 1

/-- A body length padded to a 4-byte boundary. -/
def padded (n : Nat) : Nat := ceilDiv n 4 * 4

/-- The scope of a TLV type (true: device) and the body lengths that it may have (Table 3.3). -/
def tlvKind (t : Nat) : Option (Bool × (Nat → Bool)) :=
  match t with
  | 0x10 => some (true, (· == 20))
  | 0x11 => some (true, (· == 12))
  | 0x12 => some (true, (· == 24))
  | 0x13 => some (true, (· == 68))
  | 0x20 => some (false, (· == 16))
  | 0x21 => some (false, (· % 4 == 0))
  | 0x22 => some (false, (· % 4 == 0))
  | 0x23 => some (false, (· % 4 == 0))
  | 0x24 => some (false, (· == 8))
  | 0x25 => some (false, (· == 4))
  | 0x26 => some (false, (· == 4))
  | 0x27 => some (false, (· == 4))
  | 0xE0 => some (true, (· == 48))
  | 0xF0 => some (true, fun n => decide (16 ≤ n))
  | _ => none

/-- A TLV type has device scope. -/
def deviceScope (t : Nat) : Bool := match tlvKind t with | some k => k.1 | none => false

/-- The reserved bits of a body b of n bytes: byte, mask, and the field's first byte (Tables 3.4 and 3.5). The port of a
QUEUES entry is given as 0 where its role is not 2. -/
def reservedBits (t n : Nat) (b : List Byte) : List (Nat × Nat × Nat) :=
  match t with
  | 0x10 => [(18, 0xFF, 18), (19, 0xFF, 18)]
  | 0x11 => [(9, 0xF0, 9)]
  | 0x13 => [(66, 0xFC, 66), (67, 0xFF, 67)]
  | 0x20 => [(0, 0xFC, 0), (1, 0xFF, 1)]
  | 0x21 => (List.range (n / 4)).filterMap (fun i =>
      if byteAt b (4 * i + 3) % 16 = 2 then none else some (4 * i + 3, 0xF0, 4 * i + 3))
  | 0x22 => (List.range (n / 4)).map (fun i => (4 * i + 1, 0xFF, 4 * i + 1))
  | 0x24 => [(0, 0xC0, 0), (3, 0xF0, 3), (4, 0xC0, 4), (7, 0xFF, 7)]
  | 0x25 => [(3, 0xFF, 3)]
  | 0x26 => [(1, 0xC0, 1), (3, 0xF0, 3)]
  | _ => []

/-- The TLVs of an image whose signer key starts at stop: k more, the next at offset p. -/
def scanTlvs (d : List Byte) (stop : Nat) : Nat → Nat → Except Failure (List Tlv)
  | 0, p => if p = stop then .ok [] else .error (0x0103, p)
  | k + 1, p =>
    if stop < p + 8 then .error (0x0103, if p < stop then p else 28)
    else
      let n := beAt d (p + 4) 4
      if stop < p + 8 + padded n then .error (0x0103, p)
      else (scanTlvs d stop k (p + 8 + padded n)).map
        (fun l => ⟨beAt d p 2, beAt d (p + 2) 1, p, n, (d.drop (p + 8)).take n⟩ :: l)

/-- What order 2 finds wrong with one TLV: its type, its niche byte, its length. -/
def tlvBad (t : Tlv) : Option Failure :=
  match tlvKind t.typ with
  | none => some (0x0103, t.off)
  | some k =>
    if (if k.1 then t.niche != 0xFF else decide (15 < t.niche)) then some (0x0103, t.off + 2)
    else if k.2 t.len then none else some (0x0103, t.off + 4)

/-- The reserved bytes and bits of one TLV. -/
def tlvReserved (d : List Byte) (t : Tlv) : Option Failure :=
  if beAt d (t.off + 3) 1 ≠ 0 then some (0x0103, t.off + 3)
  else match (List.range' (t.off + 8 + t.len) (padded t.len - t.len)).find? (fun i => byteAt d i != 0) with
  | some i => some (0x0103, i)
  | none => ((reservedBits t.typ t.len t.body).find? (fun r => byteAt t.body r.1 &&& r.2.1 != 0)).map
      (fun r => (0x0103, t.off + 8 + r.2.2))

/-- Order 2 of Table 3.8: the image, or why it is refused with FORMAT (assumption 56, DEDUCED). -/
def parseImage (d : List Byte) : Except Failure Image :=
  let len := beAt d 12 4
  if beAt d 0 4 ≠ 0x45564152 then .error (0x0103, 0)
  else if beAt d 4 2 ≠ 2 then .error (0x0103, 4)
  else if 262144 < len ∨ len < 225 ∨ d.length < len then .error (0x0103, 12)
  else
    match scanTlvs d (len - 193) (min (beAt d 28 4) 32769) 32 with
    | .error e => .error e
    | .ok l =>
      match l.findSome? tlvBad with
      | some e => .error e
      | none =>
        if beAt d 6 2 / 2 ≠ 0 then .error (0x0103, 6)
        else if beAt d 6 2 % 2 = 0 ∧ beAt d 24 1 ≠ 0xFF then .error (0x0103, 24)
        else if beAt d 25 3 ≠ 0 then .error (0x0103, 25)
        else match l.findSome? (tlvReserved d) with
        | some e => .error e
        | none => .ok ⟨d.take len, l, len - 193⟩

/-- The TLV of a type (and, where it has niche scope, of niche n). -/
def Image.tlv (m : Image) (t n : Nat) : Option Tlv :=
  m.tlvs.find? (fun x => x.typ == t && (deviceScope t || x.niche == n))

/-- The body of that TLV; empty where it is absent. -/
def Image.body (m : Image) (t n : Nat) : List Byte := match m.tlv t n with | some x => x.body | none => []

/-- The 4-byte entries of a body. -/
def entries (b : List Byte) : List (List Byte) := (List.range (b.length / 4)).map (fun i => (b.drop (4 * i)).take 4)

/-- The section of niche n that an image carries. -/
def Image.sec (m : Image) (n : Nat) : NicheSec :=
  let h := m.body 0x20 n
  let p := m.body 0x24 n
  let f := m.body 0x26 n
  { vf := bit (byteAt h 0) 0, veto := bit (byteAt h 0) 1, policers := beAt h 2 2, cellMin := beAt h 4 4,
    cellMax := beAt h 8 4, clsBlocks := beAt h 12 4,
    queues := (entries (m.body 0x21 n)).map (fun e =>
      ⟨beAt e 0 2, byteAt e 2, byteAt e 3 % 16, byteAt e 3 / 16⟩),
    allocs := (entries (m.body 0x22 n)).map (fun e => (byteAt e 0, beAt e 2 2)),
    keys := (entries (m.body 0x23 n)).map (fun e => (beAt e 0 2, beAt e 2 2)),
    eth := byteAt p 0, trib := byteAt p 1, c37 := byteAt p 2 % 16, tout := byteAt p 2 / 16, tin := byteAt p 3,
    ptp := byteAt p 4, circuits := byteAt p 5, members := byteAt p 6,
    nodes := beAt (m.body 0x25 n) 0 2, children := byteAt (m.body 0x25 n) 2,
    ain := byteAt f 0, exc := byteAt f 1 % 4, loops := byteAt f 1 / 4 % 4, txm := byteAt f 1 / 16 % 4,
    din := byteAt f 2, dout := byteAt f 3, profiles := beAt (m.body 0x27 n) 0 4 }

/-- The device section of an image. -/
def Image.dev (m : Image) : DevSec :=
  let a := m.body 0x10 0
  let p := m.body 0x11 0
  let e := m.body 0x13 0
  { niches := beAt a 0 2, ranks := (List.range 16).map (fun n => byteAt a (2 + n)),
    eth := (List.range 6).map (byteAt p), tribEn := byteAt p 6, tribT1 := byteAt p 7, c37 := byteAt p 8 % 16,
    tout := byteAt p 8 / 16, tin := byteAt p 9, band := byteAt p 10, slotframes := byteAt p 11,
    budget := (List.range 12).map (fun i => beAt (m.body 0x12 0) (2 * i) 2),
    energy := (List.range 8).map (fun n => ⟨beAt e (8 * n) 2, beAt e (8 * n + 2) 2, beAt e (8 * n + 4) 2,
      beAt e (8 * n + 6) 2⟩),
    portPo := beAt e 64 2, loopEn := byteAt e 66 }

/-- The bytes of the device section in image order (BASE, Table 3.4). -/
def Image.deviceBytes (m : Image) : List Byte :=
  (m.tlvs.filter (fun t => t.typ == 0x10 || t.typ == 0x11 || t.typ == 0x12 || t.typ == 0x13)).flatMap
    (fun t => (m.data.drop t.off).take (8 + padded t.len))

/-- Offset of a TLV's header, as Image.at. -/
def Image.hdrAt (m : Image) (t n : Nat) : Nat :=
  match m.tlv t n with
  | some x => x.off
  | none => match m.tlvs.find? (fun x => x.typ == 0x20) with
    | some x => x.off
    | none => 28

/-- Offset of byte rel of the body of a TLV; where the image does not hold it, the header of its NICHE_HDR (R583). -/
def Image.at (m : Image) (t n rel : Nat) : Nat :=
  match m.tlv t n with
  | some x => x.off + 8 + rel
  | none => match m.tlvs.find? (fun x => x.typ == 0x20) with
    | some x => x.off
    | none => 28

/-! ### Order 7: occurrences and re-carve scope -/

/-- Occurrences of a full image (Table 3.3). -/
def Image.fullScope (m : Image) (is7401 : Bool) : Option Failure :=
  let want := [(0x10, 1), (0x11, 1), (0x12, 1), (0x13, if is7401 then 0 else 1), (0xE0, 0), (0xF0, 1)]
  let dev := want.findSome? (fun w =>
    let l := m.tlvs.filter (fun t => t.typ == w.1)
    if l.length < w.2 then some (0x0117, 28) else (l[w.2]?).map (fun t => (0x0117, t.off)))
  let niches := m.dev.niches ||| 1
  let dup := m.tlvs.findSome? (fun t =>
    if deviceScope t.typ then none
    else if !bit niches t.niche || m.tlvs.any (fun u => u.typ == t.typ && u.niche == t.niche && u.off < t.off)
      then some (0x0117, t.off) else none)
  let last := match m.tlv 0xF0 0 with
    | some t => if (m.tlvs.getLast?).map (fun x => x.typ) == some 0xF0 then none else some (0x0117, t.off)
    | none => none
  let hdr := (onesOf 16 niches).findSome? (fun n => if (m.tlv 0x20 n).isNone then some (0x0117, 28) else none)
  dev <|> last <|> dup <|> hdr

/-- R64: the scope of a re-carve image, against the accepted structure. -/
def Image.carveScope (m : Image) (acc : Option Structure) (devBytes : List Byte) : Option Failure :=
  match acc with
  | none => some (0x0113, 6)
  | some x =>
    let foreign := m.tlvs.findSome? (fun t =>
      if deviceScope t.typ && t.typ != 0xE0 && t.typ != 0xF0 then some (0x0113, t.off) else none)
    let other := m.tlvs.findSome? (fun t =>
      if !deviceScope t.typ && t.niche != m.niche then some (0x0113, t.off) else none)
    let unknown : Option Failure :=
      if decide (15 < m.niche) || !bit x.dev.niches m.niche then some (0x0113, 24) else none
    let twice := m.tlvs.findSome? (fun t =>
      if m.tlvs.any (fun u => u.typ == t.typ && u.off < t.off) then some (0x0117, t.off) else none)
    let missing : Option Failure :=
      if (m.tlv 0x20 m.niche).isNone || (m.tlv 0xE0 0).isNone || (m.tlv 0xF0 0).isNone then some (0x0117, 28)
      else none
    let last := match m.tlv 0xF0 0 with
      | some t => if (m.tlvs.getLast?).map (fun x => x.typ) == some 0xF0 then none else some (0x0117, t.off)
      | none => none
    let base : Option Failure :=
      if m.body 0xE0 0 = sha384 devBytes then none else some (0x0113, m.at 0xE0 0 0)
    foreign <|> other <|> unknown <|> twice <|> missing <|> last <|> base

/-- The structure that an image gives: its own, or the accepted one with one section replaced (R65). -/
def Image.carved (m : Image) (acc : Option Structure) : Structure :=
  match m.recarve, acc with
  | true, some x => { x with secs := x.secs.map (fun p => if p.1 = m.niche then (p.1, m.sec m.niche) else p) }
  | _, _ => ⟨m.dev, (onesOf 16 m.dev.niches).map (fun n => (n, m.sec n)), []⟩

/-! ### Orders 8 to 11: resources -/

/-- An item that a niche names: kind, first number, count, niche, TLV type and byte of its body. -/
structure Named where
  kind : Nat
  first : Nat
  count : Nat
  niche : Nat
  typ : Nat
  rel : Nat
  deriving DecidableEq, Repr

/-- The items of a bitmap. -/
def namedBits (kind n typ rel w v : Nat) : List Named := (onesOf w v).map (fun i => ⟨kind, i, 1, n, typ, rel⟩)

/-- Everything that a section names (Table 3.6, first row). -/
def namedBy (n : Nat) (x : NicheSec) : List Named :=
  x.queues.zipIdx.map (fun q => ⟨0, q.1.first, q.1.count, n, 0x21, 4 * q.2⟩) ++
  x.allocs.zipIdx.map (fun a => ⟨1, a.1.1, 1, n, 0x22, 4 * a.2⟩) ++
  x.allocs.zipIdx.map (fun a => ⟨2, a.1.2, 1, n, 0x22, 4 * a.2⟩) ++
  x.keys.zipIdx.map (fun k => ⟨3, k.1.1, k.1.2, n, 0x23, 4 * k.2⟩) ++
  namedBits 4 n 0x24 0 6 x.eth ++ namedBits 5 n 0x24 1 8 x.trib ++ namedBits 6 n 0x24 2 4 x.c37 ++
  namedBits 7 n 0x24 2 4 x.tout ++ namedBits 8 n 0x24 3 4 x.tin ++ namedBits 9 n 0x26 0 8 x.ain ++
  namedBits 10 n 0x26 1 2 x.exc ++ namedBits 11 n 0x26 1 2 x.loops ++ namedBits 12 n 0x26 2 8 x.din ++
  namedBits 13 n 0x26 3 4 x.dout ++ namedBits 14 n 0x27 0 32 x.profiles

/-- Two items share something. -/
def Named.meets (a b : Named) : Bool :=
  a.kind == b.kind && a.count != 0 && b.count != 0 && decide (a.first < b.first + b.count) && decide (b.first < a.first + a.count)

/-- The first item of a list that meets one before it. -/
def firstMeet : List Named → List Named → Option Named
  | _, [] => none
  | seen, x :: l => if seen.any x.meets then some x else firstMeet (x :: seen) l

/-- OVERLAP: the items in the order of the image, the ones outside it first, so that the one reported is the later of
the two in the image (assumption 56, DEDUCED). -/
def checkOverlap (m : Image) (x : Structure) : Option Failure :=
  let all := x.secs.flatMap (fun p => namedBy p.1 p.2)
  let mine := fun (i : Named) => !m.recarve || i.niche == m.niche
  let place := fun (i : Named) => m.at i.typ i.niche i.rel
  (firstMeet [] (all.filter (fun i => !mine i) ++ sortBy (fun a b => decide (place a ≤ place b)) (all.filter mine))).map
    (fun i => (0x0107, if mine i then place i else m.at 0x20 16 0))

/-- The first failure of a check over the sections. -/
def perNiche (x : Structure) (f : Nat → NicheSec → Option Failure) : Option Failure :=
  x.secs.findSome? (fun p => f p.1 p.2)

/-- Failure c at o where b holds. -/
def failIf (b : Bool) (c o : Nat) : Option Failure := if b then some (c, o) else none

/-- RANGE (Table 3.6, second row). A shed_rank above 15, a QUEUES count above 64 and an allocation index above 63 lie
outside Tables 3.4 and 3.5 and are named by no row of Table 3.6: they are refused here too (assumption 98, DESIGN
CHOICE). -/
def checkRange (m : Image) (x : Structure) : Option Failure :=
  let d := x.dev
  failIf (!bit d.niches 0) 0x0108 (m.at 0x10 0 0) <|>
  (d.ranks.zipIdx.find? (fun r => decide (15 < r.1))).map (fun r => (0x0108, m.at 0x10 0 (2 + r.2))) <|>
  (d.eth.zipIdx.find? (fun r => decide (2 < r.1))).map (fun r => (0x0108, m.at 0x11 0 r.2)) <|>
  failIf (decide (3 < d.band)) 0x0108 (m.at 0x11 0 10) <|>
  failIf (if d.band = 0 then d.slotframes != 0 else decide (d.slotframes < 1) || decide (4 < d.slotframes))
    0x0108 (m.at 0x11 0 11) <|>
  perNiche x (fun n c =>
    (c.queues.zipIdx.find? (fun q => decide (q.1.count = 0) || decide (64 < q.1.count) || decide (3 < q.1.role) ||
      decide (2048 < q.1.first + q.1.count) || (q.1.role == 2 && decide (5 < q.1.port)))).map
      (fun q => (0x0108, m.at 0x21 n (4 * q.2))) <|>
    (c.allocs.zipIdx.find? (fun a => decide (63 < a.1.1))).map (fun a => (0x0108, m.at 0x22 n (4 * a.2))) <|>
    (c.keys.zipIdx.find? (fun k => decide (k.1.1 < 64) || decide (k.1.2 = 0) || decide (256 < k.1.1 + k.1.2))).map
      (fun k => (0x0108, m.at 0x23 n (4 * k.2))))

/-- ALIGN (Table 3.6, third and fourth rows). -/
def checkAlign (m : Image) (x : Structure) : Option Failure :=
  perNiche x (fun n c => (c.queues.zipIdx.find? (fun q =>
    (q.1.role == 1 || q.1.role == 2) && (q.1.count != 8 || q.1.first % 8 != 0))).map
    (fun q => (0x0116, m.at 0x21 n (4 * q.2)))) <|>
  perNiche x (fun n c =>
    (c.allocs.zipIdx.find? (fun a => !c.queues.any (fun q => q.role == 1 && q.first == a.1.2))).map
      (fun a => (0x0116, m.at 0x22 n (4 * a.2))) <|>
    (c.queues.zipIdx.find? (fun q => q.1.role == 1 && !c.allocs.any (fun a => a.2 == q.1.first))).map
      (fun q => (0x0116, m.at 0x21 n (4 * q.2))))

/-- LIMIT (Table 3.6, fifth to seventh rows; assumption 56, DEDUCED). -/
def checkLimit (m : Image) (x : Structure) : Option Failure :=
  perNiche x (fun n c => failIf
    (decide (64 < ((c.queues.filter (fun q => q.role == 0)).map (fun q => q.count)).sum)) 0x0109 (m.hdrAt 0x21 n)) <|>
  perNiche x (fun n c =>
    let ports := popCount 8 c.trib + popCount 4 c.c37
    failIf (decide (c.members < c.circuits)) 0x0109 (m.at 0x24 n 5) <|>
    failIf (decide (4 * c.circuits < c.members) || decide (4 * ports < c.members)) 0x0109 (m.at 0x24 n 6)) <|>
  perNiche x (fun n c =>
    failIf ((onesOf 8 c.ptp).any (fun i => !bit c.eth i)) 0x0109 (m.at 0x24 n 4) <|>
    failIf ((onesOf 2 c.txm).any (fun i => !bit c.loops i)) 0x0109 (m.at 0x26 n 1))

/-- The first niche, in ascending order, with which a running total passes a limit: the item that a sum over all niches
reports (assumption 98, DESIGN CHOICE). -/
def firstOver (x : Structure) (f : NicheSec → Nat) (lim : Nat) : Option Nat :=
  (x.secs.foldl (fun (a : Nat × Option Nat) p =>
    let t := a.1 + f p.2
    (t, if a.2.isNone && decide (lim < t) then some p.1 else a.2)) (0, none)).2

/-- QUOTA (Table 3.6, eighth and ninth rows). -/
def checkQuota (m : Image) (x : Structure) : Option Failure :=
  perNiche x (fun n c =>
    failIf (decide (c.cellMax < c.cellMin)) 0x010A (m.at 0x20 n 4) <|>
    failIf (decide (393216 < c.cellMax)) 0x010A (m.at 0x20 n 8)) <|>
  (firstOver x (fun c => c.cellMin) 376832).map (fun n => (0x010A, m.at 0x20 n 4)) <|>
  (firstOver x (fun c => c.clsBlocks) 3072).map (fun n => (0x010A, m.at 0x20 n 12)) <|>
  (firstOver x (fun c => c.policers) 256).map (fun n => (0x010A, m.at 0x20 n 2)) <|>
  (firstOver x (fun c => c.nodes) 512).map (fun n => (0x010A, m.at 0x25 n 0)) <|>
  (firstOver x (fun c => c.children) 128).map (fun n => (0x010A, m.at 0x25 n 2))

/-- A bitmap names something that its enables leave out. -/
def beyond (v en : Nat) : Bool := (onesOf 8 v).any (fun i => !bit en i)

/-- The Ethernet ports that PINMUX enables. -/
def DevSec.ethEn (d : DevSec) : Nat := (d.eth.zipIdx.map (fun e => if e.1 = 0 then 0 else 2 ^ e.2)).sum

/-- The last rows of Table 3.6: mesh key slots, and what PINMUX leaves disabled (assumption 56, DEDUCED). -/
def checkPinmux (m : Image) (x : Structure) : Option Failure :=
  let d := x.dev
  perNiche x (fun n c => if c.nodes = 0 then
    (c.keys.zipIdx.find? (fun k => decide (k.1.1 ≤ 95))).map (fun k => (0x0108, m.at 0x23 n (4 * k.2))) else none) <|>
  perNiche x (fun n c =>
    failIf (beyond c.eth d.ethEn) 0x010B (m.at 0x24 n 0) <|>
    failIf (beyond c.trib d.tribEn) 0x010B (m.at 0x24 n 1) <|>
    failIf (beyond c.c37 d.c37 || beyond c.tout d.tout) 0x010B (m.at 0x24 n 2) <|>
    failIf (beyond c.tin d.tin) 0x010B (m.at 0x24 n 3)) <|>
  perNiche x (fun n c => failIf (d.band == 0 && (c.nodes != 0 || c.children != 0)) 0x010B (m.hdrAt 0x25 n))

/-- Order 8: what the EVT-7401 lacks (R4; assumption 56, DEDUCED). -/
def checkAbsent (m : Image) (x : Structure) : Option Failure :=
  perNiche x (fun n c =>
    failIf (c.nodes != 0 || c.children != 0) 0x0106 (m.hdrAt 0x25 n) <|>
    failIf (c.ain != 0 || c.exc != 0 || c.loops != 0 || c.txm != 0) 0x0106 (m.hdrAt 0x26 n)) <|>
  failIf (x.dev.band != 0) 0x0106 (m.at 0x11 0 10) <|>
  failIf (x.dev.slotframes != 0) 0x0106 (m.at 0x11 0 11)

/-- Order 10: R54. -/
def checkShared (m : Image) (x : Structure) : Option Failure :=
  failIf (x.dev.eth.getD 3 0 == 2 && x.dev.tribEn / 64 != 0) 0x010B (m.at 0x11 0 6) <|>
  failIf (x.dev.eth.getD 2 0 == 2 && bit x.dev.c37 3) 0x010B (m.at 0x11 0 8)

/-- Order 11: R55. -/
def checkEnergy (m : Image) (x : Structure) : Option Failure :=
  let e := x.dev.energy
  let excess := fun (f : EnergyChan → Nat) (lim rel : Nat) =>
    (e.zipIdx.find? (fun c => decide (lim < f c.1))).map (fun c => (0x010C, m.at 0x13 0 (8 * c.2 + rel)))
  let owned := x.secs.foldl (fun a p => a ||| p.2.ain) 0
  let po := ((onesOf 8 owned).map (fun n => match e[n]? with | some c => c.po | none => 0)).sum
  excess (fun c => c.uo) 5900 0 <|> excess (fun c => c.io) 48000 2 <|> excess (fun c => c.po) 70 4 <|>
  (e.zipIdx.find? (fun c => decide (c.1.io < c.1.exc))).map (fun c => (0x010C, m.at 0x13 0 (8 * c.2 + 6))) <|>
  failIf (decide (x.dev.portPo < po)) 0x010C (m.at 0x13 0 64) <|>
  perNiche x (fun n c => failIf (beyond c.loops x.dev.loopEn) 0x010C (m.at 0x26 n 1))

/-! ### Orders 12 to 17: the budget proof -/

/-- Cost table 0x00B1_0001 (Table 3.7): term and unit cost; a term's phase is its upper byte. -/
def costTable : List (Nat × Nat) :=
  [(0x0000, 148), (0x0100, 2232), (0x0200, 160), (0x0201, 16), (0x0202, 48), (0x0300, 1400), (0x0400, 240),
   (0x0401, 420), (0x0402, 96), (0x0500, 300), (0x0501, 120), (0x0502, 60), (0x0503, 40), (0x0600, 400),
   (0x0601, 4), (0x0602, 12), (0x0603, 4), (0x0700, 600), (0x0701, 12), (0x0702, 64), (0x0800, 400),
   (0x0801, 90), (0x0802, 150), (0x0803, 30), (0x0900, 900), (0x0A00, 500), (0x0A01, 20), (0x0A02, 40),
   (0x0A03, 16), (0x0B00, 440)]

/-- A count summed over the sections. -/
def Structure.total (x : Structure) (f : NicheSec → Nat) : Nat := (x.secs.map (fun p => f p.2)).sum

/-- The terminal's own count of a term (R57). -/
def Structure.count (x : Structure) (t : Nat) : Nat :=
  match t with
  | 0x0201 | 0x0602 | 0x0A01 => x.total (fun c => c.allocs.length)
  | 0x0202 => 8
  | 0x0401 | 0x0A02 => x.total (fun c => popCount 8 c.trib + popCount 4 c.c37)
  | 0x0402 => x.total (fun c => c.members)
  | 0x0501 => x.total (fun c => popCount 8 c.ptp)
  | 0x0502 => x.total (fun c => popCount 4 c.tout)
  | 0x0503 => x.total (fun c => popCount 4 c.tin)
  | 0x0601 => x.total (fun c => (c.queues.map (fun q => q.count)).sum)
  | 0x0603 => x.total (fun c => c.policers)
  | 0x0701 => x.total (fun c => c.children)
  | 0x0702 => x.dev.slotframes
  | 0x0801 => x.total (fun c => popCount 8 c.ain)
  | 0x0802 => x.total (fun c => popCount 2 c.txm)
  | 0x0803 => x.total (fun c => popCount 8 c.din + popCount 4 c.dout)
  | 0x0A03 => popCount 16 x.dev.niches
  | _ => 1

/-- The cost of phase p (R58). -/
def Structure.cost (x : Structure) (p : Nat) : Nat :=
  ((costTable.filter (fun t => t.1 / 256 == p)).map (fun t => x.count t.1 * t.2)).sum

/-- A term of a proof: offset in the body, code, count, unit cost. -/
structure Term where
  off : Nat
  code : Nat
  count : Nat
  unit : Nat
  deriving DecidableEq, Repr

/-- The terms of k entries at offset o of a proof body. -/
def termsAt (b : List Byte) (o k : Nat) : List Term :=
  (List.range k).map (fun i => ⟨o + 8 * i, beAt b (o + 8 * i) 2, beAt b (o + 8 * i + 2) 2, beAt b (o + 8 * i + 4) 2⟩)

/-- Order 12 over the phase records from phase p at offset o of the proof body b, k phases more: the records (offset,
claimed total, terms), or the offset of what is wrong, counted from the TLV's header: a phase record that the body does
not hold is judged by the header itself (R583; assumption 98, DESIGN CHOICE). -/
def scanProof (b : List Byte) : Nat → Nat → Nat → Except Nat (List (Nat × Nat × List Term))
  | 0, _, o => if o = b.length then .ok [] else .error (8 + o)
  | k + 1, p, o =>
    let n := byteAt b (o + 1)
    if b.length < o + 4 then .error 0
    else if byteAt b o ≠ p ∨ b.length < o + 4 + 8 * n then .error (8 + o)
    else
      let l := termsAt b (o + 4) n
      let rsv := l.find? (fun t => beAt b (t.off + 6) 2 != 0)
      let bad := l.zipIdx.find? (fun t => t.1.code / 256 != p ||
        !costTable.any (fun c => c.1 == t.1.code) || (l.take t.2).any (fun u => u.code == t.1.code))
      match rsv, bad with
      | some t, _ => .error (8 + t.off + 6)
      | none, some t => .error (8 + t.1.off)
      | none, none =>
        if n ≠ (costTable.filter (fun c => c.1 / 256 == p)).length then .error (8 + o)
        else (scanProof b k (p + 1) (o + 4 + 8 * n)).map (fun r => (o, beAt b (o + 2) 2, l) :: r)

/-- Orders 12 to 17 (assumption 56, DEDUCED). -/
def checkProof (m : Image) (x : Structure) : Option Failure :=
  let b := m.body 0xF0 0
  let o := m.at 0xF0 0
  if beAt b 0 4 ≠ 0x45565046 then some (0x010D, o 0)
  else if beAt b 4 2 ≠ 1 then some (0x010D, o 4)
  else if beAt b 6 2 ≠ 12 then some (0x010D, o 6)
  else if beAt b 12 4 ≠ 0 then some (0x010D, o 12)
  else match scanProof b 12 0 16 with
  | .error e => some (0x010D, m.hdrAt 0xF0 0 + e)
  | .ok l =>
    let terms := l.flatMap (fun r => r.2.2)
    failIf (beAt b 8 4 != 0x00B10001) 0x010F (o 8) <|>
    (terms.find? (fun t => costTable.all (fun c => c != (t.code, t.unit)))).map (fun t => (0x010F, o t.off)) <|>
    (terms.find? (fun t => t.count != x.count t.code)).map (fun t => (0x010E, o t.off)) <|>
    (l.zipIdx.find? (fun r => r.1.2.1 != x.cost r.2)).map (fun r => (0x0110, o (r.1.1 + 2))) <|>
    ((List.range 12).find? (fun p => decide (x.dev.budget.getD p 0 < x.cost p))).map
      (fun p => (0x0111, m.at 0x12 0 (2 * p))) <|>
    ((List.range 12).find? (fun p => decide (phaseLen p < x.dev.budget.getD p 0))).map
      (fun p => (0x0112, m.at 0x12 0 (2 * p)))

/-! ### Table 3.8 -/

/-- Orders 8 to 17 on the structure of an image. -/
def checkStructure (m : Image) (x : Structure) (is7401 : Bool) : Option Failure :=
  (if is7401 then checkAbsent m x else none) <|>
  checkOverlap m x <|> checkRange m x <|> checkAlign m x <|> checkLimit m x <|> checkQuota m x <|>
  checkPinmux m x <|> (if m.recarve then none else checkShared m x) <|> checkEnergy m x <|> checkProof m x

/-- The first n staged bytes. -/
def State.staged (s : State) (n : Nat) : List Byte :=
  ((List.range (ceilDiv n 4)).flatMap (fun w => beBytes 4 (storeGet (fun _ => (0 : Word)) s.arm.staging w).toNat)).take n

/-- A key's digest stands in an enrolled, unrevoked trust slot (R53). -/
def State.trusts (s : State) (key : List Byte) : Bool :=
  s.arm.trust.any (fun t => t.digest == some (sha384 key) && !t.revoked)

/-- GLB_REV is below a lowest revision. -/
def State.revBelow (s : State) (letter step : Nat) : Bool :=
  decide (s.get GLB_REV_letter * 256 + s.get GLB_REV_step < letter * 256 + step)

/-- The checks of Table 3.8 after order 1 on the bytes d, for a command: the image and the structure that pass, or the
first failure (R59, R64). -/
def State.checkImage (s : State) (cmd : ArmCmd) (d : List Byte) : Except Failure (Image × Structure) :=
  match parseImage d with
  | .error e => .error e
  | .ok m =>
    let key := (d.drop m.key).take 97
    let scope : Option Failure :=
      if (cmd = .recarve && !m.recarve) || (cmd = .accept && m.recarve) then some (0x0113, 6)
      else if m.recarve then m.carveScope s.arm.accepted s.arm.devBytes
      else m.fullScope s.fuse.is7401
    let x := m.carved s.arm.accepted
    let fail :=
      failIf (beAt d 8 2 != s.part) 0x0104 8 <|>
      failIf (s.revBelow (byteAt d 10) (byteAt d 11)) 0x0104 10 <|>
      failIf (!s.trusts key) 0x0102 m.key <|>
      failIf (!ecdsaP384 key (d.take (m.key + 97)) ((d.drop (m.key + 97)).take 96)) 0x0101 (m.key + 97) <|>
      failIf (decide (beAt d 20 4 < s.arm.floor)) 0x0105 20 <|>
      scope <|> checkStructure m x s.fuse.is7401
    match fail with
    | some e => .error e
    | none => .ok (m, { x with costs := (List.range 12).map x.cost })

end Sys2Proof.Machine
end

