-- ==== Sys2Proof/Machine/PndOps.lean ====
section
/-!
DEFINITION. What other blocks ask of the Pendant link: records, guard tags and guard flows (spec/07, R180, R196 to R204).
-/

namespace Sys2Proof.Machine

open Sys2Proof

/-- The link is UP. -/
def State.linkUp (s : State) : Bool := s.get PND_STATUS_link == 2

/-- The terminal is in a paired form: 1 span, 2 guard. -/
def State.pairedAs (s : State) (form : Nat) : Bool := s.on PND_STATUS_paired && s.get PND_STATUS_form == form

/-- A record (R180): header, payload with its frame check sequence, padding. -/
def pndRecord (type arg : Nat) (payload : List Byte) : List Byte :=
  let h := beBytes 1 type ++ zeros 1 ++ beBytes 2 payload.length ++ beBytes 2 arg ++ zeros 1
  let b := h ++ beBytes 1 (crc8 h) ++ (if payload = [] then [] else payload ++ fcsBytes payload)
  b ++ zeros (ceilDiv b.length 8 * 8 - b.length)

/-! ### The lane (R179) -/

/-- 32 bits, the first sent in bit 0, through the scrambler x⁵⁸ + x³⁹ + 1 after the 58 bits st, the latest in bit 57. -/
def scr32 (st d : Nat) : Nat := (d ^^^ (st / 2 ^ 19) ^^^ st) % 2 ^ 32

/-- The 58 bits that precede what follows the 32 bits w. -/
def scrNext (st w : Nat) : Nat := (st + w * 2 ^ 58) / 2 ^ 32

/-- Octets as the lane carries them: scrambled four at a time, each octet least significant bit first as clause 49 of IEEE 802.3
sends it (assumption 101, PRESUMED), and the scrambler after them. -/
def linkScramble : Nat → List Byte → List Byte × Nat
  | st, a :: b :: c :: d :: l =>
    let w := scr32 st (leAt [a, b, c, d] 0 4)
    let r := linkScramble (scrNext st w) l
    (leBytes 4 w ++ r.1, r.2)
  | st, _ => ([], st)

/-- Octets as the receiver descrambles them: each from the 58 bits received before it. -/
def linkDescramble : Nat → List Byte → List Byte
  | st, a :: b :: c :: d :: l =>
    let w := leAt [a, b, c, d] 0 4
    leBytes 4 (scr32 st w) ++ linkDescramble (scrNext st w) l
  | _, _ => []

/-- What a receiver makes of octets that follow one block: that block fills the descrambler. -/
def linkOctets (line : List Byte) : List Byte := linkDescramble (leAt line 0 8 / 2 ^ 6) (line.drop 8)

/-- Octets cut into blocks: the sync header of the first, that of the others (Table 7.2). -/
def linkBlocks : BitVec 2 → List Byte → List (BitVec 2 × List Byte)
  | h, a :: b :: c :: d :: e :: f :: g :: i :: l => (h, [a, b, c, d, e, f, g, i]) :: linkBlocks 0b01 l
  | _, _ => []

/-- Blocks of a link frame (R179). -/
abbrev linkFrameBlocks : Nat := 22680

/-- n idle records (Table 7.5). -/
def idleRecords (n : Nat) : List Byte := (List.replicate n (pndRecord 0 0 [])).flatten

/-- The record that the sender serves next at block n: among those that may leave, the first of the earliest class of R182. -/
def nextItem (l : List LinkItem) (n : Nat) : Option LinkItem :=
  let r := l.filter (fun x => decide (x.ready ≤ n))
  (List.range 5).findSome? (fun c => r.find? (fun x => x.cls == c))

/-- The octets of a link frame from block n on, and the records that wait for the next frame (R180, R182): the lane idles until
a record may leave, and from the first that does not fit before the marker. -/
def layFrame : Nat → Nat → List LinkItem → List Byte × List LinkItem
  | 0, n, l => (idleRecords (linkFrameBlocks - n), l)
  | k + 1, n, l =>
    match nextItem l n with
    | some x =>
      let m := n + x.bytes.length / 8
      if m ≤ linkFrameBlocks then
        let r := layFrame k m (l.erase x)
        (x.bytes ++ r.1, r.2)
      else (idleRecords (linkFrameBlocks - n), l)
    | none =>
      match (l.map (fun x => x.ready)).min? with
      | some m =>
        if m < linkFrameBlocks then
          let r := layFrame k m l
          (idleRecords (m - n) ++ r.1, r.2)
        else (idleRecords (linkFrameBlocks - n), l)
      | none => (idleRecords (linkFrameBlocks - n), l)

/-- The place of a record type in the order of R182; the STATE record stands before all. -/
def linkClass (type : Nat) : Nat :=
  if type = 1 then 0 else if type = 0x14 then 2 else if type = 0x10 ∨ type = 0x11 then 3
  else if type = 0x12 ∨ type = 0x13 then 4 else 1

/-- The first block of the present link frame that a record of this instant can fill: 0.18144 blocks leave in 1 ns
(assumption 101, DESIGN CHOICE). -/
def State.linkBlock (s : State) : Nat :=
  min linkFrameBlocks ((s.clk - s.pnd.frameAt) * 18144 / 100000 + 1)

/-- s with a record that the lane is to carry. -/
def State.queueRecord (s : State) (type arg : Nat) (payload : List Byte) : State :=
  { s with pnd := { s.pnd with queue := s.pnd.queue ++ [⟨linkClass type, s.linkBlock, pndRecord type arg payload⟩] } }

/-- s after a record has been handed to the link, where it is UP. -/
def State.sendRecord (s : State) (type arg : Nat) (payload : List Byte) : State :=
  if s.linkUp then s.queueRecord type arg payload else s

/-- The link frame on the lane is complete (R179, R182). -/
def State.endFrame (s : State) : State :=
  if s.pnd.head = [] then s
  else
    let r := layFrame (2 * s.pnd.queue.length + 1) 1 s.pnd.queue
    let e := linkScramble s.pnd.scr (s.pnd.head ++ r.1)
    { s.send (.pendant (linkBlocks 0b10 e.1)) with
      pnd := { s.pnd with head := [], scr := e.2, queue := r.2.map (fun (x : LinkItem) => { x with ready := 1 }) } }

/-- PND_CNTn. -/
def State.pndCnt (s : State) (n : Nat) : State := s.sat (PND_CNT_count n)

/-- The valid upstream guard flow that names QID q (R198, R208). -/
def State.upGflow (s : State) (q : Nat) : Option Nat :=
  (List.range 256).find? (fun n => s.on (PND_GFLOW_valid n) && s.on (PND_GFLOW_dir n) && s.get (PND_GFLOW_qid n) == q)

/-- The valid downstream guard flow of DSL_FIDn entry f. -/
def State.downGflow (s : State) (f : Nat) : Option Nat :=
  (List.range 256).find? (fun n => s.on (PND_GFLOW_valid n) && !s.on (PND_GFLOW_dir n) && s.get (PND_GFLOW_flow n) == f)

/-- The guard tag of Table 7.9. -/
def guardTag (n seq : Nat) : List Byte :=
  let b := beBytes 1 n ++ beBytes 2 seq
  b ++ beBytes 1 (crc8 b)

/-- s with bytes b put before the bytes of an SDU in flight, which takes the cells that this needs (R198). -/
def State.prefixSdu (s : State) (id : Nat) (b : List Byte) : State :=
  match s.sdu id with
  | none => s
  | some d =>
    let n := b.length + d.data.length
    let s := s.modSdu id (fun d => { d with data := b ++ d.data })
    State.writeCells (cellsFor n - d.cells.length) id s

/-- The terminal is bound in a form. -/
def State.boundAs (s : State) (form : Nat) : Bool := s.on PND_STATUS_bound && s.get PND_STATUS_form == form

/-- The tag of an SDU that a classifier result sends to QID q: on an upstream guard flow of a guard side it takes the next number
of the flow, and while the pair is paired a copy goes to the partner in a DUP_UP record (R178, R198). -/
def State.guardTagged (s : State) (q : Nat) (data : List Byte) : List Byte × State :=
  match if s.boundAs 2 then s.upGflow q else none with
  | none => ([], s)
  | some n =>
    let seq := storeGet (fun _ => 0) s.pnd.upSeq n
    let s := { s with pnd := { s.pnd with
      upSeq := storeSet (fun _ => 0) s.pnd.upSeq n ((seq + 1) % 65536) } }
    (guardTag n seq, s.when (s.pairedAs 2) (fun t => (t.sendRecord 0x10 n (guardTag n seq ++ data)).pndCnt 2))

/-- An SDU in flight that a classifier result sends to QID q: tagged where R198 says so, then enqueued, at once where its
cells are granted. -/
def State.sendTo (s : State) (id q : Nat) : State :=
  let g := s.guardTagged q (match s.sdu id with | some d => d.data | none => [])
  let s := (g.2.modSdu id (fun d => { d with dest := some q })).prefixSdu id g.1
  if s.written id then s.enqueue id q else s

end Sys2Proof.Machine
end

