-- ==== Sys2Proof/Machine/Cls.lean ====
section
/-!
DEFINITION. The classifier: keys, lookups, results, policers, table updates and register changes
(spec/10_classifier.md).
-/

namespace Sys2Proof.Machine

open Sys2Proof

/-! ### Owners, areas, records -/

/-- The owner of an SDU's classification (Table 10.1): a niche's number, or 16 for the PF. -/
def State.clsOwner (s : State) (d : Sdu) : Nat :=
  if d.source < 6 then (s.ethOwner d.source).getD 16 else if d.source = 6 || d.pf then 16 else d.owner

/-- Classifier blocks of owner o. -/
def State.clsBlocks (s : State) (o : Nat) : Nat :=
  let f := fun (n : Nat) => match s.section n with | some x => x.clsBlocks | none => 0
  if o < 16 then f o else 3072 - ((List.range 16).map f).sum

/-- First block of owner o. -/
def State.clsBase (s : State) (o : Nat) : Nat := ((List.range (min o 16)).map s.clsBlocks).sum

/-- One occurrence of a condition that R280 limits, in the owner's log. -/
def State.clsLim (s : State) (o code data : Nat) : State :=
  if o < 16 then s.limNiche o code data else s.limDev code 0xF data

/-- CLS_NCNT_k of owner o. -/
def State.clsCnt (s : State) (o k : Nat) : State := s.sat (CLS_NCNT_count o k)

/-- Bytes of the table SRAM: n bytes (a multiple of 16) from byte address a. -/
def State.sram (s : State) (a n : Nat) : List Byte :=
  (List.range (n / 16)).flatMap (fun i => storeGet (fun _ => zeros 16) s.cls.sram (a / 16 + i))

/-- s with the bytes from a on replaced. -/
def State.setSram (s : State) (a : Nat) (b : List Byte) : State :=
  { s with cls := { s.cls with
    sram := (List.range (b.length / 16)).foldl
      (fun m i => storeSet (fun _ => zeros 16) m (a / 16 + i) ((b.drop (16 * i)).take 16)) s.cls.sram } }

/-- The area of a table of owner o (0 A, 1 B, 2 the tree area): byte address, number of items, bytes of one item. -/
def State.clsArea (s : State) (o t : Nat) : Nat × Nat × Nat :=
  let a := s.get (CLS_NTAB_hash_a o)
  let b := s.get (CLS_NTAB_hash_b o)
  let base := s.clsBase o
  if t = 0 then (4096 * base, 64 * a, 64)
  else if t = 1 then (4096 * (base + a), 64 * b, 64)
  else (4096 * (base + a + b), 256 * (s.clsBlocks o - a - b), 16)

/-! ### Keys (R262, R264, R265) -/

/-- EtherType position at anchor 1: up to two tags are skipped; none where a third follows (Table 10.3). An SDU that ends
before its EtherType lacks no anchor: a field there runs past its end (R265). -/
def typeAt (b : List Byte) : Option Nat :=
  let tag := fun i => beAt b i 2 == 0x8100 || beAt b i 2 == 0x88A8
  let i := if tag 12 then if tag 16 then 20 else 16 else 12
  if i = 20 ∧ tag 20 then none else some i

/-- Position of anchor 2 behind the EtherType at i; none for the reasons of Table 10.3. Where the SDU ends before a byte that
the position rests on, it is the end itself: a field there runs past the last byte (R265; assumption 53, DEDUCED). -/
def payloadAt (b : List Byte) (i : Nat) : Option Nat :=
  let p := i + 2
  if b.length < p then some b.length
  else if beAt b i 2 = 0x0800 then
    if b.length < p + 1 then some b.length
    else if byteAt b p % 16 < 5 then none else some (p + 4 * (byteAt b p % 16))
  else if beAt b i 2 = 0x86DD then
    if b.length < p + 7 then some b.length
    else
      let nh := byteAt b (p + 6)
      if nh = 6 ∨ nh = 17 ∨ nh = 58 ∨ nh = 132 then some (p + 40) else none
  else none

/-- Position of an anchor; none where it is not available (Table 10.3). -/
def anchorAt (b : List Byte) (mesh : Bool) (a : Nat) : Option Nat :=
  if a = 0 then some 0
  else if mesh then none
  else match typeAt b with
  | none => none
  | some i => if a = 1 then some (i + 2) else payloadAt b i

/-- An IPv4 fragment, or an IPv6 SDU with a fragment header (R265). -/
def isFragment (b : List Byte) : Bool :=
  match typeAt b with
  | none => false
  | some i =>
    (beAt b i 2 == 0x0800 && beAt b (i + 8) 2 % 0x4000 != 0) || (beAt b i 2 == 0x86DD && byteAt b (i + 8) == 44)

/-- The profile that source s and the EtherType select (R262); an SDU that ends before its EtherType matches no rule. -/
def State.profileOf (s : State) (d : Sdu) : Nat :=
  if d.source = 7 then s.get (CLS_NCFG_mesh_prof (s.clsOwner d))
  else
    let rule := (typeAt d.data).bind (fun i => (List.range 4).find? (fun r => decide (i + 2 ≤ d.data.length) &&
      s.on (CLS_SRC_RULE_valid d.source r) && s.get (CLS_SRC_RULE_ethertype d.source r) == beAt d.data i 2))
    match rule with
    | some r => s.get (CLS_SRC_RULE_profile d.source r)
    | none => s.get (CLS_SRC_CFG_def_prof d.source)

/-- The used fields of a profile: anchor, length, offset. -/
def State.fieldsOf (s : State) (p : Nat) : List (Nat × Nat × Nat) :=
  ((List.range 8).map (fun f => (s.get (CLS_PROF_FLD_anchor p f), s.get (CLS_PROF_FLD_len p f),
    s.get (CLS_PROF_FLD_offset p f)))).filter (fun f => f.2.1 != 0)

/-- The key of an SDU under profile p, or the slow-path reason (R264, R265; assumption 53, DEDUCED). -/
def State.keyOf (s : State) (d : Sdu) (p : Nat) : Except Nat (List Byte) :=
  let mesh := d.source == 7
  let l := s.fieldsOf p
  let uses := fun (a : Nat) => l.any (fun f => f.1 == a)
  if uses 2 && !mesh && isFragment d.data then .error 1
  else if (uses 1 && (anchorAt d.data mesh 1).isNone) || (uses 2 && (anchorAt d.data mesh 2).isNone) then .error 2
  else
    let at_ := fun (f : Nat × Nat × Nat) => (anchorAt d.data mesh f.1).getD 0 + f.2.2
    if l.any (fun f => decide (d.data.length < at_ f + f.2.1)) then .error 3
    else
      let body := l.flatMap (fun f => (d.data.drop (at_ f)).take f.2.1)
      .ok (fitBytes 32 (beBytes 1 p ++ beBytes 1 d.source ++ beBytes 2 (d.keyMeta % 65536) ++ body))

/-! ### Lookups (R266 to R269) -/

/-- The CRC-32C of R267. -/
def crc32c (b : List Byte) : Nat := crcLsb 32 0x1EDC6F41 0xFFFFFFFF 0xFFFFFFFF b

/-- A key with the bytes that a mask leaves out cleared. -/
def maskKey (mask : Nat) (k : List Byte) : List Byte := k.zipIdx.map (fun x => if bit mask x.2 then x.1 else 0)

/-- Buckets of a masked key in a table of n buckets. -/
def bucketsOf (n : Nat) (k : List Byte) : Nat × Nat := (crc32 k % n, crc32c k % n)

/-- What a lookup ends in. -/
inductive Found where
  | miss
  | hit (result : Nat)
  | slow (reason : Nat)
  deriving DecidableEq, Repr

/-- A hash lookup of owner o in table t (0 A, 1 B) with a masked key (R268). -/
def State.hashFind (s : State) (o t : Nat) (k : List Byte) : Found :=
  let x := s.clsArea o t
  if x.2.1 = 0 then .miss
  else
    let b := bucketsOf (x.2.1 / 4) k
    let l := (List.range 8).map (fun i => s.sram (x.1 + 64 * (4 * (if i < 4 then b.1 else b.2) + i % 4)) 64)
    match l.find? (fun e => bit (byteAt e 40) 0 && e.take 32 == k && bit (byteAt e 32) 7) with
    | some e => .hit (beAt e 32 8)
    | none => .miss

/-- An internal node: kbyte, bytes of its value, mask, threshold, left, right. -/
def nodeFields (v : Nat) : Nat × Nat × Nat × Nat × Nat × Nat :=
  (bits v 125 121, 2 ^ bits v 120 119, bits v 118 87, bits v 86 55, bits v 54 35, bits v 34 15)

/-- A node has a shape that R276 refuses and R269 takes as invalid. -/
def nodeBad (v : Nat) : Bool :=
  bits v 127 126 == 3 || (bits v 127 126 == 1 && (bits v 120 119 == 3 || decide (32 < (nodeFields v).1 + (nodeFields v).2.1)))

/-- A tree walk of owner o with n nodes left (R269). -/
def State.walk (s : State) (o : Nat) (k : List Byte) : Nat → Nat → Found
  | 0, _ => .slow 4
  | n + 1, i =>
    let x := s.clsArea o 2
    if x.2.1 ≤ i then .slow 4
    else
      let v := beAt (s.sram (x.1 + 16 * i) 16) 0 16
      if bits v 127 126 = 2 then if bit v 63 then .hit (bits v 63 0) else .miss
      else if bits v 127 126 = 0 ∨ nodeBad v then .slow 4
      else
        let f := nodeFields v
        State.walk s o k n (if beAt k f.1 f.2.1 &&& f.2.2.1 ≤ f.2.2.2.1 then f.2.2.2.2.1 else f.2.2.2.2.2)

/-- The selections of owner o in force (R277). -/
def State.selOf (s : State) (o : Nat) : Nat := storeGet (fun _ => 0) s.cls.sel o

/-- Lookup of a chain slot value: 1 table A, 2 table B, 3 to 6 trees 0 to 3. -/
def State.lookup (s : State) (o p v : Nat) (k : List Byte) : Found :=
  if v = 1 ∨ v = 2 then s.hashFind o (v - 1) (maskKey (s.get (CLS_PROF_MASK_mask p (v - 1))) k)
  else s.walk o k 16 (s.get (CLS_TREE_ROOT_node o (v - 3) (bitNat (bit (s.selOf o) (v - 3)))))

/-- A CLS_NTAB clear of owner o is in progress: its lookups miss (R279). -/
def State.clearing (s : State) (o : Nat) : Bool := s.cls.jobs.any (fun j => j.1 == o && j.2.op == 5)

/-- The chain of profile p from slot j on, n slots left, with the slot whose read has an uncorrectable error: the hit's
slot value with its result, or the slow-path reason (R266, R269). -/
def State.chain (s : State) (o p : Nat) (k : List Byte) (ecc : Option Nat) : Nat → Nat → Nat × Found
  | 0, _ => (0, .miss)
  | n + 1, j =>
    let v := bits (s.get (CLS_PROF_CFG_chain p)) (3 * j + 2) (3 * j)
    if v = 0 then (0, .miss)
    else if ecc = some j then (v, .slow 6)
    else match s.lookup o p v k with
    | .miss => State.chain s o p k ecc n (j + 1)
    | f => (v, f)

/-! ### Policers (R271) -/

/-- Policers of owner o: the first and their number. -/
def State.policers (s : State) (o : Nat) : Nat × Nat :=
  let f := fun (n : Nat) => match s.section n with | some x => x.policers | none => 0
  let first := ((List.range (min o 16)).map f).sum
  (first, if o < 16 then f o else 256 - first)

/-- Credit of policer i in 1/64 byte; a policer starts with its burst (assumption 39, DESIGN CHOICE). -/
def State.credit (s : State) (i : Nat) : Nat := storeGet (fun _ => 98304) s.cls.credits i

/-- s with that credit changed. -/
def State.setCredit (s : State) (i c : Nat) : State :=
  { s with cls := { s.cls with credits := storeSet (fun _ => 98304) s.cls.credits i c } }

/-- Phase SCHED: each credit rises by rate / 64 bytes up to burst. -/
def State.refillPolicers (s : State) : State :=
  s.each (List.range 256) (fun i t =>
    t.setCredit i (min (64 * t.get (CLS_POL_BURST_burst i)) (t.credit i + t.get (CLS_POL_RATE_rate i))))

/-- Policer i takes n bytes, or does not conform. -/
def State.police (s : State) (i n : Nat) : Bool × State :=
  if 64 * n ≤ s.credit i then (true, (s.setCredit i (s.credit i - 64 * n)).sat (CLS_POL_CNT_count i 0))
  else (false, s.sat (CLS_POL_CNT_count i 1))

/-! ### Applying the result (R270, R272) -/

/-- The slow path of owner o, for a reason of Table 10.6. -/
def State.slowPath (s : State) (o id reason : Nat) : State :=
  let s := s.clsCnt o 8
  let q := s.get (CLS_NCFG_slow_qid o)
  let n := if o < 16 then o else 0
  if s.qidOwner q == some n && (match s.qidGroup q with | some g => g.role == 0 | none => false) then
    (s.modSdu id (fun d => { d with slow := reason })).enqueue id q
  else ((s.clsCnt o 9).clsLim o 0x0906 0).dropNew id

/-- The niche and QID of a destination are those of an assigned QID. -/
def State.destGood (s : State) (x : Nat × Nat) : Bool := s.qidOwner x.2 == some x.1

/-- The valid destinations of replicate group m. -/
def State.group (s : State) (m : Nat) : List (Nat × Nat) :=
  (List.range 2).flatMap (fun k =>
    (if s.on (CLS_MGRP_valid1 m k) then [(s.get (CLS_MGRP_niche1 m k), s.get (CLS_MGRP_qid1 m k))] else []) ++
    (if s.on (CLS_MGRP_valid0 m k) then [(s.get (CLS_MGRP_niche0 m k), s.get (CLS_MGRP_qid0 m k))] else []))

/-- Step 4 of R270 for one SDU: the flow tag, the timestamp request on an Ethernet egress class, R244, the enqueue. -/
def State.applyTo (s : State) (id q flow : Nat) (ts : Bool) : State :=
  let s := s.modSdu id (fun d => { d with
    flow := flow, tsReq := ts && s.roleOf q == some 2, tsId := flow })
  match s.sdu id with
  | none => s
  | some d =>
    if d.trunc && s.roleOf q != some 0 then
      (s.when (decide (d.source < 6)) (fun t => t.sat (ETH_CNT_count d.source 8))).dropNew id
    else s.sendTo id q

/-- Each valid destination of a replicate group receives its own copy (R214, R270; assumption 53, DEDUCED). -/
def State.replicate (s : State) (id : Nat) (l : List (Nat × Nat)) (flow : Nat) : State :=
  let s := s.each l (fun x t => match t.sdu id with
    | some d =>
      let g := t.guardTagged x.2 d.data
      g.2.admitSdu { d with owner := x.1, dest := some x.2, flow := flow, tsReq := false, data := g.1 ++ d.data }
    | none => t)
  s.release id

/-- The result is a cross-niche request of niche o (R270, step 2): the target that is refused. -/
def State.resultDenied (s : State) (o res : Nat) : Option Nat :=
  let niche := bits res 60 57
  let q := bits res 56 46
  if niche ≠ o then some niche
  else if s.qidOwner q ≠ some o then some q
  else if bit res 45 ∧ (s.policers o).2 ≤ bits res 44 37 then some (bits res 44 37) else none

/-- A result of the PF names something that is not assigned so (R270, step 2; assumption 53, DEDUCED). -/
def State.resultBad (s : State) (res : Nat) : Bool :=
  (if bits res 62 61 = 3 then (s.group (bits res 51 46)).any (fun x => !s.destGood x)
   else !s.destGood (bits res 60 57, bits res 56 46)) ||
  (bit res 45 && decide ((s.policers 16).2 ≤ bits res 44 37))

/-- A result applied to an SDU of owner o (R270). -/
def State.applyResult (s : State) (o id res : Nat) : State :=
  let action := bits res 62 61
  let bad := ((s.clsCnt o 10).clsLim o 0x0904 0).dropNew id
  if action = 1 then (s.clsCnt o 6).dropNew id
  else if action = 2 then s.slowPath o id 5
  else if o < 16 ∧ action = 3 then bad
  else match if o < 16 then s.resultDenied o res else none with
  | some target => (s.countDenied o target).dropNew id
  | none =>
    if o = 16 ∧ s.resultBad res then bad
    else
      let n := match s.sdu id with | some d => d.data.length | none => 0
      let p := if bit res 45 then s.police ((s.policers o).1 + bits res 44 37) n else (true, s)
      if !p.1 then (p.2.clsCnt o 7).dropNew id
      else if action = 3 then p.2.replicate id (s.group (bits res 51 46)) (bits res 35 20)
      else p.2.applyTo id (bits res 56 46) (bits res 35 20) (bit res 36)

/-- The lookup of an SDU begins: it waits no more, it is counted, and its key metadata name profile and source. -/
def State.startLookup (s : State) (id : Nat) (d : Sdu) : State :=
  let s := s.clsCnt (s.clsOwner d) 0
  s.modSdu id (fun x => { x with keyMeta := s.profileOf d * 2 ^ 24 + d.source * 2 ^ 16 + d.keyMeta % 65536 })

/-- The chain of profile p walked with key k for owner o, and its result applied to the SDU (R266 to R270). -/
def State.chained (s : State) (o p id : Nat) (k : List Byte) (ecc : Option (Fin 6 × BitVec 20)) : State :=
  let dflt := s.get (CLS_PROF_DEF_result p 1) * 2 ^ 32 + s.get (CLS_PROF_DEF_result p 0)
  let r := if s.clearing o then (0, Found.miss) else s.chain o p k (ecc.map (fun e => e.1.val)) 6 0
  match r.2 with
  | .hit res => (s.clsCnt o (if r.1 = 1 then 1 else if r.1 = 2 then 2 else 3)).applyResult o id res
  | .slow 4 => (s.clsLim o 0x0905 0).slowPath o id 4
  | .slow c => (s.clsLim o 0x0903 (fdata o 0 (match ecc with | some e => e.2.toNat | none => 0))).slowPath o id c
  | .miss =>
    let s := s.clsCnt o 4
    if bit dflt 63 then s.applyResult o id dflt else (s.clsCnt o 5).dropNew id

/-- The profile of an SDU of owner o is the owner's. -/
def State.profileOwned (s : State) (o p : Nat) : Bool := s.profileOwner p == (if o < 16 then some o else none)

/-- The key of an SDU is looked up, once profile p is known to be owner o's (R264, R265). -/
def State.classify (s : State) (o p id : Nat) (d : Sdu) (ecc : Option (Fin 6 × BitVec 20)) : State :=
  if !s.profileOwned o p then (if o < 16 then (s.countDenied o p).dropNew id else s.dropNew id)
  else match s.keyOf d p with
  | .error r => s.slowPath o id r
  | .ok k => s.chained o p id k ecc

/-- An SDU waits for the classifier no more. -/
def State.endWaiting (s : State) (id : Nat) : State :=
  { s with cls := { s.cls with waiting := s.cls.waiting.filter (fun x => x != id) } }

/-- An SDU that waits for the classifier is classified; ecc names the chain slot and the item whose read has an
uncorrectable error, where one has (R270; spec/10, If an entry read has an uncorrectable SRAM error). -/
def execClassifySdu (id : Nat) (ecc : Option (Fin 6 × BitVec 20)) (s : State) : Host.Outcome State Fault Refusal :=
  .next (match s.sdu id with
    | none => s
    | some d =>
      if !s.cls.waiting.contains id || !s.written id then s
      else
        let s := s.endWaiting id
        if s.closed d.owner then s.dropAs id 6
        else
          let s := s.startLookup id d
          s.classify (s.clsOwner d) (s.profileOf d) id d ecc)

/-! ### Table updates (R274 to R276, R279) -/

/-- The operation in progress for owner o. -/
def State.clsJob (s : State) (o : Nat) : Option ClsJob := (s.cls.jobs.find? (fun j => j.1 == o)).map (fun j => j.2)

/-- An operation of owner o is refused with a code. -/
def State.updRefuse (s : State) (o code : Nat) : State :=
  let s := (s.put (CLS_UPD_STATUS_code o) code).when (code == 0x0902) (fun t => t.clsCnt o 11)
  s.logDev code (if o < 16 then o else 0xF) 0

/-- An operation of owner o starts. -/
def State.updStart (s : State) (o : Nat) (j : ClsJob) : State :=
  let s := (s.put (CLS_UPD_STATUS_code o) 0).putB (CLS_UPD_STATUS_busy o) true
  { s with cls := { s.cls with jobs := s.cls.jobs ++ [(o, j)] } }

/-- Table and index of CLS_UPD_ADDR, and the bytes of CLS_UPD_DATAw. -/
def State.updTable (s : State) (o : Nat) : Nat := s.get (CLS_UPD_ADDR_table o)
def State.updIndex (s : State) (o : Nat) : Nat := s.get (CLS_UPD_ADDR_index o)
def State.updData (s : State) (o : Nat) : List Byte :=
  (List.range 16).flatMap (fun w => beBytes 4 (s.get (CLS_UPD_DATA_data o w)))

/-- R276 on an operation of owner o: the index outside the table, or an operation in progress. -/
def State.updOutside (s : State) (o : Nat) : Bool :=
  s.on (CLS_UPD_STATUS_busy o) || s.updTable o == 3 || decide ((s.clsArea o (s.updTable o)).2.1 ≤ s.updIndex o)

/-- R276 on the data of a write. -/
def State.updBad (s : State) (o : Nat) : Bool :=
  let b := s.updData o
  if s.updTable o = 2 then nodeBad (beAt b 0 16)
  else byteAt b 40 / 2 != 0 || !allZero ((b.drop 41).take 23)

/-- CLS_UPD_CMD op 1: an entry or node is to be replaced by CLS_UPD_DATA. -/
def execClsUpdWrite (o : Fin 17) (s : State) : Host.Outcome State Fault Refusal :=
  .next (if s.updOutside o.val || s.updBad o.val then s.updRefuse o.val 0x0902
    else s.updStart o.val ⟨1, s.updTable o.val, s.updIndex o.val,
      (s.updData o.val).take (if s.updTable o.val = 2 then 16 else 64)⟩)

/-- CLS_UPD_CMD op 2: an entry or node is to be read into CLS_UPD_DATA. -/
def execClsUpdRead (o : Fin 17) (s : State) : Host.Outcome State Fault Refusal :=
  .next (if s.updOutside o.val then s.updRefuse o.val 0x0902
    else s.updStart o.val ⟨2, s.updTable o.val, s.updIndex o.val, []⟩)

/-- CLS_UPD_CMD op 3: the buckets of DATA0 to 7 as a key in the table of ADDR, whose index R276 judges too; a tree has no
buckets (assumption 53, DEDUCED). -/
def execClsUpdHash (o : Fin 17) (s : State) : Host.Outcome State Fault Refusal :=
  .next (if s.updOutside o.val || s.updTable o.val == 2 then s.updRefuse o.val 0x0902
    else s.updStart o.val ⟨3, s.updTable o.val, 0, (s.updData o.val).take 32⟩)

/-- CLS_UPD_CMD op 4: an entry or node is to be invalidated: all of its bytes become zero (assumption 53, DEDUCED). -/
def execClsUpdInvalidate (o : Fin 17) (s : State) : Host.Outcome State Fault Refusal :=
  .next (if s.updOutside o.val then s.updRefuse o.val 0x0902
    else s.updStart o.val ⟨4, s.updTable o.val, s.updIndex o.val, zeros (if s.updTable o.val = 2 then 16 else 64)⟩)

/-- The operation of owner o is over. -/
def State.updEnd (s : State) (o : Nat) : State :=
  let s := s.putB (CLS_UPD_STATUS_busy o) false
  { s with cls := { s.cls with jobs := s.cls.jobs.filter (fun j => j.1 != o) } }

/-- The update operation of owner o completes, between two lookups (R275). -/
def execClsUpdComplete (o : Fin 17) (s : State) : Host.Outcome State Fault Refusal :=
  .next (match s.clsJob o.val with
    | none => s
    | some j =>
      let x := s.clsArea o.val j.table
      let a := x.1 + x.2.2 * j.index
      match j.op with
      | 1 | 4 => (s.setSram a j.data).updEnd o.val
      | 2 => ((s.sram a x.2.2 |> fun b => s.each (List.range (x.2.2 / 4)) (fun w t =>
          t.put (CLS_UPD_DATA_data o.val w) (beAt b (4 * w) 4)))).updEnd o.val
      | 3 =>
        let b := bucketsOf (x.2.1 / 4) j.data
        ((s.put (CLS_UPD_HASH_bucket1 o.val) b.1).put (CLS_UPD_HASH_bucket2 o.val) b.2).updEnd o.val
      | _ => s)

/-- A write to the table window is discarded and logged (R274). -/
def execTableWindowWrite (_offset : BitVec 24) (s : State) : Host.Outcome State Fault Refusal :=
  .next (s.logDev 0x0902 0xF 0)

/-- CLS_NTAB of owner o written: refused beyond the owner's blocks, otherwise the owner's entries, nodes and roots are
to be zeroed (R279; assumption 53, DEDUCED). -/
def execClsNtabWrite (o : Fin 17) (data : Word) (s : State) : Host.Outcome State Fault Refusal :=
  let a := bits data.toNat 11 0
  let b := bits data.toNat 23 12
  .next (if s.on (CLS_UPD_STATUS_busy o.val) then s.updRefuse o.val 0x0902
    else if s.clsBlocks o.val < a + b then s.updRefuse o.val 0x0907
    else ((s.put (CLS_NTAB_hash_a o.val) a).put (CLS_NTAB_hash_b o.val) b).updStart o.val ⟨5, 0, 0, []⟩)

/-- The tables and roots of owner o are zeroed. -/
def State.zeroTables (s : State) (o : Nat) : State :=
  let first := 256 * s.clsBase o
  let last := first + 256 * s.clsBlocks o
  let s := s.each (List.range 4) (fun t u => (u.put (CLS_TREE_ROOT_node o t 0) 0).put (CLS_TREE_ROOT_node o t 1) 0)
  { s with cls := { s.cls with sram := s.cls.sram.filter (fun p => decide (p.1 < first) || decide (last ≤ p.1)) } }

/-- The clear of owner o completes (R279). -/
def execNtabClearDone (o : Fin 17) (s : State) : Host.Outcome State Fault Refusal :=
  .next (if s.clearing o.val then (s.zeroTables o.val).updEnd o.val else s)

/-! ### Trees and profiles (R277, R278) -/

/-- CLS_TREE_SEL of owner o written: the new roots are selected from the next tick edge, and the old roots of the trees
that change are still referenced until the one after it (R277). -/
def execClsTreeSelWrite (o : Fin 17) (data : Word) (s : State) : Host.Outcome State Fault Refusal :=
  let v := bits data.toNat 3 0
  let ch := s.selOf o.val ^^^ v
  let s := (s.put (CLS_TREE_SEL_sel o.val) v).put (CLS_TREE_SEL_retiring o.val)
    (s.get (CLS_TREE_SEL_retiring o.val) ||| ch)
  let trees := (onesOf 4 ch).map (fun t => 4 * o.val + t)
  .next { s with cls := { s.cls with
    wrote := s.cls.wrote.filter (fun w => !trees.contains w.1) ++ trees.map (fun t => (t, s.tick.edges)) } }

/-- The last write that changed the selection of tree t of owner o lies n tick edges or more back and is not retired. -/
def State.treeAged (s : State) (n o t : Nat) : Bool :=
  s.cls.wrote.any (fun w => w.1 == 4 * o + t && decide (n ≤ s.tick.edges - w.2))

/-- The trees of owner o of which p holds, as a bitmap. -/
def treesWhere (p : Nat → Bool) : Nat := ((List.range 4).map (fun t => if p t then 2 ^ t else 0)).sum

/-- The tick edge after the write: new lookups start on the selected root of each tree that it changed. -/
def execTreeSwitch (o : Fin 17) (s : State) : Host.Outcome State Fault Refusal :=
  .next { s with cls := { s.cls with sel := storeSet (fun _ => 0) s.cls.sel o.val (treesWhere (fun t =>
    if s.treeAged 1 o.val t then bit (s.get (CLS_TREE_SEL_sel o.val)) t else bit (s.selOf o.val) t)) } }

/-- The second tick edge after the write: the old root of each tree that it changed is unreferenced. -/
def execTreeRetire (o : Fin 17) (s : State) : Host.Outcome State Fault Refusal :=
  let old := treesWhere (fun t => bit (s.get (CLS_TREE_SEL_retiring o.val)) t && !s.treeAged 2 o.val t)
  .next { s.put (CLS_TREE_SEL_retiring o.val) old with cls := { s.cls with
    wrote := s.cls.wrote.filter (fun w => w.1 / 4 != o.val || decide (s.tick.edges - w.2 < 2)) } }

/-- A profile that R278 refuses: its fields sum to more than 28 bytes, one of them is longer than 16 bytes or uses
anchor 3, or its chain holds slot value 7 (assumption 53, DEDUCED). -/
def State.profileBad (s : State) (p : Nat) : Bool :=
  let l := s.fieldsOf p
  decide (28 < (l.map (fun f => f.2.1)).sum) || l.any (fun f => decide (16 < f.2.1) || f.1 == 3) ||
    (List.range 6).any (fun j => bits (s.get (CLS_PROF_CFG_chain p)) (3 * j + 2) (3 * j) == 7)

/-- The words that await the tick edge, written. -/
def State.writeWords (s : State) (l : List (Nat × Word)) : State := s.each l (fun w t => t.setWord w.1 w.2)

/-- The writes of a list that address profile p. -/
def ofProfile (l : List (Nat × Word)) (p : Nat) : List (Nat × Word) :=
  l.filter (fun w => decide (0x140400 + 0x40 * p ≤ w.1) && decide (w.1 < 0x140440 + 0x40 * p))

/-- The writes of a list that address no profile. -/
def ofNoProfile (l : List (Nat × Word)) : List (Nat × Word) :=
  l.filter (fun w => !(decide (0x140400 ≤ w.1) && decide (w.1 < 0x140C00)))

/-- The writes of a list to profile p take effect, unless they would make a bad profile: then it keeps its contents (R278). -/
def State.applyProfile (s : State) (l : List (Nat × Word)) (p : Nat) : State :=
  if ofProfile l p = [] then s
  else
    let u := s.writeWords (ofProfile l p)
    if u.profileBad p then s.logDev 0x0901 ((s.profileOwner p).getD 0xF) 0 else u

/-- Profile, source and CLS_NCFG writes take effect together at the tick edge (R278). -/
def execProfileApply (s : State) : Host.Outcome State Fault Refusal :=
  let l := s.cls.shadow
  let s := { s with cls := { s.cls with shadow := [] } }.writeWords (ofNoProfile l)
  .next (s.each (List.range 32) (fun p t => t.applyProfile l p))

/-! ### Re-carving (spec/10, If a re-carve moves classifier blocks or profiles) -/

/-- s, which was in state was before, with the policers moved to their owners' new numbers: an owner's policer keeps its
local index with its registers and credit, and one that it gains starts at its reset values (R66; assumption 24, DEDUCED). -/
def State.movePolicers (s was : State) : State :=
  s.each ((List.range 17).flatMap (fun o => (List.range (s.policers o).2).map (fun i => (o, i)))) (fun p t =>
    let k := (s.policers p.1).1 + p.2
    let kept := decide (p.2 < (was.policers p.1).2)
    let j := (was.policers p.1).1 + p.2
    let t := t.each (List.range 4) (fun i u =>
      u.setWord (0x148000 + 0x10 * k + 4 * i)
        (if kept then was.word (0x148000 + 0x10 * j + 4 * i) else resetWord (0x148000 + 0x10 * k + 4 * i)))
    t.setCredit k (if kept then was.credit j else 98304))

/-- s, which was in state was before niche n's new section took effect, with the tables moved to the owners' new places:
blocks that leave or join are zero, the niche's CLS_NTAB returns to 0 where its blocks change, and a profile that
changes owner returns to its reset values. -/
def State.moveTables (s was : State) (n : Nat) : State :=
  let s := s.movePolicers was
  let part := fun (o : Nat) =>
    let b := 256 * was.clsBase o
    let k := 256 * min (was.clsBlocks o) (s.clsBlocks o)
    (was.cls.sram.filter (fun p => decide (b ≤ p.1) && decide (p.1 < b + k))).map
      (fun p => (p.1 - b + 256 * s.clsBase o, p.2))
  let s := { s with cls := { s.cls with sram := (List.range 17).flatMap part } }
  let s := s.when (was.clsBlocks n != s.clsBlocks n) (fun t =>
    (t.put (CLS_NTAB_hash_a n) 0).put (CLS_NTAB_hash_b n) 0)
  s.each ((List.range 32).filter (fun p => was.profileOwner p != s.profileOwner p)) (fun p t =>
    t.each (List.range 13) (fun i u => u.setWord (0x140400 + 0x40 * p + 4 * i) (resetWord (0x140400 + 0x40 * p + 4 * i))))

end Sys2Proof.Machine
end

