-- ==== Sys2Proof/Machine/Tick.lean ====
section
/-!
DEFINITION. The 125-microsecond tick (spec/02_the_125_microsecond_tick.md): states, frame counter,
realignment without a short tick, phases and loss of XO_IN.
-/

namespace Sys2Proof.Machine

open Sys2Proof

/-- The mean of l, rounded to one of the two neighbouring units by a free value where it is not a whole
number of units (R30 states no rounding; assumption 9, DESIGN CHOICE). -/
def meanOf (l : List Int) (free : Nat) : Int :=
  let n : Int := l.length
  l.sum / n + (if l.sum % n = 0 then 0 else ((free % 2 : Nat) : Int))

/-- ±50 ppm in units of 2⁻⁴⁰ (R31). -/
def holdLimit : Int := 54975581

/-- TICK_HOLD_FREQ as holdover takes it from the locked measurements (R30), clamped with XO_RANGE logged
where their mean lies outside ±50 ppm (R31). -/
def State.holdFreq (s : State) : State :=
  let l := (s.tick.meas.drop 16).take 8192
  if l.isEmpty then s
  else
    let m := meanOf l s.free
    let s := if l.sum % (l.length : Int) = 0 then s else s.tookFree
    let s := s.putS TICK_HOLD_FREQ_freq (clampInt (-holdLimit) holdLimit m)
    if m < -holdLimit ∨ holdLimit < m then
      (s.putB TICK_FLAGS_xo_range true).logDev 0x0205 0xF 0
    else s

/-- XO_IN is lost (R47): outside LOCKED a device warm reset with that cause; in LOCKED the tick stays locked,
TICK_HOLD_FREQ becomes 0 and the timebase follows the line clock (R308). -/
def State.xoGone (s : State) : State :=
  let s := (s.putB TICK_FLAGS_xo_lost true).logDev 0x0206 0xF 0
  if s.get TICK_STATUS_state = 1 then
    let s := (s.put TICK_HOLD_FREQ_freq 0).putB TIM_STATUS_line_ref true
    { s with tick := { s.tick with xoLost := true } }
  else s.faultReset 6

/-- LOCKED to HOLDOVER (R29, R30): the held frequency is taken, tick_line and v0_trace clear (R23); if XO_IN is
lost by then, R47 applies. -/
def State.enterHoldover (s : State) : State :=
  let s := ((s.holdFreq.put TICK_STATUS_state 2).sat TICK_EVT_CNT_hold).put GLB_SERVICE_tick_line 0
  let s := s.put GLB_SERVICE_v0_trace 0
  let s := { s with tick := { s.tick with meas := [] }, act := { s.act with
    traceTwin := false, twin := s.act.twin.map (fun (r : TwinResult) => { r with stale := true }) } }
  if s.tick.xoLost then s.xoGone else s

/-- What a change of the aligned verdict does to the tick at once (Table 2.2): LOCKED leaves for HOLDOVER,
FREE leaves for REALIGN (assumption 10, DESIGN CHOICE). -/
def State.verdict (s : State) (was : Bool) : State :=
  let now := s.aligned
  let s := s.when (!was && now) (fun t => t.putB TIM_STATUS_tod_valid false)
  if was && !now && s.get TICK_STATUS_state == 1 then s.enterHoldover
  else if !was && now && s.get TICK_STATUS_state == 0 && !s.tick.forced then s.put TICK_STATUS_state 3
  else s

/-- s with the next tick n cycles long, slewing by d (R39, R40). -/
def State.nextTick (s : State) (n : Nat) (d : Int) : State :=
  let s := (s.putB TICK_STATUS_slewing (d != 0)).putB TICK_STATUS_stretching (decide (19441 < n))
  { s with tick := { s.tick with len := n, slew := d } }

/-- s with frame counter fc (51 bits, R28). -/
def State.setFc (s : State) (fc : Nat) : State :=
  { s with tick := { s.tick with fc := fc % 2 ^ 51 } }

/-- TICK_FRAME_ADJ takes the adjustment d; one that 32 signed bits cannot hold is a free value (R42 states no bound; assumption
95, DESIGN CHOICE). -/
def State.setAdjust (s : State) (d : Int) : State :=
  if satSigned 32 d = d then s.putS TICK_FRAME_ADJ_adj d else s.tookFree.put TICK_FRAME_ADJ_adj s.free

/-- An edge in REALIGN under an aligned verdict, with the alignment error e where the edge has a marker
position (R40 to R42, R581; across the wrap of the counter assumption 95, DESIGN CHOICE). -/
def State.realign (s : State) (e : Option Int) : State :=
  let prev := s.tick.fc
  match e with
  | none => (s.setFc (prev + 1)).nextTick (19440 + s.tick.slew).toNat s.tick.slew
  | some e =>
    let s := s.putS TICK_ALIGN_ERR_e e
    if e = 0 then
      let line : Nat := (s.dsl.count + 1) % 2 ^ 51
      let adj : Int := (line : Int) - (((prev + 1) % 2 ^ 51 : Nat) : Int)
      let s := (s.setFc line).nextTick 19440 0
      let s := (s.setAdjust adj).put TICK_STATUS_state 1
      ((s.satBy TICK_EVT_CNT_skip adj.toNat).put GLB_SERVICE_tick_line 1).startRelock
    else if e.natAbs ≤ 64 then
      let d : Int := if e < 0 then 1 else -1
      (s.setFc (prev + 1)).nextTick (19440 + d).toNat d
    else
      let n := if e < 0 then 19440 - e else 38880 - e
      let s := (s.setFc (prev + 1)).nextTick n.toNat 0
      (s.sat TICK_EVT_CNT_stretch).logDev 0x0204 0xF 0

/-- XO_IN measured over the locked tick that ends (R30). -/
def State.measured (s : State) (xo : Int) : State := { s with tick := { s.tick with meas := (xo :: s.tick.meas).take 8208 } }

/-- A locked edge: the line counter is taken (R28) and XO_IN measured (R30). -/
def State.lockedEdge (s : State) (xo : Int) : State := ((s.setFc (s.dsl.count + 1)).nextTick 19440 0).measured xo

/-- The tick state machine at an edge (Table 2.2, R44, R45; assumption 10, DESIGN CHOICE). -/
def State.edgeState (s : State) (xo : Int) (e : Option Int) : State :=
  let ok := s.aligned && !s.tick.forced
  let free := fun (t : State) => (t.setFc (t.tick.fc + 1)).nextTick 19440 0
  match s.get TICK_STATUS_state with
  | 0 => if ok then (s.put TICK_STATUS_state 3).realign e else free s
  | 1 => if ok then s.lockedEdge xo else free (s.measured xo).enterHoldover
  | 2 => if ok && e.isSome then (s.put TICK_STATUS_state 3).realign e else free s
  | _ => if ok then s.realign e else free ((s.put TICK_STATUS_state 2).sat TICK_EVT_CNT_hold)

/-- A phase still runs when the tick ends (R38). -/
def State.phaseMissed (s : State) : Option Nat :=
  (s.tick.phaseEnd.find? (fun p => decide (s.tick.len < p.2))).map (fun p => p.1)

/-- The alignment error that an edge measures: only against a marker whose position has been reported, within 9,720 tick cycles
of the edge (R581; assumption 10, DESIGN CHOICE). -/
def State.measuredError (s : State) (e : Option Int) : Option Int :=
  e.filter (fun v => s.dsl.mark && decide (-9719 ≤ v) && decide (v ≤ 9720))

/-- The tick edge and phase EDGE, but for what other blocks do at it (R28, R33, R35, R38, R45; assumption 10, DESIGN CHOICE): what
MAP released in the tick that ends is gone. -/
def State.tickEdge (s : State) (xo : Int) (e : Option Int) (cycles frac : Nat) : State :=
  match s.phaseMissed with
  | some p => (({ s with tick := { s.tick with phaseEnd := [] } }.logDev 0x0203 0xF (fdata p 0 0)).safeFor 2).faultReset 5
  | none =>
    let s := s.when s.tick.hwmClr (fun t => t.each (List.range 12) (fun p u => u.put (TICK_PHASE_HWM_hwm p) 0))
    let s := { s with tick := { s.tick with
      forced := s.on TICK_CTRL_force_hold, hwmClr := false, edges := s.tick.edges + 1, phaseEnd := [],
      stamp := s.stampAt frac } }
    let s := (s.edgeState xo (s.measuredError e)).put TICK_STATUS_microslot 0
    let s := { s with cel := { s.cel with granted := 0 },
                      dsl := { s.dsl with mark := false, grants := [], msgs := [], quiet := false } }
    s.phaseUsed 0 cycles

/-- PHASE_WINDOW_END (R37): a phase that runs past the end of its window is logged as OVERRUN
(assumption 11, DESIGN CHOICE). -/
def execPhaseWindowEnd (phase : Fin 12) (s : State) : Host.Outcome State Fault Refusal :=
  let late := s.tick.phaseEnd.any (fun p => p.1 == phase.val && decide (phaseLimit phase.val < p.2))
  .next (s.when late (fun t =>
    (t.mark TICK_FLAGS_overrun phase.val).logDev 0x0202 0xF (fdata phase.val 0 0)))

/-- XO_LOST (R47). -/
def execXoLost (s : State) : Host.Outcome State Fault Refusal := .next s.xoGone

/-- TICK_FORCE_HOLD_WRITE (R45): the register changes at once and is obeyed from the next tick edge. -/
def execTickForceHoldWrite (data : Word) (s : State) : Host.Outcome State Fault Refusal :=
  .next (s.put TICK_CTRL_force_hold data.toNat)

/-- TICK_HWM_CLR (R35, Table 2.12). -/
def execTickHwmClr (s : State) : Host.Outcome State Fault Refusal :=
  .next { s with tick := { s.tick with hwmClr := true } }

/-- Number of a source of register accesses; each latches partners of its own (R577; assumption 20, DEDUCED). -/
def agentId : Agent → Nat
  | .pf => 0
  | .vf n => 1 + n.val
  | .sup => 17
  | .mbxPf => 18
  | .line => 19
  | .mbx n => 20 + n.val

/-- Key of the latch that a source holds for the HI register at address a. -/
def latchKey (src a : Nat) : Nat := src * 2 ^ 26 + a

/-- s with word w latched by source src for the HI register at address a (R577; assumption 20, DEDUCED). -/
def State.latchHi (s : State) (src a : Nat) (w : Word) : State :=
  { s with latch := storeSet (fun _ => (0 : Word)) s.latch (latchKey src a) w }

/-- The word latched by source src for the HI register at address a (assumption 20, DEDUCED). -/
def State.latched (s : State) (src a : Nat) : Word :=
  storeGet (fun _ => (0 : Word)) s.latch (latchKey src a)

/-- A write to the register at address a of an MSH or FIO block: f, or on the EVT-7401, which has neither, only an ABSENT record
(R3). -/
def State.ifPresent (s : State) (a : Nat) (f : State → State) : State :=
  if s.fuse.is7401 then s.logDev 0x0002 0xF (fdata 0 0 a) else f s

/-- A register read that returns w to source src. -/
def State.answer (s : State) (src : Nat) (w : Word) : State := s.send (.completion src 0 w)

/-- Read of TICK_FC_LO by a source: the upper bits are latched into its TICK_FC_HI (R46). -/
def State.readFcLo (s : State) (src : Nat) : State :=
  s.latchHi src 0x2000C (BitVec.ofNat 32 (s.tick.fc / 2 ^ 32))

/-- TICK_FC_LO_READ (R46). -/
def execTickFcLoRead (who : Agent) (s : State) : Host.Outcome State Fault Refusal :=
  .next ((s.readFcLo (agentId who)).answer (agentId who) (BitVec.ofNat 32 s.tick.fc))

end Sys2Proof.Machine
end

