-- ==== Sys2Proof/Machine/TimOps.lean ====
section
/-!
DEFINITION. What the time block computes (spec/12_time.md): view readings, stamp queues, schedules, the calendar, IRIG-B
frames and the servos.
-/

namespace Sys2Proof.Machine

open Sys2Proof

/-! ### Rounding that the spec leaves open -/

/-- x rounded to a neighbouring whole number: either one. -/
def roundAny (x : ℚ) (free : Nat) : Int := if x = (⌊x⌋ : ℚ) then ⌊x⌋ else ⌊x⌋ + ((free % 2 : Nat) : Int)

/-- x rounded to the nearest whole number: either of two that are equally near. -/
def roundNear (x : ℚ) (free : Nat) : Int :=
  if x - (⌊x⌋ : ℚ) = 1 / 2 then ⌊x⌋ + ((free % 2 : Nat) : Int) else ⌊x + 1 / 2⌋

/-! ### Records -/

/-- A record in the device log, and in the log of the niche that caused it where there is one (R339). -/
def State.logBoth (s : State) (o : Option Nat) (code data : Nat) : State :=
  match o with
  | some n => (s.logNiche n code data).logDev code n data
  | none => s.logDev code 0xF data

/-- A rate-limited occurrence of a kind in the same logs. -/
def State.limBothKind (s : State) (o : Option Nat) (kind code data : Nat) : State :=
  match o with
  | some n => (s.limitKind n code n kind data).limitKind 16 code n kind data
  | none => s.limitKind 16 code 0xF kind data

/-- A rate-limited occurrence in the same logs. -/
def State.limBoth (s : State) (o : Option Nat) (code data : Nat) : State := s.limBothKind o 0 code data

/-- The niche behind an agent; none for the PF's sources. -/
def agentNiche : Agent → Option Nat
  | .vf n => some n.val
  | .mbx n => some n.val
  | _ => none

/-- A request of an agent on a resource of owner o at address a: f, or DENIED where the agent is a niche that does not own it
(R222, R224). -/
def State.ifOwned (s : State) (who : Agent) (o : Option Nat) (a : Nat) (f : State → State) : State :=
  match agentNiche who with
  | none => f s
  | some n => if o = some n then f s else s.deny n (agentId who) a

/-! ### Views (R310) -/

/-- One second in 2⁻¹⁶ ns. -/
def viewUnit : Nat := 1000000000 * 65536

/-- View v. -/
def State.view (s : State) (v : Nat) : View := s.tim.views.getD v ⟨0, 0, 0, 0, 0⟩

/-- s with view v set. -/
def State.setView (s : State) (v : Nat) (x : View) : State :=
  { s with tim := { s.tim with views := s.tim.views.set v x } }

/-- The correction of a view at timebase value t: the product of the rate and the time since the anchor, rounded to the
nearest unit with ties toward +∞. -/
def View.corr (x : View) (t : Int) : Int := ((t - (x.e : Int)) * x.r + 2 ^ 43) / 2 ^ 44

/-- n of R310: the reading in 2⁻¹⁶ ns before it is split. -/
def View.total (x : View) (t : Int) : Int :=
  (x.os * viewUnit + x.ons * 65536 + x.ofrac : Nat) + t + x.corr t

/-- A reading split into seconds modulo 2⁴⁸, nanoseconds and fraction. -/
def splitView (n : Int) : Nat × Nat × Nat :=
  ((n / (viewUnit : Int) % 2 ^ 48).toNat, (n % (viewUnit : Int) / 65536).toNat, (n % 65536).toNat)

/-- The reading of view v at timebase value t (R310). -/
def State.readView (s : State) (v t : Nat) : Nat × Nat × Nat := splitView ((s.view v).total t)

/-- O of a view from a number of 2⁻¹⁶ ns. -/
def View.withOffset (x : View) (n : Int) : View :=
  let p := splitView n
  { x with os := p.1, ons := p.2.1, ofrac := p.2.2 }

/-- O of a view in 2⁻¹⁶ ns. -/
def View.offset (x : View) : Int := (x.os * viewUnit + x.ons * 65536 + x.ofrac : Nat)

/-- A new rate at t₀: the old one is folded into the offset first (R311). -/
def View.rate (x : View) (t0 : Nat) (r : Int) : View :=
  { x.withOffset (x.offset + x.corr t0) with r := r, e := t0 }

/-- Job j on the views at timebase stamp t₀ (R311, R312, R324, R336): the old rate is folded into the offset first, and the
new offset and the step follow. -/
def State.viewJob (s : State) (t0 : Nat) (j : ViewJob) : State :=
  let x := if j.copy then s.view 0 else s.view j.view
  let x := match j.rate with
    | some r => x.rate t0 r
    | none => x
  let x := match j.ofs with
    | some o => { x with os := o.1, ons := o.2.1, ofrac := o.2.2 }
    | none => x
  let x := match j.aim with
    | some a => x.withOffset ((a.1 * viewUnit + a.2 * 65536 : Nat) - (t0 : Int) - x.corr t0)
    | none => x
  let x := if j.step = 0 then x else x.withOffset (x.offset + j.step)
  let s := s.setView j.view x
  if j.aim.isSome then
    ((s.put (TIM_VIEW_OFS_SLO_os j.view) x.os).put (TIM_VIEW_OFS_SHI_os j.view) (x.os / 2 ^ 32)).put
      (TIM_VIEW_OFS_NS_ons j.view) x.ons |>.put (TIM_VIEW_OFS_FRAC_ofrac j.view) x.ofrac
  else s

/-- Shadow writes x and y of one view and tick taken together (R311): the later offset and rate stand, and the steps add up. -/
def ViewJob.with_ (x y : ViewJob) : ViewJob :=
  { x with ofs := y.ofs <|> x.ofs, rate := y.rate <|> x.rate, step := x.step + y.step }

/-- The job only applies shadow registers. -/
def ViewJob.shadow (j : ViewJob) : Bool := j.aim.isNone && !j.copy

/-- s with a job for phase TIME of the next tick; shadow writes of one view join the one that waits already. -/
def State.addViewJob (s : State) (j : ViewJob) : State :=
  let j := { j with tick := s.tick.edges }
  let l := s.tim.jobs
  let l' := match l.getLast? with
    | some x => if x.shadow && j.shadow && x.view == j.view && x.tick == j.tick then l.dropLast ++ [x.with_ j] else l ++ [j]
    | none => [j]
  { s with tim := { s.tim with jobs := l' } }

/-- A job for view v that does nothing yet. -/
def viewJobFor (v : Nat) : ViewJob := ⟨v, 0, none, none, 0, none, false⟩

/-- The agent may write view v (Table 12.1); the line source and the supervisor write as the PF. -/
def State.mayWriteView (s : State) (who : Agent) (v : Nat) : Bool :=
  match agentNiche who with
  | some n => v == 2 && s.get TIM_CTRL_v2_owner == n && n != 15
  | none => if v = 0 then !s.on TIM_CTRL_v0_servo else if v = 1 then !s.on TIM_PTP_CFG_en else true

/-- VIEW_BAD. -/
def State.viewBad (s : State) : State := s.logDev 0x0B08 0xF 0

/-- A write of a view that Table 12.1 does not permit (R313): a niche is denied, the PF receives VIEW_BAD. -/
def State.refuseView (s : State) (who : Agent) (v : Nat) : State :=
  match agentNiche who with
  | some n => s.deny n (agentId who) (0x1C0100 + 0x40 * v)
  | none => s.viewBad

/-! ### Stamp queues (Table 12.4, R325) -/

/-- Word k of an entry. -/
def StampEntry.word (x : StampEntry) (k : Nat) : Nat :=
  match k with
  | 0 => 2 ^ 31 + bitNat x.gap * 2 ^ 30 + x.view % 4 * 2 ^ 28 + x.flags % 4 * 2 ^ 18 + bitNat x.edge * 2 ^ 16 + x.id % 65536
  | 1 => x.stamp / 65536 % 2 ^ 32
  | 2 => x.stamp / 65536 / 2 ^ 32 % 2 ^ 32
  | 3 => x.stamp % 65536 * 65536 + x.vs / 2 ^ 32 % 65536
  | 4 => x.vs % 2 ^ 32
  | _ => x.vns % 2 ^ 30

/-- Where a stamp queue shows itself: overflow, view, count, dropped, E0 to E5, and the code and index it logs. -/
structure QueueDesc where
  ovf : Field
  view : Field
  count : Field
  dropped : Field
  word : Nat → Field
  code : Nat
  index : Nat
  owner : Option Nat
  /-- Its overflow is logged in the niche's log as well (R339). -/
  both : Bool
  /-- Kind of its overflow among the rate-limited conditions: binary inputs are counted apart (R397). -/
  kind : Nat

/-- A stamp in 2⁻¹⁶ ns enters queue f of description d (R325): the state after it and the queue. -/
def State.pushStamp (s : State) (d : QueueDesc) (f : StampFifo) (id stamp : Nat) (edge : Bool) (flags : Nat) : State × StampFifo :=
  if 16 ≤ f.entries.length then
    let s := (s.putB d.ovf true).sat d.dropped
    (if d.both then s.limBothKind d.owner d.kind d.code (fdata d.index 0 0)
     else s.limDev d.code 0xF (fdata d.index 0 0), { f with gap := true })
  else
    let v := s.get d.view
    let r := s.readView v stamp
    let f' : StampFifo := ⟨f.entries ++ [⟨id % 65536, edge, flags, f.gap, v, stamp, r.1, r.2.1⟩], false⟩
    let s := s.put d.count f'.entries.length
    (if f.entries = [] then (match d.owner with | some n => s.raiseNiche n 65 | none => s.raisePf 9) else s, f')

/-- A read of E0 of queue f by a source: the head entry leaves, and its words E1 to E5 are latched for that source (R325, R577).
The word read, the state and the queue. -/
def State.popStamp (s : State) (src : Nat) (d : QueueDesc) (f : StampFifo) : Nat × State × StampFifo :=
  match f.entries with
  | [] => (0, s, f)
  | x :: rest =>
    let s := s.each (List.range' 1 5) (fun k t => t.latchHi src (d.word k).addr (BitVec.ofNat 32 (x.word k)))
    (x.word 0, s.put d.count rest.length, { f with entries := rest })

/-- The transmit-timestamp queue of port p. -/
def State.tsqDesc (s : State) (p : Nat) : QueueDesc :=
  ⟨TIM_TSQ_STAT_ovf p, TIM_TSQ_STAT_view p, TIM_TSQ_STAT_count p, TIM_TSQ_STAT_dropped p, TIM_TSQ_E_word p, 0x0B06, p,
    s.ethOwner p, false, 0⟩

/-- A transmit stamp of port p with its identifier (R257, R325). -/
def State.tsqPush (s : State) (p id stamp : Nat) : State :=
  let r := s.pushStamp (s.tsqDesc p) (s.tim.tsq.getD p .empty) id stamp false 0
  { r.1 with tim := { r.1.tim with tsq := r.1.tim.tsq.set p r.2 } }

/-- The queue of TIN i. -/
def State.tinDesc (s : State) (i : Nat) : QueueDesc :=
  ⟨TIM_TIN_STAT_ovf i, TIM_TIN_STAT_view i, TIM_TIN_STAT_count i, TIM_TIN_STAT_dropped i, TIM_TIN_E_word i, 0x0B07, i,
    s.tinOwner i, true, 0⟩

/-- TIN i. -/
def State.tin (s : State) (i : Nat) : Tin := s.tim.tins.getD i ⟨.empty, 0, none⟩
def State.setTin (s : State) (i : Nat) (x : Tin) : State :=
  { s with tim := { s.tim with tins := s.tim.tins.set i x } }

/-! ### TOUT schedules (R328 to R331) -/

/-- D before it is cut to 40 bits: the reading of a view less a target, the seconds modulo 2⁴⁸. -/
def viewDiff (r : Nat × Nat × Nat) (ts tns : Nat) : Int :=
  toSigned 48 ((r.1 + 2 ^ 48 - ts % 2 ^ 48) % 2 ^ 48) * 1000000000 + ((r.2.1 : Int) - tns)

/-- D as the compare takes it: a signed 40-bit value. -/
def viewD (r : Nat × Nat × Nat) (ts tns : Nat) : Int := toSigned 40 (ofSigned 40 (viewDiff r ts tns))

/-- D of a target in view v now. -/
def State.dNow (s : State) (v ts tns : Nat) : Int := viewD (s.readView v (s.stampAt 0)) ts tns

/-- A target moved on by n nanoseconds. -/
def moveTarget (ts tns n : Nat) : Nat × Nat := ((ts + (tns + n) / 1000000000) % 2 ^ 48, (tns + n) % 1000000000)

/-- TOUT k. -/
def State.toutAt (s : State) (k : Nat) : Tout := s.tim.touts.getD k ⟨none, none, none, none, false⟩
def State.setTout (s : State) (k : Nat) (x : Tout) : State :=
  (s.putB (TIM_TOUT_STAT_armed k) x.armed.isSome) |>
    fun t => { t with tim := { t.tim with touts := t.tim.touts.set k x } }

/-- TOUT k and TIN i carry something: the accepted image's PINMUX enables them (R18; spec/03, "Points that PINMUX leaves disabled
carry nothing"). -/
def State.toutOn (s : State) (k : Nat) : Bool := s.device.any (fun d => bit d.tout k)
def State.tinOn (s : State) (i : Nat) : Bool := s.device.any (fun d => bit d.tin i)

/-- The ball of TOUT k takes a level, its edge placed at this instant less TIM_TOUTk_DELAY (R329; assumption 62, DEDUCED). -/
def State.drive (s : State) (k : Nat) (b : Bool) : State :=
  if s.toutOn k then
    (s.setTout k { s.toutAt k with ball := b }).send (.tout k b (s.getS (TIM_TOUT_DELAY_delay k)))
  else s

/-! ### The calendar (R333, R334) -/

/-- A rendered instant. -/
structure Cal where
  year : Int
  month : Int
  day : Int
  wday : Int
  hour : Int
  minute : Int
  second : Int
  /-- Days since 1970-01-01. -/
  days : Int
  deriving DecidableEq, Repr

/-- Days since 1970-01-01 of a proleptic Gregorian date (R333). -/
def daysOf (year month day : Int) : Int :=
  let y := if month ≤ 2 then year - 1 else year
  let m := if month ≤ 2 then month + 9 else month - 3
  let era := y / 400
  let yoe := y - 400 * era
  let doy := (153 * m + 2) / 5 + day - 1
  let doe := 365 * yoe + yoe / 4 - yoe / 100 + doy
  146097 * era + doe - 719468

/-- Year, month and day of a number of days since 1970-01-01: the inverse of `daysOf`. -/
def civilOf (days : Int) : Int × Int × Int :=
  let z := days + 719468
  let era := z / 146097
  let doe := z % 146097
  let yoe := (doe - doe / 1460 + doe / 36524 - doe / 146096) / 365
  let doy := doe - (365 * yoe + yoe / 4 - yoe / 100)
  let mp := (5 * doy + 2) / 153
  let m := if mp < 10 then mp + 3 else mp - 9
  (yoe + 400 * era + (if m ≤ 2 then 1 else 0), m, doy - (153 * mp + 2) / 5 + 1)

/-- The rendering of u seconds since 1970-01-01 without leap seconds. -/
def calOf (u : Int) : Cal :=
  let d := u / 86400
  let t := u % 86400
  let c := civilOf d
  ⟨c.1, c.2.1, c.2.2, (d + 3) % 7 + 1, t / 3600, t / 60 % 60, t % 60, d⟩

/-- Offset that TAI second t is rendered with, and whether it is the inserted second (R334). -/
def todOffset (x : TodBody) (t : Int) : Int × Bool :=
  if x.leap61 then (if t = x.leapTai - 1 then (x.utc, true) else if (x.leapTai : Int) ≤ t then (x.utc + 1, false)
    else (x.utc, false))
  else if x.leap59 ∧ (x.leapTai : Int) ≤ t then (x.utc - 1, false)
  else (x.utc, false)

/-- The TIME_OF_DAY whose fields the calendar uses; zeros before one is accepted. -/
def State.todOrZero (s : State) : TodBody := s.tim.tod.getD ⟨0, 0, 0, 0, false, false, false, 0, 0⟩

/-- TAI second t rendered in UTC plus a number of seconds (R333, R334, R332). -/
def State.render (s : State) (t : Nat) (local_ : Int) : Cal :=
  let o := todOffset s.todOrZero t
  if o.2 then { calOf ((t : Int) - o.1 - 1 + local_) with second := 60 } else calOf ((t : Int) - o.1 + local_)

/-- A rendering that reads as valid (R333). -/
def Cal.valid (c : Cal) : Bool := decide (2000 ≤ c.year) && decide (c.year ≤ 2399)

/-- Length of a month (R333). -/
def monthDays (year month : Int) : Int :=
  if month = 2 then daysOf year 3 1 - daysOf year 2 1
  else if month = 4 ∨ month = 6 ∨ month = 9 ∨ month = 11 then 30 else 31

/-- The TAI second that renders as u seconds since 1970-01-01 (second 59 of the day where it is 23:59:60), or none where
no second does (R336). -/
def taiOf (x : TodBody) (u : Int) (sixty : Bool) : Option Int :=
  if sixty then (if x.leap61 && decide (u + 1 = (x.leapTai : Int) - 1 - x.utc) then some (x.leapTai - 1) else none)
  else if x.leap61 ∧ (x.leapTai : Int) - 1 ≤ u + x.utc then some (u + x.utc + 1)
  else if x.leap59 ∧ (x.leapTai : Int) ≤ u + x.utc - 1 then some (u + x.utc - 1)
  else if x.leap59 ∧ (x.leapTai : Int) ≤ u + x.utc then none
  else some (u + x.utc)

/-! ### IRIG-B (R332) -/

/-- Time quality is 0. -/
def State.timeGood (s : State) : Bool := s.on GLB_SERVICE_v0_trace && s.on TIM_STATUS_srv0_locked

/-- n bits of v, least significant first. -/
def lsbBits (n v : Nat) : List Nat := (List.range n).map (fun i => v / 2 ^ i % 2)

/-- The 100 symbols of the frame that marks TAI second t on TOUT k: 0, 1, and 2 for a position marker. The layout is that
of format B004 with the control functions of IEEE C37.118.1. -/
def State.irigFrame (s : State) (k t : Nat) : List Nat :=
  let loc : Int := toSigned 8 (s.get (TIM_TOUT_CFG_local k))
  let c := s.render t (loc * 900)
  let doy := (c.days - daysOf c.year 1 1 + 1).toNat
  let sec := c.second.toNat
  let min := c.minute.toNat
  let hr := c.hour.toNat
  let yr := (c.year % 100).toNat
  let x := s.todOrZero
  let near := decide ((t : Int) < x.leapTai) && decide ((x.leapTai : Int) - t ≤ 60) && (x.leap61 || x.leap59)
  let off := loc.natAbs / 2 -- half hours
  let cf1 := [bitNat near, bitNat (near && x.leap59), 0, 0, bitNat (decide (0 < loc))] ++ lsbBits 4 (off / 2)
  let q := if s.timeGood then 0 else 15
  let plain := s.on (TIM_TOUT_CFG_b000 k)
  let cfz := fun (l : List Nat) => if plain then l.map (fun _ => 0) else l
  let yr := if plain then 0 else yr
  let head := [2] ++ lsbBits 4 (sec % 10) ++ [0] ++ lsbBits 3 (sec / 10) ++ [2] ++
    lsbBits 4 (min % 10) ++ [0] ++ lsbBits 3 (min / 10) ++ [0, 2] ++
    lsbBits 4 (hr % 10) ++ [0] ++ lsbBits 2 (hr / 10) ++ [0, 0, 2] ++
    lsbBits 4 (doy % 10) ++ [0] ++ lsbBits 4 (doy / 10 % 10) ++ [2] ++ lsbBits 2 (doy / 100) ++
    [0, 0, 0, 0, 0, 0, 0, 2] ++ lsbBits 4 (yr % 10) ++ [0] ++ lsbBits 4 (yr / 10) ++ [2] ++
    cfz cf1 ++ [2] ++ cfz ([off % 2] ++ lsbBits 4 q)
  let par := ((head.filter (fun b => b == 1)).length + 1) % 2
  let sbs := (c.hour * 3600 + c.minute * 60 + c.second).toNat
  head ++ cfz [par] ++ [0, 0, 0, 2] ++ lsbBits 9 sbs ++ [2] ++ lsbBits 8 (sbs / 512) ++ [0, 2]

/-! ### Traceability (Table 1.7, R23) -/

/-- s with GLB_SERVICE.v0_trace as Table 1.7 has it: ranged, a twin-colour result since the last acquisition, a TIME_OF_DAY
received. A paired wing shows its face's (R192). -/
def State.syncTrace (s : State) : State :=
  if s.isWing then s
  else s.putB GLB_SERVICE_v0_trace (s.usl.eqdSet && s.act.traceTwin && s.tim.tod.isSome)

/-! ### PTP (R321 to R323) -/

/-- Offset of the PTP header in a frame that the service can take on port p: layer 2, or UDP/IPv4 where it is the
transport. -/
def State.ptpHeader (s : State) (f : List Byte) : Option Nat :=
  let at_ := if beAt f 12 2 = 0x8100 then 16 else 12
  if beAt f at_ 2 = 0x88F7 then some (at_ + 2)
  else if beAt f at_ 2 = 0x0800 ∧ s.on TIM_PTP_CFG_udp ∧ s.get TIM_PTP_CFG_profile = 0 ∧ byteAt f (at_ + 11) = 17 then
    let u := at_ + 2 + 4 * (byteAt f (at_ + 2) % 16)
    if beAt f (u + 2) 2 = 319 ∨ beAt f (u + 2) 2 = 320 then some (u + 8) else none
  else none

/-- Message type of a PTP message. -/
def ptpType (m : List Byte) : Nat := byteAt m 0 % 16

/-- Port p runs the service (R321). -/
def State.ptpPort (s : State) (p : Nat) : Bool :=
  s.on TIM_PTP_CFG_en && (s.ownerWith (fun x => bit x.ptp p)).isSome

/-- The service takes frame f from port p. -/
def State.ptpTakes (s : State) (p : Nat) (f : List Byte) : Bool :=
  s.ptpPort p && (match s.ptpHeader f with
    | some h => byteAt f (h + 4) == s.get TIM_PTP_CFG_domain
    | none => false)

/-- The condition of clockClass 6 (R323). -/
def State.class6Holds (s : State) : Bool := s.timeGood && s.todOrZero.gm == 6

/-- clockClass as the service advertises it (R323). -/
def State.clockClass (s : State) : Nat :=
  if s.class6Holds then 6
  else match s.tim.class6 with
    | some t => if s.clk < t + s.get TIM_PTP_CFG_hold_s * sec then 7 else 52
    | none => 248

end Sys2Proof.Machine
end

