-- ==== Sys2Proof/Machine/Loops.lean ====
section
/-!
DEFINITION. The adaptive loops and their envelopes (R107 to R111): threshold, APD, the four laser loops
(R142) and the mesh CCA loop (R358).
-/

namespace Sys2Proof.Machine

open Sys2Proof

/-- Where a loop keeps its envelope, output and flags, and the codes it logs. -/
structure LoopDesc where
  hi : Field
  lo : Field
  out : Field
  conv : Field
  pinHi : Field
  pinLo : Field
  man : Field
  hold : Field
  /-- Bit of the hold field. -/
  holdBit : Nat
  /-- The output is a signed 8-bit number. -/
  signed : Bool
  pinned : Nat
  steer : Nat
  envBad : Nat
  /-- The loop's index in its records. -/
  index : Nat

/-- The seven loops: 0 threshold, 1 APD, 2 to 5 laser loops 0 to 3, 6 CCA. -/
def loopDesc (l : Nat) : LoopDesc :=
  if l = 0 then
    ⟨DSL_THR_ENV_hi, DSL_THR_ENV_lo, DSL_THR_STATUS_out, DSL_THR_STATUS_converging, DSL_THR_STATUS_pinned_hi,
      DSL_THR_STATUS_pinned_lo, DSL_THR_MAN_value, ⟨0x40180, 1, 0⟩, 0, true, 0x0307, 0x0308, 0x0309, 0⟩
  else if l = 1 then
    ⟨DSL_APD_ENV_hi, DSL_APD_ENV_lo, DSL_APD_STATUS_out, DSL_APD_STATUS_converging, DSL_APD_STATUS_pinned_hi,
      DSL_APD_STATUS_pinned_lo, DSL_APD_MAN_value, ⟨0x40180, 1, 0⟩, 1, false, 0x0307, 0x0308, 0x0309, 1⟩
  else if l = 6 then
    ⟨MSH_CCA_ENV_hi, MSH_CCA_ENV_lo, MSH_CCA_STATUS_out, MSH_CCA_STATUS_converging, MSH_CCA_STATUS_pinned_hi,
      MSH_CCA_STATUS_pinned_lo, MSH_CCA_MAN_value, MSH_CCA_CTRL_hold, 0, true, 0x0C01, 0x0C02, 0x0C03, 0⟩
  else
    let m := l - 2
    ⟨USL_LOOP_ENV_hi m, USL_LOOP_ENV_lo m, USL_LOOP_STATUS_out m, USL_LOOP_STATUS_converging m,
      USL_LOOP_STATUS_pinned_hi m, USL_LOOP_STATUS_pinned_lo m, USL_LOOP_MAN_value m, USL_LOOP_CTRL_hold, m,
      false, 0x0407, 0x0408, 0x0409, m⟩

/-- The value that n spells for a loop's output or bounds. -/
def LoopDesc.value (d : LoopDesc) (n : Nat) : Int := if d.signed then toSigned 8 n else (n : Int)

/-- Present output, lower and upper bound of a loop. -/
def State.loopOut (s : State) (d : LoopDesc) : Int := d.value (s.get d.out)
def State.loopLo (s : State) (d : LoopDesc) : Int := d.value (s.get d.lo)
def State.loopHi (s : State) (d : LoopDesc) : Int := d.value (s.get d.hi)

/-- The pattern of an output value. -/
def LoopDesc.pattern (d : LoopDesc) (v : Int) : Nat := if d.signed then ofSigned 8 v else v.toNat

/-- The loop is held by its hold bit. -/
def State.loopHeld (s : State) (d : LoopDesc) : Bool := s.marked d.hold d.holdBit

/-- Laser-driver register that takes the output of loop l (Table 18.2): the APD and laser loops. -/
def loopDriver (l : Nat) : Option Nat :=
  if l = 1 then some 0x20 else if 2 ≤ l ∧ l ≤ 5 then some (0x10 + (l - 2)) else none

/-- Output v: the log of a bound is rearmed once the output has left it (R107; assumption 90, PRESUMED). -/
def State.setOut (s : State) (l : Nat) (d : LoopDesc) (v : Int) : State :=
  let s := s.put d.out (d.pattern v)
  let s := match loopDriver l with
    | some r => s.send (.bus 0x58 r (beBytes 2 v.toNat))
    | none => s
  let p := s.dsl.pinned.filter (fun k =>
    if k == 2 * l then v == s.loopLo d else if k == 2 * l + 1 then v == s.loopHi d else true)
  { s with dsl := { s.dsl with pinned := p } }

/-- The output stays at a bound (side 0 lo, 1 hi) that the loop would pass: its pinned bit is set and
LOOP_PINNED is logged, once until the loop leaves the bound (R107). -/
def State.pin (s : State) (l : Nat) (d : LoopDesc) (side : Nat) : State :=
  let s := (s.putB d.pinHi (side == 1)).putB d.pinLo (side == 0)
  if s.dsl.pinned.contains (2 * l + side) then s
  else
    ({ s with dsl := { s.dsl with pinned := s.dsl.pinned ++ [2 * l + side] } }.logDev d.pinned 0xF
      (fdata d.index side 0)).when (l == 6) (fun t => t.raisePf 11)

/-- A record of loop l: those of the CCA loop raise PF vector 11 (R368). -/
def State.loopLog (s : State) (l code data : Nat) : State :=
  (s.logDev code 0xF data).when (l == 6) (fun t => t.raisePf 11)

/-- No bound holds the output back. -/
def State.unpin (s : State) (d : LoopDesc) : State := (s.putB d.pinHi false).putB d.pinLo false

/-- One step of loop l that wants to move by want (-1, 0 or 1). An output outside its envelope slews toward
the nearer bound whether or not the loop is held (R109); a held loop keeps its output (R110); a running one
moves inside its envelope (R107). -/
def State.loopStep (s : State) (l : Nat) (want : Int) (held : Bool) : State :=
  let d := loopDesc l
  let o := s.loopOut d
  let lo := s.loopLo d
  let hi := s.loopHi d
  if o < lo then (s.setOut l d (o + 1)).putB d.conv (decide (o + 1 < lo))
  else if hi < o then (s.setOut l d (o - 1)).putB d.conv (decide (hi < o - 1))
  else
    let s := s.putB d.conv false
    if held || s.loopHeld d then s
    else if want > 0 then if o = hi then s.pin l d 1 else (s.unpin d).setOut l d (o + 1)
    else if want < 0 then if o = lo then s.pin l d 0 else (s.unpin d).setOut l d (o - 1)
    else s.unpin d

/-- The present output lies outside the envelope. -/
def State.loopOutside (s : State) (d : LoopDesc) : Bool :=
  decide (s.loopOut d < s.loopLo d) || decide (s.loopHi d < s.loopOut d)

/-- A write to the register at address a of loop l, of which the EVT-7401 lacks the CCA loop (R3). -/
def State.ifLoop (s : State) (l a : Nat) (f : State → State) : State := if l = 6 then s.ifPresent a f else f s

/-- LOOP_ENV_WRITE (R108, R109): an envelope with lo above hi is refused as ENV_BAD and the old one stays;
otherwise it takes effect, and an output that it excludes converges. -/
def execLoopEnvWrite (loop : Fin 7) (data : Word) (s : State) : Host.Outcome State Fault Refusal :=
  let d := loopDesc loop.val
  let hi := bits data.toNat d.hi.hi d.hi.lo
  let lo := bits data.toNat d.lo.hi d.lo.lo
  .next (s.ifLoop loop.val d.hi.addr (fun s =>
    if d.value hi < d.value lo then s.loopLog loop.val d.envBad (fdata d.index 0 0)
    else
      let s := (s.put d.hi hi).put d.lo lo
      let s := s.setOut loop.val d (s.loopOut d)
      s.putB d.conv (s.loopOutside d)))

/-- LOOP_MAN_WRITE (R110): accepted only while the loop is held by its hold bit and the value lies inside the envelope; of a
signed loop the low 8 bits of the value count (assumption 97, DESIGN CHOICE). -/
def execLoopManWrite (loop : Fin 7) (data : Word) (s : State) : Host.Outcome State Fault Refusal :=
  let d := loopDesc loop.val
  let n := bits data.toNat d.man.hi d.man.lo
  let v := d.value n
  .next (s.ifLoop loop.val d.man.addr (fun s =>
    if s.loopHeld d && decide (s.loopLo d ≤ v) && decide (v ≤ s.loopHi d) then (s.put d.man n).setOut loop.val d v
    else s.loopLog loop.val d.steer (fdata d.index 0 0)))

/-- LOOP_HOLD_WRITE (R110): a hold bit holds the loop at its output, or releases it from there. -/
def execLoopHoldWrite (loop : Fin 7) (hold : Bool) (s : State) : Host.Outcome State Fault Refusal :=
  let d := loopDesc loop.val
  .next (s.ifLoop loop.val d.hold.addr (fun s => if hold then s.mark d.hold d.holdBit else s.unmark d.hold d.holdBit))

/-- THRESHOLD_LOOP_STEP (R107, R111): the counts of the multiframe are compared and the threshold moves one
step; the loop holds itself while LOS, LOL or LOF is raw. -/
def execThresholdLoopStep (s : State) : Host.Outcome State Fault Refusal :=
  let want : Int :=
    if s.dsl.fell + 8 < s.dsl.rose then -1 else if s.dsl.rose + 8 < s.dsl.fell then 1 else 0
  let s := s.loopStep 0 want s.lineDown
  .next { s with dsl := { s.dsl with rose := 0, fell := 0 } }

end Sys2Proof.Machine
end

