-- ==== Sys2Proof/Machine/Rs.lean ====
section
/-!
DEFINITION. The line bytes of a downstream frame as the receiver takes them apart (R73 to R77): descrambling, the codewords and
their Reed–Solomon decoder.
-/

namespace Sys2Proof.Machine

open Sys2Proof

/-! ### Polynomials over GF(2⁸), lowest power first -/

/-- The inverse of a, a to the power 254. -/
def gfInv (a : Nat) : Nat := (List.range 253).foldl (fun r _ => gfMul r a) a

/-- The value of p at x. -/
def gfEval (p : List Nat) (x : Nat) : Nat := p.foldr (fun c r => c ^^^ gfMul r x) 0

/-- p + q. -/
def gfAdd : List Nat → List Nat → List Nat
  | [], q => q
  | p, [] => p
  | a :: p, b :: q => (a ^^^ b) :: gfAdd p q

/-- c · xᵐ · p. -/
def gfShifted (c m : Nat) (p : List Nat) : List Nat := List.replicate m 0 ++ p.map (gfMul c)

/-- The first n coefficients of p · q. -/
def gfProduct (n : Nat) (p q : List Nat) : List Nat :=
  ((p.zipIdx).foldl (fun a x => gfAdd a (gfShifted x.1 x.2 q)) []).take n

/-- The derivative of p. -/
def gfDerive (p : List Nat) : List Nat := ((p.drop 1).zipIdx).map (fun x => if x.2 % 2 = 0 then x.1 else 0)

/-! ### The decoder (R75) -/

/-- The 16 syndromes of a word, whose first byte is the coefficient of the highest power. -/
def rsSyndromes (w : List Nat) : List Nat :=
  (List.range 16).map (fun i => let a := gfPow i; w.foldl (fun r c => gfMul r a ^^^ c) 0)

/-- Where the search for the error locator stands (Berlekamp and Massey): the locator, its degree, and the last locator of a
lower degree with its discrepancy and age. -/
structure Locator where
  poly : List Nat
  deg : Nat
  prev : List Nat
  disc : Nat
  age : Nat
  deriving DecidableEq, Repr

/-- The locator after syndrome n. -/
def Locator.next (syn : List Nat) (l : Locator) (n : Nat) : Locator :=
  let d := (List.range (l.deg + 1)).foldl (fun a i => a ^^^ gfMul (l.poly.getD i 0) (syn.getD (n - i) 0)) 0
  if d = 0 then { l with age := l.age + 1 }
  else
    let p := gfAdd l.poly (gfShifted (gfMul d (gfInv l.disc)) l.age l.prev)
    if 2 * l.deg ≤ n then ⟨p, n + 1 - l.deg, l.poly, d, 1⟩ else { l with poly := p, age := l.age + 1 }

/-- The error locator of 16 syndromes. -/
def rsLocator (syn : List Nat) : Locator := (List.range 16).foldl (Locator.next syn) ⟨[1], 0, [1], 1, 1⟩

/-- α to the power −j. -/
def gfNegPow (j : Nat) : Nat := gfPow ((255 - j % 255) % 255)

/-- The value of the error at power j of x (Forney). -/
def rsError (syn : List Nat) (l : List Nat) (j : Nat) : Nat :=
  let x := gfNegPow j
  gfMul (gfPow (j % 255)) (gfMul (gfEval (gfProduct 16 syn l) x) (gfInv (gfEval (gfDerive l) x)))

/-- A 240-byte codeword as the decoder gives it: the codeword within 8 symbol errors of w, or none where there is none. -/
def rsDecode (w : List Byte) : Option (List Byte) :=
  let v := w.map (fun b => b.toNat)
  let syn := rsSyndromes v
  if syn.all (· == 0) then some w
  else
    let l := rsLocator syn
    let at_ := (List.range 240).filter (fun j => gfEval l.poly (gfNegPow j) == 0)
    if 8 < l.deg ∨ at_.length ≠ l.deg then none
    else
      let c := at_.foldl (fun (u : List Nat) j => u.modify (239 - j) (fun b => b ^^^ rsError syn l.poly j)) v
      if (rsSyndromes c).all (· == 0) then some (c.map (BitVec.ofNat 8)) else none

/-! ### The frame (R73, R74, R76) -/

/-- The line bytes of a frame descrambled, or scrambled: the marker is not (R76). -/
def descrambled (line : List Byte) : List Byte := line.take 8 ++ scramble (line.drop 8)

/-- Bits that change from a to b: those that rise, and those that fall. -/
def bitMoves (a b : List Byte) : Nat × Nat :=
  (List.zip a b).foldl (fun n x => (n.1 + popCount 8 ((~~~ x.1) &&& x.2).toNat, n.2 + popCount 8 (x.1 &&& (~~~ x.2)).toNat)) (0, 0)

/-- A frame as it is taken from the line: its data bytes, the numbers of its uncorrectable codewords, and the counts of the
decoder. -/
structure LineFrame where
  data : List Byte
  marked : List Nat
  fec : FecCount
  deriving DecidableEq, Repr

/-- The frame after codeword k of its descrambled bytes b, with the line bytes l: an uncorrectable codeword is passed on as it is
and marked (R77). The direction of a correction is that of the line bit (assumption 91, DESIGN CHOICE). -/
def LineFrame.take (l b : List Byte) (f : LineFrame) (k : Nat) : LineFrame :=
  let w := fitBytes 240 ((b.drop (240 * k)).take 240)
  match rsDecode w with
  | none => { f with data := f.data ++ w.take 224, marked := f.marked ++ [k], fec := { f.fec with bad := f.fec.bad + 1 } }
  | some c =>
    let raw := fitBytes 240 ((l.drop (240 * k)).take 240)
    let n := bitMoves raw (xorBytes raw (xorBytes w c))
    { f with data := f.data ++ c.take 224,
             fec := { f.fec with words := f.fec.words + bitNat (w != c), rose := f.fec.rose + n.1, fell := f.fec.fell + n.2 } }

/-- The frame that 155,520 line bytes hold (R73 to R77). -/
def lineFrame (line : List Byte) : LineFrame :=
  (List.range 648).foldl (LineFrame.take line (descrambled line)) ⟨[], [], ⟨0, 0, 0, 0⟩⟩

end Sys2Proof.Machine
end

