-- ==== Sys2Proof/Machine/Dsl.lean ====
section
/-!
DEFINITION. The downstream line (spec/04_downstream_frames.md): frame and counter alignment, defects, the map
and its messages, key epochs and the flow tables.
-/

namespace Sys2Proof.Machine

open Sys2Proof

/-! ### Alignment (Tables 4.2 and 4.3, R81, R584) -/

/-- The frame marker. -/
def frameMarker : Nat := 0xB6AB31E0C4A95D27

/-- A 64-bit window matches the marker within marker_err bits. -/
def State.markerMatch (s : State) (w : BitVec 64) : Bool :=
  decide (popCount 64 (w.toNat ^^^ frameMarker) ≤ s.get DSL_ALIGN_CFG_marker_err)

/-- LOF and LOM as the machines now give them (Table 4.7). -/
def State.alignRaw (s : State) : State :=
  let sync := s.get DSL_STATUS_frame == 2
  let raw := s.get DSL_DEFECT_raw
  let raw := if sync then clrBit raw 2 else setBit raw 2
  s.lineRaw (if sync && !s.on DSL_STATUS_cnt_sync then setBit raw 3 else clrBit raw 3)

/-- The counter machine in state CNT_SYNC or CNT_HUNT. -/
def State.setCnt (s : State) (b : Bool) : State :=
  let was := s.aligned
  ((s.putB DSL_STATUS_cnt_sync b).alignRaw).verdict was

/-- The frame machine in a state of Table 4.10. Leaving SYNC takes the counter to CNT_HUNT and spoils the
windows in progress (R104). -/
def State.setFrame (s : State) (f : Nat) : State :=
  let was := s.aligned
  let left := s.get DSL_STATUS_frame == 2 && f != 2
  let s := s.put DSL_STATUS_frame f
  let s := { s with dsl := { s.dsl with run := 0 } }
  let s := if left then
      { s.putB DSL_STATUS_cnt_sync false with
        dsl := { s.dsl with held := none, cand := none, uncor := 0, sfValid := false, sdValid := false } }
    else if f = 0 then { s with dsl := { s.dsl with held := none } } else s
  s.alignRaw.verdict was

/-- MARKER_WINDOW_CHECK (Table 4.2, R81, R584): the window one frame after the expected marker position; a match in SYNC
reports that position. -/
def execMarkerWindowCheck (window : BitVec 64) (s : State) : Host.Outcome State Fault Refusal :=
  let hit := s.markerMatch window
  let s := { s with dsl := { s.dsl with ended := false, mark := s.dsl.mark || (hit && s.get DSL_STATUS_frame == 2) } }
  let run := { s with dsl := { s.dsl with run := s.dsl.run + 1 } }
  .next (match s.get DSL_STATUS_frame with
    | 1 => if !hit then s.setFrame 0
           else if s.dsl.run + 1 ≥ s.get DSL_ALIGN_CFG_presync_n then s.setFrame 2 else run
    | 2 => if hit then { s with dsl := { s.dsl with run := 0 } }
           else if s.dsl.run + 1 ≥ s.get DSL_ALIGN_CFG_loss_n then s.setFrame 0 else run
    | _ => s)

/-- HUNT_MARKER_MATCH (Table 4.2): a match at any bit position while hunting fixes the marker position. -/
def execHuntMarkerMatch (window : BitVec 64) (s : State) : Host.Outcome State Fault Refusal :=
  if s.get DSL_STATUS_frame == 0 && s.on DSL_CTRL_rx_en && s.get DSL_DEFECT_raw % 4 == 0 &&
      s.markerMatch window then .next (s.setFrame 1)
  else .next s

/-- The counts that the FEC decoder reports for a frame, with the windows they enter (R104; assumption 91,
DESIGN CHOICE). -/
def State.countFec (s : State) (c : FecCount) : State :=
  let n := c.rose + c.fell
  let s := ((s.satBy (DSL_CNT_count 0) c.words).satBy (DSL_CNT_count 1) n).satBy (DSL_CNT_count 2) c.bad
  { s with dsl := { s.dsl with
    sfBits := s.dsl.sfBits + n, sfUncor := s.dsl.sfUncor + c.bad, sdBits := s.dsl.sdBits + n,
    rose := s.dsl.rose + c.rose, fell := s.dsl.fell + c.fell } }

/-- The counter v is adopted. -/
def State.adoptCount (s : State) (v : Nat) : State :=
  { s with dsl := { s.dsl with count := v % 2 ^ 51, held := none, cand := none, uncor := 0 } }

/-- A counter block in CNT_HUNT: the second of two consecutive valid blocks is adopted. -/
def State.countHunt (s : State) (v : Option Nat) : State :=
  match v, s.dsl.held with
  | some v, some h =>
    if v = (h + 1) % 2 ^ 51 then (s.adoptCount v).setCnt true
    else { s with dsl := { s.dsl with held := some v } }
  | some v, none => { s with dsl := { s.dsl with held := some v } }
  | none, _ => { s with dsl := { s.dsl with held := none } }

/-- A counter block in CNT_SYNC (Table 4.3, R584; assumption 91, DESIGN CHOICE). -/
def State.countSync (s : State) (v : Option Nat) : State :=
  let pred := (s.dsl.count + 1) % 2 ^ 51
  match v with
  | some v =>
    if s.dsl.cand.map (fun c => (c + 1) % 2 ^ 51) = some v ∧ v ≠ pred then
      let s := (s.adoptCount v).sat (DSL_CNT_count 19)
      let s := { s with dsl := { s.dsl with sfValid := false, sdValid := false } }
      s.logDev 0x0302 0xF 0
    else
      { s with dsl := { s.dsl with count := pred, uncor := 0, cand := if v = pred then none else some v } }
  | none =>
    let s := { s with dsl := { s.dsl with count := pred, cand := none, uncor := s.dsl.uncor + 1 } }
    if s.dsl.uncor ≥ 8 then
      { s with dsl := { s.dsl with uncor := 0, held := none } }.setCnt false
    else s

/-- The line bytes of a frame are descrambled and decoded (R73 to R77): its data bytes stand for the phases and fragments that
follow, and the counts of the decoder enter their windows. -/
def State.tookLine (s : State) (line : List Byte) : State :=
  let f := lineFrame line
  { s with dsl := { s.dsl with data := f.data, marked := f.marked, pos := none, index := 0 } }.countFec f.fec

/-- The counter block b under HEC (R79), counted: its counter, where it is valid. One in an uncorrectable codeword is judged
like any other (R83, R112). -/
def State.judgeCounter (s : State) (b : Nat) : State × Option Nat :=
  match hecDecode b with
  | some (v, true) => (s.sat (DSL_CNT_count 3), some v)
  | some (v, false) => (s, some v)
  | none => (s.sat (DSL_CNT_count 4), none)

/-- A counter block drives the counter machine; one of a frame whose marker matched in PRESYNC is held (R584). A wing takes its
counter from its face (R190). -/
def State.counted (s : State) (v : Option Nat) : State :=
  if s.isWing then s
  else if s.get DSL_STATUS_frame = 1 then { s with dsl := { s.dsl with held := v } }
  else if s.on DSL_STATUS_cnt_sync then s.countSync v else s.countHunt v

/-- COUNTER_BLOCK (R73 to R79, R584): the line bytes of the frame are taken, and its counter block is judged under HEC and drives
the counter machine. In HUNT there is no frame. -/
def execCounterBlock (line : List Byte) (s : State) : Host.Outcome State Fault Refusal :=
  let f := s.get DSL_STATUS_frame
  .next (if f = 0 then s
    else
      let s := s.tookLine line
      if f = 2 ∨ s.dsl.run > 0 then
        let r := s.judgeCounter (beAt s.dsl.data 8 8)
        r.1.counted r.2
      else s)

/-! ### Line defects (R104 to R106) -/

/-- LOS_RAW: LN_LOS held for 2 µs or released for 125 µs. A raw LOS takes the frame machine to HUNT. -/
def execLosRaw (asserted : Bool) (s : State) : Host.Outcome State Fault Refusal :=
  let s := s.setRaw 0 asserted
  .next (if asserted then s.setFrame 0 else s)

/-- Raw LOL changes; a raw LOL takes the frame machine to HUNT. -/
def State.lolRaw (s : State) (unlocked : Bool) : State :=
  let s := s.setRaw 1 unlocked
  if unlocked then s.setFrame 0 else s

/-- The thresholds of R105. -/
def State.sfThreshold (s : State) : Nat := ceilDiv 19906560 (10 ^ s.get DSL_BER_CFG_sf_exp)
def State.sdThreshold (s : State) : Nat := ceilDiv 10192158720 (10 ^ s.get DSL_BER_CFG_sd_exp)

/-- The multiframe window ends: SF is entered or left (Table 4.7). A window that is not evaluated does not break a run of clean
ones (assumption 96, DESIGN CHOICE). -/
def State.sfWindow (s : State) : State :=
  let t := s.sfThreshold
  let enter := decide (t ≤ s.dsl.sfBits) || decide (16 ≤ s.dsl.sfUncor)
  let clean := decide (10 * s.dsl.sfBits < t) && s.dsl.sfUncor == 0
  let n := if clean then s.dsl.sfClean + 1 else 0
  let s := { s with dsl := { s.dsl with sfClean := n } }
  if enter then s.setRaw 4 true else if n ≥ 2 then s.setRaw 4 false else s

/-- The key-epoch window ends: SD is entered or left. -/
def State.sdWindow (s : State) : State :=
  let t := s.sdThreshold
  if t ≤ s.dsl.sdBits then s.setRaw 5 true else if 10 * s.dsl.sdBits < t then s.setRaw 5 false else s

/-- BER_WINDOW_END (R104): a window that alignment or a counter jump spoiled is not evaluated. -/
def execBerWindowEnd (epoch : Bool) (s : State) : Host.Outcome State Fault Refusal :=
  let sync := s.get DSL_STATUS_frame == 2
  if epoch then
    let s := if s.dsl.sdValid then s.sdWindow else s
    .next { s with dsl := { s.dsl with sdBits := 0, sdValid := sync } }
  else
    let s := if s.dsl.sfValid then s.sfWindow else s
    .next { s with dsl := { s.dsl with sfBits := 0, sfUncor := 0, sfValid := sync } }

/-! ### The map (Tables 4.1, 4.4, 4.5, R82 to R87, R582) -/

/-- None of the n data bytes from data byte d lies in an uncorrectable codeword (R74, R77). -/
def goodBytes (bad : List Nat) (d n : Nat) : Bool :=
  !bad.any (fun k => decide (d / 224 ≤ k) && decide (k ≤ (d + n - 1) / 224))

/-- The AID names one of the terminal's allocations (R85). -/
def State.ownAid (s : State) (aid : Nat) : Bool :=
  (List.range 64).any (fun n => s.on (USL_ALLOC_valid n) && s.get (USL_ALLOC_aid n) == aid)

/-- The terminal takes an entry that carries this AID (R82, R85). -/
def State.takesAid (s : State) (aid : Nat) : Bool :=
  (decide (aid < 0xF00) && s.ownAid aid) || aid == 0xFFF ||
    (s.on ACT_STATUS_tn_valid && aid == 0xF00 + s.get ACT_STATUS_tn)

/-- The grant entry that 8 bytes spell (Table 4.4). -/
def grantOf (e : Nat) : MapGrant :=
  { aid := bits e 63 52, start := bits e 51 38, size := bits e 37 24, report := bit e 23,
    longLead := bit e 22, colour := bits e 21 21, fec := bit e 20, msgOk := bit e 19,
    cls := bits e 18 17, ranging := bit e 16 }

/-- Entry i of the map is passed on, or discarded and counted (R84, R85). -/
def State.takeGrant (s : State) (map : List Byte) (bad : List Nat) (i : Nat) : State :=
  let b := (map.drop (4 + 8 * i)).take 8
  let g := grantOf (beAt b 0 8)
  if crc8 (b.take 7) ≠ byteAt b 7 ∨ !goodBytes bad (20 + 8 * i) 8 ∨ g.start + g.size > 9720 then
    s.sat (DSL_CNT_count 6)
  else if s.takesAid g.aid then { s with dsl := { s.dsl with grants := s.dsl.grants ++ [g] } } else s

/-- Byte 0 of a message addresses this terminal (R86). -/
def State.addressed (s : State) (a : Nat) : Bool :=
  a == 0xFF || a == 0xFE || (s.on ACT_STATUS_tn_valid && a == s.get ACT_STATUS_tn)

/-- Message j of a map with G entries is released, skipped, or discarded and counted (R86; assumption 77, DEDUCED). -/
def State.takeMsg (s : State) (map : List Byte) (bad : List Nat) (g j : Nat) : State :=
  let m := (map.drop (4 + 8 * g + 48 * j)).take 48
  let t := byteAt m 1
  if !fcsGood m || !goodBytes bad (20 + 8 * g + 48 * j) 48 || t == 0 || decide (0x0B < t) then
    s.sat (DSL_CNT_count 7)
  else if s.addressed (byteAt m 0) then
    { s with dsl := { s.dsl with msgs := s.dsl.msgs ++ [LineMsg.mk m] } }.sat (DSL_CNT_count 8)
  else s

/-- The map header is invalid (R83). -/
def mapBad (map : List Byte) (bad : List Nat) : Bool :=
  let h := beAt map 0 4
  crc8 (map.take 3) != byteAt map 3 || decide (512 < bits h 31 22) || decide (4 < bits h 21 19) || !goodBytes bad 16 4

/-- The map of a frame, from its header at data byte 16 on (R83). -/
def State.takeMap (s : State) (map : List Byte) (bad : List Nat) : State :=
  let h := beAt map 0 4
  let g := bits h 31 22
  let m := bits h 21 19
  if mapBad map bad then
    let s := (s.sat (DSL_CNT_count 5)).limDev 0x030B 0xF 0
    { s with dsl := { s.dsl with ended := true } }
  else
    let s := { s with dsl := { s.dsl with quiet := bit h 18 } }
    let s := s.each (List.range g) (fun i t => t.takeGrant map bad i)
    s.each (List.range m) (fun j t => t.takeMsg map bad g j)

/-- PHASE_MAP (R582): the map of the frame is parsed, from its header at data byte 16 on, only in a tick that is LOCKED;
otherwise it is discarded uncounted. A wing has no line of its own (Table 7.1). -/
def execPhaseMap (cycles waited : Nat) (s : State) : Host.Outcome State Fault Refusal :=
  if s.get TICK_STATUS_state = 1 ∧ s.isWing = false then
    .next ((s.takeMap (s.dsl.data.drop 16) s.dsl.marked).phaseUsedAfter 1 cycles waited)
  else .next (s.phaseUsed 1 0)

/-! ### Key epochs (R99 to R103) -/

/-- Key state of pair k. -/
def State.pair (s : State) (k : Nat) : KeyPair := s.dsl.pairs.getD k ⟨none, none, none⟩

/-- s with pair k changed by g. -/
def State.modPair (s : State) (k : Nat) (g : KeyPair → KeyPair) : State :=
  { s with dsl := { s.dsl with pairs := s.dsl.pairs.modify k g } }

/-- A KEY_EPOCH body is accepted in the frame of counter fc (R99). -/
def keyEpochGood (m : List Byte) (fc : Nat) : Bool :=
  let f := beAt m 6 7
  decide (byteAt m 4 < 32) && decide (byteAt m 5 < 2) && decide (f < 2 ^ 51) &&
    allZero ((m.drop 13).take 31) && f % 8192 == 0 && decide (fc + 2 ≤ f)

/-- A KEY_EPOCH body takes effect on the pending switch of its pair (R99, R100). -/
def State.keyEpoch (s : State) (m : List Byte) : State :=
  let k := byteAt m 4
  let p := byteAt m 5
  let f := beAt m 6 7
  if !keyEpochGood m s.tick.fc then s.logDev 0x0303 0xF 0
  else if p = s.get (DSL_KEYPAIR_parity k) then
    if (s.pair k).pending.isSome then
      (s.modPair k (fun x => { x with pending := none })).logDev 0x0304 0xF 0
    else s
  else if (s.pair k).pending = some (f, p) then s
  else
    let had := (s.pair k).pending.isSome
    let s := s.modPair k (fun x => { x with pending := some (f, p) })
    if had then s.logDev 0x0304 0xF 0 else s

/-- Parity p becomes current on pair k, the other parity retiring 16 frames after frame f (R101, R103). -/
def State.switchParity (s : State) (k p f : Nat) : State :=
  (s.put (DSL_KEYPAIR_parity k) p).modPair k (fun x =>
    { x with pending := none, implicit := none, old := some (1 - p, f) })

/-- KEY_EPOCH_SWITCH (R101, R552): at the first tick edge whose counter is F or greater. -/
def execKeyEpochSwitch (pair : Fin 32) (s : State) : Host.Outcome State Fault Refusal :=
  match (s.pair pair.val).pending with
  | some (f, p) => .next (if f ≤ s.tick.fc then s.switchParity pair.val p f else s)
  | none => .next s

/-- KEY_IMPLICIT (R103): the switch that a fragment of the other parity called for, at the next tick edge. -/
def execKeyImplicit (pair : Fin 32) (s : State) : Host.Outcome State Fault Refusal :=
  match (s.pair pair.val).implicit with
  | some p => .next ((s.switchParity pair.val p (s.tick.fc / 8192 * 8192)).sat (DSL_CNT_count 18))
  | none => .next s

/-! ### Flow tables (R113) -/

/-- The entries of a flow table as they will stand at the next tick edge. -/
def fidAfter (now : Nat → Word) (writes : List (Nat × Word)) (n : Nat) : Word :=
  match writes.reverse.find? (fun w => w.1 == n) with
  | some w => w.2
  | none => now n

/-- An entry with bit 15 set is valid; bits [31:16] are its fid. -/
def fidValid (w : Word) : Bool := bit w.toNat 15
def fidOf (w : Word) : Nat := bits w.toNat 31 16

/-- Another entry than n, as the table will stand, is valid with the fid of w. -/
def fidTaken (after : Nat → Word) (n : Nat) (w : Word) : Bool :=
  fidValid w && (List.range 1024).any (fun i => i != n && fidValid (after i) && fidOf (after i) == fidOf w)

/-- DSL_FID_WRITE (R113, Table 4.13): refused for a reserved dest or a fid already taken, otherwise queued
for the next tick edge. -/
def execDslFidWrite (n : Fin 1024) (data : Word) (s : State) : Host.Outcome State Fault Refusal :=
  let after := fidAfter (fun i => s.word (0x41000 + 4 * i)) s.dsl.fidWrites
  let w := data &&& 0xFFFFFF80
  if bits data.toNat 8 7 = 3 then .next (s.logDev 0x0309 0xF 0)
  else if fidTaken after n.val w then .next (s.logDev 0x030A 0xF 0)
  else .next { s with dsl := { s.dsl with fidWrites := s.dsl.fidWrites ++ [(n.val, w)] } }

/-! ### Rate-limited records (R542) -/

/-- The PF vector that a rate-limited record of the device log raises (R368, R397, R516, R534). -/
def limitedVector (code : Nat) : Option Nat :=
  if code ∈ [0x0D02, 0x0B09, 0x0B0A] then some 12
  else if code ∈ [0x0C09, 0x0C0A] then some 11
  else if code ∈ [0x140A, 0x140B] then some 5
  else if code = 0x1307 then some 7 else none

/-- A pending rate-limited record is written with its count, and raises its vector. -/
def State.writeLimited (s : State) (r : LimRec) : State :=
  if r.log = 16 then
    let s := s.logDevN r.code r.niche r.count r.data
    match limitedVector r.code with
    | some v => s.raisePf v
    | none => s
  else (s.logNicheN r.log r.code r.count r.data).when (limitedVector r.code == some 12 || r.code == 0x0F01)
    (fun u => u.raiseNiche r.log 64)

/-- MULTIFRAME_END (R542): every pending rate-limited record is written with its count, and raises
the vectors of R368, R397, R439, R516 or R534 (assumption 27, DESIGN CHOICE). -/
def execMultiframeEnd (s : State) : Host.Outcome State Fault Refusal :=
  let l := s.flt.limited
  let s := { s with flt := { s.flt with limited := [] } }
  .next (s.each l (fun r t => t.writeLimited r))

end Sys2Proof.Machine
end

