-- ==== Sys2Proof/Machine/Usl.lean ====
section
/-!
DEFINITION. The upstream line (spec/05_upstream_bursts_and_standing_grants.md): the burst schedule, the cut,
bursts, standing grants, the rogue guard and calibration.
-/

namespace Sys2Proof.Machine

open Sys2Proof

/-! ### Forfeits -/

/-- Forfeit causes by their counter (Table 5.17). -/
abbrev causeLock : Nat := 2
abbrev causeClash : Nat := 3
abbrev causeSafe : Nat := 4
abbrev causeState : Nat := 5
abbrev causeShift : Nat := 6

/-- Allocation of an AID. -/
def State.allocOfAid (s : State) (aid : Nat) : Option Nat :=
  (List.range 64).find? (fun a => s.on (USL_ALLOC_valid a) && s.get (USL_ALLOC_aid a) == aid)

/-- A grant is forfeited with a cause (R138); the forfeit is new to every report that has not yet been sent. -/
def State.forfeit (s : State) (cause : Nat) (g : UpGrant) : State :=
  let s := s.sat (USL_CNT_count cause)
  let s := if cause = causeClash then s.limDev 0x0403 0xF 0 else s
  match s.allocOfAid g.entry.aid with
  | some a =>
    { s.sat (USL_FORFEIT_count a) with usl := { s.usl with
      forfeited := s.usl.forfeited ||| BitVec.ofNat 64 (2 ^ a),
      plan := s.usl.plan.map (fun (b : Burst) => { b with told := b.told.filter (fun x => x != a) }) } }
  | none => s

/-- A directed ranging window of the terminal, and an announce window. -/
def State.isWindow (s : State) (g : UpGrant) : Bool :=
  s.on ACT_STATUS_tn_valid && g.entry.aid == 0xF00 + s.get ACT_STATUS_tn
def isAnnounce (g : UpGrant) : Bool := g.entry.aid == 0xFFF

/-- A dying gasp is in progress. -/
def State.dying (s : State) : Bool := s.on USL_STATUS_dg

/-- The next burst that is cut carries DYING_GASP: of its three sends (R146), one is neither made nor cut. -/
def State.gaspDue (s : State) : Bool :=
  match s.usl.gasp with
  | some (_, left) => decide ((s.usl.plan.filter (fun b => b.gasp && !b.running)).length < left)
  | none => false

/-- The state forbids a grant of a burst that carries or may yet carry a dying gasp (gasp), or transmission is off (Table 5.6,
R147, R162, R487). -/
def State.stateForbids (s : State) (g : UpGrant) (gasp : Bool) : Bool :=
  let st := s.get ACT_STATUS_state
  !s.on USL_CTRL_tx_en || s.get PWR_STATUS_mode == 2 ||
    !(if isAnnounce g then st == 2
      else if s.isWindow g then st == 2 || st == 3 || st == 4 || (st == 5 && gasp)
      else if g.standing then st == 4
      else st == 4 || ((st == 3 || st == 5) && gasp))

/-- Why a grant is forfeited now, by the laser or the state: SAFE before STATE (assumption 35, DEDUCED). -/
def State.forfeitNow (s : State) (g : UpGrant) (gasp : Bool) : Option Nat :=
  if s.safeOff || !s.on GLB_SERVICE_cart then some causeSafe
  else if s.stateForbids g gasp then some causeState else none

/-! ### The schedule (R117, R121, R130, R136, R137) -/

/-- Preamble of a grant in bit periods. -/
def State.preamble (s : State) (g : MapGrant) : Nat :=
  32 * (if g.longLead then s.usl.timing.long else s.usl.timing.short)

/-- Grant b is chained to grant a (R121; assumption 36, DEDUCED). -/
def chained (a b : UpGrant) : Bool :=
  a.entry.start + a.entry.size == b.entry.start && a.entry.colour == b.entry.colour &&
    a.entry.fec == b.entry.fec && !isAnnounce a && !isAnnounce b

/-- The entries that standing grant k acts as (R130). -/
def State.standEntries (s : State) (k : Nat) : List UpGrant :=
  let f := s.get (USL_STAND_A_flags k)
  if !s.on (USL_STAND_A_active k) then []
  else (onesOf 8 (s.get (USL_STAND_A_mask k))).map (fun i =>
    { entry := { aid := s.get (USL_STAND_A_aid k), start := 1215 * i + s.get (USL_STAND_B_offset k),
                 size := s.get (USL_STAND_B_size k), report := bit f 0, longLead := bit f 1, colour := 0,
                 fec := bit f 2, msgOk := bit f 3, cls := 2, ranging := false },
      standing := true })

/-- The standing entries of an upstream frame. -/
def State.allStanding (s : State) : List UpGrant := (List.range 8).flatMap s.standEntries

/-- A grant put in its place by start. -/
def byStart (g : UpGrant) : List UpGrant → List UpGrant
  | [] => [g]
  | h :: l => if g.entry.start < h.entry.start then g :: h :: l else h :: byStart g l

/-- Grants cut into bursts: each chain one group (assumption 36, DEDUCED). -/
def groups : List UpGrant → List (List UpGrant)
  | [] => []
  | g :: l => match groups l with
    | (h :: c) :: r => if chained g h then (g :: h :: c) :: r else [g] :: (h :: c) :: r
    | r => [g] :: r

/-- First and last bit period of a group's occupancy in its upstream frame (R136), shifted by 2²⁰. -/
def State.occupancy (s : State) (c : List UpGrant) : Nat × Nat :=
  match c.head?, c.getLast? with
  | some g, some h =>
    (2 ^ 20 + 128 * g.entry.start - s.preamble g.entry - 64,
      2 ^ 20 + 128 * (h.entry.start + h.entry.size) + 32)
  | _, _ => (0, 0)

/-- Class of a group: the highest of its grants (assumption 36, DEDUCED). -/
def groupClass (c : List UpGrant) : Nat := (c.map (fun g => g.entry.cls)).foldl max 0

/-- Two occupancies overlap. -/
def overlap (a b : Nat × Nat) : Bool := decide (a.1 < b.2) && decide (b.1 < a.2)

/-- The bursts that are executed of a list of groups (R137): by class and start, each one that overlaps none taken
before it; and those forfeited as CLASH. -/
def State.clash (s : State) (l : List (List UpGrant)) : List (List UpGrant) × List (List UpGrant) :=
  let order := sortBy (fun c d => decide (groupClass d < groupClass c) ||
    (groupClass c == groupClass d &&
      decide ((c.map (fun g => g.entry.start)).headD 0 ≤ (d.map (fun g => g.entry.start)).headD 0))) l
  order.foldl (fun a c =>
    if a.1.any (fun d => overlap (s.occupancy c) (s.occupancy d)) then (a.1, a.2 ++ [c]) else (a.1 ++ [c], a.2))
    ([], [])

/-- A group of upstream frame fc joins the schedule. -/
def State.plan (s : State) (fc : Nat) (c : List UpGrant) : State :=
  match c.head? with
  | none => s
  | some g =>
    let b : Burst :=
      { id := s.usl.nextId, frame := fc, grants := c, pre := s.preamble g.entry,
        start := fc * 1244160 + s.usl.timing.eqd + 128 * g.entry.start, eqd := s.usl.timing.eqd, announce := none,
        locked := false, content := none, running := false }
    { s with usl := { s.usl with nextId := s.usl.nextId + 1, plan := s.usl.plan ++ [b] } }

/-- The timing that governs upstream frame fc (R165): the latest one whose frame has come. -/
def State.govern (s : State) (fc : Nat) : State :=
  let due := s.usl.later.filter (fun p => decide (p.1 ≤ fc))
  { s with usl := { s.usl with timing := (due.getLast?.map (fun p => p.2)).getD s.usl.timing,
                               later := s.usl.later.filter (fun p => decide (fc < p.1)) } }

/-- The map grants that this terminal may use as bursts of its own: directed windows under R162, and grants of its
allocations. -/
def State.ownGrant (s : State) (g : MapGrant) : Bool :=
  if g.aid = 0xFFF then false
  else if s.on ACT_STATUS_tn_valid && g.aid == 0xF00 + s.get ACT_STATUS_tn then
    decide (4 ≤ g.size) && (s.get ACT_STATUS_state != 2 || s.dsl.quiet)
  else true

/-- The terminal has a grant or a standing entry in upstream frame fc (R143). -/
def State.noteGrant (s : State) (fc : Nat) (b : Bool) : State :=
  if b then { s with usl := { s.usl with granted := some fc } } else s

/-- The schedule of the tick's upstream frame (R33, R137, R138). -/
def State.schedule (s : State) : State :=
  let fc := s.tick.fc
  let map := (s.dsl.grants.filter s.ownGrant).map (fun g => (⟨g, false⟩ : UpGrant))
  let stand := if s.get ACT_STATUS_state = 4 then s.allStanding else []
  let all := (map ++ stand).foldl (fun l g => byStart g l) []
  let s' := (s.noteGrant fc (!all.isEmpty)).each all (fun g t => match s.forfeitNow g s.gaspDue with
    | some c => t.forfeit c g
    | none => t)
  let (won, lost) := s.clash (groups (all.filter (fun g => (s.forfeitNow g s.gaspDue).isNone)))
  let s' := s'.each lost.flatten (fun g t => t.forfeit causeClash g)
  let sorted := sortBy (fun (a b : (Nat × Nat) × List UpGrant) => decide (a.1.1 ≤ b.1.1)) (won.map (fun c => (s.occupancy c, c)))
  (s'.each sorted (fun p t => t.plan fc p.2)).nextColour

/-- PHASE_GRANT (R33, R43, R582): outside LOCKED the standing entries count as HOLD_SKIP. -/
def execPhaseGrant (cycles waited : Nat) (s : State) : Host.Outcome State Fault Refusal :=
  let s := s.govern s.tick.fc
  if s.get TICK_STATUS_state = 1 then .next (s.schedule.phaseUsedAfter 2 cycles waited)
  else
    let n := if s.get ACT_STATUS_state = 4 then s.allStanding.length else 0
    .next (((s.noteGrant s.tick.fc (n != 0)).satBy (USL_CNT_count 13) n).phaseUsed 2 0)

/-! ### Bursts -/

/-- The burst of an id. -/
def State.burst (s : State) (id : Nat) : Option Burst := s.usl.plan.find? (fun b => b.id == id)

/-- s with the burst of an id changed by g. -/
def State.modBurst (s : State) (id : Nat) (g : Burst → Burst) : State :=
  { s with usl := { s.usl with plan := s.usl.plan.map (fun (b : Burst) => if b.id = id then g b else b) } }

/-- What a cut took from an SDU returns to its queue and counts as sent no more; an SDU of a niche whose queues a niche reset has
flushed since is dropped as they were (R226). -/
def State.restoreSdu (s : State) (x : CutSdu) : State :=
  let s := s.countQid x.queue 1 (2 ^ 48 - x.bytes)
  match s.sdu x.id with
  | none => s.countQid x.queue 2 x.bytes
  | some d =>
    let s := s.modSdu x.id (fun d => { d with queue := x.queue, taken := x.taken })
    let r := s.nreset d.owner
    if r.active && r.flushed then (s.ncnt d.owner 6).dropQueued x.id else s

/-- A member SDU that a cut took from stands again as it did before. -/
def State.restoreMember (s : State) (x : MemberSdu × Nat) : State :=
  let rest := if x.1.taken + x.2 < x.1.data.length then
      s.usl.members.eraseP (fun y => y.member == x.1.member && y.flow == x.1.flow && y.data == x.1.data)
    else s.usl.members
  { s with usl := { s.usl with members := x.1 :: rest } }

/-- What the cut of a burst took stays queued: its cut has no effect (R138; assumption 41, DEDUCED). -/
def State.undoCut (s : State) (b : Burst) : State :=
  let s := s.each b.cutFrom.reverse (fun x t => t.restoreSdu x)
  let s := s.each b.cutMembers.reverse (fun x t => t.restoreMember x)
  let q := match b.held with
    | some m => m :: s.act.queue
    | none => s.act.queue
  { s with act := { s.act with queue := q } }

/-- A burst leaves the schedule unexecuted. -/
def State.dropBurst (s : State) (b : Burst) : State :=
  let s := s.undoCut b
  { s with usl := { s.usl with plan := s.usl.plan.filter (fun x => x.id != b.id) } }.nextColour

/-- Burst b's grants are forfeited with a cause, and it leaves the schedule. -/
def State.forfeitBurst (s : State) (cause : Nat) (b : Burst) : State :=
  (s.each b.grants (fun g t => t.forfeit cause g)).dropBurst b

/-- Why burst b may not go on now: outside LOCKED its standing entries count as HOLD_SKIP (R43), otherwise its
grants are forfeited with one cause (assumption 35, DEDUCED). No burst is sent from a Cast freeze on (R526). -/
def State.guard (s : State) (b : Burst) : Option State :=
  if s.cst.freezing then some (s.dropBurst b)
  else if s.get TICK_STATUS_state ≠ 1 then
    some ((s.satBy (USL_CNT_count 13) (b.grants.filter (fun g => g.standing)).length).dropBurst b)
  else (b.grants.findSome? (fun g => s.forfeitNow g (b.gasp || (b.content.isNone && s.gaspDue)))).map (fun c =>
    s.forfeitBurst c b)

/-- PLL_LOCK_TEST (R139), 2.000 µs before the burst's first preamble bit. -/
def execPllLockTest (burst : Nat) (s : State) : Host.Outcome State Fault Refusal :=
  match s.burst burst with
  | none => .next s
  | some b =>
    if b.locked then .next s
    else match s.guard b with
    | some t => .next t
    | none =>
      if s.on USL_STATUS_pll_lock && s.get USL_STATUS_colour == b.colour then
        .next (s.modBurst b.id (fun x => { x with locked := true }))
      else
        .next ((s.limDev 0x0402 0xF 0).forfeitBurst causeLock b)

/-- A source of fragments: the SDU or the member SDU it comes from, its flow and what is left of it. -/
structure FragSource where
  sdu : Option Nat
  member : Option MemberSdu
  flow : Nat
  bytes : List Byte
  deriving DecidableEq, Repr

/-- The SDUs of the management channel, where it is set up and its flow passes p. -/
def State.mgmtSources (s : State) (p : Nat → Bool) : List FragSource :=
  let f := s.get CST_MGMT_ufid
  if s.on CST_MGMT_valid && s.on (USL_FID_valid f) && p f then
    (s.queueOf mgmtQueue).map (fun d => ⟨some d.id, none, f, d.data.drop d.taken⟩)
  else []

/-- The sources of an allocation's section in their order of service (R123). -/
def State.fragSources (s : State) (a : Nat) : List FragSource :=
  let ofQueue := fun (q f : Nat) => (s.queueOf q).map (fun d =>
    (⟨some d.id, none, f, d.data.drop d.taken⟩ : FragSource))
  let mgmt := s.mgmtSources (fun f => s.get (USL_FID_alloc f) == a)
  let members := sortBy (fun x y => decide (x.member ≤ y.member)) (s.usl.members.filter (fun m =>
    s.on (USL_FID_valid m.flow) && s.get (USL_FID_alloc m.flow) == a && (decide (48 ≤ m.member) || !s.memberBlocked m.member)))
  let classes := (List.range 8).reverse.flatMap (fun c => match s.allocBase a, s.classFlow a c with
    | some q, some f => ofQueue (q + c) f
    | _, _ => [])
  mgmt ++ members.map (fun m => ⟨none, some m, m.flow, m.data.drop m.taken⟩) ++ classes

/-- The 96-bit IV of R96; up is 1 for an upstream fragment (R125). -/
def fragIv (fc fid index up : Nat) : List Byte :=
  beBytes 12 (fc % 2 ^ 51 * 2 ^ 45 + fid % 2 ^ 16 * 2 ^ 29 + index % 2 ^ 14 * 2 ^ 15 + up * 2 ^ 14)

/-- A fragment header (Table 4.6). -/
def fragHeader (fid len last parity enc : Nat) : List Byte :=
  beBytes 8 (hecEncode ((fid * 2 ^ 48 + len * 2 ^ 34 + last * 2 ^ 33 + parity * 2 ^ 32 + enc * 2 ^ 31) / 2 ^ 13))

/-- Fragment headers sent so far in upstream frame fc. -/
def State.fragCount (s : State) (fc : Nat) : Nat := if s.usl.fragFrame = fc then s.usl.fragIndex else 0

/-- The fragment of a flow with a payload, under the key of the parity at the cut; none where the flow's slot is empty or the
engine is locked out (R416, R415). -/
def State.fragment (s : State) (f : Nat) (payload : List Byte) (last : Bool) : Option Piece :=
  let fid := s.get (USL_FID_fid f)
  if s.on (USL_FID_enc f) then
    let k := s.get (USL_FID_pair f)
    let p := s.get (DSL_KEYPAIR_parity k)
    let h := fragHeader fid payload.length (bitNat last) p 1
    if s.on CPH_STATUS_lockout then none
    else (s.keyIn (2 * k + p)).map (fun key => ⟨h, some key, payload, true, fid⟩)
  else some ⟨fragHeader fid payload.length (bitNat last) 0 0, none, payload, true, fid⟩

/-- A cut in progress: room left in the section, pieces so far, whether a source has been left unfinished, what it took. -/
structure CutAcc where
  room : Nat
  out : List Piece
  full : Bool
  cutFrom : List CutSdu
  cutMembers : List (MemberSdu × Nat)
  deriving DecidableEq, Repr

/-- What a source gives up at a cut: n bytes. -/
def State.takeFrom (s : State) (x : FragSource) (n : Nat) : State :=
  let s := match x.sdu with
    | some id => s.modSdu id (fun d =>
        { d with taken := d.taken + n, queue := if d.data.length ≤ d.taken + n then none else d.queue })
    | none => s
  match x.member with
  | some m =>
    { s with usl := { s.usl with
      members := s.usl.members.filterMap (fun (y : MemberSdu) =>
        if y = m then (if m.data.length ≤ m.taken + n then none else some { m with taken := m.taken + n })
        else some y) } }
  | none => s

/-- One source of a section is served (R123, R124). -/
def cutStep (a : State × CutAcc) (x : FragSource) : State × CutAcc :=
  let (s, c) := a
  let oh := 8 + if s.on (USL_FID_enc x.flow) then 8 else 0
  if c.full || decide (c.room < oh + 1) || x.bytes.isEmpty then (s, { c with full := c.full || decide (c.room < oh + 1) })
  else
    let n := min x.bytes.length (min (c.room - oh) 16383)
    match s.fragment x.flow (x.bytes.take n) (n == x.bytes.length) with
    | none => (s, c)
    | some b =>
      let d := x.sdu.bind s.sdu
      let from_ := match d with | some d => [(⟨d.id, d.queue, d.taken, n⟩ : CutSdu)] | none => []
      let mem := match x.member with | some m => [(m, n)] | none => []
      let s := match d with | some d => s.countQid d.queue 1 n | none => s
      (s.takeFrom x n,
        { room := c.room - b.size, out := c.out ++ [b], full := decide (n < x.bytes.length),
          cutFrom := c.cutFrom ++ from_, cutMembers := c.cutMembers ++ mem })

/-- Fill of a grant (Table 5.1): an idle fragment header where 8 or more bytes remain, then 0x00
(assumption 43, DESIGN CHOICE). -/
def fillTo (cap : Nat) (l : List Piece) : List Piece :=
  let n := (l.map Piece.size).sum
  if n + 8 ≤ cap then l ++ [⟨fragHeader 0xFFFF 1 0 0 0, none, zeros (cap - n - 8), true, 0xFFFF⟩]
  else l ++ [Piece.plain (zeros (cap - n))]

/-- The report of an allocation (Table 5.4, R126; assumption 43, DESIGN CHOICE). -/
def State.report (s : State) (a : Nat) : List Byte :=
  let n := match s.allocBase a with
    | some q => ((List.range 8).map (fun c => s.qbytes (q + c))).sum
    | none => 0
  beBytes 4 (min (ceilDiv n 64) 0xFFFFFF * 256 + 128 * bitNat (bit s.usl.forfeited.toNat a))

/-- The section of a grant in the room of its burst (Table 5.4); only, where the burst carries no more than a dying
gasp. -/
def State.cutGrant (s : State) (room : Nat) (g : UpGrant) (only : Bool) : State × List Piece × CutAcc × Nat × List Nat :=
  let acc : CutAcc := ⟨0, [], false, [], []⟩
  let win := s.isWindow g
  let al := s.allocOfAid g.entry.aid
  let f := s.get CST_MGMT_ufid
  let mgmt := s.on CST_MGMT_valid && !s.on (USL_ALLOC_valid (s.get (USL_FID_alloc f))) &&
    s.get ACT_STATUS_state != 2
  let rpt := if g.entry.report && !win then 4 else 0
  if only || isAnnounce g || (win && !mgmt) || decide (room < 4 + rpt) then (s, [], acc, 0, [])
  else
    let src := if win then s.mgmtSources (fun _ => true)
      else match al with | some a => s.fragSources a | none => []
    let r := src.foldl cutStep (s, { acc with room := room - 4 - rpt })
    let h := beBytes 4 (g.entry.aid * 2 ^ 20 + (if rpt = 4 then 2 ^ 19 else 0) + (r.2.out.map Piece.size).sum)
    let rep := if rpt = 4 then (match al with | some a => r.1.report a | none => zeros 4) else []
    let told := match al with
      | some a => if rpt = 4 && bit s.usl.forfeited.toNat a then [a] else []
      | none => []
    (r.1, Piece.plain (h ++ rep) :: r.2.out, r.2, rpt / 4, told)

/-- The line message of a burst (R120, R146): the dying gasp first, then the head of the queue where the first grant
has msg_ok. -/
def State.cutMsg (s : State) (b : Burst) : State × Burst :=
  match b.announce, if s.gaspDue then s.usl.gasp else none with
  | some m, _ => (s, { b with msg := some m })
  | none, some (m, _) => (s, { b with msg := some m, gasp := true })
  | none, none =>
    match s.act.queue, b.grants.head? with
    | m :: q, some g =>
      if g.entry.msgOk then
        ({ s with act := { s.act with queue := q } }, { b with msg := some m.bytes, held := some m })
      else (s, b)
    | _, _ => (s, b)

/-- The grants of a burst cut one after another, the first with what its header and message leave. -/
def State.cutGrants (s : State) (b : Burst) (only : Bool) : State × Burst :=
  let pre := 8 + match b.msg with | some _ => 48 | none => 0
  let step := fun (a : State × Burst × List (List Piece) × Bool) (g : UpGrant) =>
    let (s, b, l, first) := a
    let cap := burstRoom g.entry.size g.entry.fec
    let lead := if first then pre else 0
    let (s, sec_, c, rep, told) := s.cutGrant (cap - lead) g only
    let m := if first then [Piece.plain (b.msg.getD [])] else []
    (s, { b with cutFrom := b.cutFrom ++ c.cutFrom, cutMembers := b.cutMembers ++ c.cutMembers,
                 reports := b.reports + rep, told := b.told ++ told },
      l ++ [fillTo (cap - if first then 8 else 0) (m ++ sec_)], false)
  let r := b.grants.foldl step (s, b, [], true)
  (r.1, { r.2.1 with content := some r.2.2.1 })

/-- End of a burst's occupancy on the line's bit count (R136). -/
def Burst.ends (b : Burst) : Nat := b.start + 128 * (b.grants.map (fun g => g.entry.size)).sum + 32

/-- Burst b would begin before the end of the terminal's last executed occupancy plus 64 bit periods, the equalisation delay
having decreased since it (R145). -/
def State.shifted (s : State) (b : Burst) : Bool :=
  decide (b.eqd < s.usl.lastEqd) && decide (b.start < s.usl.lastEnd + b.pre + 128)

/-- BURST_CUT (R122 to R126, R128, R145 to R147): 0.800 µs before the first preamble bit. -/
def execBurstCut (burst : Nat) (s : State) : Host.Outcome State Fault Refusal :=
  match s.burst burst with
  | none => .next s
  | some b =>
    if !b.locked || b.content.isSome then .next s
    else match s.guard b with
    | some t => .next t
    | none =>
      if s.shifted b then .next (s.forfeitBurst causeShift b)
      else
        let st := s.get ACT_STATUS_state
        let only := s.dying && (st == 3 || st == 5) && !(st == 3 && b.grants.all s.isWindow)
        let c := s.cutMsg b
        let r := c.1.cutGrants c.2 only
        .next (r.1.modBurst b.id (fun _ => r.2))

/-- The burst header (Table 5.2). -/
def State.burstHeader (s : State) (b : Burst) : List Byte :=
  match b.grants.head? with
  | none => zeros 8
  | some g =>
    let flags := 128 * bitNat s.dying + 64 * bitNat b.msg.isSome + 32 * g.entry.colour + 16 * bitNat g.entry.fec +
      8 * bitNat (g.entry.ranging || s.isWindow g)
    let tn := if b.announce.isSome then 0xFE else s.ownTn
    let h := beBytes 1 tn ++ beBytes 1 flags ++ [s.usl.bip, s.usl.bseq] ++ zeros 3
    h ++ beBytes 1 (crc8 h)

/-- A held message that has been sent once more (R156; assumption 41, DEDUCED). -/
def State.countSend (s : State) (m : UpMsg) : State :=
  { s with act := { s.act with held := s.act.held.map (fun (h : HeldMsg) =>
    if h.msg = m then { h with sends := h.sends + 1, last := s.tick.fc } else h) } }

/-- The bytes of the pieces of a section from fragment index n on, each with its mark, and the next index (R125). -/
def sealPieces (fc : Nat) : Nat → List Piece → List (Byte × Bool) × Nat
  | n, [] => ([], n)
  | n, p :: l =>
    let plain := fun (b : List Byte) => b.map (fun x => (x, false))
    let out := match p.key with
      | some key =>
        let iv := fragIv fc p.fid n 1
        let c := gcmText key iv p.body
        plain p.head ++ (c ++ (gcmTag key iv p.head c).take 8).map (fun x => (x, true))
      | none => plain (p.head ++ p.body)
    let r := sealPieces fc (if p.frag then n + 1 else n) l
    (out ++ r.1, r.2)

/-- The sections of a burst as they are serialised: its fragment headers count in its upstream frame (R125). -/
def State.sealBurst (s : State) (b : Burst) : State × List (List (Byte × Bool)) :=
  let r := (b.content.getD []).foldl (fun (a : List (List (Byte × Bool)) × Nat) l =>
    let x := sealPieces b.frame a.2 l
    (a.1 ++ [x.1], x.2)) ([], s.fragCount b.frame)
  ({ s with usl := { s.usl with fragFrame := b.frame, fragIndex := r.2 } }, r.1)

/-- What is sent with burst b is no longer owed: one send of the dying gasp, and the forfeits that its reports tell (R126,
R146). -/
def State.sentWith (s : State) (b : Burst) : State :=
  let gasp := match s.usl.gasp with
    | some (m, left) => if !b.gasp then some (m, left) else if left ≤ 1 then none else some (m, left - 1)
    | none => none
  let told := b.told.foldl (fun (w : BitVec 64) a => w &&& ~~~(BitVec.ofNat 64 (2 ^ a))) s.usl.forfeited
  { s with usl := { s.usl with gasp := gasp, forfeited := told, lastEnd := b.ends, lastEqd := b.eqd } }

/-- BURST_START (R115, R145, R163): the occupancy begins, the laser is enabled and the burst is serialised. USL_STATUS.laser
reads ARMED through the 32 bit periods of the laser-enable lead (State.liveUsl). -/
def execBurstStart (burst : Nat) (s : State) : Host.Outcome State Fault Refusal :=
  match s.burst burst with
  | none => .next s
  | some b =>
    if b.content.isNone || b.running then .next s
    else match s.guard b with
    | some t => .next t
    | none =>
      if s.shifted b then .next (s.forfeitBurst causeShift b)
      else
      let win := b.grants.any s.isWindow
      let t := s.get CRT_TEMP_temp
      let s := if win then
          (if b.colour = 0 then s.put ACT_TEMP_temp_a t else s.put ACT_TEMP_temp_b t) else s
      let s := match b.held with | some m => s.countSend m | none => s
      let s := if b.announce.isSome then s.sat (ACT_CNT_count 0) else s
      let s := s.put USL_STATUS_laser 3
      let h := s.burstHeader b
      let s := { s with usl := { s.usl with bseq := s.usl.bseq + 1 } }
      let r := (s.sentWith b).sealBurst b
      .next (r.1.modBurst b.id (fun x => { x with running := true, at_ := s.clk, header := h, bytes := r.2 }))

/-- The bytes of a burst after its delimiter, parity included, before scrambling (R118, R119). -/
def Burst.line (b : Burst) : List Byte :=
  let f := fun (a : List Byte × Bool) (p : UpGrant × List (Byte × Bool)) =>
    let d := (if a.2 then b.header else []) ++ p.2.map (fun x => x.1)
    let n := 16 * p.1.entry.size
    (a.1 ++ (if p.1.entry.fec then fitBytes n (rsEncode d) else fitBytes n d), false)
  ((b.grants.zip b.bytes).foldl f ([], true)).1

/-- The lead of a burst: P bits of 0xAA and the delimiter (Table 5.1). -/
def Burst.lead (b : Burst) : List Byte := List.replicate (b.pre / 8) 0xAA ++ beBytes 4 0x9F2C58E3

/-- Temperature factor of the Patina accrual (R472). -/
def wearFactor (temp : Int) : Nat := if temp ≤ 5500 then 1 else if temp ≤ 7000 then 2 else 4

/-- Patina accrual of an occupancy (R472). -/
def State.accrue (s : State) (b : Burst) : State :=
  let n := (b.ends - (b.start - b.pre - 64)) * wearFactor (s.getS CRT_TEMP_temp)
  let w := s.crt.wear
  let w := if b.colour = 0 then { w with accA := w.accA + n } else { w with accB := w.accB + n }
  { s with crt := { s.crt with wear := w } }

/-- n more of counter k of Table 5.17 at the next tick edge (Table 5.7). -/
def State.oweUsl (s : State) (k n : Nat) : State := { s with usl := { s.usl with owed := s.usl.owed ++ [(k, n)] } }

/-- The tick edge: USL_CNTn takes what the bursts since the last one have added (Table 5.7). -/
def State.uslEdge (s : State) : State :=
  { s.each s.usl.owed (fun e t => t.satBy (USL_CNT_count e.1) e.2) with usl := { s.usl with owed := [] } }

/-- A member SDU that burst b has taken to its end is counted as sent (R303). -/
def State.countMembers (s : State) (b : Burst) : State :=
  s.each (b.cutMembers.filter (fun x => decide (x.1.data.length ≤ x.1.taken + x.2))) (fun x t =>
    if x.1.member < 48 then t.sat (TDM_MEM_CNT_count x.1.member 6) else t.sat (TDM_RELAY_CNT_count (x.1.member - 48) 0))

/-- BURST_END (R136, R140, R472): the burst has left; its SDUs are released and the occupancy ends
(assumption 41, DEDUCED). -/
def execBurstEnd (burst : Nat) (s : State) : Host.Outcome State Fault Refusal :=
  match s.burst burst with
  | none => .next s
  | some b =>
    if !b.running then .next s
    else
      let line := b.line
      let stand := b.grants.any (fun g => g.standing)
      let s := s.send (.burst b.colour b.frame b.start b.lead (scramble line))
      let s := ((s.oweUsl 0 1).oweUsl 1 line.length).oweUsl 7 (bitNat stand)
      let s := ((s.oweUsl 9 (bitNat b.msg.isSome)).oweUsl 12 b.reports).countMembers b
      let s := { s with usl := { s.usl with bip := bip8 line,
                                            plan := s.usl.plan.filter (fun x => x.id != b.id) } }
      let s := s.each (b.cutFrom.map (fun x => x.id)) (fun id t => match t.sdu id with
        | some d => if d.queue.isNone && d.data.length ≤ d.taken then t.release id else t
        | none => t)
      let s := if s.on GLB_SERVICE_cart then s.accrue b else s
      .next (((s.put USL_STATUS_laser 0).syncLaser).nextColour)

/-- PLL_RELOCK_DONE (R140). -/
def execPllRelockDone (s : State) : Host.Outcome State Fault Refusal :=
  if s.usl.relock.isNone then .next s
  else
    let s := { s.putB USL_STATUS_pll_lock true with usl := { s.usl with relock := none } }
    .next (if s.get USL_STATUS_laser = 1 then s.put USL_STATUS_laser 0 else s)

/-- LOL_RAW (R106, R140): clock recovery reports unlock for 2 µs or lock for 125 µs; when LOL clears the serializer
PLL relocks. -/
def execLolRaw (unlocked : Bool) (s : State) : Host.Outcome State Fault Refusal :=
  let t := s.lolRaw unlocked
  .next (if !unlocked && bit (s.get DSL_DEFECT_raw) 1 then t.startRelock else t)

/-! ### Standing grants (R131 to R134) -/

/-- The content that a STANDING_GRANT carries (Table 5.5). -/
def standContent (m : List Byte) : StandBody :=
  ⟨beAt m 6 2 % 4096, byteAt m 8, beAt m 9 2, beAt m 11 2, byteAt m 13 % 16⟩

/-- What a STANDING_GRANT leaves its index with: an install, or a removal. -/
def standBody (m : List Byte) : Option StandBody := if byteAt m 5 = 1 then some (standContent m) else none

/-- What standing grant k holds. -/
def State.standing (s : State) (k : Nat) : Option StandBody :=
  if s.on (USL_STAND_A_active k) then
    some ⟨s.get (USL_STAND_A_aid k), s.get (USL_STAND_A_mask k), s.get (USL_STAND_B_offset k),
      s.get (USL_STAND_B_size k), s.get (USL_STAND_A_flags k)⟩
  else none

/-- Occupancy of a standing entry in a microslot (R136), shifted by 2²⁰. -/
def State.standOcc (s : State) (b : StandBody) : Nat × Nat :=
  let p := 32 * (if bit b.flags 1 then s.get USL_LEAD_long else s.get USL_LEAD_short)
  (2 ^ 20 + 128 * b.offset - p - 64, 2 ^ 20 + 128 * (b.offset + b.size) + 32)

/-- Body b overlaps an installed or pending standing grant of another index in a microslot that both share. -/
def State.standOverlap (s : State) (k : Nat) (b : StandBody) : Bool :=
  (List.range 8).any (fun j => j != k &&
    ([s.standing j, (s.usl.changes.getD j none).bind (fun c => c.body)].any (fun o => match o with
      | some o => (o.mask &&& b.mask) != 0 && overlap (s.standOcc o) (s.standOcc b)
      | none => false)))

/-- R131 refuses a STANDING_GRANT: its content is judged whichever its op (assumption 37, DEDUCED; assumption 42, DEDUCED). -/
def State.standRefused (s : State) (m : List Byte) : Bool :=
  let k := byteAt m 4
  let f := beAt m 14 7
  let b := standContent m
  decide (1 < byteAt m 5) || decide (7 < k) || decide (2 ^ 51 ≤ f) || decide (f < s.tick.fc + 2) ||
    b.mask == 0 || decide (1215 < b.offset + b.size) || decide (b.size < 2) ||
    (s.allocOfAid b.aid).isNone || s.standOverlap k b

/-- The message's content equals the pending or installed state of its index (R132). -/
def State.standSame (s : State) (m : List Byte) : Bool :=
  let k := byteAt m 4
  decide (byteAt m 5 ≤ 1) && decide (k ≤ 7) &&
    (match s.usl.changes.getD k none with
     | some c => c == ⟨beAt m 14 7, standBody m⟩ || ((standBody m).isSome && s.standing k == standBody m)
     | none => s.standing k == standBody m)

/-- STANDING_GRANT (R131, R132). -/
def execStandingGrant (msg : List Byte) (s : State) : Host.Outcome State Fault Refusal :=
  if !s.inInbox msg 3 then .next s
  else
    let s := s.tookMsg msg
    if s.standSame msg then .next (s.ackMsg msg 0 0)
    else if s.standRefused msg then .next ((s.logDev 0x0404 0xF 0).ackMsg msg 1 0x0404)
    else .next ((s.setChange (byteAt msg 4) (some ⟨beAt msg 14 7, standBody msg⟩)).ackMsg msg 0 0)

/-- Members whose allocation has become bound: UP_BLOCKED, once at each onset, their queued SDUs being discarded as UP_STALE
(R305). -/
def State.upBlocked (s : State) : State :=
  s.each (List.range 48) (fun m t =>
    let now := t.memberBlocked m
    if now == (t.mem m).blocked then t
    else
      let t := t.setMem m { t.mem m with blocked := now }
      t.when now (fun u => (u.logDev 0x0A09 0xF (fdata m 0 0)).dropMembers m))

/-- STANDING_GRANT_APPLY (R132, R552): in phase GRANT of the first tick whose counter is F or greater. -/
def execStandingGrantApply (index : Fin 8) (s : State) : Host.Outcome State Fault Refusal :=
  match s.usl.changes.getD index.val none with
  | none => .next s
  | some c =>
    if s.tick.fc < c.frame then .next s
    else
      .next (((s.setStanding index.val c.body).setChange index.val none).syncBound).upBlocked

/-- STANDING_REMOVE_ON_ALLOC (R134): at the tick edge after a write that ended or re-aided the allocation. -/
def execStandingRemoveOnAlloc (index : Fin 8) (s : State) : Host.Outcome State Fault Refusal :=
  let installed := s.usl.removals.contains (index.val, true)
  let pending := s.usl.removals.contains (index.val, false)
  if installed || pending then
    let s := { s with usl := { s.usl with removals := s.usl.removals.filter (fun k => k.1 != index.val) } }
    let s := s.when installed (fun t => t.setStanding index.val none)
    let s := (s.when pending (fun t => t.setChange index.val none)).syncBound
    .next (s.logDev 0x0404 0xF 0)
  else .next s

/-- A write of USL_ALLOCn that ends the allocation or changes its aid marks the standing grants that name it
(R134). -/
def State.markRemovals (s : State) (aid : Nat) : State :=
  let names := fun (o : Option StandBody) => match o with | some b => b.aid == aid | none => false
  let l := (List.range 8).flatMap (fun k =>
    (if names (s.standing k) then [(k, true)] else []) ++
    (if names ((s.usl.changes.getD k none).bind (fun c => c.body)) then [(k, false)] else []))
  { s with usl := { s.usl with removals := s.usl.removals ++ l } }

/-! ### Rogue guard (R144, Table 5.8) -/

/-- ROGUE_DETECT (R144): the third trip within 24 h sets the latch. -/
def execRogueDetect (s : State) : Host.Outcome State Fault Refusal :=
  if bit (s.get USL_SAFE_cause) 0 then .next s
  else
    let l := s.clk :: s.usl.trips.filter (fun t => decide (s.clk < t + 86400 * sec))
    let s := { s with usl := { s.usl with trips := l } }
    let s := (s.put USL_SAFE_rogue_trips (min l.length 15)).sat (USL_CNT_count 10)
    let s := if 3 ≤ l.length then s.putB USL_SAFE_rogue_latched true else s
    let s := s.each [0x10, 0x11, 0x12, 0x13] (fun r t => t.send (.bus 0x58 r (zeros 2)))
    .next (((s.logDev 0x0401 0xF 0).raisePf 2).setSafe 0 true)

/-- USL_SAFE_CLR (Table 5.8): clears ROGUE where no light has been seen for 1 s and the latch is not set. -/
def execUslSafeClr (dark : Bool) (s : State) : Host.Outcome State Fault Refusal :=
  .next (if dark && !s.on USL_SAFE_rogue_latched then s.setSafe 0 false else s)

/-! ### Calibration (R143, R149) -/

/-- The terminal has no grant and no standing entry in the present upstream frame. -/
def State.noGrant (s : State) : Bool :=
  s.usl.granted != some s.tick.fc && !(s.get ACT_STATUS_state == 4 && !s.allStanding.isEmpty)

/-- APC_CALIBRATION (R143): in an upstream frame without a grant or a standing entry, at most once per key epoch
and colour, the dark level and the slope are measured (assumption 99, DESIGN CHOICE). -/
def execApcCalibration (colour : Fin 2) (s : State) : Host.Outcome State Fault Refusal :=
  let e := s.tick.fc / 8192
  if s.noGrant && s.usl.apcEpoch.getD colour.val none != some e then
    let m := (Config.freeNat s.freeCount, Config.freeNat (s.freeCount + 1))
    .next { s.tookFree.tookFree with usl := { s.usl with
      apc := s.usl.apc.set colour.val (some m),
      apcEpoch := s.usl.apcEpoch.set colour.val (some e), apcSince := s.usl.apcSince.set colour.val s.clk,
      apcLogged := s.usl.apcLogged.set colour.val false } }
  else .next s

/-- APC_STARVED (R149): no frame for a colour's calibration for 60 s is logged once. -/
def execApcStarved (colour : Fin 2) (s : State) : Host.Outcome State Fault Refusal :=
  let c := colour.val
  if s.since (s.usl.apcSince.getD c 0) (60 * sec) && !s.usl.apcLogged.getD c true then
    .next ({ s with usl := { s.usl with apcLogged := s.usl.apcLogged.set c true } }.logDev 0x040A 0xF 0)
  else .next s

/-! ### Upstream flow table (R113, Table 5.16) -/

/-- Another entry than n, as the table will stand, is valid for the class queue of w (assumption 42, DEDUCED). -/
def classTaken (after : Nat → Word) (named : Nat → Bool) (n : Nat) (w : Word) : Bool :=
  fidValid w && !named n && (List.range 1024).any (fun i => i != n && !named i && fidValid (after i) &&
    bits (after i).toNat 8 0 == bits w.toNat 8 0)

/-- USL_FID_WRITE (R113, Table 5.16): refused as FID_DUP for a fid already taken or a class queue already served;
otherwise queued for the next tick edge. -/
def execUslFidWrite (n : Fin 1024) (data : Word) (s : State) : Host.Outcome State Fault Refusal :=
  let after := fidAfter (fun i => s.word (0x61000 + 4 * i)) s.dsl.ufidWrites
  if fidTaken after n.val data || classTaken after s.namedFlow n.val data then
    .next (s.logDev 0x040C 0xF 0)
  else .next { s with dsl := { s.dsl with ufidWrites := s.dsl.ufidWrites ++ [(n.val, data)] } }

end Sys2Proof.Machine
end

