-- ==== Sys2Proof/Machine/Tdm.lean ====
section
/-!
DEFINITION. TDM tributaries and circuits (spec/11_tdm_tributaries_and_circuits.md).
-/

namespace Sys2Proof.Machine

open Sys2Proof

/-! ### Ports -/

/-- TDM_TRIBt_CFG.type: 0 not framed, 1 E1, 2 T1, 3 C37.94, from PINMUX (R281). -/
def State.tribType (s : State) (t : Nat) : Nat :=
  match s.device with
  | none => 0
  | some d => if t < 8 then (if bit d.tribEn t then (if bit d.tribT1 t then 2 else 1) else 0)
      else if bit d.c37 (t - 8) then 3 else 0

/-- Bytes carried per frame (Table 11.1). -/
def tdmSize (type : Nat) : Nat := if type = 1 then 32 else if type = 2 then 24 else if type = 3 then 12 else 0

/-- Port t is framed: PINMUX enables it and its domain is on (PD23 E1/T1, PD24 C37.94). -/
def State.framed (s : State) (t : Nat) : Bool := s.tribType t != 0 && s.domainOn (if t < 8 then 23 else 24)

/-- Counter k of port t (Table 11.7); those of the two balances wrap (R291), the others saturate. -/
def State.tribCnt (s : State) (t k : Nat) : State :=
  if k < 8 then s.wrap (TDM_TRIB_CNT_count t k) else s.sat (TDM_TRIB_CNT_count t k)

/-- Port t. -/
def State.tdmPort (s : State) (t : Nat) : TdmPort :=
  s.tdm.ports.getD t .none
def State.setTdmPort (s : State) (t : Nat) (x : TdmPort) : State :=
  { s with tdm := { s.tdm with ports := s.tdm.ports.set t x } }

/-- A slip buffer as it starts: one frame of 0xFF (R290). -/
def SlipBuf.start (b : SlipBuf) (n : Nat) : SlipBuf := ⟨[onesFrame n], onesFrame n, b.base + 1 - b.unread.length⟩

/-- Framing of every port starts or restarts. -/
def State.startPort (s : State) (t : Nat) : State :=
  let n := tdmSize (s.tribType t)
  let p := s.tdmPort t
  s.setTdmPort t { p with line := p.line.start n, port := p.port.start n, played := List.replicate n 0xFF, tx := ⟨0, 0, 0⟩, smf := [] }

/-- SLIP of port t, direction 0 toward the line, 1 toward the port (R290). -/
def State.slip (s : State) (t dir : Nat) : State := s.limBoth (s.tdmOwner t) 0x0A02 (fdata t dir 0)

/-- A frame is written into a buffer; the older of two unread ones is discarded: the buffer and whether it slipped. -/
def SlipBuf.write (b : SlipBuf) (f : SlipFrame) : SlipBuf × Bool :=
  if 2 ≤ b.unread.length then ({ b with unread := b.unread.drop 1 ++ [f] }, true)
  else ({ b with unread := b.unread ++ [f] }, false)

/-- A frame is read; without an unread one the last is repeated: the frame, the buffer and whether it slipped. -/
def SlipBuf.read (b : SlipBuf) : SlipFrame × SlipBuf × Bool :=
  match b.unread with
  | f :: rest => (f, ⟨rest, f, b.base⟩, false)
  | [] => (b.last, b, true)

/-- LOS, AIS or LOF of port t is reported. -/
def State.portFailed (s : State) (t : Nat) : Bool := s.get (TDM_TRIB_DEFECT_reported t) % 8 != 0

/-- A frame that the receive framer of port t completes is written toward the line; while LOS, AIS or LOF is reported a
substitute frame takes its place (R286, R290, R291). smf says whether the CRC-4 submultiframe that it completes had no error. -/
def State.tdmReceive (s : State) (t : Nat) (frame : List Byte) (smf : Option Bool) : State :=
    let n := tdmSize (s.tribType t)
    let sub := s.portFailed t
    let b := fitBytes n (if s.tribType t = 3 then frame.take (s.get (TDM_TRIB_CFG_n t)) else frame)
    let p := s.tdmPort t
    let w := p.line.write ⟨if sub then List.replicate n 0xFF else b, sub, 0⟩
    let s := (s.tribCnt t 0).when sub (fun u => u.tribCnt t 8)
    let s := s.setTdmPort t { p with line := w.1, smf := (smf.toList ++ p.smf).take 2 }
    s.when w.2 (fun u => (u.tribCnt t 2).slip t 0)

/-- TDM_RX_FRAME (R286). -/
def execTdmRxFrame (t : Fin 12) (frame : List Byte) (smf : Option Bool) (s : State) : Host.Outcome State Fault Refusal :=
  .next (if s.framed t.val then s.tdmReceive t.val frame smf else s)

/-- The valid circuit of port t. -/
def State.circuitOf (s : State) (t : Nat) : Option Nat :=
  (List.range 12).find? (fun c => s.on (TDM_CIR_CFG_valid c) && s.get (TDM_CIR_CFG_port c) == t)

/-- A check sum over bytes, most significant bit first. -/
def blockSum (n p r : Nat) (b : List Byte) : Nat := b.foldl (crcByteMsb n p) r

/-- Timeslot 0 of frame num of a CRC-4 multiframe (R283; the bits of G.704, assumption 102, PRESUMED): FAS in even frames, NFAS
with the A bit and the Sa bits of the carried frame in odd ones; bit 1 is 1 without CRC-4. sum is that of the last
submultiframe, e the E-bits. -/
def e1Slot0 (crc4 : Bool) (num sum : Nat) (e : List Bool) (a : Bool) (carried : Byte) : Byte :=
  let one :=
    if !crc4 then true
    else if num % 2 = 0 then bit sum (3 - num % 8 / 2)
    else if num = 13 then e.getD 1 true else if num = 15 then e.getD 0 true
    else num == 5 || num == 9 || num == 11
  BitVec.ofNat 8 (if num % 2 = 0 then 128 * bitNat one + 0x1B
    else 128 * bitNat one + 0x40 + 32 * bitNat a + carried.toNat % 32)

/-- The F bit of a T1 frame, no the frames sent before it (R283; the patterns of G.704, assumption 102, PRESUMED): SF, or ESF with
its pattern, the CRC-6 of the superframe before and the data link, idle 0x7E or the yellow alarm 0xFF00. -/
def t1Bit (esf : Bool) (no sum : Nat) (yellow : Bool) : Bool :=
  if !esf then ([1, 0, 0, 0, 1, 1, 0, 1, 1, 1, 0, 0] : List Nat).getD (no % 12) 0 == 1
  else
    let i := no % 24
    if i % 2 = 0 then
      let k := no / 2
      if yellow then decide (k % 16 < 8) else bit 0x7E (k % 8)
    else if i % 4 = 1 then bit sum (5 - i / 4)
    else ([0, 0, 1, 0, 1, 1] : List Nat).getD (i / 4) 0 == 1

/-- A framed frame of port t: its framing, its channel bytes and the transmit framer after it (R282, R283, R288). -/
def State.frameOut (s : State) (t : Nat) (f : SlipFrame) : TdmHead × List Byte × TdmTx :=
  let p := s.tdmPort t
  let rai := s.on (TDM_TRIB_CFG_rai_en t) && s.portFailed t
  match s.tribType t with
  | 1 =>
    let x := if f.num % 8 = 0 then { p.tx with done := p.tx.crc, crc := 0 } else p.tx
    let h := e1Slot0 (s.on (TDM_TRIB_CFG_crc4 t)) f.num x.done p.smf rai (f.bytes.headD 0)
    let clear : Byte := if f.num % 2 = 0 then h &&& 0x7F else h
    (.ts0 h, f.bytes.drop 1, { x with crc := blockSum 4 0x3 x.crc (clear :: f.bytes.drop 1) })
  | 2 =>
    let esf := s.on (TDM_TRIB_CFG_esf t)
    let x := if p.tx.no % 24 = 0 then { p.tx with done := p.tx.crc, crc := 0 } else p.tx
    let b := if rai && !esf then f.bytes.map (fun c => c &&& 0xBF) else f.bytes
    (.fbit (t1Bit esf x.no x.done rai), b,
      { x with no := (x.no + 1) % 96, crc := blockSum 6 0x03 (crcBit 6 0x03 x.crc true) b })
  | _ => (.c37 rai (s.get (TDM_TRIB_CFG_n t)), f.bytes.zipIdx.map (fun x => if x.2 < s.get (TDM_TRIB_CFG_n t) then x.1 else 0), p.tx)

/-- The transmit framer of port t reads a frame at its own boundary and sends it (R282, R283, R288, R290); an E1 or T1 port whose
circuit is down sends unframed all ones, a C37.94 port all ones in its channels (R301). -/
def State.tdmTransmit (s : State) (t : Nat) : State :=
    let p := s.tdmPort t
    let r := p.port.read
    let s := (s.tribCnt t 5).setTdmPort t { p with port := r.2.1 }
    let s := s.when r.2.2 (fun u => (u.tribCnt t 7).slip t 1)
    let down := match s.circuitOf t with | some c => s.on (TDM_CIR_STATUS_down c) | none => false
    let ones := r.1.bytes.map (fun _ => (0xFF : Byte))
    let o := s.frameOut t (if down then { r.1 with bytes := ones } else r.1)
    let s := s.setTdmPort t { s.tdmPort t with tx := o.2.2 }
    if down && s.tribType t != 3 then s.send (.tdmFrame t .unframed ones) else s.send (.tdmFrame t o.1 o.2.1)

/-- TDM_TX_FRAME (R283, R288). -/
def execTdmTxFrame (t : Fin 12) (s : State) : Host.Outcome State Fault Refusal :=
  .next (if s.framed t.val then s.tdmTransmit t.val else s)

/-- The raw defects of port t become raw (R285). -/
def State.defectChange (s : State) (t : Nat) (raw : BitVec 6) : State :=
    let old := s.get (TDM_TRIB_DEFECT_reported t)
    let new := reportedOf raw.toNat
    let s := (s.put (TDM_TRIB_DEFECT_raw t) raw.toNat).put (TDM_TRIB_DEFECT_reported t) new
    let p := s.tdmPort t
    let s := s.setTdmPort t { p with seen := p.seen ||| new }
    s.each (onesOf 6 (old ^^^ new)) (fun i u =>
      let u := (u.mark (TDM_TRIB_STICKY_changed t) i).logBoth (u.tdmOwner t) 0x0A01
        (fdata t i 0)
      let u := u.raisePf 10
      match u.tdmOwner t with
      | some n => u.raiseNiche n 64
      | none => u)

/-- TDM_DEFECT_CHANGE (R285). -/
def execTdmDefectChange (t : Fin 12) (raw : BitVec 6) (s : State) : Host.Outcome State Fault Refusal :=
  .next (if s.framed t.val then s.defectChange t.val raw else s)

/-! ### Circuits and members -/

/-- Counter k of member m (Table 11.9). -/
def State.memCnt (s : State) (m k : Nat) : State := s.sat (TDM_MEM_CNT_count m k)

/-- A valid pair of sides in guard form (R292, R304). -/
def State.guardPaired (s : State) : Bool := s.linkUp && s.pairedAs 2

/-- A member SDU that member m forms: queued for its own line, or sent to the partner (R295, R303 to R305). -/
def State.sendMember (s : State) (m : Nat) (b : List Byte) : State :=
  let u := s.get (TDM_MEM_CFG_ufid m)
  if s.on (TDM_MEM_CFG_path m) then
    if s.guardPaired then (s.sendRecord 0x14 (u % 64) b).memCnt m 6 else s.memCnt m 7
  else if s.memberBlocked m then s.memCnt m 7
  else
    let mine := s.usl.members.filter (fun x => x.member == m)
    let s := if 2 ≤ mine.length then
        match mine.head? with
        | some y => { s.memCnt m 7 with usl := { s.usl with members := s.usl.members.erase y } }
        | none => s
      else s
    { s with usl := { s.usl with members := s.usl.members ++ [⟨m, u, b, 0⟩] } }

/-- Header of a member SDU (Table 11.4). -/
def memberHeader (type : Nat) (ais rdi : Bool) (tag seq k : Nat) : List Byte :=
  let h := beBytes 1 (0x10 + type) ++ beBytes 1 (bitNat ais + 2 * bitNat rdi) ++ beBytes 2 tag ++ beBytes 2 seq ++
    beBytes 1 k
  h ++ beBytes 1 (crc8 h)

/-- Member m of circuit c takes the frame of number seq: an SDU is formed once K have collected (R295). -/
def State.collect (s : State) (c m seq : Nat) (f : SlipFrame) : State :=
  let k := s.get (TDM_MEM_CFG_pack m) + 1
  let got := (s.mem m).got ++ [f]
  if got.length < k then s.setMem m { s.mem m with got := got }
  else
    let s := s.setMem m { s.mem m with got := [] }
    let type := s.tribType (s.get (TDM_CIR_CFG_port c))
    let h := memberHeader type (got.any (fun x => x.subst)) (s.on (TDM_CIR_STATUS_down c)) (s.get (TDM_CIR_CFG_tag c))
      ((seq + 65537 - k) % 65536) k
    s.sendMember m (h ++ got.flatMap (fun x => x.bytes))

/-- One toward-line read of port t and what its circuit does with the frame (R281, R291, R295). -/
def State.lineTick (s : State) (t : Nat) : State :=
  let p := s.tdmPort t
  let r := p.line.read
  let s := (s.tribCnt t 1).setTdmPort t { p with line := r.2.1 }
  let s := s.when r.2.2 (fun u => (u.tribCnt t 3).slip t 0)
  match s.circuitOf t, s.tdmOwner t with
  | some c, some n =>
    let x := s.circuit c
    let s := s.setCircuit c { x with seq := (x.seq + 1) % 65536 }
    if s.closed n then s.each (s.membersOf c) (fun m u => u.setMem m { u.mem m with got := [] })
    else s.each (s.membersOf c) (fun m u => u.collect c m x.seq r.1)
  | _, _ => s

/-- Circuit c enters the down state (R301). -/
def State.circuitDown (s : State) (c : Nat) : State :=
  if s.on (TDM_CIR_STATUS_down c) then s
  else
    let s := (s.logBoth (s.circuitOwner c) 0x0A04 (fdata c 0 0)).raisePf 10
    (s.putB (TDM_CIR_STATUS_down c) true).unstart c

/-- Member m has had no SDU accepted for 2K + 8 ticks (R300); one that never had is down. -/
def State.memberSilent (s : State) (m : Nat) : Bool :=
  let x := s.mem m
  x.last.all (fun l => decide (l + 2 * x.k + 8 ≤ s.tick.edges))

/-- A valid circuit all of whose members are down is down (R301). -/
def State.judgeCircuit (s : State) (c : Nat) : State :=
  let l := s.membersOf c
  s.when (s.on (TDM_CIR_CFG_valid c) && !l.isEmpty && l.all s.memberSilent) (fun u => u.circuitDown c)

/-- The frame that port t plays in this tick (R299): the bytes, and the state after the circuit's playout. -/
def State.playout (s : State) (t : Nat) : List Byte × State :=
  let n := tdmSize (s.tribType t)
  let fill := fun (u : State) =>
    (if u.on (TDM_TRIB_CFG_fill t) then (u.tdmPort t).played else List.replicate n 0xFF, u.tribCnt t 10)
  match s.circuitOf t, s.tdmOwner t with
  | some c, some o =>
    let x := s.circuit c
    if s.closed o then fill s
    else if !s.on (TDM_CIR_STATUS_started c) then fill s
    else if 0 < x.wait then fill (s.setCircuit c { x with wait := x.wait - 1 })
    else
      let p := s.get (TDM_CIR_STATUS_p c)
      let s := s.put (TDM_CIR_STATUS_p c) ((p + 1) % 65536)
      match x.slots.find? (fun y => y.f == p) with
      | some y =>
        let least := match x.least with | some l => min l y.slack | none => y.slack
        let s := s.setCircuit c { x with slots := x.slots.filter (fun z => z.f != p), fills := 0, least := some least }
        let s := s.putB (TDM_CIR_STATUS_down c) false
        (y.bytes, (s.tribCnt t 9).memCnt y.mem 5)
      | none =>
        let s := s.setCircuit c { x with fills := x.fills + 1 }
        fill (s.when (decide (8 ≤ x.fills + 1)) (fun u => u.circuitDown c))
  | _, _ => fill s

/-- One toward-port write of port t (R283, R291, R299). -/
def State.portTick (s : State) (t : Nat) : State :=
  let r := s.playout t
  let p := r.2.tdmPort t
  let w := p.port.write ⟨r.1, false, s.tick.fc % 16⟩
  let s := (r.2.tribCnt t 4).setTdmPort t { p with port := w.1, played := r.1 }
  s.when w.2 (fun u => (u.tribCnt t 6).slip t 1)

/-- PHASE_TDM (R295, R299, R301, R305). -/
def execPhaseTdm (cycles : Nat) (s : State) : Host.Outcome State Fault Refusal :=
  let s := (s.each (List.range 12) (fun c u => u.judgeCircuit c)).upBlocked
  .next ((s.each ((List.range 12).filter s.framed) (fun t u => (u.lineTick t).portTick t)).phaseUsed 4 cycles)

/-! ### Member SDUs from the line -/

/-- A new window of circuit c at frame f (R298). -/
def State.startWindow (s : State) (c f : Nat) : State :=
  let x := s.circuit c
  ((s.putB (TDM_CIR_STATUS_started c) true).put (TDM_CIR_STATUS_p c) f).setCircuit c
    { x with slots := [], wait := s.get (TDM_CIR_CFG_delay c), early := 0, fills := 0 }

/-- Number of a member within its circuit. -/
def State.mnum (s : State) (m : Nat) : Nat := s.get (TDM_MEM_CFG_mnum m)

/-- A frame inside the window, d after p (R298). -/
def State.intoSlot (s : State) (c m f d : Nat) (b : List Byte) (ais : Bool) : State :=
  let x := s.circuit c
  let mm := s.mem m
  let s := s.setMem m { mm with least := some (match mm.least with | some l => min l d | none => d) }
  let put := fun (u : State) (y : SkewSlot) => u.setCircuit c
    { x with slots := x.slots.filter (fun z => z.f != f) ++ [y], early := 0 }
  match x.slots.find? (fun y => y.f == f) with
  | none => (put s ⟨f, b, ais, m, d⟩).memCnt m 0
  | some y =>
    if y.ais && !ais then ((put s ⟨f, b, ais, m, y.slack⟩).memCnt m 0).memCnt y.mem 1
    else if !y.ais && !ais && decide (s.mnum m < s.mnum y.mem) then
      ((put s ⟨f, b, ais, m, y.slack⟩).memCnt m 1).memCnt y.mem 1
    else (s.setCircuit c { x with early := 0 }).memCnt m 1

/-- One frame of an accepted SDU of member m (R298; assumption 65, DESIGN CHOICE). -/
def State.skewFrame (s : State) (c m f : Nat) (b : List Byte) (ais : Bool) : State :=
  let s := if s.on (TDM_CIR_STATUS_started c) then s else s.startWindow c f
  let p := s.get (TDM_CIR_STATUS_p c)
  let d := (f + 65536 - p) % 65536
  if d ≤ 31 then s.intoSlot c m f d b ais
  else if (p + 65536 - f) % 65536 ≤ 32767 then s.memCnt m 2
  else
    let x := s.circuit c
    let s := (s.memCnt m 3).setCircuit c { x with early := x.early + 1 }
    if x.early + 1 = 16 then
      let s := s.logBoth (s.circuitOwner c) 0x0A07 (fdata c 0 0)
      (s.startWindow c f).intoSlot c m f 0 b ais
    else s

/-- A member SDU that R297 discards on member m of circuit c. -/
def State.memberBad (s : State) (c : Nat) (b : List Byte) : Bool :=
  let type := s.tribType (s.get (TDM_CIR_CFG_port c))
  let k := byteAt b 6 % 16
  byteAt b 7 != crc8 (b.take 7) || byteAt b 0 / 16 != 1 || byteAt b 0 % 16 != type ||
    beAt b 2 2 != s.get (TDM_CIR_CFG_tag c) || k == 0 || decide (8 < k) || b.length != 8 + k * tdmSize type

/-- Bit j of TDM_CIRc_STATUS.up and TDM_MEMm_STATUS.up of member m. -/
def State.memberUp (s : State) (m : Nat) (b : Bool) : State :=
  let c := s.get (TDM_MEM_CFG_circuit m)
  let s := s.putB (TDM_MEM_STATUS_up m) b
  let s := if b then s.mark (TDM_CIR_STATUS_up c) (s.mnum m) else s.unmark (TDM_CIR_STATUS_up c) (s.mnum m)
  s.logBoth (s.circuitOwner c) 0x0A03 (fdata m (bitNat b) 0)

/-- A downstream SDU reaches member m (R297, R298, R300). -/
def State.acceptMember (s : State) (m : Nat) (b : List Byte) : State :=
  let c := s.get (TDM_MEM_CFG_circuit m)
  if s.memberBad c b then (s.memCnt m 4).limDev 0x0A0A 0xF (fdata m 0 0)
  else
    let k := byteAt b 6 % 16
    let n := tdmSize (s.tribType (s.get (TDM_CIR_CFG_port c)))
    let ais := bit (byteAt b 1) 0
    let s := (s.putB (TDM_MEM_STATUS_ais_rx m) ais).putB (TDM_MEM_STATUS_rdi_rx m) (bit (byteAt b 1) 1)
    let now := s.tick.edges
    let x := s.mem m
    let from_ := match x.last, x.runFrom with
      | some l, some r => if now ≤ l + x.k then r else now
      | _, _ => now
    let s := s.setMem m { x with k := k, last := some now, runFrom := some from_ }
    let s := s.when (!s.on (TDM_MEM_STATUS_up m) && decide (from_ + 16 ≤ now)) (fun u => u.memberUp m true)
    s.each (List.range k) (fun i u =>
      u.skewFrame c m ((beAt b 4 2 + i) % 65536) ((b.drop (8 + i * n)).take n) ais)

/-- A downstream SDU of member m's flow: the owner of its circuit takes none while it is closed (R225; spec/11, If the owning niche
enters niche reset). -/
def State.toMember (s : State) (m : Nat) (b : List Byte) : State :=
  match s.circuitOwner (s.get (TDM_MEM_CFG_circuit m)) with
  | some n => if s.closed n then s.ncnt n 6 else s.acceptMember m b
  | none => s.acceptMember m b

/-- The valid relay that names DSL_FIDn index f. -/
def State.relayOf (s : State) (f : Nat) : Option Nat :=
  (List.range 48).find? (fun r => s.on (TDM_RELAY_valid r) && s.get (TDM_RELAY_dfid r) == f)

/-- The valid members of path p whose dfid is f. -/
def State.membersOn (s : State) (p : Bool) (f : Nat) : List Nat :=
  (List.range 48).filter (fun m => s.on (TDM_MEM_CFG_valid m) && s.on (TDM_MEM_CFG_path m) == p &&
    s.get (TDM_MEM_CFG_dfid m) == f)

/-- Header check of a relayed SDU (R303). -/
def relayGood (b : List Byte) : Bool := byteAt b 7 == crc8 (b.take 7)

/-- MEMBER_SDU_ACCEPT (R297, R298, R303): a completed SDU of a flow with dest 1 reaches the member or the relay that names
the flow; its cells are released. -/
def execMemberSduAccept (id : Nat) (s : State) : Host.Outcome State Fault Refusal :=
  .next (match s.dsl.ready.find? (fun x => x.sdu == id), s.sdu id with
  | some r, some d =>
    let s := { s with dsl := { s.dsl with ready := s.dsl.ready.erase r } }
    let ms := s.membersOn false r.flow
    match ms, s.relayOf r.flow with
    | [], some y =>
      let s := s.release id
      if relayGood d.data && s.guardPaired then
        (s.sendRecord 0x14 (2 ^ 15 + y) d.data).sat (TDM_RELAY_CNT_count y 1)
      else s
    | [], none => (s.sat TDM_UNBOUND_count).dropNew id
    | l, _ => (s.each l (fun m u => u.toMember m d.data)).release id
  | _, _ => s)

/-- MEMBER_DOWN (R300, R301): member m has had no SDU accepted for 2K + 8 ticks. -/
def execMemberDown (m : Fin 48) (s : State) : Host.Outcome State Fault Refusal :=
  let m := m.val
  let x := s.mem m
  let c := s.get (TDM_MEM_CFG_circuit m)
  .next (if s.on (TDM_MEM_CFG_valid m) && s.on (TDM_MEM_STATUS_up m) &&
      x.last.any (fun l => decide (l + 2 * x.k + 8 ≤ s.tick.edges)) then
    let s := (s.memberUp m false).setMem m { x with runFrom := none }
    s.judgeCircuit c
  else s)

/-! ### Seconds (R289, R302) -/

/-- Errored and severely errored, by port type and framing (Table 11.3). -/
def State.pmJudge (s : State) (t blocks seen : Nat) : Bool × Bool :=
  let low := seen % 8 != 0
  match s.tribType t with
  | 1 => if s.on (TDM_TRIB_CFG_crc4 t) then (decide (1 ≤ blocks) || seen % 16 != 0, decide (300 ≤ blocks) || low)
      else (decide (1 ≤ blocks) || low, decide (28 ≤ blocks) || low)
  | 2 => (decide (1 ≤ blocks) || low, decide ((if s.on (TDM_TRIB_CFG_esf t) then 320 else 8) ≤ blocks) || low)
  | _ => (decide (1 ≤ blocks) || low || bit seen 5, decide (2400 ≤ blocks) || bit seen 0 || bit seen 2)

/-- The seconds with the newest appended: a run of ten that changes availability takes the new state (R289). The list,
and whether availability changed. -/
def pmAppend (l : List PmSecond) (un : Bool) (es ses : Bool) : List PmSecond × Bool :=
  let l := l ++ [⟨es, ses, un⟩]
  let ten := l.drop (l.length - 10)
  if ten.length = 10 ∧ ten.all (fun x => x.ses != un) then
    (l.take (l.length - 10) ++ ten.map (fun x => { x with un := !un }), true)
  else (l, false)

/-- A second of port t ends. -/
def State.pmSecond (s : State) (t blocks : Nat) : State :=
  let p := s.tdmPort t
  let j := s.pmJudge t blocks p.seen
  let un := s.on (TDM_TRIB_DEFECT_unavail t)
  let r := pmAppend p.secs un j.1 j.2
  let s := s.satBy (TDM_TRIB_CNT_count t 11) blocks
  let s := if r.2 then (s.putB (TDM_TRIB_DEFECT_unavail t) (!un)).logBoth (s.tdmOwner t) 0x0A08 (fdata t 0 0)
    else s
  let out := r.1.take (r.1.length - 10)
  let s := s.each out (fun x u => if x.un then u.tribCnt t 14
    else (u.when x.es (fun v => v.tribCnt t 12)).when x.ses (fun v => v.tribCnt t 13))
  s.setTdmPort t { p with seen := s.get (TDM_TRIB_DEFECT_reported t), secs := r.1.drop (r.1.length - 10) }

/-- Recentring of circuit c at the end of a second (R302). -/
def State.recentre (s : State) (c : Nat) : State :=
  let x := s.circuit c
  let s := s.setCircuit c { x with least := none }
  if s.on (TDM_CIR_STATUS_started c) && x.least.any (fun l => decide (s.get (TDM_CIR_CFG_delay c) + 1 < l)) then
    let p := s.get (TDM_CIR_STATUS_p c)
    let s := (s.put (TDM_CIR_STATUS_p c) ((p + 1) % 65536)).tribCnt (s.get (TDM_CIR_CFG_port c)) 15
    s.setCircuit c { x with least := none, slots := x.slots.filter (fun y => y.f != p) }
  else s

/-- A second ends, with the errored blocks of it by port (R289, R302). -/
def State.endSecond (s : State) (blocks : List Nat) : State :=
    let s := { s with tdm := { s.tdm with second := some s.tick.edges } }
    let s := s.each ((List.range 12).filter s.framed) (fun t u => u.pmSecond t (blocks.getD t 0))
    let s := s.each ((List.range 12).filter (fun c => s.on (TDM_CIR_CFG_valid c))) (fun c u => u.recentre c)
    let s := s.each ((List.range 48).filter (fun m => s.on (TDM_MEM_CFG_valid m))) (fun m u =>
      let x := u.mem m
      let v := match x.least with | some l => l | none => u.free % 256
      ((u.when x.least.isNone State.tookFree).put (TDM_MEM_STATUS_slack_min m) v).setMem m { x with least := none })
    let s := s.when s.tdm.pmClr (fun u =>
      u.each (List.range 12) (fun t v => v.each [11, 12, 13, 14] (fun k w => w.put (TDM_TRIB_CNT_count t k) 0)))
    { s with tdm := { s.tdm with pmClr := false } }

/-- PM_SECOND_END (R289, R302). -/
def execPmSecondEnd (blocks : List Nat) (s : State) : Host.Outcome State Fault Refusal :=
  .next (if s.tick.fc % 8000 ≠ 0 ∨ s.tdm.second = some s.tick.edges then s else s.endSecond blocks)

/-! ### Configuration (R292 to R294) -/

/-- The word that the register at address a will hold from the next tick edge. -/
def State.tdmNext (s : State) (a : Nat) : Word :=
  match s.tdm.writes.reverse.find? (fun w => w.1 == a) with
  | some w => w.2
  | none => s.word a

/-- Field f of a word. -/
def fieldOf (w : Word) (f : Field) : Nat := bits w.toNat f.hi f.lo

/-- The words of the circuits and members with one of them replaced. -/
def State.cirWord (s : State) (a : Nat) (w : Word) (c : Nat) : Word :=
  if 0x180800 + 0x10 * c = a then w else s.tdmNext (0x180800 + 0x10 * c)
def State.memWord (s : State) (a : Nat) (w : Word) (m : Nat) : Word :=
  if 0x181000 + 0x40 * m = a then w else s.tdmNext (0x181000 + 0x40 * m)

/-- The valid circuits of niche n, and the valid members of them, with word w at address a. -/
def State.tdmCounts (s : State) (a : Nat) (w : Word) (n : Nat) : Nat × Nat :=
  let cv := fun c => fieldOf (s.cirWord a w c) (TDM_CIR_CFG_valid 0) == 1
  let own := fun c => s.tdmOwner (fieldOf (s.cirWord a w c) (TDM_CIR_CFG_port 0))
  let mv := fun m => fieldOf (s.memWord a w m) (TDM_MEM_CFG_valid 0) == 1
  let mc := fun m => fieldOf (s.memWord a w m) (TDM_MEM_CFG_circuit 0)
  (((List.range 12).filter (fun c => cv c && own c == some n)).length,
    ((List.range 48).filter (fun m => mv m && cv (mc m) && own (mc m) == some n)).length)

/-- A write of word w at address a takes the circuits or the members of a niche beyond its PORTS counts (R293). -/
def State.tdmLimit (s : State) (a : Nat) (w : Word) : Bool :=
  (List.range 16).any (fun n => match s.section n with
    | none => false
    | some x =>
      let old := s.tdmCounts a (s.tdmNext a) n
      let new := s.tdmCounts a w n
      (decide (old.1 < new.1) && decide (x.circuits < new.1)) || (decide (old.2 < new.2) && decide (x.members < new.2)))

/-- An accepted write awaits the tick edge. -/
def State.tdmQueue (s : State) (a : Nat) (w : Word) : State :=
  { s with tdm := { s.tdm with writes := s.tdm.writes ++ [(a, w)] } }

/-- CFG_BAD and LIMIT (R292, R293). -/
def State.tdmBad (s : State) (code index : Nat) : State := s.logDev code 0xF (fdata index 0 0)

/-- A circuit word that R292 refuses. -/
def State.cirRefused (s : State) (c : Nat) (w : Word) : Bool :=
  let port := fieldOf w (TDM_CIR_CFG_port 0)
  decide (16 < fieldOf w (TDM_CIR_CFG_delay 0)) || (fieldOf w (TDM_CIR_CFG_valid 0) == 1 &&
    (decide (12 ≤ port) || (s.tdmOwner port).isNone || (List.range 12).any (fun d => d != c &&
      fieldOf (s.tdmNext (0x180800 + 0x10 * d)) (TDM_CIR_CFG_valid 0) == 1 &&
      fieldOf (s.tdmNext (0x180800 + 0x10 * d)) (TDM_CIR_CFG_port 0) == port)))

/-- TDM_CIR_WRITE (R292, R293). -/
def execTdmCirWrite (c : Fin 12) (data : Word) (s : State) : Host.Outcome State Fault Refusal :=
  let c := c.val
  let a := 0x180800 + 0x10 * c
  let w := data &&& 0x8F1FFFFF#32
  .next (if s.cirRefused c w then s.tdmBad 0x0A05 c else if s.tdmLimit a w then s.tdmBad 0x0A06 c else s.tdmQueue a w)

/-- A valid member word that R292 refuses. -/
def State.memRefused (s : State) (m : Nat) (w : Word) : Bool :=
  let c := fieldOf w (TDM_MEM_CFG_circuit 0)
  let cw := s.tdmNext (0x180800 + 0x10 * c)
  let owner := s.tdmOwner (fieldOf cw (TDM_CIR_CFG_port 0))
  let dfid := fieldOf w (TDM_MEM_CFG_dfid 0)
  let ufid := fieldOf w (TDM_MEM_CFG_ufid 0)
  decide (12 ≤ c) || fieldOf cw (TDM_CIR_CFG_valid 0) == 0 ||
  (List.range 48).any (fun i =>
    let v := s.tdmNext (0x181000 + 0x40 * i)
    i != m && fieldOf v (TDM_MEM_CFG_valid 0) == 1 && fieldOf v (TDM_MEM_CFG_circuit 0) == c &&
      fieldOf v (TDM_MEM_CFG_mnum 0) == fieldOf w (TDM_MEM_CFG_mnum 0)) ||
  (if fieldOf w (TDM_MEM_CFG_path 0) = 1 then
    fieldOf w (TDM_MEM_CFG_pack 0) != 0 || !s.pairedAs 2 || decide (48 ≤ dfid) || decide (48 ≤ ufid)
  else
    !s.on (DSL_FID_valid dfid) || s.get (DSL_FID_dest dfid) != 1 || !s.on (USL_FID_valid ufid) ||
      s.allocOwner (s.get (USL_FID_alloc ufid)) != owner || s.on (USL_ALLOC_bound (s.get (USL_FID_alloc ufid))))

/-- TDM_MEM_WRITE (R292, R293). -/
def execTdmMemWrite (m : Fin 48) (data : Word) (s : State) : Host.Outcome State Fault Refusal :=
  let m := m.val
  let a := 0x181000 + 0x40 * m
  let w := data &&& 0xFFEFFFFF#32
  .next (if fieldOf w (TDM_MEM_CFG_valid 0) = 1 ∧ s.memRefused m w then s.tdmBad 0x0A05 m
  else if s.tdmLimit a w then s.tdmBad 0x0A06 m
  else s.tdmQueue a w)

/-- The circuits that pending writes change, by themselves or by a member (R294). -/
def State.tdmTouched (s : State) : List Nat :=
  (List.range 12).filter (fun c =>
    s.tdmNext (0x180800 + 0x10 * c) != s.word (0x180800 + 0x10 * c) ||
    (List.range 48).any (fun m =>
      let old := s.word (0x181000 + 0x40 * m)
      let new := s.tdmNext (0x181000 + 0x40 * m)
      old != new && (fieldOf old (TDM_MEM_CFG_circuit 0) == c || fieldOf new (TDM_MEM_CFG_circuit 0) == c)))

/-- TDM_CONFIG_APPLY (R294): queued writes take effect at the tick edge; a circuit that changes restarts unstarted and its
member SDUs still queued are discarded. -/
def execTdmConfigApply (s : State) : Host.Outcome State Fault Refusal :=
  let touched := s.tdmTouched
  let ms := touched.flatMap s.membersOf
  let fresh := touched.filter (fun c => !s.on (TDM_CIR_CFG_valid c))
  let s := s.each ms (fun m u => (u.dropMembers m).setMem m { u.mem m with got := [] })
  let s := s.each s.tdm.writes (fun w u => u.setWord w.1 w.2)
  let s := { s with tdm := { s.tdm with writes := [] } }
  let s := s.each touched (fun c u => u.unstart c)
  .next (s.each fresh (fun c u => (u.setCircuit c { u.circuit c with seq := 0 }).putB (TDM_CIR_STATUS_down c) false))

end Sys2Proof.Machine
end

