-- ==== Sys2Proof/Machine/Arm.lean ====
section
/-!
DEFINITION. The Armature block: staging, the check, accept and re-carve commands, acceptance and the application
of a re-carve (spec/03_armature_images.md).
-/

namespace Sys2Proof.Machine

open Sys2Proof

/-! ### Staging -/

/-- ARM_LOAD_ADDR written: the staging offset is set and end cleared; discarded and logged as BUSY while the block is
busy (R69, R70). -/
def execArmLoadAddrWrite (data : Word) (s : State) : Host.Outcome State Fault Refusal :=
  .next (if s.on ARM_STATUS_busy then s.logDev 0x0114 0xF 0
    else (s.put ARM_LOAD_ADDR_word (bits data.toNat 17 2)).putB ARM_LOAD_ADDR_end false)

/-- Word w staged at word offset o. -/
def State.stage (s : State) (o : Nat) (w : Word) : State :=
  { s with arm := { s.arm with staging := storeSet (fun _ => (0 : Word)) s.arm.staging o w
                               badWords := s.arm.badWords.filter (fun x => x != o) } }

/-- ARM_LOAD_DATA written: one word is staged and the offset advances up to 0xFFFF, where end is set; with end set, or
while the block is busy, the write is discarded (R69, R70; assumption 55, DEDUCED). -/
def execArmLoadDataWrite (data : Word) (s : State) : Host.Outcome State Fault Refusal :=
  let o := s.get ARM_LOAD_ADDR_word
  .next (if s.on ARM_STATUS_busy then s.logDev 0x0114 0xF 0
    else if s.on ARM_LOAD_ADDR_end then s
    else if o = 0xFFFF then (s.stage o data).putB ARM_LOAD_ADDR_end true
    else (s.stage o data).put ARM_LOAD_ADDR_word (o + 1))

/-! ### Commands -/

/-- A command is refused with a code: ARM_STATUS.code, the log and PF vector 0 (R59, R583). -/
def State.armRefuse (s : State) (code : Nat) : State :=
  ((s.put ARM_STATUS_code code).logDev code 0xF 0).raisePf 0

/-- A re-carve is refused: it counts as well. -/
def State.countRefused (s : State) (c : ArmCmd) : State :=
  s.when (c == .recarve) (fun t => t.sat ARM_RECARVE_CNT_refused)

/-- A command is refused with BUSY: checks or a re-carve are in progress, or for a re-carve a Cast is armed or a
power-mode entry is in progress (Table 3.8, R61, R67). -/
def State.armBusy (s : State) (c : ArmCmd) : Bool :=
  s.on ARM_STATUS_busy || s.arm.carve.isSome ||
    (c == .recarve && (s.get CST_STATUS_state == 3 || s.on PWR_STATUS_entering))

/-- Number of a command in ARM_STATUS.last_cmd. -/
def ArmCmd.number : ArmCmd → Nat
  | .check => 1
  | .accept => 2
  | .recarve => 3

/-- A command of ARM_CMD: its checks start, or after acceptance the digest comparison of R62. -/
def State.armStart (s : State) (c : ArmCmd) : State :=
  if s.armBusy c then (s.armRefuse 0x0114).countRefused c
  else
    let s := (s.putB ARM_STATUS_busy true).put ARM_STATUS_last_cmd c.number
    let s := s.when (!s.on GLB_SERVICE_arm && c == .accept) (fun t => t.put ARM_STATUS_state 1)
    { s with arm := { s.arm with job := some ⟨c, c == .accept && s.on GLB_SERVICE_arm⟩ } }

/-- ARM_CMD.check (R62, R64). -/
def execArmCheck (s : State) : Host.Outcome State Fault Refusal := .next (s.armStart .check)

/-- ARM_CMD.accept (R61, R62). -/
def execArmAccept (s : State) : Host.Outcome State Fault Refusal := .next (s.armStart .accept)

/-- ARM_CMD.recarve (R64, R67). -/
def execArmRecarve (s : State) : Host.Outcome State Fault Refusal := .next (s.armStart .recarve)

/-- More than one bit of ARM_CMD written: FORMAT, which names no image (Table 3.12, R583). -/
def execArmCmdMultiBit (s : State) : Host.Outcome State Fault Refusal := .next (s.armRefuse 0x0103)

/-- The block is no longer busy with its checks. -/
def State.armIdle (s : State) : State :=
  let s := s.putB ARM_STATUS_busy false
  let s := s.when (!s.on GLB_SERVICE_arm) (fun t => t.put ARM_STATUS_state 0)
  { s with arm := { s.arm with job := none } }

/-- Order 1 of Table 3.8: a staged word of the image was copied from flash with incomplete or ecc set. -/
def State.badSource (s : State) : Bool :=
  let len := beAt (s.staged 32) 12 4
  s.arm.badWords.any (fun w => decide (4 * w < max 32 (min len 262144)))

/-- The staged image: its header tells how many bytes are read. -/
def State.stagedImage (s : State) : List Byte :=
  let len := beAt (s.staged 32) 12 4
  s.staged (if len ≤ 262144 then max 32 len else 32)

/-- Key slots of niche n that a structure takes from it. -/
def State.leaving (s : State) (n : Nat) (x : Structure) : List Nat :=
  let has := fun (c : NicheSec) (k : Nat) => c.keys.any (fun e => decide (e.1 ≤ k) && decide (k < e.1 + e.2))
  match s.section n, x.secs.find? (fun p => p.1 == n) with
  | some old, some new => (List.range 256).filter (fun k => has old k && !has new.2 k)
  | _, _ => []

/-- The re-carve requests niche reset and zeroes the key slots that leave the niche (R66, R72). -/
def State.requestCarve (s : State) (c : ReadyCarve) : State :=
  let s := s.each (s.leaving c.niche c.struct_) (fun k t => t.emptySlot k)
  let s := s.requestHeld c.niche 3 .recarve
  { s with arm := { s.arm with carve := some { c with requested := true } } }

/-- A re-carve has passed: it waits for a niche reset of its niche that is in progress (R71), and otherwise proceeds at
once. -/
def State.beginCarve (s : State) (n : Nat) (x : Structure) : State :=
  let s := s.putB ARM_STATUS_recarve_pending true
  let c : ReadyCarve := ⟨n, x, false⟩
  if (s.nreset n).active then { s with arm := { s.arm with carve := some c } } else s.requestCarve c

/-- What the checks of the staged image for a command come to. -/
def State.armResult (s : State) (c : ArmCmd) : Except Failure (Image × Structure) :=
  if s.badSource then .error (0x0115, 0) else s.checkImage c s.stagedImage

/-- The result of the checks of a command is reported, and a passed image goes on to its tick edge or its niche's reset
(R59, R61, R66). -/
def State.armReport (s : State) (c : ArmCmd) (r : Except Failure (Image × Structure)) : State :=
  match r with
  | .error e => (((s.armIdle).put ARM_FAIL_OFF_offset e.2).armRefuse e.1).countRefused c
  | .ok (m, x) =>
    let pass := fun (t : State) => (t.put ARM_STATUS_code 0).put ARM_FAIL_OFF_offset 0xFFFFFFFF
    match c with
    | .check => pass s.armIdle
    | .accept =>
      let s := pass s
      let a : ReadyImage := ⟨x, beAt m.data 16 4, beAt m.data 20 4, sha384 m.data, m.deviceBytes⟩
      { s with arm := { s.arm with job := none, ready := some a } }
    | .recarve => (pass s.armIdle).beginCarve m.niche x

/-- The checks complete (R59, R61, R66; assumption 55, DEDUCED). -/
def execArmChecksDone (s : State) : Host.Outcome State Fault Refusal :=
  .next (match s.arm.job with
    | none => s
    | some j => if j.compare then s else s.armReport j.cmd (s.armResult j.cmd))

/-- The accepted image's digest as its registers hold it. -/
def State.armDigest (s : State) : List Byte := (List.range 12).flatMap (fun n => beBytes 4 (s.get (ARM_DIGEST_digest n)))

/-- The digest comparison ends (R62; assumption 55, DEDUCED). A comparison that succeeds is taken as a command whose checks
all pass, so ARM_FAIL_OFF takes 0xFFFF_FFFF (R583; assumption 98, DESIGN CHOICE). -/
def execArmDigestCompareDone (s : State) : Host.Outcome State Fault Refusal :=
  .next (match s.arm.job with
    | none => s
    | some j =>
      if !j.compare then s
      else
        let len := beAt (s.staged 32) 12 4
        let s := s.armIdle
        if len ≤ 262144 && sha384 (s.staged len) == s.armDigest && !s.badSource then
          (s.put ARM_STATUS_code 0).put ARM_FAIL_OFF_offset 0xFFFFFFFF
        else (s.put ARM_FAIL_OFF_offset 0).armRefuse 0x0118)

/-! ### Acceptance -/

/-- The niche that owns every point of a list, where the list is not empty and one niche does. -/
def soleOwner (l : List (Option Nat)) : Nat :=
  match l with
  | some n :: rest => if rest.all (· == some n) then n else 0xF
  | _ => 0xF

/-- Owner of power domain d under the accepted structure: a niche's number, or 0xF for the PF (spec/03, What the
Armature fixes). -/
def State.pdOwner (s : State) (d : Nat) : Nat :=
  match s.device with
  | none => 0xF
  | some x =>
    if 38 ≤ d ∧ d < 54 then d - 38
    else if 17 ≤ d ∧ d < 23 then soleOwner (if x.eth.getD (d - 17) 0 = 0 then [] else [s.ethOwner (d - 17)])
    else if d = 23 then soleOwner ((onesOf 8 x.tribEn).map s.tdmOwner)
    else if d = 24 then soleOwner ((onesOf 4 x.c37).map (fun i => s.tdmOwner (8 + i)))
    else if d = 26 then soleOwner ((onesOf 4 x.tout).map s.toutOwner ++ (onesOf 4 x.tin).map s.tinOwner ++
      (List.range 8).map s.dinOwner ++ (List.range 4).map s.doutOwner)
    else 0xF

/-- The registers that follow from the structure in force: phase costs, domain owners, cell quotas. -/
def State.showStructure (s : State) : State :=
  match s.arm.accepted with
  | none => s
  | some x =>
    let s := s.each (List.range 12) (fun p t => t.put (ARM_PHASE_COST_cost p) (x.costs.getD p 0))
    let s := s.each (List.range 7) (fun i t => t.put (ARM_PD_OWNER_owner i)
      ((List.range 8).map (fun j => s.pdOwner (8 * i + j) * 16 ^ j)).sum)
    s.each (List.range 16) (fun n t => match t.section n with
      | some c => (t.put (CEL_NMIN_cells n) c.cellMin).put (CEL_NMAX_cells n) c.cellMax
      | none => (t.put (CEL_NMIN_cells n) 0).put (CEL_NMAX_cells n) 0)

/-- A passed image is accepted at the tick edge (R61): GLB_SERVICE.arm, ARM_DIGEST, the costs and budgets, and the niche
logic of the existing niches (R210). A key slot that a niche receives from the PF is zeroed (R72). No register of the map has access code RWL, so R51 loads none. -/
def State.acceptImage (s : State) (a : ReadyImage) : State :=
  let s := { s with arm := { s.arm with ready := none, accepted := some a.struct_, devBytes := a.devBytes } }
  let s := (s.putB GLB_SERVICE_arm true).put ARM_STATUS_state 2
  let s := ((s.putB ARM_STATUS_busy false).put ARM_SERIAL_serial a.serial).put ARM_EPOCH_epoch a.epoch
  let s := s.put ARM_NICHES_niches a.struct_.dev.niches
  let s := s.each (List.range 12) (fun n t => t.put (ARM_DIGEST_digest n) (beAt a.digest (4 * n) 4))
  let s := s.each (List.range 12) (fun p t => t.put (TICK_PHASE_BUDGET_budget p) (a.struct_.dev.budget.getD p 0))
  let s := { s with pwr := { s.pwr with
    on := (onesOf 16 a.struct_.dev.niches).foldl (fun w n => setBit w (38 + n)) s.pwr.on } }
  let s := s.each ((List.range 256).filter (fun k => (s.slotOwner k).isSome)) (fun k t => t.emptySlot k)
  (s.each ((List.range 12).filter s.framed) (fun t u => u.startPort t)).showStructure

/-- The tick edge after the checks passed (R61). -/
def execArmatureAcceptance (s : State) : Host.Outcome State Fault Refusal :=
  .next (match s.arm.ready with
    | some a => s.acceptImage a
    | none => s)

/-! ### Re-carving -/

/-- Every cell that niche n held has passed the scrub engine (R66; assumption 49, DEDUCED). -/
def State.scrubbed (s : State) (n : Nat) : Bool :=
  s.held n == 0 && !s.cel.scrub.any (fun r => r.niche == n && decide (0 < r.count))

/-- The new section of a niche takes effect (R66): key slots that change owner are zeroed (R72), the
classifier's tables and profiles follow, the registers of the structure follow, and the re-carve's hold on the niche ends (R71, R558). -/
def State.applyCarve (s : State) (c : ReadyCarve) : State :=
  let was := s
  let s := { s with arm := { s.arm with accepted := some c.struct_, carve := none } }
  let s := s.each ((List.range 256).filter (fun k => was.slotOwner k != s.slotOwner k)) (fun k t => t.emptySlot k)
  let s := s.moveTables was c.niche
  let s := ((s.putB ARM_STATUS_recarve_pending false).sat ARM_RECARVE_CNT_applied).showStructure
  s.modNreset c.niche (fun r => { r with holds := r.holds.filter (fun h => h != .recarve) })

/-- A tick edge at which the conditions of R66 hold while the niche is still in reset. -/
def execRecarveApply (s : State) : Host.Outcome State Fault Refusal :=
  .next (match s.arm.carve with
    | some c => if c.requested && s.closed c.niche && s.scrubbed c.niche then s.applyCarve c else s
    | none => s)

end Sys2Proof.Machine
end

