-- ==== Sys2Proof/Machine/Deliver.lean ====
section
/-!
DEFINITION. Where a completed downstream SDU goes (R91, R195, R200 to R203): guard windows, the span map and the
destination that its DSL_FIDn entry names.
-/

namespace Sys2Proof.Machine

open Sys2Proof

/-! ### Guard windows (R201, R203) -/

/-- What a window decides on a copy. -/
inductive Verdict where
  | accept
  | duplicate
  | stale
  deriving DecidableEq, Repr

/-- A window that starts with number n. -/
def GuardWin.begin (n : Nat) : GuardWin := ⟨true, n, 1, 0⟩

/-- The window after a copy of number seq (R201), and whether it restarted (R203). Mark i stands for the number high − i
(assumption 76, DEDUCED). -/
def GuardWin.take (w : GuardWin) (seq : Nat) : Verdict × GuardWin × Bool :=
  let d := (seq + 65536 - w.high) % 65536
  let back := (w.high + 65536 - seq) % 65536
  if !w.started then (.accept, .begin seq, false)
  else if 1 ≤ d ∧ d ≤ 32767 then (.accept, ⟨true, seq, BitVec.ofNat 1024 (w.marks.toNat * 2 ^ d + 1), 0⟩, false)
  else if back ≤ 1023 then
    if bit w.marks.toNat back then (.duplicate, { w with stale := 0 }, false)
    else (.accept, { w with marks := BitVec.ofNat 1024 (setBit w.marks.toNat back), stale := 0 }, false)
  else if 64 ≤ w.stale + 1 then (.accept, .begin seq, true)
  else (.stale, { w with stale := w.stale + 1 }, false)

/-- The window of guard flow n. -/
def State.guardWin (s : State) (n : Nat) : GuardWin :=
  match s.pnd.wins.find? (fun p => p.1 == n) with
  | some p => p.2
  | none => ⟨false, 0, 0, 0⟩

/-- A tag that R200 takes on guard flow n. -/
def tagGood (n : Nat) (b : List Byte) : Bool :=
  decide (4 ≤ b.length) && byteAt b 3 == crc8 (b.take 3) && byteAt b 0 == n

/-- A tag that R200 refuses. -/
def State.tagBad (s : State) : State := (s.pndCnt 8).limDev 0x0606 0xF 0

/-- A copy of number seq passes through the window of guard flow n: whether it is delivered, and the state after it. -/
def State.window (s : State) (n seq : Nat) : Bool × State :=
  let r := (s.guardWin n).take seq
  let s := { s with pnd := { s.pnd with wins := s.pnd.wins.filter (fun (p : Nat × GuardWin) => p.1 != n) ++ [(n, r.2.1)] } }
  let s := if r.2.2 then (s.pndCnt 10).logDev 0x0607 0xF 0 else s
  match r.1 with
  | .accept => (true, s.pndCnt 5)
  | .duplicate => (false, s.pndCnt 6)
  | .stale => (false, s.pndCnt 7)

/-! ### Destinations -/

/-- An SDU of N0 goes to the destination that DSL_FIDn entry f names (R91): the classifier as source 6, a TDM member, or the
management channel, whose words await the mailbox (R127). -/
def State.toDest (s : State) (id f : Nat) : State :=
  match s.get (DSL_FID_dest f), s.sdu id with
  | 0, some _ =>
    let s := s.modSdu id (fun d => { d with source := 6, keyMeta := f })
    { s with cls := { s.cls with waiting := s.cls.waiting ++ [id] } }
  | 1, some _ => { s with dsl := { s.dsl with ready := s.dsl.ready ++ [⟨id, f⟩] } }
  | 2, some d =>
    let m := s.sup.line
    let ws := beWords (d.data.length / 4) d.data
    let h := (ws.headD 0).toNat
    -- exactly one mailbox message (spec/21, Staging)
    let s := if d.data.length % 4 = 0 ∧ bits h 31 26 ≠ 0 ∧ ws.length = bits h 5 0 + 2 then
        { s with sup := { s.sup with line := { m with rx := m.rx ++ ws } } }
      else (s.sat (SUP_CNT_count 5)).limDev 0x1002 0xF 0
    s.release id
  | _, _ => s.release id

/-- A copy on guard flow n that the egress side accepts loses its tag and goes to the flow's destination (R202). -/
def State.guardCopy (s : State) (id n f : Nat) : State :=
  match s.sdu id with
  | none => s
  | some d =>
    let w := s.window n (beAt d.data 1 2)
    if w.1 then (w.2.modSdu id (fun x => { x with data := x.data.drop 4 })).toDest id f
    else w.2.release id

/-- An SDU that has completed on the line's flow f (R91, R195, R200; Table 7.10 while the link is not UP). -/
def State.lineDeliver (s : State) (id f : Nat) : State :=
  match s.sdu id with
  | none => s
  | some d =>
    match if s.boundAs 2 then s.downGflow f else none with
    | some n =>
      if !tagGood n d.data then s.tagBad.release id
      else if s.on (PND_GFLOW_egress n) then s.guardCopy id n f
      else if s.pairedAs 2 && s.linkUp then ((s.sendRecord 0x11 n d.data).pndCnt 4).release id
      else (s.pndCnt 9).release id
    | none =>
      if s.boundAs 1 && !s.on PND_STATUS_role && s.marked (PND_SPANMAP_map (f / 32)) (f % 32) then
        if s.pairedAs 1 && s.linkUp then ((s.sendRecord 0x13 f d.data).pndCnt 12).release id
        else (s.pndCnt 9).release id
      else s.toDest id f

/-- A whole SDU goes on. -/
def State.goOn (s : State) (id : Nat) (o : Onward) : State :=
  match o with
  | .line f => s.lineDeliver id f
  | .copy n f => s.guardCopy id n f
  | .dest f => s.toDest id f

/-- An SDU whose last byte has arrived goes on at once, or when the cells that it waits for are granted (R218, R219). -/
def State.forward (s : State) (id : Nat) (o : Onward) : State :=
  if s.written id then s.goOn id o else s.modSdu id (fun d => { d with onward := some o })

/-- An SDU that a record brings for flow f: written into cells of N0 as if it had been reassembled from the line. -/
def State.fromRecord (s : State) (data : List Byte) : Nat × State :=
  (s.cel.nextId, s.admitSdu { id := 0, owner := 0, data := data, source := 6 })

end Sys2Proof.Machine
end

