-- ==== Sys2Proof/Machine/Rings.lean ====
section
/-!
DEFINITION. Host rings (spec/16): indices, completions, write-back and signalling, for every user of a ring.
-/

namespace Sys2Proof.Machine

open Sys2Proof

/-- Entries S of a ring. -/
def State.ringSize (s : State) (n r : Nat) : Nat := 2 ^ s.get (HIF_RING_CFG_log2size n r)

/-- Descriptors posted and not yet consumed. -/
def State.ringPosted (s : State) (n r : Nat) : Nat :=
  (s.get (HIF_RING_PROD_index n r) + 2 ^ 32 - s.get (HIF_RING_CONS_index n r)) % 2 ^ 32

/-- Ring r of niche n is enabled with a kind, not stopped, and its function may use DMA (R428, R225). -/
def State.ringRuns (s : State) (n r kind : Nat) : Bool :=
  s.on (HIF_RING_CFG_en n r) && s.get (HIF_RING_CFG_kind n r) == kind &&
    !s.on (HIF_RING_STATUS_err n r) && !s.closed n &&
    (match s.servedBy n with
     | some f => (s.fn f).bme
     | none => false)

/-- What a ring holds beside its registers. -/
def State.ring (s : State) (n r : Nat) : RingState := storeGet (fun _ => ⟨0, none⟩) s.hif.rings (64 * n + r)

/-- s with that changed to x. -/
def State.setRing (s : State) (n r : Nat) (x : RingState) : State :=
  { s with hif := { s.hif with rings := storeSet (fun _ => ⟨0, none⟩) s.hif.rings (64 * n + r) x } }

/-- Completion array address and write-back address of a ring. -/
def State.ringCbase (s : State) (n r : Nat) : Nat :=
  s.get (HIF_RING_CBASE_HI_addr n r) * 2 ^ 32 + s.get (HIF_RING_CBASE_LO_addr n r)
def State.ringWb (s : State) (n r : Nat) : Nat :=
  s.get (HIF_RING_WB_HI_addr n r) * 2 ^ 32 + s.get (HIF_RING_WB_LO_addr n r)

/-- A DMA write by the function that serves niche n (R427). -/
def State.dmaWrite (s : State) (n addr : Nat) (b : List Byte) : State :=
  match s.servedBy n with
  | some f => s.send (.dmaWrite f addr b)
  | none => s

/-- The completion of descriptor i of a ring is written (Table 16.4). -/
def State.writeCompletion (s : State) (n r i : Nat) (rec : List Byte) : State :=
  s.dmaWrite n (s.ringCbase n r + rec.length * (i % s.ringSize n r)) rec

/-- The vector of a ring is raised and what it reports counts as signalled (R436). -/
def State.signalRing (s : State) (n r : Nat) : State :=
  (s.setRing n r ⟨s.get (HIF_RING_CPROD_index n r), none⟩).raiseNiche n r

/-- Completions of a ring not yet signalled. -/
def State.ringUnsignalled (s : State) (n r : Nat) : Nat :=
  (s.get (HIF_RING_CPROD_index n r) + 2 ^ 32 - (s.ring n r).signalled) % 2 ^ 32

/-- CPROD advances by one and is written back; the vector follows under R436 (R435). -/
def State.advanceCprod (s : State) (n r : Nat) : State :=
  let k := s.get (HIF_RING_CPROD_index n r) + 1
  let s := (s.put (HIF_RING_CPROD_index n r) k).dmaWrite n (s.ringWb n r) (leBytes 4 k ++ zeros 4)
  let x := s.ring n r
  let s := s.setRing n r { x with firstAt := some (x.firstAt.getD s.clk) }
  if max 1 (s.get (HIF_RING_ITR_count n r)) ≤ s.ringUnsignalled n r ∨ s.get (HIF_RING_ITR_holdoff n r) = 0
  then s.signalRing n r else s

/-- The completion of descriptor i of a ring, the next in index order. -/
def State.completeAt (s : State) (n r i : Nat) (rec : List Byte) : State :=
  ((s.writeCompletion n r i rec).put (HIF_RING_CPROD_index n r) i).advanceCprod n r

/-- The next completion of a ring in index order. -/
def State.complete (s : State) (n r : Nat) (rec : List Byte) : State :=
  s.completeAt n r (s.get (HIF_RING_CPROD_index n r)) rec

/-- k descriptors of a ring are consumed. -/
def State.consume (s : State) (n r k : Nat) : State :=
  s.put (HIF_RING_CONS_index n r) (s.get (HIF_RING_CONS_index n r) + k)

/-- A DMA error stops a ring (spec/16, If a DMA request fails). -/
def State.ringError (s : State) (n r : Nat) : State :=
  let s := (s.putB (HIF_RING_STATUS_err n r) true).put (HIF_RING_STATUS_code n r) 0x0F03
  (s.sat (HIF_NCNT_count n 4)).logNiche n 0x0F03 0

/-! ### Transmit SDUs (R434) -/

/-- The SDU of an id stands on a queue. -/
def State.queued (s : State) (id : Nat) : Bool :=
  match s.sdu id with
  | some d => d.queue.isSome
  | none => false

/-- A transmit completion (Table 16.9). -/
def txCompletion (ident status reason bytes : Nat) : List Byte :=
  leBytes 4 ident ++ leBytes 2 status ++ leBytes 1 reason ++ zeros 1 ++ leBytes 4 bytes ++ zeros 4

/-- The completions of an SDU of k descriptors from index i, in index order: the length in the last one alone. -/
def State.completeTx (s : State) (n r i k ident status reason len : Nat) : State :=
  s.each (List.range k) (fun j t => t.completeAt n r (i + j) (txCompletion ident status reason (if j + 1 = k then len else 0)))

/-- A transmit SDU that waited for cells has been admitted or dropped: its completions are written (R434). Its length is
that of the SDU as the ring gave it. -/
def State.txDone (s : State) (id len : Nat) : State :=
  match s.hif.txWait.find? (fun x => x.sdu == id) with
  | none => s
  | some x =>
    if (s.cel.waits.any (fun w => w.id == id)) then s
    else
      let ok := s.queued id
      let s := { s with hif := { s.hif with txWait := s.hif.txWait.filter (fun y => y.sdu != id) } }
      let s := if ok then s else (s.sat (HIF_NCNT_count x.niche 5)).put (HIF_RING_STATUS_code x.niche x.ring) 0x0F09
      let s := s.putB (HIF_RING_STATUS_idle x.niche x.ring) true
      s.completeTx x.niche x.ring x.first x.count x.ident (if ok then 0 else 0x0F09) (if ok then 0 else s.cel.why) len

end Sys2Proof.Machine
end

