-- ==== Sys2Proof/Machine/Cel.lean ====
section
/-!
DEFINITION. The commands of packet memory (spec/08): grants that waited, the scrub engine, withdrawn cells,
niche flushes and the counts that are read in two halves.
-/

namespace Sys2Proof.Machine

open Sys2Proof

/-- The wait of an SDU, where it waits for cells. -/
def State.waitOf (s : State) (id : Nat) : Option CellWait := s.cel.waits.find? (fun w => w.id == id)

/-- s without the wait of an SDU. -/
def State.endWait (s : State) (id : Nat) : State :=
  { s with cel := { s.cel with waits := s.cel.waits.filter (fun w => w.id != id) } }

/-- A waiting SDU is dropped as DROP_NOCELL; one record of a multiframe counts them all (R218). -/
def State.noCell (s : State) (id : Nat) : State :=
  match s.sdu id with
  | none => s
  | some _ => (s.dropAs id 5).limDev 0x0703 0xF 0

/-- Data bytes of an SDU. -/
def State.sduLen (s : State) (id : Nat) : Nat := ((s.sdu id).map (fun d => d.data.length)).getD 0

/-- The cells that a waiting SDU gets at a tick edge; a wait that goes on keeps the instant it began. -/
def State.grantCells (s : State) (id : Nat) (w : CellWait) : State :=
  let t := State.writeCells w.need id (s.endWait id)
  let t := { t with cel := { t.cel with
    waits := t.cel.waits.map (fun (x : CellWait) => if x.id = id then { x with since := w.since } else x) } }
  match t.sdu id with
  | none => t
  | some d =>
    if !t.written id then t
    else match d.onward, d.dest with
    | some o, _ => t.goOn id o
    | none, some q => t.enqueue id q
    | none, none => t

/-- CELL_WAIT_GRANT (R215, R218): at a tick edge an SDU that waits gets its cells, where its 4.0 µs have not
run out; it is dropped as DROP_NOCELL where they have (assumption 78, DESIGN CHOICE). -/
def execCellWaitGrant (id : Nat) (s : State) : Host.Outcome State Fault Refusal :=
  match s.waitOf id with
  | none => .next s
  | some w => .next (if s.since w.since (4 * us + 1) then (s.noCell id).txDone id (s.sduLen id)
    else (s.grantCells id w).txDone id (s.sduLen id))

/-- CELL_WAIT_TIMEOUT (R218; assumption 78, DESIGN CHOICE). -/
def execCellWaitTimeout (id : Nat) (s : State) : Host.Outcome State Fault Refusal :=
  match s.waitOf id with
  | none => .next s
  | some w => .next (if s.since w.since (4 * us) then (s.noCell id).txDone id (s.sduLen id) else s)

/-- A run of scrub-pending cells without cell c. -/
def ScrubRun.without (r : ScrubRun) (c : Nat) : List ScrubRun :=
  if r.first ≤ c ∧ c < r.first + r.count then
    ([⟨r.first, c - r.first, r.niche⟩, ⟨c + 1, r.first + r.count - (c + 1), r.niche⟩] : List ScrubRun).filter
      (fun x => x.count != 0)
  else [r]

/-- SCRUB_COMPLETE (R213): the scrub engine has zeroed the 256 bytes of a cell, which is free from then on. -/
def execScrubComplete (cell : Fin 393216) (s : State) : Host.Outcome State Fault Refusal :=
  .next { s with cel := { s.cel with scrub := s.cel.scrub.flatMap (fun (r : ScrubRun) => r.without cell.val) } }

/-- DESC_ECC_ERROR (R237): the cell is withdrawn, and the SDU that it linked is discarded as dropped. -/
def execDescEccError (cell : Fin 393216) (s : State) : Host.Outcome State Fault Refusal :=
  let c := cell.val
  if s.cel.lost.contains c then .next s
  else
    let hit := s.cel.sdus.filter (fun d => d.cells.contains c)
    let s := s.each hit (fun d t => if d.queue.isSome then t.dropQueued d.id else t.dropNew d.id)
    let s := { s with cel := { s.cel with
      scrub := s.cel.scrub.flatMap (fun (r : ScrubRun) => r.without c), lost := s.cel.lost ++ [c] } }
    .next (s.logDev 0x0702 0xF (fdata 0 0 c))

/-- NICHE_QUEUE_FLUSH (R226): every SDU queued on the QIDs of a niche in reset is released and counted as
DROP_RESET, its unsent bytes as dropped; so are its frames in the mesh's transmit store and indirect queues (spec/13). -/
def execNicheQueueFlush (n : Fin 16) (s : State) : Host.Outcome State Fault Refusal :=
  if (s.nreset n.val).active then
    let l := s.cel.sdus.filter (fun d => match d.queue with
      | some q => s.qidOwner q == some n.val
      | none => false)
    let s := s.each l (fun d t => (t.ncnt n.val 6).dropQueued d.id)
    let s := s.dropMesh (fun x => x.niche == n.val) (fun _ t => t.ncnt n.val 6)
    .next (s.modNreset n.val (fun (r : NicheReset) => { r with flushed := true }))
  else .next s

/-- CAL_ACK_WRITE (R235): cal_ok returns at the end of the next audit in which every balance holds. -/
def execCalAckWrite (data : Word) (s : State) : Host.Outcome State Fault Refusal :=
  .next (if bit data.toNat 0 then { s with cel := { s.cel with acked := true } } else s)

/-- Address of the LO register of count j of allocation a. -/
def celCountAddr (a j : Nat) : Nat := 0xC2000 + 0x20 * a + 8 * j

/-- Read of a 48-bit count's LO register by a source: its HI partner is latched for that source. -/
def State.readCelLo (s : State) (src a j : Nat) : State :=
  s.latchHi src (celCountAddr a j + 4) (BitVec.ofNat 32 (s.abytes a j / 2 ^ 32))

/-- CEL_COUNT_LO_READ (R577): of another niche's allocation a niche reads nothing (R222, R224). -/
def execCelCountLoRead (who : Agent) (a : Fin 64) (count : Fin 3) (s : State) :
    Host.Outcome State Fault Refusal :=
  let src := agentId who
  .next (s.ifOwned who (s.allocOwner a.val) (celCountAddr a.val count.val) (fun t =>
    (t.readCelLo src a.val count.val).answer src (BitVec.ofNat 32 (t.abytes a.val count.val))))

end Sys2Proof.Machine
end

