-- ==== Sys2Proof/Machine/Cph.lean ====
section
/-!
DEFINITION. The cipher engine and the key store (spec/15_cipher_engine_and_key_store.md): key slots, the line
enrolment secret, the random source, alarms and lookaside operations. Owner set o is niche o, or the PF at 16.
-/

namespace Sys2Proof.Machine

open Sys2Proof

/-! ### Owners and their reports -/

/-- Slot k belongs to owner set o (Table 15.4). -/
def State.slotOf (s : State) (k o : Nat) : Bool :=
  match s.slotOwner k with
  | some n => n == o
  | none => o == 16

/-- One occurrence of a code of R423 in the requester's log. -/
def State.cphLog (s : State) (o code data : Nat) : State :=
  s.limOwner (if o < 16 then some o else none) code data

/-- Data of a record about slot k for owner set o: the slot, only where it is the requester's own (R423). -/
def State.slotData (s : State) (o k : Nat) : Nat := if s.slotOf k o then fdata k 0 0 else 0

/-- A command of owner set o is refused with a status (Table 15.12); a cross-niche one leaves what R223 gives. -/
def State.cphRefuse (s : State) (o slot code : Nat) : State :=
  let s := s.put (CPH_LOAD_STATUS_code o) code
  if code = 1 then s.countDenied o slot
  else (s.sat (CPH_NCNT_count o 5)).cphLog o code (s.slotData o slot)

/-- CPH_LOAD_DATA of an owner set cleared (R407). -/
def State.clearLoadData (s : State) (o : Nat) : State :=
  s.each (List.range 10) (fun w t => t.put (CPH_LOAD_DATA_data o w) 0)

/-- The first n bytes of CPH_LOAD_DATA. -/
def State.loadData (s : State) (o n : Nat) : List Byte :=
  (wordBytes ((List.range 10).map (fun w => s.word (CPH_LOAD_DATA_data o w).addr))).take n

/-- Why a command of owner set o on slot k is refused before its own checks: another's slot, LOCKOUT, a line
slot (R405), a command in progress (assumption 31, DESIGN CHOICE). -/
def State.slotRefusal (s : State) (o k : Nat) : Option Nat :=
  if !s.slotOf k o then some (if o < 16 then 0x0001 else 0x0E0A)
  else if k < 64 then some 0x0E0A
  else if s.on CPH_STATUS_lockout then some 0x0E04
  else if s.on (CPH_LOAD_STATUS_busy o) then some 0x0E0A
  else none

/-- Key bytes of slot k's key length. -/
def State.keyLen (s : State) (k : Nat) : Nat := if s.on (CPH_SLOT_CFG_klen k) then 32 else 16

/-- A key command of owner set o begins. -/
def State.startKey (s : State) (j : KeyJob) : State :=
  let s := (s.putB (CPH_LOAD_STATUS_busy j.owner) true).put (CPH_LOAD_STATUS_code j.owner) 0
  { s with cph := { s.cph with jobs := s.cph.jobs ++ [j] } }

/-- CPH_PLAIN_LOAD (R407). -/
def execCphPlainLoad (o : Fin 17) (slot : Fin 256) (s : State) : Host.Outcome State Fault Refusal :=
  let k := slot.val
  match s.slotRefusal o.val k with
  | some c => .next ((s.cphRefuse o.val k c).clearLoadData o.val)
  | none =>
    if (s.keyIn k).isSome then .next ((s.cphRefuse o.val k 0x0E0A).clearLoadData o.val)
    else .next (s.startKey ⟨o.val, 1, k, some (s.loadData o.val (s.keyLen k))⟩)

/-- CPH_UNWRAP_LOAD (R407): the wrapping slot is a loaded slot of the same owner with wrap = 1. A slot of another niche is refused
as a cross-niche request before anything else (R11). -/
def execCphUnwrapLoad (o : Fin 17) (slot wslot : Fin 256) (s : State) : Host.Outcome State Fault Refusal :=
  let k := slot.val
  let w := wslot.val
  if o.val < 16 && s.slotOf k o.val && !s.slotOf w o.val then .next ((s.cphRefuse o.val w 0x0001).clearLoadData o.val)
  else match s.slotRefusal o.val k with
  | some c => .next ((s.cphRefuse o.val k c).clearLoadData o.val)
  | none =>
    if !s.slotOf w o.val then .next ((s.cphRefuse o.val w 0x0E0A).clearLoadData o.val)
    else
      match s.keyIn w with
      | some wk =>
        if (s.keyIn k).isSome || !s.on (CPH_SLOT_CFG_wrap w) then
          .next ((s.cphRefuse o.val k 0x0E0A).clearLoadData o.val)
        else .next (s.startKey ⟨o.val, 2, k, keyUnwrap wk (s.loadData o.val (s.keyLen k + 8))⟩)
      | none => .next ((s.cphRefuse o.val k 0x0E0A).clearLoadData o.val)

/-- CPH_ZERO (R407, R409): the slot is empty to every later request; the command completes once the operations
in progress on it have. -/
def execCphZero (o : Fin 17) (slot : Fin 256) (s : State) : Host.Outcome State Fault Refusal :=
  let k := slot.val
  match s.slotRefusal o.val k with
  | some c => .next ((s.cphRefuse o.val k c).clearLoadData o.val)
  | none =>
    if (s.keyIn k).isNone then .next ((s.cphRefuse o.val k 0x0E0A).clearLoadData o.val)
    else .next ((s.emptySlot k).startKey ⟨o.val, 3, k, none⟩)

/-- Slot of a lookaside descriptor. -/
def laSlot (d : List Byte) : Nat := byteAt d 1

/-- A lookaside operation in progress uses slot k. -/
def State.slotBusy (s : State) (k : Nat) : Bool :=
  s.cph.la.any (fun j => laSlot j.desc == k && j.status == 0 && !j.done)

/-- The command of owner set o has ended with a status. -/
def State.endKey (s : State) (o code : Nat) : State :=
  let s := ((s.putB (CPH_LOAD_STATUS_busy o) false).put (CPH_LOAD_STATUS_code o) code).clearLoadData o
  { s with cph := { s.cph with jobs := s.cph.jobs.filter (fun j => j.owner != o) } }

/-- KEY_LOAD_COMPLETE (R407, R409); in LOCKOUT no key is loaded (R415). -/
def execKeyLoadComplete (o : Fin 17) (s : State) : Host.Outcome State Fault Refusal :=
  match s.cph.jobs.find? (fun j => j.owner == o.val) with
  | none => .next s
  | some j =>
    if j.op = 3 then .next (if s.slotBusy j.slot then s else s.endKey o.val 0)
    else if s.on CPH_STATUS_lockout then .next ((s.cphRefuse o.val j.slot 0x0E04).endKey o.val 0x0E04)
    else match j.key with
      | some key =>
        .next ((((s.fillSlot j.slot key).sat (CPH_CNT_count 7)).sat (CPH_NCNT_count o.val 4)).endKey o.val 0)
      | none => .next ((s.cphRefuse o.val j.slot 0x0E09).endKey o.val 0x0E09)

/-- Attribute bits of CPH_SLOTn_CFG: single, wrap, dec, enc, klen and modes. -/
def slotAttrs : Nat := 0x01F0007F

/-- CPH_SLOT_CFG_WRITE (R406). -/
def execCphSlotCfgWrite (o : Fin 17) (slot : Fin 256) (data : Word) (s : State) :
    Host.Outcome State Fault Refusal :=
  let k := slot.val
  let a := data.toNat &&& slotAttrs
  if !s.slotOf k o.val then
    .next (if o.val < 16 then s.countDenied o.val k else s.cphLog 16 0x0E0A 0)
  else if k < 64 ∨ (s.keyIn k).isSome ∨ (k < 96 ∧ a ≠ 0x00600020) then
    .next (s.cphLog o.val 0x0E0A (fdata k 0 0))
  else
    let w := s.word (CPH_SLOT_CFG_klen k).addr
    .next (s.setWord (CPH_SLOT_CFG_klen k).addr
      ((w &&& ~~~(BitVec.ofNat 32 slotAttrs)) ||| BitVec.ofNat 32 a))

/-! ### The line enrolment secret (R410, R411) -/

/-- The secret is enrolled where its check value agrees and none is held; false where it is refused as
SECRET_BAD. -/
def State.enrolOk (s : State) (secret : List Byte) (kcv : Nat) : Bool :=
  s.cph.sealed.isNone && keyCheck secret == kcv

/-- The secret sealed into flash, loaded and reported as held. -/
def State.enrol (s : State) (secret : List Byte) (kcv : Nat) : State :=
  let s := (s.putB CPH_STATUS_secret true).put CPH_SECRET_KCV_kcv kcv
  { s with cph := { s.cph with secret := some secret, sealed := some secret } }

/-- The secret's sealed and loaded copies are erased. -/
def State.clearSecret (s : State) : State :=
  let s := (s.putB CPH_STATUS_secret false).put CPH_SECRET_KCV_kcv 0
  { s with cph := { s.cph with secret := none, sealed := none } }

/-- Activation is ranged: the secret may not be cleared (R411). -/
def State.secretInUse (s : State) : Bool :=
  let st := s.get ACT_STATUS_state
  st == 3 || st == 4 || st == 5

/-- The bytes of CPH_SECRET_DATA, and the registers cleared. -/
def State.secretData (s : State) : List Byte :=
  wordBytes ((List.range 8).map (fun w => s.word (CPH_SECRET_DATA_data w).addr))
def State.clearSecretData (s : State) : State := s.each (List.range 8) (fun w t => t.put (CPH_SECRET_DATA_data w) 0)

/-- SECRET_ENROL_CMD (R410). -/
def execSecretEnrolCmd (s : State) : Host.Outcome State Fault Refusal :=
  let b := s.secretData
  let k := s.get CPH_SECRET_KCV_kcv
  .next (if s.enrolOk b k then s.clearSecretData.enrol b k else s.clearSecretData.logDev 0x0E0C 0xF 0)

/-- SECRET_CLEAR_CMD (R411). -/
def execSecretClearCmd (s : State) : Host.Outcome State Fault Refusal :=
  .next (if s.secretInUse then s.logDev 0x0E0C 0xF 0 else s.clearSecret)

/-! ### Lookaside rings (R417 to R422) -/

/-- Fields of a request descriptor (Table 15.6). -/
def laOp (d : List Byte) : Nat := bits (leAt d 0 4) 3 0
def laMode (d : List Byte) : Nat := bits (leAt d 0 4) 7 4
def laTagLen (d : List Byte) : Nat := bits (leAt d 0 4) 20 16
def laIvLen (d : List Byte) : Nat := bits (leAt d 0 4) 24 21
def laText (d : List Byte) : Nat := bits (leAt d 8 4) 16 0
def laAad (d : List Byte) : Nat := bits (leAt d 12 4) 12 0

/-- op is valid for the mode: modes 0 to 5 encrypt and decrypt, CMAC generates and verifies (assumption 32, DEDUCED). -/
def laOpFits (op mode : Nat) : Bool :=
  if mode ≤ 5 then op == 1 || op == 2 else mode == 6 && (op == 3 || op == 4)

/-- The lengths of a request lie inside Table 15.3. -/
def laLengths (mode text aad iv tag : Nat) : Bool :=
  let t := decide (text ≤ 65536)
  match mode with
  | 0 | 1 => t && decide (16 ≤ text) && text % 16 == 0 && aad == 0 && iv == 0 && tag == 0
  | 2 => t && decide (1 ≤ text) && aad == 0 && iv == 0 && tag == 0
  | 3 => t && decide (aad ≤ 4096) && iv == 12 && (tag == 4 || tag == 8 || (decide (12 ≤ tag) && decide (tag ≤ 16)))
  | 4 => t && decide (aad ≤ 4096) && decide (7 ≤ iv) && decide (iv ≤ 13) &&
      decide (text < 2 ^ (8 * (15 - iv))) && tag % 2 == 0 && decide (4 ≤ tag) && decide (tag ≤ 16)
  | 5 => t && decide (aad ≤ 4096) && iv == 13 && (tag == 0 || tag == 4 || tag == 8 || tag == 16)
  | 6 => t && aad == 0 && iv == 0 && tag == 16
  | _ => false

/-- Status of a request of owner set o (Table 15.8); 0 where it passes. -/
def State.laStatus (s : State) (o : Nat) (d : List Byte) : Nat :=
  let k := laSlot d
  let op := laOp d
  let attr := if op % 2 = 1 then s.on (CPH_SLOT_CFG_enc k) else s.on (CPH_SLOT_CFG_dec k)
  if !s.slotOf k o then 0x0001
  else if s.on CPH_STATUS_lockout then 0x0E04
  else if (s.keyIn k).isNone then 0x0E05
  else if k < 64 || !laOpFits op (laMode d) || !attr || !s.marked (CPH_SLOT_CFG_modes k) (laMode d) then 0x0E06
  else if !laLengths (laMode d) (laText d) (laAad d) (laIvLen d) (laTagLen d) then 0x0E07
  else 0

/-- Rounds of an operation (R402). -/
def laRounds (d : List Byte) (aes256 : Bool) : Nat :=
  let b := ceilDiv (laText d) 16
  let n := match laMode d with
    | 3 => b + 1
    | 4 | 5 => 2 * b
    | 6 => max 1 b
    | _ => b
  n * (if aes256 then 14 else 10)

/-- Ring of owner set o: niche and number; the PF's lookaside ring is one of the rings it serves (R426). -/
def State.laRing (s : State) (o : Nat) : Nat × Nat := (if o < 16 then o else 0, s.get (CPH_NLA_ring o))

/-- Owner set o has a lookaside ring that is enabled and may be fetched from. -/
def State.laRuns (s : State) (o : Nat) : Bool :=
  let (n, r) := s.laRing o
  s.on (CPH_NLA_en o) && s.on CPH_CTRL_la_en && (s.on CPH_STATUS_half_a || s.on CPH_STATUS_half_b) &&
    s.ringRuns n r 3 && (o != 16 || s.servedBy 0 == some 0)

/-- Owner sets whose lookaside ring is enabled (the N of R402). -/
def State.laOwners (s : State) : List Nat :=
  (List.range 17).filter (fun o => s.on (CPH_NLA_en o) &&
    s.on (HIF_RING_CFG_en (s.laRing o).1 (s.laRing o).2))

/-- The rounds left to owner set o serve its operations in the order of their fetch (R402; assumption 92, DEDUCED). -/
def State.servePortion (s : State) (o : Nat) : State :=
  let f := fun (a : Nat × List LaJob) (j : LaJob) =>
    if j.owner = o then (a.1 - j.rounds, a.2 ++ [{ j with rounds := j.rounds - a.1 }]) else (a.1, a.2 ++ [j])
  let r := s.cph.la.foldl f (storeGet (fun _ => 0) s.cph.portions o, [])
  { s with cph := { s.cph with la := r.2, portions := storeSet (fun _ => 0) s.cph.portions o r.1 } }

/-- A descriptor of owner set o's lookaside ring is taken and judged (R402, R418). -/
def State.fetchLa (s : State) (o : Nat) (desc : List Byte) : State :=
  let n := (s.laRing o).1
  let r := (s.laRing o).2
  let st := s.laStatus o desc
  let j : LaJob :=
    { owner := o, ring := r, index := s.get (HIF_RING_CONS_index n r), desc := desc, fetched := s.clk,
      status := st, key := (s.keyIn (laSlot desc)).getD [],
      rounds := if st = 0 then laRounds desc (s.on (CPH_SLOT_CFG_klen (laSlot desc))) else 0, done := false }
  let s := (s.consume n r 1).putB (HIF_RING_STATUS_idle n r) false
  let s := { s with cph := { s.cph with la := s.cph.la ++ [j] } }
  let s := if st = 1 ∧ o < 16 then s.countDenied o (laSlot desc) else s
  if s.on CPH_CTRL_partition then s.servePortion o else s

/-- LA_REQUEST_FETCH (R402, R418). -/
def execLaRequestFetch (o : Fin 17) (desc : List Byte) (s : State) : Host.Outcome State Fault Refusal :=
  .next (if s.laRuns o.val && s.ringPosted (s.laRing o.val).1 (s.laRing o.val).2 != 0 then s.fetchLa o.val desc else s)

/-- CPROD of a ring passes the completions that are written, in index order (R435). -/
def State.drainLa : Nat → Nat → Nat → Nat → State → State
  | 0, _, _, _, s => s
  | f + 1, o, n, r, s =>
    match s.cph.la.find? (fun j => j.owner == o) with
    | some j =>
      if j.done && j.index == s.get (HIF_RING_CPROD_index n r) then
        State.drainLa f o n r ({ s with cph := { s.cph with
          la := s.cph.la.filter (fun x => !(x.owner == o && x.index == j.index)) } }.advanceCprod n r)
      else s
    | none => s

/-- A lookaside request completes with a status and a count of bytes written (Table 15.7). -/
def State.finishLa (s : State) (j : LaJob) (status written : Nat) : State :=
  let n := if j.owner < 16 then j.owner else 0
  let rec_ := (j.desc.drop 4).take 4 ++ leBytes 2 status ++ zeros 2 ++ leBytes 4 written ++ zeros 4
  let s := s.writeCompletion n j.ring j.index rec_
  let s := { s with cph := { s.cph with la := s.cph.la.map (fun (x : LaJob) =>
    if x.owner = j.owner ∧ x.index = j.index then { x with done := true } else x) } }
  let s := State.drainLa (s.cph.la.length) j.owner n j.ring s
  if s.cph.la.any (fun x => x.owner == j.owner) then s else s.putB (HIF_RING_STATUS_idle n j.ring) true

/-- Counter k of owner set o, and the device's where it has one. -/
def State.laCount (s : State) (o k : Nat) : State := s.sat (CPH_NCNT_count o k)

/-- LA_REFUSAL_COMPLETE (R418): 4,096 ns after its fetch. A cross-niche failure changes state only as R223 gives. -/
def execLaRefusalComplete (o : Fin 17) (s : State) : Host.Outcome State Fault Refusal :=
  match s.cph.la.find? (fun j => j.owner == o.val && j.status != 0 && !j.done && s.since j.fetched 4096) with
  | none => .next s
  | some j =>
    let s := s.finishLa j j.status 0
    .next (if j.status = 1 ∧ o.val < 16 then s
      else ((s.laCount o.val 1).sat (CPH_CNT_count 5)).cphLog o.val j.status (s.slotData o.val (laSlot j.desc)))

/-- Result of an operation on its source bytes: dst bytes and the tag written, or none where a tag does not
verify (R420). -/
def laResult (d key src aad tag : List Byte) : Option (List Byte × List Byte) :=
  let iv := (d.drop 48).take 16
  let t := laTagLen d
  match laMode d, laOp d with
  | 0, 1 => some (ecbSeal key src, [])
  | 0, _ => some (ecbOpen key src, [])
  | 1, 1 => some (cbcSeal key iv src, [])
  | 1, _ => some (cbcOpen key iv src, [])
  | 2, _ => some (ctrText key iv src, [])
  | 3, 1 =>
    let c := gcmText key (iv.take 12) src
    some (c, (gcmTag key (iv.take 12) aad c).take t)
  | 3, _ =>
    if (gcmTag key (iv.take 12) aad src).take t = tag.take t then some (gcmText key (iv.take 12) src, [])
    else none
  | 6, 3 => some ([], cmac key src)
  | 6, _ => if cmac key src = tag.take 16 then some ([], []) else none
  | _, 1 =>
    let n := iv.take (laIvLen d)
    some (ccmText key n src, ccmTag key n aad src t)
  | _, _ =>
    let n := iv.take (laIvLen d)
    let p := ccmText key n src
    if ccmTag key n aad p t = tag.take t then some (p, []) else none

/-- Operation j of owner set o ends with a result: the bytes and the tag to write, or none where a tag does not verify (R419 to
R421). -/
def State.endLa (s : State) (o : Nat) (j : LaJob) (res : Option (List Byte × List Byte)) : State :=
  match res with
  | none => ((s.finishLa j 0x0E08 0).laCount o 2).cphLog o 0x0E08 (fdata (laSlot j.desc) 0 0)
  | some (out, mac) =>
    let n := if o < 16 then o else 0
    let s := if out.isEmpty then s else s.dmaWrite n (leAt j.desc 24 8) out
    let s := if mac.isEmpty then s else s.dmaWrite n (leAt j.desc 40 8) mac
    (s.finishLa j 0 out.length).laCount o 0

/-- LA_COMPLETE (R402, R419 to R421): an operation whose rounds are served completes. src, aad and tag are
the bytes that DMA has read (assumption 92, DEDUCED). -/
def execLaComplete (o : Fin 17) (index : Word) (src aad tag : List Byte) (error : Bool) (s : State) :
    Host.Outcome State Fault Refusal :=
  .next (match s.cph.la.find? (fun j => j.owner == o.val && j.index == index.toNat && j.status == 0 && !j.done) with
  | none => s
  | some j =>
    if s.on CPH_CTRL_partition && j.rounds != 0 then s
    else if error then
      ((s.finishLa j 0x0E0B 0).laCount o.val 7).cphLog o.val 0x0E0B (fdata (laSlot j.desc) 0 0)
    else s.endLa o.val j (laResult j.desc j.key (fitBytes (laText j.desc) src) (fitBytes (laAad j.desc) aad) tag))

/-! ### The random source (R412) -/

/-- RNG_HEALTH_FAIL (assumption 92, DEDUCED). -/
def execRngHealthFail (s : State) : Host.Outcome State Fault Refusal :=
  let s := { s with cph := { s.cph with healthy := false } }
  .next (((s.putB CPH_STATUS_rng_ok false).sat (CPH_CNT_count 3)).logDev 0x0E0D 0xF 0)

/-- The DRBG is seeded again. -/
def State.reseed (s : State) : State :=
  { s.sat (CPH_CNT_count 4) with cph := { s.cph with seeded := true, calls := 0 } }

/-- RNG_HEALTH_PASS: keys may be generated again, and the empty line slots are filled (R169). -/
def execRngHealthPass (s : State) : Host.Outcome State Fault Refusal :=
  let s := { s with cph := { s.cph with healthy := true } }
  let s := if s.cph.seeded then s else s.reseed
  let s := s.putB CPH_STATUS_rng_ok true
  .next (if s.cph.erased then s else s.fillLines)

/-! ### Alarms (R413 to R415) -/

/-- Every key slot, the loaded secret and the DRBG state are erased, and the lookaside operations in progress
complete with ALARM (R413); a request already refused still ends as R418 gives. -/
def State.eraseKeys (s : State) : State :=
  let s := s.each (List.range 256) (fun k t => t.emptySlot k)
  let l := s.cph.la.filter (fun j => !j.done && j.status == 0)
  let s := s.each l (fun j t => t.finishLa j 0x0E01 0)
  { s with cph := { s.cph with secret := none, seeded := false, erased := true } }

/-- An alarm from source i (Table 15.5): the erasure, its reports, and LOCKOUT at the fourth within 600 s. -/
def State.cipherAlarm (s : State) (i : Nat) : State :=
  let s := s.zeroBursts.eraseKeys.mark CPH_ALARM_cause i
  let s := if i < 5 then s.putB CPH_STATUS_alarm true else s
  let l := s.clk :: s.cph.alarms.filter (fun t => decide (s.clk < t + 600 * sec))
  let s := { s with cph := { s.cph with alarms := l } }
  let s := ((s.sat (CPH_CNT_count 0)).sat (CPH_CNT_count 1)).put CPH_STATUS_alarms (min l.length 255)
  let s := if i = 0 then (s.sat (CPH_CNT_count 2)).logDev 0x0E02 0xF 0 else s
  let s := (s.logDev 0x0E01 0xF 0).raisePf 13
  if l.length ≥ 4 ∧ !s.on CPH_STATUS_lockout then
    (s.putB CPH_STATUS_lockout true).logDev 0x0E04 0xF 0
  else s

/-- CPH_ERASE_CMD: a HOST alarm. -/
def execCphEraseCmd (s : State) : Host.Outcome State Fault Refusal := .next (s.cipherAlarm 5)

/-- CIPHER_ALARM: an alarm of sources 0 to 4. -/
def execCipherAlarm (source : Fin 5) (s : State) : Host.Outcome State Fault Refusal :=
  .next (s.cipherAlarm source.val)

/-- What R414 does once no alarm source has been present for 10 ms, and when PD55 returns. -/
def State.recoverKeys (s : State) : State :=
  let s := s.putB CPH_STATUS_alarm false
  let s := { s with cph := { s.cph with secret := s.cph.sealed, erased := false } }
  let s := if s.cph.healthy then s.reseed else s
  let s := s.fillLines
  let owners := (List.range 16).filter (fun n => s.owns n (fun x => x.keys.any (fun e => e.2 != 0)))
  s.each owners (fun n t => (t.sat (CPH_NCNT_count n 6)).logNiche n 0x0E03 0 |>.raiseNiche n 64)

/-- ALARM_RECOVERY (R414, R415). -/
def execAlarmRecovery (s : State) : Host.Outcome State Fault Refusal :=
  .next (if s.cph.erased && !s.on CPH_STATUS_lockout then s.recoverKeys else s)

/-- Each owner's portion of a microslot, renewed (R402). -/
def State.renewPortions (s : State) : State :=
  let l := s.laOwners
  let p := 286720 / l.length / 8
  let s := { s with cph := { s.cph with portions := [] } }
  s.each l (fun o t => { t with cph := { t.cph with
    portions := storeSet (fun _ => 0) t.cph.portions o p } }.servePortion o)

/-- MICROSLOT_START (R402): the microslot count advances, and with CPH_CTRL.partition = 1 each owner's portion
is renewed, what is left of the last one lapsing. -/
def execMicroslotStart (k : Fin 8) (s : State) : Host.Outcome State Fault Refusal :=
  let s := s.put TICK_STATUS_microslot k.val
  .next (if s.on CPH_CTRL_partition then s.renewPortions else s)

end Sys2Proof.Machine
end

