-- ==== Sys2Proof/Machine/Crt.lean ====
section
/-!
DEFINITION. The optical cartridge (spec/18_optical_cartridge.md): acceptance, the two-wire bus, the Patina wear
log and the loops that its calibration record steers.
-/

namespace Sys2Proof.Machine

open Sys2Proof

/-- A CRT record: device log and PF vector 8 (R476). -/
def State.crtLog (s : State) (code data : Nat) : State := (s.logDev code 0xF data).raisePf 8

/-- The cartridge stops answering (R24, R466): GLB_SERVICE.cart and up_ok clear, LN_TXDIS is asserted, GONE. -/
def State.cartGone (s : State) : State :=
  if s.on GLB_SERVICE_cart then
    let s := (s.putB GLB_SERVICE_cart false).putB CRT_STATUS_accepted false
    let s := { s with crt := { s.crt with cal := none, fails := 0 } }
    s.endSet.syncUp.syncLaser.crtLog 0x1102 0
  else s

/-- CART_REMOVED (R466). -/
def execCartRemoved (s : State) : Host.Outcome State Fault Refusal :=
  .next ((s.putB CRT_STATUS_present false).cartGone)

/-! ### Acceptance (R469, R470) -/

/-- A Patina record of 32 bytes whose CRC is right (Table 18.5). -/
def patinaGood (r : List Byte) : Bool := beAt r 28 4 == crc32 (r.take 28)

/-- The 16 records of the Patina memory. -/
def patinaRecs (m : List Byte) : List (List Byte) := (List.range 16).map (fun k => (m.drop (32 * k)).take 32)

/-- The current record: a valid CRC and the highest seq. -/
def patinaNow (m : List Byte) : Option (List Byte) :=
  ((patinaRecs m).filter patinaGood).foldl (fun (a : Option (List Byte)) r => match a with
    | some x => if beAt x 0 4 < beAt r 0 4 then some r else a
    | none => some r) none

/-- The record's bytes 0 to 127 with a patch's selected bytes in place (Table of part type 6, spec/21). -/
def patched (id patch : List Byte) : List Byte :=
  (List.range 48).foldl (fun (b : List Byte) i =>
    if bit (beAt patch 8 8) i then splice b (20 + i) ((patch.drop (16 + i)).take 1) else b) id

/-- R471: the patch names the record's serial and raises none of apd_max, mpd_a, mpd_b and rogue. -/
def patchGood (id patch : List Byte) : Bool :=
  let p := patched id patch
  beAt patch 0 8 == beAt id 8 8 &&
    [50, 60, 62, 66].all (fun o => decide (beAt p o 2 ≤ beAt id o 2))

/-- Checks 2 to 6 of Table 18.4, in order: the code of the first that fails. -/
def State.cartRefusal (s : State) (id patina : List Byte) : Option Nat :=
  let rec_ := id.take 128
  let lamA := beAt id 20 4
  let lamB := beAt id 24 4
  let patch := s.crt.patches.find? (fun p => beAt p 0 8 == beAt id 8 8)
  let badTh := fun (o : Nat) => !(decide (beAt id o 2 < beAt id (o + 4) 2) && decide (beAt id (o + 4) 2 ≤ 1023))
  if beAt id 0 4 ≠ 0x45433249 ∨ beAt id 4 2 ≠ 1 ∨ beAt id 6 2 ≠ 2 ∨ byteAt id 17 / 2 ≠ 0 ∨
      !allZero ((id.drop 68).take 60) then some 0x1103
  else if 2 ≤ byteAt id 16 ∨ !bit s.fuse.issuers.toNat (byteAt id 16) ∨
      !ecdsaP256 (Config.issuerKey (byteAt id 16)) rec_ ((id.drop 128).take 64) then some 0x1104
  else if lamA < 1260000 ∨ 1280000 < lamA ∨
      ((lamB < 1300000 ∨ 1320000 < lamB) ∧ bit (byteAt id 17) 0) ∨
      s.get DSL_APD_ENV_hi < beAt id 50 2 ∨ badTh 52 ∨ badTh 54 then some 0x1105
  else if (patinaNow patina).isNone then some 0x1106
  else match patch with
    | some p => if patchGood rec_ p then none else some 0x1107
    | none => none

/-- Minutes of eq_a or eq_b with what has accrued: a minute is 597,196,800,000 line bit periods. -/
def eqMinutes (eq acc : Nat) : Nat := eq + acc / 597196800000

/-- Life used reaches p percent (Table 18.6). -/
def Wear.reaches (w : Wear) (p : Nat) : Bool :=
  decide (p * 4800000 ≤ 100 * eqMinutes w.eqA w.accA) || decide (p * 4800000 ≤ 100 * eqMinutes w.eqB w.accB) ||
    decide (p * 200 ≤ 100 * w.ins)

/-- Life used in whole percent, saturating. -/
def Wear.life (w : Wear) : Nat :=
  min 255 (max (max (eqMinutes w.eqA w.accA / 48000) (eqMinutes w.eqB w.accB / 48000)) (w.ins / 2))

/-- Wear state by life used and the worn flag. -/
def Wear.state (w : Wear) : Nat :=
  if w.worn then 3 else if w.reaches 100 then 2 else if w.reaches 90 then 1 else 0

/-- The wear figures in CRT_LIFE, CRT_EQ_A and CRT_EQ_B. -/
def State.showWear (s : State) : State :=
  let w := s.crt.wear
  let s := (s.put CRT_LIFE_life w.life).put CRT_LIFE_ins (min w.ins 0xFFFF)
  (s.put CRT_EQ_A_minutes (eqMinutes w.eqA w.accA)).put CRT_EQ_B_minutes (eqMinutes w.eqB w.accB)

/-- The wear state rises to what the figures give, never falling while the cartridge is accepted (R474). -/
def State.raiseWear (s : State) : State :=
  let s := s.showWear
  let n := s.crt.wear.state
  if s.get CRT_STATUS_wear < n ∧ s.on GLB_SERVICE_cart then
    ((s.put CRT_STATUS_wear n).crtLog (0x1107 + n) 0).patinaReport 1
  else s

/-- The next Patina record is written (R473). -/
def State.writePatina (s : State) (hour : Bool) : State :=
  let w := s.crt.wear
  let w := { w with seq := w.seq + 1, eqA := eqMinutes w.eqA w.accA, accA := w.accA % 597196800000,
                    eqB := eqMinutes w.eqB w.accB, accB := w.accB % 597196800000,
                    powered := w.powered + bitNat hour }
  let b := beBytes 4 w.seq ++ beBytes 4 w.eqA ++ beBytes 4 w.eqB ++ beBytes 2 w.ins ++
    beBytes 2 (ofSigned 16 w.tMax) ++ beBytes 4 w.powered ++ beBytes 1 (bitNat w.worn) ++ zeros 7
  let s := { s with crt := { s.crt with wear := w, lastPatina := s.clk } }
  (s.send (.bus 0x51 (32 * (w.seq % 16)) (b ++ beBytes 4 (crc32 b)))).sat (CRT_CNT_count 5)

/-- What R177 clears when another cartridge is accepted, with the ROGUE latch and its cause where it is set (Table 5.8). -/
def State.otherCartridge (s : State) : State :=
  let s := ((s.put ACT_TEMP_temp_a 0).put ACT_TEMP_temp_b 0).put GLB_SERVICE_v0_trace 0
  let s := ((s.put ACT_TC_LEN_len 0).put ACT_TC_ASYM_asym 0).put ACT_TC_DDOWN_d_down 0
  let s := ((s.put ACT_TC_STATUS_age 0xFFFF).put ACT_TC_STATUS_set 0).put ACT_TC_STATUS_valid 0
  let s := s.endSet
  let s := { s with act := { s.act with twin := none, twinAt := none, traceTwin := false } }
  if s.on USL_SAFE_rogue_latched then
    { ((s.putB USL_SAFE_rogue_latched false).put USL_SAFE_rogue_trips 0).setSafe 0 false with
      usl := { s.usl with trips := [] } }
  else s

/-- The cartridge is accepted (R470). -/
def State.acceptCart (s : State) (id patina : List Byte) (inserted : Bool) : State :=
  let patch := s.crt.patches.find? (fun p => beAt p 0 8 == beAt id 8 8)
  let cal := match patch with
    | some p => patched (id.take 128) p
    | none => id.take 128
  let r := (patinaNow patina).getD []
  let w : Wear :=
    { seq := beAt r 0 4, eqA := beAt r 4 4, eqB := beAt r 8 4, accA := 0, accB := 0,
      ins := beAt r 12 2 + bitNat inserted, tMax := toSigned 16 (beAt r 14 2), powered := beAt r 16 4,
      worn := bit (byteAt r 20) 0 }
  let same := s.get (CRT_SERIAL_serial 1) == beAt id 8 4 && s.get (CRT_SERIAL_serial 0) == beAt id 12 4
  let s := if same then s else s.otherCartridge
  let s := (s.put (CRT_SERIAL_serial 1) (beAt id 8 4)).put (CRT_SERIAL_serial 0) (beAt id 12 4)
  let s := { s with crt := { s.crt with cal := some cal, record := id.take 128, wear := w, fails := 0, lastPatina := s.clk } }
  let s := s.send (.bus 0x58 0x31 ((cal.drop 66).take 2))
  let s := (s.putB GLB_SERVICE_cart true).putB CRT_STATUS_accepted true
  let s := (s.putB CRT_STATUS_patched patch.isSome).put CRT_STATUS_wear 0
  let s := (s.put TIM_LINE_RXLAT_lat (Config.rxLatency + beAt cal 34 4)).startRelock
  let s := ((s.crtLog 0x110C 0).sat (CRT_CNT_count 3)).syncUp.syncLaser
  let s := (if inserted then s.writePatina false else s).showWear
  s.raiseWear.patinaReport 2

/-- CART_ACCEPTANCE (R469): the records read from the cartridge's memories; inserted where the acceptance
follows a change of CRT_PRES_N (assumption 90, PRESUMED). -/
def execCartAcceptance (identity patina : List Byte) (inserted : Bool) (s : State) :
    Host.Outcome State Fault Refusal :=
  if s.on GLB_SERVICE_cart || s.on CRT_STATUS_stuck then .next s
  else
    let s := s.putB CRT_STATUS_present true
    match s.cartRefusal identity patina with
    | some c => .next ((s.crtLog c 0).sat (CRT_CNT_count 4))
    | none => .next (s.acceptCart identity patina inserted)

/-! ### The bus (R463 to R466) -/

/-- A recovery (R463): SDA as it reads after each SCL pulse. The pulses end with the first that leaves it high, or with the
ninth, and a STOP follows; answers whether SDA is high. -/
def State.recoverBus (s : State) (sda : List Bool) : State × Bool :=
  let high := (sda.take 9).findIdx? id
  let s := s.sat (CRT_CNT_count 1)
  (s.send (.scl (match high with | some i => i + 1 | none => 9)), high.isSome)

/-- A recovery that leaves SDA high clears BUS_STUCK and its cause (R465). -/
def State.busFree (s : State) : State :=
  if s.on CRT_STATUS_stuck then
    State.setSafe { s.putB CRT_STATUS_stuck false with crt := { s.crt with stuckLogged := false, fails := 0 } } 1 false
  else s

/-- A recovery that leaves SDA low (R465). -/
def State.busStuck (s : State) : State :=
  let s := (s.putB CRT_STATUS_stuck true).sat (CRT_CNT_count 2)
  let s := if s.crt.stuckLogged then s else s.crtLog 0x1101 0
  let s := { s with crt := { s.crt with stuckLogged := true } }
  (s.setSafe 1 true).cartGone

/-- BUS_RECOVERY (R463 to R466): after a failed transaction, or before the first one after a controller
reset. -/
def execBusRecovery (failed : Bool) (sda : List Bool) (s : State) : Host.Outcome State Fault Refusal :=
  let s := if failed then { s.sat (CRT_CNT_count 0) with crt := { s.crt with fails := s.crt.fails + 1 } } else s
  let r := s.recoverBus sda
  .next (if r.2 then (if 3 ≤ s.crt.fails then r.1.busFree.cartGone else r.1.busFree) else r.1.busStuck)

/-- BUS_STUCK_RETRY (R465): the recovery of a stuck bus is repeated. -/
def execBusStuckRetry (sda : List Bool) (s : State) : Host.Outcome State Fault Refusal :=
  .next (if s.on CRT_STATUS_stuck then
    let r := s.recoverBus sda
    if r.2 then r.1.busFree else r.1
  else s)

/-- CART_TEMP_POLL (R462): a successful poll brings a temperature. -/
def execCartTempPoll (temp : Option (BitVec 16)) (s : State) : Host.Outcome State Fault Refusal :=
  match temp with
  | none => .next s
  | some t =>
    let s := s.put CRT_TEMP_temp t.toNat
    let w := s.crt.wear
    .next { s with crt := { s.crt with
      fails := 0, wear := { w with tMax := max w.tMax (toSigned 16 t.toNat) } } }

/-- PATINA_WRITE (R473): after an hour of cart = 1, or at dying-gasp detection; a write that fails leaves the
current record standing (assumption 90, PRESUMED). -/
def execPatinaWrite (ok : Bool) (s : State) : Host.Outcome State Fault Refusal :=
  let hour := s.since s.crt.lastPatina (3600 * sec)
  if s.on GLB_SERVICE_cart && (hour || s.on USL_STATUS_dg) && ok then .next ((s.writePatina hour).showWear)
  else .next s

/-- REQUEST_PATINA (R475). -/
def execRequestPatina (msg : List Byte) (s : State) : Host.Outcome State Fault Refusal :=
  .next (if s.inInbox msg 0x0A then (s.tookMsg msg).patinaReport 0 else s)

/-- CRT_RAW_GO (R461, Table 18.9). -/
def execCrtRawGo (data : Word) (s : State) : Host.Outcome State Fault Refusal :=
  let a := bits data.toNat 23 16
  let o := bits data.toNat 15 0
  if a ≠ 0x50 ∧ a ≠ 0x51 then .next (s.crtLog 0x110B 0)
  else
    let s := ((s.put CRT_RAW_addr a).put CRT_RAW_offset o).put CRT_RAW_DATA_done 0
    .next { s with crt := { s.crt with raw := some (a, o) } }

/-- CRT_RAW_DONE: the byte read. -/
def execCrtRawDone (byte : Byte) (s : State) : Host.Outcome State Fault Refusal :=
  match s.crt.raw with
  | none => .next s
  | some _ =>
    .next { (s.put CRT_RAW_DATA_data byte.toNat).putB CRT_RAW_DATA_done true with
      crt := { s.crt with raw := none, fails := 0 } }

/-! ### Loops that the calibration record steers -/

/-- APD target (spec/18, Identity and calibration): rounded to the nearest code and limited to apd_max;
DSL_APD_ENV.lo without an accepted record (R469). -/
def State.apdTarget (s : State) : Int :=
  match s.crt.cal with
  | none => s.get DSL_APD_ENV_lo
  | some _ =>
    -- mV/K times 0.01 K over 50 mV
    let d := roundDiv (s.calS 48 2 * (s.getS CRT_TEMP_temp - s.calS 32 2)) 5000 (s.free % 2 == 1)
    min ((s.calU 46 2 : Int) + d) (s.calU 50 2)

/-- Sign of a difference. -/
def sign (v : Int) : Int := if v < 0 then -1 else if v = 0 then 0 else 1

/-- APD_LOOP_STEP (R107, R111): one code toward the temperature target. -/
def execApdLoopStep (s : State) : Host.Outcome State Fault Refusal :=
  let want := sign (s.apdTarget - s.loopOut (loopDesc 1))
  .next (s.loopStep 1 want false).tookFree

/-- LASER_LOOP_STEP (R142): reading is what the monitor shows of the loop's quantity during bursts of its
colour: monitor current in µA for a bias loop, extinction ratio in 0.1 dB for a modulation loop. -/
def execLaserLoopStep (loop : Fin 4) (reading : Nat) (s : State) : Host.Outcome State Fault Refusal :=
  let c := loop.val / 2
  let target := if loop.val % 2 = 0 then s.calU (60 + 2 * c) 2 else s.calU 64 2
  let s := s.loopStep (2 + loop.val) (sign ((target : Int) - reading)) false
  let worn := loop.val % 2 == 0 && s.on GLB_SERVICE_cart &&
    decide (s.calU (56 + 2 * c) 2 ≤ s.get (USL_LOOP_STATUS_out loop.val))
  .next (if worn then { s with crt := { s.crt with wear := { s.crt.wear with worn := true } } }.raiseWear else s)

end Sys2Proof.Machine
end

