-- ==== Sys2Proof/Machine/Eth.lean ====
section
/-!
DEFINITION. The Ethernet ports (spec/09_ethernet_ports.md): link, reception, egress classes and their shaper, half duplex,
stamps and wake patterns.
-/

namespace Sys2Proof.Machine

open Sys2Proof

/-! ### Modes and link (R238 to R240) -/

/-- ETH_CNTn of port p. -/
def State.ethCnt (s : State) (p n : Nat) : State := s.sat (ETH_CNT_count p n)

/-- PINMUX value of port p. -/
def State.ethMux (s : State) (p : Nat) : Nat :=
  match s.device with
  | some d => d.eth.getD p 0
  | none => 0

/-- Port p is clocked: PINMUX enables it and its domain is on. -/
def State.ethClocked (s : State) (p : Nat) : Bool := s.ethMux p != 0 && s.domainOn (17 + p)

/-- The speed code and duplex are one of Table 9.1 for port p. -/
def State.ethFits (s : State) (p speed : Nat) (full : Bool) : Bool :=
  if p < 4 then decide (speed ≤ 2) && (full || decide (speed < 2))
  else if s.ethMux p = 1 then speed == 3 && full else speed == 2 && full

/-- Speed and duplex that port p takes where its interface reports r (R239); 10GBASE-R has fixed ones. -/
def State.ethTaken (s : State) (p : Nat) (r : Nat × Bool) : Nat × Bool :=
  if 4 ≤ p ∧ s.ethMux p = 1 then (3, true)
  else if s.on (ETH_MAC_CFG_an p) then r
  else (s.get (ETH_MAC_CFG_speed p), s.on (ETH_MAC_CFG_duplex p))

/-- MODE_BAD of port p. -/
def State.modeBad (s : State) (p : Nat) : State := s.logDev 0x0802 0xF (fdata p 0 0)

/-- ETH_STATUS.cbs_over of port p brought up to date. -/
def State.syncOver (s : State) (p : Nat) : State :=
  s.putB (ETH_STATUS_cbs_over p) ((List.range 8).any (s.overRate p))

/-- The SDU of a frame that a port no longer sends is released. -/
def State.freeTx (s : State) (t : EthTx) : State :=
  match t.sdu with
  | some id => s.release id
  | none => s

/-- The frame in transmission on port p is lost (ch. 9, "If the link goes down during a transmission"). -/
def State.loseTx (s : State) (p : Nat) : State :=
  let x := s.ethPort p
  let s := s.modEth p (fun x => { x with tx := none, again := none, ptp := [] })
  s.each (x.tx.toList ++ x.again.toList) (fun t u => u.freeTx t)

/-- Link state of port p as R239 and R240 give it: none down. -/
def State.ethLink (s : State) (p : Nat) : Option (Nat × Bool) :=
  if !s.ethClocked p then none
  else match (s.ethPort p).iface with
    | none => none
    | some r =>
      let t := s.ethTaken p r
      if s.ethFits p t.1 t.2 then some t else none

/-- The combination outside Table 9.1 that keeps the link of port p down: the forced one, whatever the interface reports, or the
one that the PHY reports (R239). -/
def State.ethMisfit (s : State) (p : Nat) : Option (Nat × Bool) :=
  if !s.ethClocked p then none
  else
    let c := match (s.ethPort p).iface with
      | some r => some (s.ethTaken p r)
      | none => if s.on (ETH_MAC_CFG_an p) then none else some (s.ethTaken p (0, false))
    c.filter (fun t => !s.ethFits p t.1 t.2)

/-- Link state, speed and duplex of port p brought up to date: a change is logged and raises the owner's vector
(R240; assumption 52, DEDUCED). -/
def State.syncLink (s : State) (p : Nat) : State :=
  let s := s.settlePort p
  let bad := s.ethMisfit p
  let s := s.when (bad.isSome && bad != (s.ethPort p).bad) (fun t => t.modeBad p)
  let s := (s.putB (ETH_STATUS_mode_bad p) bad.isSome).modEth p (fun x => { x with bad := bad })
  let new := s.ethLink p
  let old := if s.on (ETH_STATUS_link p) then some (s.get (ETH_STATUS_speed p), s.on (ETH_STATUS_duplex p)) else none
  if new = old then s
  else
    let v := new.getD (0, false)
    let s := ((s.putB (ETH_STATUS_link p) new.isSome).put (ETH_STATUS_speed p) v.1).putB (ETH_STATUS_duplex p) v.2
    let s := ((s.ethCnt p 23).syncOver p).when new.isNone (fun t => t.loseTx p)
    let s := s.limBoth (s.ethOwner p) 0x0801 (fdata p 0 0)
    match s.ethOwner p with
    | some n => s.raiseNiche n 64
    | none => s

/-- ETH_LINK_CHANGE (R239, R240): the interface of a port reports link with a speed and duplex, or none. -/
def execEthLinkChange (port : Fin 6) (report : Option (Fin 4 × Bool)) (s : State) : Host.Outcome State Fault Refusal :=
  let p := port.val
  .next ((s.modEth p (fun x => { x with iface := report.map (fun r => (r.1.val, r.2)) })).syncLink p)

/-! ### Receive (Table 9.2) -/

/-- A stamp that lies ago units of 2⁻⁴ ns before this instant, moved by a latency in ps, in 2⁻¹⁶ ns (R256, R257, R309). -/
def State.ethStamp (s : State) (ago : Nat) (lat : Int) : Nat :=
  (((s.tb * 16 : Nat) : Int) - ago + roundAny (lat * 16 / 1000) s.free).toNat * 4096

/-- A pause frame (Table 9.2, order 7). -/
def isPause (f : List Byte) : Bool := beAt f 12 2 == 0x8808 && beAt f 14 2 == 1

/-- Bit times of port p in ns, rounded up. -/
def State.bitTimes (s : State) (p n : Nat) : Nat := ceilDiv (n * 1000000) (s.portRate p)

/-- A received pause (R248). -/
def State.pauseRx (s : State) (p : Nat) (f : List Byte) : State :=
  let t := beAt f 16 2
  if s.on (ETH_MAC_CFG_pause_rx p) && s.on (ETH_STATUS_duplex p) then
    (s.modEth p (fun x => { x with pause := if t = 0 then none else some (s.clk + s.bitTimes p (512 * t)) })).putB
      (ETH_STATUS_paused p) (t != 0)
  else s

/-- Tags before the EtherType of a frame, at most two (Table 10.3). -/
def tagCount (f : List Byte) : Nat :=
  let tag := fun (i : Nat) => decide (beAt f i 2 = 0x8100) || decide (beAt f i 2 = 0x88A8)
  if tag 12 then (if tag 16 then 2 else 1) else 0

/-- n bytes added to the byte count of port p, received or sent. -/
def State.addEthBytes (s : State) (p : Nat) (sent : Bool) (n : Nat) : State :=
  let m := 2 ^ 48 - 1
  s.modEth p (fun x => if sent then { x with tx48 := min (x.tx48 + n) m } else { x with rx48 := min (x.rx48 + n) m })

/-- A frame of port p that goes no further than the port: it has taken cells of the owner while it arrived, and gives them back;
one that was refused them counts as that drop alone (R243). f is what becomes of it then. -/
def State.endRx (s : State) (p n : Nat) (data : List Byte) (f : State → State) : State :=
  let id := s.cel.nextId
  let s := s.admitSdu { id := 0, owner := n, data := data, source := p }
  if (s.sdu id).isSome then f (s.release id) else s

/-- A frame of port p that Table 9.2 drops, counted by counter k. -/
def State.dropRx (s : State) (p n k : Nat) (data : List Byte) : State := s.endRx p n data (fun t => t.ethCnt p k)

/-- A frame of port p that is passed on to the classifier, counted by f where it gets its cells
(assumption 52, DEDUCED). -/
def State.passRx (s : State) (p n : Nat) (data : List Byte) (trunc : Bool) (stamp : Nat) (f : State → State) : State :=
  let id := s.cel.nextId
  let s := s.toClassifier { id := 0, owner := n, data := data, source := p, trunc := trunc, keyMeta := tagCount data * 256,
                            stamp := some (stamp / 65536, stamp % 65536) }
  if (s.sdu id).isSome then f s else s

/-- Table 9.2 for a frame of port p, its timestamp point ago units of 2⁻⁴ ns ago (assumption 52, DEDUCED). -/
def State.frameRx (s : State) (p : Nat) (f : List Byte) (ago : Nat) : State :=
  let len := f.length
  let rx := s.get (ETH_MAXLEN_rx p)
  let good := fcsGood f
  match s.ethOwner p with
  | none => s.ethCnt p 10
  | some n =>
    let st := s.ethStamp ago (-s.getS (ETH_TS_RXLAT_lat p))
    let s := s.tookFree
    if len < 64 then s.dropRx p n (if good then 4 else 5) f
    else if rx < len then
      if s.on (ETH_MAXLEN_trunc_en p) then s.passRx p n (f.take rx) true st (fun t => t.ethCnt p 7)
      else s.dropRx p n 6 (f.take rx)
    else if !good then s.dropRx p n 3 f
    else if isPause f then s.endRx p n f (fun t => (t.ethCnt p 9).pauseRx p f)
    else if s.ptpTakes p f then (s.ethCnt p 0).addEthBytes p false len
    else s.passRx p n (f.take (len - 4)) false st (fun t => (t.ethCnt p 0).addEthBytes p false len)

/-! ### Wake patterns (R258, R259) -/

/-- Mask of pattern w of port p. -/
def State.wakeMask (s : State) (p w : Nat) : Nat :=
  ((List.range 4).map (fun i => s.get (ETH_WAKE_MASK_mask p w i) * 2 ^ (32 * i))).sum

/-- Pattern w of port p matches frame f. -/
def State.wakeMatch (s : State) (p w : Nat) (f : List Byte) : Bool :=
  let l := s.get (ETH_WAKE_CFG_len p w)
  let m := s.wakeMask p w
  let sel := ((f.take l).zipIdx.filter (fun x => bit m x.2)).map (fun x => x.1)
  decide (l ≤ f.length) && crc16 sel == s.get (ETH_WAKE_CFG_check p w)

/-- A frame that reaches a port in wake-listen: checked against the patterns in use and discarded. A match is signalled to the PWR
block with the port and the pattern number (R258). -/
def State.wakeRx (s : State) (p : Nat) (f : List Byte) : State :=
  if s.on (ETH_WAKE_CTRL_en p) && fcsGood f then
    s.each ((onesOf 8 (s.get (ETH_WAKE_CTRL_pat_en p))).filter (fun w => s.wakeMatch p w f)) (fun w t =>
      (((t.ethCnt p 11).putB (ETH_WAKE_STATUS_matched p) true).put (ETH_WAKE_STATUS_pattern p) w).wakeFrom p w)
  else s

/-- ETH_FRAME_RX (R243, R256, R258): the last bit of a frame, destination address through FCS, has reached the balls
(assumption 51, DESIGN CHOICE). -/
def execEthFrameRx (port : Fin 6) (frame : List Byte) (ago : Nat) (s : State) : Host.Outcome State Fault Refusal :=
  let p := port.val
  .next (if !s.on (ETH_STATUS_link p) || s.flt.fatal then s
  else if s.mode = 3 then s.wakeRx p frame
  else s.frameRx p frame ago)

/-- PAUSE_EXPIRY (R248). -/
def execPauseExpiry (port : Fin 6) (s : State) : Host.Outcome State Fault Refusal :=
  let p := port.val
  .next (match (s.ethPort p).pause with
  | some t =>
    if t ≤ s.clk then (s.modEth p (fun x => { x with pause := none })).putB (ETH_STATUS_paused p) false else s
  | none => s)

/-- A pattern that may not be used (R259). -/
def State.wakeBad (s : State) (p w : Nat) : Bool :=
  let l := s.get (ETH_WAKE_CFG_len p w)
  let m := s.wakeMask p w
  l == 0 || decide (128 < l) || m == 0 || decide (2 ^ l ≤ m)

/-- ETH_WAKE_ENABLE (R259): a write to ETH_WAKE_CTRL (assumption 52, DEDUCED). -/
def execEthWakeEnable (port : Fin 6) (data : Word) (s : State) : Host.Outcome State Fault Refusal :=
  let p := port.val
  let use := bits data.toNat 7 0
  let s := if s.ethMux p = 0 then s else s.put (ETH_WAKE_CTRL_pat_en p) use
  .next (if s.ethMux p = 0 then s.modeBad p
  else if bit data.toNat 8 && (onesOf 8 use).any (s.wakeBad p) then
    (s.putB (ETH_WAKE_CTRL_en p) false).logDev 0x0804 0xF (fdata p 0 0)
  else s.putB (ETH_WAKE_CTRL_en p) (bit data.toNat 8))

/-! ### Transmit (R246 to R257) -/

/-- A frame as the port sends it: padded to 60 bytes, with its FCS (R246). -/
def wireFrame (b : List Byte) : List Byte :=
  let d := if b.length < 60 then fitBytes 60 b else b
  d ++ fcsBytes d

/-- Class c of port p is eligible (R247): its queue is not empty, and it is strict or has credit. -/
def State.eligible (s : State) (p c : Nat) : Bool := s.classBusy p c && (!s.shaped p c || decide (0 ≤ s.creditNow p c))

/-- The highest-numbered eligible class of port p. -/
def State.chosenClass (s : State) (p : Nat) : Option Nat := (List.range 8).reverse.find? (s.eligible p)

/-- QID of class c of port p. -/
def State.classQid (s : State) (p c : Nat) : Nat :=
  match s.ethGroup p with
  | some g => g.first + c
  | none => 0

/-- Port p may start a new frame. -/
def State.mayStart (s : State) (p : Nat) : Bool :=
  let x := s.ethPort p
  s.on (ETH_STATUS_link p) && x.tx.isNone && x.again.isNone && !(s.on (ETH_STATUS_duplex p) && x.pause.isSome)

/-- The head frame of class c leaves its queue; credit above 0 is lost where the queue is then empty (R250;
assumption 50, DEDUCED). -/
def State.takeHead (s : State) (p c : Nat) (d : Sdu) : State :=
  let s := (s.settlePort p).dequeue d.id
  if s.classBusy p c then s
  else s.modEth p (fun x => { x with credits := x.credits.modify c (fun k => min 0 k) })

/-- A transmit opportunity of port p (R246, R247): frames above ETH_MAXLEN.tx are dropped at dequeue
(assumption 50, DEDUCED). -/
def State.startTx : Nat → Nat → Nat → State → State
  | 0, _, _, s => s
  | fuel + 1, p, defer, s =>
    match s.chosenClass p with
    | none => s
    | some c =>
      match s.headOf (s.classQid p c) with
      | none => s
      | some d =>
        let s := s.takeHead p c d
        if s.get (ETH_MAXLEN_tx p) < d.data.length then State.startTx fuel p defer ((s.release d.id).ethCnt p 15)
        else
          let b := wireFrame d.data
          let s := ((s.ethCnt p 12).addEthBytes p true b.length).when
            (!s.on (ETH_STATUS_duplex p) && decide (2 * 12176 < defer)) (fun t => t.ethCnt p 22)
          s.modEth p (fun x => { x with tx := some ⟨some d.id, b, c, s.clk, 0, decide (24352 < defer)⟩ })

/-- Every frame of the classes of port p is dropped while the link is down (R249). -/
def State.downDrop (s : State) (p : Nat) : State :=
  s.each (List.range 8) (fun c t => t.each (t.queueOf (t.classQid p c)) (fun d u =>
    ((u.takeHead p c d).release d.id).ethCnt p 16))

/-- The medium of port p is free: in full duplex always, in half duplex once 96 bit times have passed since carrier ended, clear bit
times ago (R253); none while carrier is sensed. -/
def State.mediumFree (s : State) (p : Nat) (clear : Option Nat) : Bool :=
  s.on (ETH_STATUS_duplex p) || clear.any (fun n => decide (96 ≤ n))

/-! ### Messages of the PTP service (R321, R322) -/

/-- A message type that the service sends: Sync, Announce, and those of the profile's delay mechanism (Table 12.3). -/
def State.ptpSends (s : State) (t : Nat) : Bool :=
  t == 0 || t == 0xB || (if s.get TIM_PTP_CFG_profile = 0 then t == 1 || t == 9 else t == 2 || t == 3)

/-- IEEE_C37_238 TLV with grandmaster ID and total time inaccuracy, both left open (Table 12.3; assumption 63, PRESUMED). -/
def State.powerTlv (s : State) : List Byte :=
  beBytes 2 3 ++ beBytes 2 18 ++ beBytes 3 0x1C129D ++ beBytes 3 2 ++ beBytes 2 s.free ++ zeros 4 ++
    beBytes 4 (s.tookFree.free) ++ zeros 2

/-- The bytes of a PTP message as it leaves: the domain; twoStepFlag in a Sync or Pdelay_Resp (R322); in an Announce the offset from
UTC, priority1, the clockClass of R323 and the TLV of the profile (Table 12.3; assumption 63, PRESUMED). -/
def State.ptpBytes (s : State) (body : List Byte) : List Byte :=
  let b := splice body 4 (beBytes 1 (s.get TIM_PTP_CFG_domain))
  match ptpType b with
  | 0xB =>
    let b := splice (splice b 44 (beBytes 2 (ofSigned 16 s.tim.utcNow))) 47
      (beBytes 1 (s.get TIM_PTP_CFG_priority1) ++ beBytes 1 s.clockClass)
    if s.get TIM_PTP_CFG_profile = 2 then
      let t := s.powerTlv
      splice b 2 (beBytes 2 (b.length + t.length)) ++ t
    else b
  | 0 | 3 => splice b 6 (beBytes 1 (setBit (byteAt b 6) 1))
  | _ => b

/-- The message that follows message m of a two-step exchange with the view 1 time of its departure: Follow_Up after Sync,
Pdelay_Resp_Follow_Up after Pdelay_Resp (R322; assumption 63, PRESUMED). -/
def ptpFollowUp (m : List Byte) (s ns : Nat) : Option (List Byte) :=
  let head := fun (t len : Nat) => splice (splice (splice (splice ((m.take 34)) 0
    (beBytes 1 (byteAt m 0 / 16 * 16 + t))) 2 (beBytes 2 len)) 6 (beBytes 1 (clrBit (byteAt m 6) 1))) 32
    (beBytes 1 (if t = 8 then 2 else 5))
  let at_ := beBytes 6 s ++ beBytes 4 ns
  match ptpType m with
  | 0 => some (head 8 44 ++ at_)
  | 3 => some (head 0xA 54 ++ at_ ++ fitBytes 10 (m.drop 44))
  | _ => none

/-- The oldest waiting message of the service leaves on port p, ahead of every class (R321). -/
def State.startPtp (s : State) (p : Nat) : State :=
  match (s.ethPort p).ptp with
  | [] => s
  | m :: rest =>
    let s := ((s.settlePort p).ethCnt p 12).addEthBytes p true (max 64 (18 + m.length))
    s.modEth p (fun x => { x with ptp := rest, tx := some ⟨none, m, 8, s.clk, 0, false⟩ })

/-- PTP_MSG_SEND (R321, R322): a scheduled message of the service is sent between frames: at once where the port is free, else when
the frame in transmission has ended. -/
def execPtpMsgSend (port : Fin 6) (body : List Byte) (s : State) : Host.Outcome State Fault Refusal :=
  let p := port.val
  .next (if s.ptpPort p && s.ptpSends (ptpType body) && s.on (ETH_STATUS_link p) then
    let m := s.ptpBytes body
    let s := s.tookFree.tookFree.modEth p (fun x => { x with ptp := x.ptp ++ [m] })
    if s.mayStart p && s.on (ETH_STATUS_duplex p) then s.startPtp p else s
  else s)

/-- ETH_TX_START (R247, R249, R253, R255, R321): a transmit opportunity of a port: in half duplex carrier ended clear bit times ago
(none while it is sensed), and it and the gap after it have kept the frame from its first attempt for defer bit times
(assumption 51, DESIGN CHOICE). -/
def execEthTxStart (port : Fin 6) (clear : Option Nat) (defer : Nat) (s : State) : Host.Outcome State Fault Refusal :=
  let p := port.val
  .next (if !s.ethClocked p || s.flt.fatal || s.mode == 3 then s
  else if s.mayStart p then
    if !s.mediumFree p clear then s
    else if !(s.ethPort p).ptp.isEmpty then s.startPtp p
    else if (s.ethGroup p).isNone then s
    else State.startTx s.cel.sdus.length p defer s
  else if (s.ethGroup p).isSome && !s.on (ETH_STATUS_link p) && !s.on (ETH_MAC_CFG_hold_down p) then s.downDrop p
  else s)

/-- Bytes of frame t between its SFD and its end; a PTP message travels in a frame of its own (assumption 63, PRESUMED). -/
def EthTx.wire (t : EthTx) : Nat := if t.sdu.isSome then t.bytes.length else max 64 (18 + t.bytes.length)

/-- The last bit of frame t of port p and the gap after it have passed. -/
def State.txOver (s : State) (p : Nat) (t : EthTx) : Bool :=
  decide (8 * (t.wire + 20) * 1000000 ≤ (s.clk - t.at_ + 1) * s.portRate p)

/-- Frame t of port p has left whole, its timestamp point at a stamp: the stamp goes to the queue that asked for it (R257), or into
the follow-up message of the PTP service (R322). -/
def State.sentTx (s : State) (p : Nat) (t : EthTx) (st : Nat) : State :=
  match t.sdu with
  | none =>
    let r := s.readView 1 st
    let s := s.send (.ptp p t.bytes)
    match ptpFollowUp t.bytes r.1 r.2.1 with
    | some m => s.modEth p (fun x => { x with ptp := m :: x.ptp })
    | none => s
  | some id =>
    let s := s.send (.ethFrame p t.bytes)
    match s.sdu id with
    | some d => if d.tsReq then s.tsqPush p d.tsId st else s
    | none => s

/-- ETH_TX_COMPLETE (R250, R257): the wire time of a frame ends; ago is the time since its timestamp point in 2⁻⁴ ns
(assumption 50, DEDUCED). -/
def execEthTxComplete (port : Fin 6) (ago : Nat) (s : State) : Host.Outcome State Fault Refusal :=
  let p := port.val
  .next (match (s.ethPort p).tx with
  | none => s
  | some t =>
    if !s.txOver p t then s
    else
      let s := (s.settlePort p).modEth p (fun x => { x with tx := none })
      let s := if t.collisions = 1 then s.ethCnt p 18 else if 1 < t.collisions then s.ethCnt p 19 else s
      let st := s.ethStamp ago (s.getS (ETH_TS_TXLAT_lat p))
      (s.tookFree.sentTx p t st).freeTx t)

/-- A frame of port p is given up after a collision (R254). -/
def State.giveUp (s : State) (p : Nat) (t : EthTx) (k : Nat) : State :=
  ((s.freeTx t).ethCnt p k).limDev 0x0805 0xF (fdata p 0 0)

/-- ETH_COLLISION (R252 to R254): a half-duplex attempt ends with its preamble complete and a 32-bit jam; the collision was detected
after bits that follow the SFD (assumption 51, DESIGN CHOICE). -/
def execEthCollision (port : Fin 6) (after : Nat) (s : State) : Host.Outcome State Fault Refusal :=
  let p := port.val
  .next (match (s.ethPort p).tx with
  | none => s
  | some t =>
    if s.on (ETH_STATUS_duplex p) then s
    else
      let s := (s.settlePort p).send (.ethJam p after)
      let s := s.modEth p (fun x => { x with tx := none })
      let n := t.collisions + 1
      if 512 < after then s.giveUp p t 20
      else if 16 ≤ n then s.giveUp p t 21
      else
        let r := s.free % 2 ^ min n 10
        s.tookFree.modEth p (fun x => { x with again := some { t with at_ := s.clk + s.bitTimes p (512 * r), collisions := n } }))

/-- ETH_BACKOFF_EXPIRY (R253): the backoff is over and the frame is tried again, unless carrier, which ended clear bit times ago or is
sensed still, defers it. -/
def execEthBackoffExpiry (port : Fin 6) (clear : Option Nat) (s : State) : Host.Outcome State Fault Refusal :=
  let p := port.val
  .next (match (s.ethPort p).again with
  | none => s
  | some t =>
    if t.at_ ≤ s.clk && s.mediumFree p clear then
      let s := s.settlePort p
      s.modEth p (fun x => { x with again := none, tx := some { t with at_ := s.clk } })
    else s)

/-- A transmission of port p is aborted: the frame ends with an inverted FCS and counts as TX_ABORT (R226, Table 22.6). -/
def State.abortTx (s : State) (p : Nat) : State :=
  let x := s.ethPort p
  let s := s.settlePort p
  let s := if x.tx.isSome then s.send (.ethAbort p) else s
  let s := if x.tx.isSome || x.again.isSome then s.ethCnt p 17 else s
  s.loseTx p

/-- NICHE_RESET_TX_ABORT (R226): a transmission of a niche that still runs 2.0 ms after the request; a message of the PTP service is
none of the niche's (assumption 52, DEDUCED). -/
def execNicheResetTxAbort (n : Fin 16) (s : State) : Host.Outcome State Fault Refusal :=
  let r := s.nreset n.val
  .next (if r.active && s.since r.at_ (2 * ms) then
    s.each (List.range 6) (fun p t =>
      let x := t.ethPort p
      if t.ethOwner p == some n.val && (x.tx.toList ++ x.again.toList).any (fun f => f.sdu.isSome) then
        ((t.abortTx p).ncnt n.val 6).logDev 0x0706 n.val (fdata n.val 0 0)
      else t)
  else s)

/-! ### Shaper writes, tick work and byte counters -/

/-- A register of port p as it will stand once its pending writes are taken. -/
def State.ethAfter (s : State) (p a : Nat) : Word :=
  match (s.ethPort p).pend.reverse.find? (fun w => w.2.1 == a) with
  | some w => w.2.2
  | none => s.word a

/-- The sum of the idle slopes of the credit-based classes of port p as they will stand. -/
def State.idleSum (s : State) (p : Nat) : Nat :=
  let base := 0x100000 + 0x4000 * p
  let m := (s.ethAfter p (base + 0x14)).toNat
  ((onesOf 8 m).map (fun c => bits (s.ethAfter p (base + 0x20 + 4 * c)).toNat 23 0)).sum

/-- s with a write of port p that waits for its phase. -/
def State.ethPend (s : State) (p a : Nat) (w : Word) : State := s.modEth p (fun x => { x with pend := x.pend ++ [(s.tick.edges, a, w)] })

/-- ETH_CBS_WRITE (R251): a write to ETH_CBS_SLOPEc (reg c) or to ETH_CLS_MODE (reg 8). -/
def execEthCbsWrite (port : Fin 6) (reg : Fin 9) (data : Word) (s : State) : Host.Outcome State Fault Refusal :=
  let p := port.val
  let a := 0x100000 + 0x4000 * p + (if reg.val = 8 then 0x14 else 0x20 + 4 * reg.val)
  let v := if reg.val = 8 then bits data.toNat 7 0 else bits data.toNat 23 0
  let t := s.ethPend p a (BitVec.ofNat 32 v)
  .next (if s.ethMux p = 0 ∨ (reg.val ≠ 8 ∧ 10000000 < v) then s.modeBad p
  else if s.portRate p < t.idleSum p then s.logDev 0x0803 0xF (fdata p 0 0)
  else t)

/-- The latency writes are those that a tick edge takes. -/
def isLatency (a : Nat) : Bool := a % 0x4000 == 0xC || a % 0x4000 == 0x10

/-- The pending writes of port p for whose tick and address f holds take effect, in order. -/
def State.ethApply (s : State) (p : Nat) (f : Nat → Nat → Bool) : State :=
  let l := (s.ethPort p).pend.filter (fun w => f w.1 w.2.1)
  if l = [] then s
  else
    let s := s.settlePort p
    let old := s.get (ETH_CLS_MODE_cbs p)
    let s := s.modEth p (fun x => { x with pend := x.pend.filter (fun w => !f w.1 w.2.1) })
    let s := s.each l (fun w t => t.setWord w.2.1 w.2.2)
    let new := s.get (ETH_CLS_MODE_cbs p)
    let s := s.modEth p (fun x => { x with
      credits := (List.range 8).map (fun c => if bit old c == bit new c then x.credits.getD c 0 else 0) })
    s.syncOver p

/-- What the ports do at a tick edge, and in phase SCHED with the shaper writes of the ticks before (R251). -/
def State.ethEdge (s : State) : State := s.each (List.range 6) (fun p t => t.ethApply p (fun _ a => isLatency a))
def State.ethSched (s : State) : State :=
  s.each (List.range 6) (fun p t => t.ethApply p (fun k a => !isLatency a && decide (k < s.tick.edges)))

/-- ETH_BYTES_LO_READ (R222, R577): a read of RX_BYTES_LO or TX_BYTES_LO latches the upper 16 bits for the source. -/
def execEthBytesLoRead (who : Agent) (port : Fin 6) (sent : Bool) (s : State) : Host.Outcome State Fault Refusal :=
  let p := port.val
  let n := if sent then (s.ethPort p).tx48 else (s.ethPort p).rx48
  let a := 0x100000 + 0x4000 * p + 0x200 + 4 * (if sent then 14 else 2)
  .next (s.ifOwned who (s.ethOwner p) (a - 4) (fun s =>
    (s.latchHi (agentId who) a (BitVec.ofNat 32 (n / 2 ^ 32))).answer (agentId who) (BitVec.ofNat 32 n)))

end Sys2Proof.Machine
end

