-- ==== Sys2Proof/Machine/Fio.lean ====
section
/-!
DEFINITION. Field ports A and B (spec/14_field_ports.md).
-/

namespace Sys2Proof.Machine

open Sys2Proof

/-- A fault record of port A or B (R397): the owner's log and the device log, PF vector 12, the owner's vector 64. -/
def State.fieldLog (s : State) (o : Option Nat) (code data : Nat) : State :=
  let s := (s.logBoth o code data).raisePf 12
  match o with
  | some n => s.raiseNiche n 64
  | none => s

/-- FIO_CNTn. -/
def State.fioCnt (s : State) (n : Nat) : State := s.sat (FIO_CNT_count n)

/-- Port A runs: the variant has it, PD29 and PD30 are on, the die link is up. -/
def State.dieRuns (s : State) : Bool := !s.fuse.is7401 && s.domainOn 29 && s.domainOn 30 && s.on FIO_STATUS_link

/-- Field f of a word of the AIN, excitation or loop registers, given as that of index 0. -/
def wfield (w : Word) (f : Field) : Nat := bits w.toNat f.hi f.lo

/-! ### Energy (R371) -/

/-- ENERGY limits of channel n; all zero before an image is accepted. -/
def State.energy (s : State) (n : Nat) : EnergyChan :=
  match s.device with
  | some d => d.energy.getD n ⟨0, 0, 0, 0⟩
  | none => ⟨0, 0, 0, 0⟩

/-- Channel n with configuration word w would break R371 under excitation words exc (EXC0, EXC1, bridge)
(assumption 66, DEDUCED). -/
def State.energyBad (s : State) (n : Nat) (w : Word) (exc : List Word) : Bool :=
  let e := s.energy n
  let x := wfield w (FIO_AIN_CFG_exc 0)
  if wfield w (FIO_AIN_CFG_en 0) = 0 ∨ x = 0 then false
  else if x = 3 then
    let b := exc.getD 2 0
    let v := wfield b FIO_BRG_CFG_volt * 100
    let i := wfield b FIO_BRG_CFG_ilim * 100
    decide (e.uo < v) || decide (e.io < i) || decide (e.po * 1000000 < v * i)
  else
    let i := wfield (exc.getD (x - 1) 0) (FIO_EXC_CFG_cur 0) * 10
    decide (e.exc < i) || decide (e.po * 1000000 < min 5900 e.uo * i)

/-- A channel configuration that Tables 14.3 and 14.4 or R379 refuse. -/
def State.ainBad (s : State) (n : Nat) (w : Word) : Bool :=
  let c := wfield w (FIO_AIN_CFG_curve 0)
  let x := wfield w (FIO_AIN_CFG_exc 0)
  decide (5 ≤ wfield w (FIO_AIN_CFG_conv 0)) || ((c == 1 || c == 2) && x != 1 && x != 2) ||
    (decide (3 ≤ c) && decide (c ≤ 10) && x != 0) || (c == 11 && s.get (FIO_AIN_SPAN_span n) == 0)

/-- CFG_BAD of a point (assumption 66, DEDUCED). -/
def State.fioCfgBad (s : State) (o : Option Nat) (n : Nat) : State := s.fieldLog o 0x0D08 (fdata n 0 0)

/-- A register write that meets a die link that is down is discarded, DIE_LOST being logged once per onset
(R387; assumption 67, DEDUCED). -/
def State.dieDiscard (s : State) : State :=
  if s.fio.dieLogged then s
  else { s.fieldLog none 0x0D0A 0 with fio := { s.fio with dieLogged := true } }

/-- FIO_ENERGY_CFG_WRITE (R371, R373, R379): registers 0 to 7 FIO_AINn_CFG, 8 and 9 FIO_EXCk_CFG, 10 FIO_BRG_CFG. -/
def execFioEnergyCfgWrite (reg : Fin 11) (data : Word) (s : State) : Host.Outcome State Fault Refusal :=
  let r := reg.val
  let now := [s.word 0x240200, s.word 0x240204, s.word 0x240208]
  let ain := fun n => s.word (0x240100 + 0x20 * n)
  let a := if r < 8 then 0x240100 + 0x20 * r else 0x240200 + 4 * (r - 8)
  .next (s.ifPresent a (fun s =>
  if !s.on FIO_STATUS_link then s.dieDiscard
  else if r < 8 then
    if s.ainBad r data then s.fioCfgBad (s.ainOwner r) r
    else if s.energyBad r data now then (s.fioCnt 5).fieldLog (s.ainOwner r) 0x0D01 (fdata r 0 0)
    else s.setWord (0x240100 + 0x20 * r) data
  else
    let w := data &&& (if r = 10 then 0x01FF003F#32 else 0x7F#32)
    let bad := if r = 10 then decide (wfield w FIO_BRG_CFG_volt < 5) || decide (59 < wfield w FIO_BRG_CFG_volt) ||
        decide (wfield w FIO_BRG_CFG_ilim < 1) || decide (480 < wfield w FIO_BRG_CFG_ilim)
      else decide (wfield w (FIO_EXC_CFG_cur 0) < 1) || decide (100 < wfield w (FIO_EXC_CFG_cur 0))
    let o := s.ownerWith (fun x => r != 10 && bit x.exc (r - 8))
    if bad then s.fioCfgBad o (r - 8)
    else match (List.range 8).find? (fun n => s.energyBad n (ain n) (now.set (r - 8) w)) with
      | some n => (s.fioCnt 5).fieldLog (s.ainOwner n) 0x0D01 (fdata n 0 0)
      | none => s.setWord (0x240200 + 4 * (r - 8)) w))

/-! ### Scan and conversion -/

/-- The enabled channel that follows channel n in the scan. -/
def State.nextChannel (s : State) (n : Nat) : Option Nat :=
  ((List.range 8).map (fun i => (n + 1 + i) % 8)).find? (fun c => s.on (FIO_AIN_CFG_en c))

/-- AIN_SETTLE_START (R372, R373): the next channel of the scan; its configuration takes effect. Before an image is accepted
nothing is scanned (R18). -/
def execAinSettleStart (s : State) : Host.Outcome State Fault Refusal :=
  .next (if !s.dieRuns ∨ s.fio.cur.isSome ∨ s.device.isNone then s
  else match s.nextChannel s.fio.last with
    | none => s
    | some c =>
      let b := 0x240100 + 0x20 * c
      let cfg := ((s.fio.cfg.set (3 * c) (s.word b)).set (3 * c + 1) (s.word (b + 4))).set (3 * c + 2) (s.word (b + 8))
      { s with fio := { s.fio with
        cur := some c, last := c, cfg := cfg, exc := [s.word 0x240200, s.word 0x240204, s.word 0x240208],
        visits := s.fio.visits.modify c (· + 1) } })

/-- Word k of channel c's configuration in force. -/
def State.ainWord (s : State) (c k : Nat) : Word := s.fio.cfg.getD (3 * c + k) 0

/-- The input of a raw sample: in µV, in µV/V, or in mΩ (R374). -/
def State.ainMicro (s : State) (c : Nat) (raw : Int) : ℚ :=
  (raw : ℚ) / 2 ^ 23 * 2500000 / 2 ^ wfield (s.ainWord c 0) (FIO_AIN_CFG_gain 0)
def State.ainRatio (s : State) (c : Nat) (raw : Int) : ℚ :=
  (raw : ℚ) / 2 ^ 23 * 1000000 / 2 ^ wfield (s.ainWord c 0) (FIO_AIN_CFG_gain 0)
def State.ainOhm (s : State) (c : Nat) (raw : Int) : ℚ :=
  let x := wfield (s.ainWord c 0) (FIO_AIN_CFG_exc 0)
  let i := wfield (s.fio.exc.getD (x - 1) 0) (FIO_EXC_CFG_cur 0) * 10
  s.ainMicro c raw * 1000 / (i : ℚ)

/-- Domain of a curve in m°C (Table 14.4). -/
def curveDomain (c : Nat) : Int × Int :=
  [(0, 0), (-200000, 850000), (-200000, 850000), (-210000, 1200000), (-270000, 1372000), (-270000, 1300000),
    (-270000, 400000), (-270000, 1000000), (-50000, 1768000), (-50000, 1768000), (0, 1820000)].getD c (0, 0)

/-- A temperature held inside the domain of its curve, and whether it lay outside (R379). -/
def inDomain (c : Nat) (v : Int) : Int × Bool :=
  let d := curveDomain c
  (clampInt d.1 d.2 v, decide (v < d.1) || decide (d.2 < v))

/-- Resistance in mΩ of a platinum resistor of r0 mΩ at 0 °C (IEC 60751, α = 0.003 85; assumption 7, PRESUMED). -/
def ptOhm (r0 : Nat) (t : Int) : ℚ :=
  let x : ℚ := (t : ℚ) / 1000
  r0 * (1 + 39083 / 10000000 * x - 5775 / 10000000000 * x ^ 2 -
    (if t < 0 then 4183 / 1000000000000000 * (x - 100) * x ^ 3 else 0))

/-- The highest temperature in m°C from lo on, below lo + 2ᵏ, at which the resistor has at most r mΩ. -/
def ptFloor (r0 : Nat) (r : ℚ) : Nat → Int → Int
  | 0, lo => lo
  | k + 1, lo => ptFloor r0 r k (if ptOhm r0 (lo + 2 ^ k) ≤ r then lo + 2 ^ k else lo)

/-- The temperature in m°C of curves 1 and 2 at r mΩ: a value within 0.001 °C of the exact solution, which of them being free (R379;
assumption 7, DESIGN CHOICE); one past the domain where the solution lies outside it. -/
def ptCurve (curve : Nat) (r : ℚ) (free : Nat) : Int :=
  let r0 := if curve = 1 then 100000 else 1000000
  let d := curveDomain curve
  if r < ptOhm r0 d.1 then d.1 - 1
  else if ptOhm r0 d.2 < r then d.2 + 1
  else
    let t := ptFloor r0 r 21 d.1
    clampInt d.1 d.2 (if ptOhm r0 t = r then t - 1 + (free % 3 : Nat) else t + (free % 2 : Nat))

/-- Square root times 100,000 rounded to a neighbouring unit (R379, curve 11). -/
def rootFlow (x : ℚ) (free : Nat) : Int :=
  let n := x.num.toNat * 10000000000 / x.den
  let r := Nat.sqrt n
  if r * r = n ∧ x.num.toNat * 10000000000 % x.den = 0 then r else ((r + free % 2 : Nat) : Int)

/-- A whole number nearest to x, ties away from zero (assumption 59, DEDUCED). -/
def roundAway (x : ℚ) : Int := if x < 0 then -⌊-x + 1 / 2⌋ else ⌊x + 1 / 2⌋

/-- y of a custom table at x, and whether x lay outside its points (R379). -/
def CurveTab.eval (t : CurveTab) (x : ℚ) : Int × Bool :=
  match t.points.head?, t.points.getLast? with
  | some a, some b =>
    if x < a.1 then (a.2, true)
    else if (b.1 : ℚ) < x then (b.2, true)
    else match (t.points.zip (t.points.drop 1)).find? (fun p => decide (x ≤ p.2.1)) with
      | some (p, q) =>
        (roundAway ((p.2 : ℚ) + (x - p.1) * ((q.2 - p.2 : Int) : ℚ) / ((q.1 - p.1 : Int) : ℚ)), false)
      | none => (b.2, false)
  | _, _ => (0, true)

/-- The value of a raw sample of channel c, and its domain flag (R379); inner is the internal cold-junction sensor in
m°C (assumption 59, DEDUCED). -/
def State.linearise (s : State) (c : Nat) (raw inner : Int) : Int × Bool :=
  let w := s.ainWord c 0
  let curve := wfield w (FIO_AIN_CFG_curve 0)
  let ratio := wfield w (FIO_AIN_CFG_ratio 0) == 1
  let exc := wfield w (FIO_AIN_CFG_exc 0)
  let plain := if ratio then (if exc == 1 || exc == 2 then s.ainOhm c raw else s.ainRatio c raw) else s.ainMicro c raw
  if curve = 0 then (roundAny plain s.free, false)
  else if curve ≤ 2 then inDomain curve (ptCurve curve (s.ainOhm c raw) s.free)
  else if curve ≤ 10 then
    let cj := wfield w (FIO_AIN_CFG_cjc 0)
    let t := if cj = 0 then inner else if cj ≤ 8 then s.getS (FIO_AIN_VAL_val (cj - 1)) else toSigned 32 s.free
    inDomain curve (Config.sensorCurve curve (s.ainMicro c raw + Config.sensorEmf curve t))
  else if curve = 11 then
    let p := s.ainWord c 2
    let x := (if ratio then s.ainRatio c raw else s.ainMicro c raw) / (wfield p (FIO_AIN_SPAN_span 0) : ℚ)
    if x < (wfield p (FIO_AIN_SPAN_cutoff 0) : ℚ) / 1000 then (0, false)
    else if x > 12 / 10 then (rootFlow (12 / 10) s.free, true)
    else (rootFlow x s.free, false)
  else
    let t := s.fio.tabs.getD (curve - 12) ⟨0, []⟩
    t.eval (if t.kind = 1 then s.ainRatio c raw else if t.kind = 2 then s.ainOhm c raw else s.ainMicro c raw)

/-- A conversion of channel c ends (R372 to R379): the raw sample r, the lowest and highest common mode of the conversion in mV,
and the internal sensor in m°C (assumption 59, DEDUCED). -/
def State.endConversion (s : State) (c : Nat) (r cmLo cmHi inner : Int) : State :=
    let w := s.ainWord c 0
    let m := s.ainWord c 1
    let cm := decide (cmLo < toSigned 16 (wfield m (FIO_AIN_CM_lo 0))) ||
      decide (toSigned 16 (wfield m (FIO_AIN_CM_hi 0)) < cmHi)
    let ovr := r == 8388607 || r == -8388608
    let was := s.fio.open_.getD c false
    let test := wfield w (FIO_AIN_CFG_ow_en 0) == 1 && s.fio.visits.getD c 0 % 16 == 0
    let opened := if test then decide (9 * 8388608 < 10 * r.natAbs) else was
    let v := s.linearise c r inner
    let s := s.tookFree
    let curve := wfield w (FIO_AIN_CFG_curve 0)
    let cj := wfield w (FIO_AIN_CFG_cjc 0)
    let cold := decide (3 ≤ curve) && decide (curve ≤ 10) && cj != 0 && s.fio.susp.getD (cj - 1) false
    let suspect := cm || ovr || opened || cold
    let s := s.when cm (fun t => ((t.fioCnt 4).limBothKind (t.ainOwner c) c 0x0D02 (fdata c 0 0)))
    let s := s.when (opened && !was) (fun t => t.fieldLog (t.ainOwner c) 0x0D06 (fdata c 0 0))
    { s with fio := { s.fio with
      cur := none, open_ := s.fio.open_.set c opened, susp := s.fio.susp.set c suspect,
      done := s.fio.done ++ [⟨c, r, v.1, cm, ovr, opened, v.2, suspect⟩] } }

/-- AIN_CONVERSION_END. -/
def execAinConversionEnd (raw : BitVec 24) (cmLo cmHi inner : Int) (s : State) : Host.Outcome State Fault Refusal :=
  .next (match if s.dieRuns then s.fio.cur else none with
  | none => s
  | some c => s.endConversion c raw.toInt cmLo cmHi inner)

/-! ### Loop outputs -/

/-- Loop output j. -/
def State.loopAt (s : State) (j : Nat) : LoopOut := s.fio.loops.getD j ⟨3600, 0, none⟩
def State.setLoop (s : State) (j : Nat) (x : LoopOut) : State :=
  { s with fio := { s.fio with loops := s.fio.loops.set j x } }

/-- FIO_LOOPj_STAT.active: a niche owns the output and its ENERGY loop_en bit is 1. -/
def State.loopActive (s : State) (j : Nat) : Bool :=
  (s.loopOwner j).isSome && (match s.device with | some d => bit d.loopEn j | none => false)

/-- The current of loop j becomes ua µA, at most 3.6 mA where it is not active (R370). -/
def State.sink (s : State) (j ua : Nat) : State :=
  let ua := if s.loopActive j then ua else min ua 3600
  let s := s.setLoop j { s.loopAt j with ua := ua }
  (s.put (FIO_LOOP_STAT_i_meas j) ua).send (.loop j ua)

/-- LOOP_SET_WRITE (R383). -/
def execLoopSetWrite (j : Fin 2) (data : Word) (s : State) : Host.Outcome State Fault Refusal :=
  let j := j.val
  let ua := bits data.toNat 14 0
  .next (s.ifPresent (0x240304 + 0x20 * j) (fun s =>
  if !s.on FIO_STATUS_link then s.dieDiscard
  else if s.on (FIO_LOOP_CFG_txm j) ∨ ua < 3600 ∨ 21000 < ua then s.fioCfgBad (s.loopOwner j) j
  else (s.put (FIO_LOOP_SET_ua j) ua).sink j ua))

/-- LOOP_TXM_WRITE (R384, R385): a write of FIO_LOOPj_CFG by an agent. A source channel of another niche is a cross-niche request
before it is anything else (R11). -/
def execLoopTxmWrite (who : Agent) (j : Fin 2) (data : Word) (s : State) : Host.Outcome State Fault Refusal :=
  let j := j.val
  let w := data &&& 0xFFFC0000#32
  let txm := wfield w (FIO_LOOP_CFG_txm 0) == 1
  let src := wfield w (FIO_LOOP_CFG_src 0)
  let a := 0x240300 + 0x20 * j
  let o := s.loopOwner j
  let foreign := (s.ainOwner src).isSome && s.ainOwner src != o
  .next (s.ifPresent a (fun s =>
  if !s.on FIO_STATUS_link then s.dieDiscard
  else if txm && foreign then
    match agentNiche who with
    | some n => s.deny n (agentId who) a
    | none => match o with
      | some n => s.countDenied n a
      | none => s
  else if txm && !(s.ownerWith (fun x => bit x.txm j)).isSome then s.fieldLog o 0x0D09 (fdata j 0 0)
  else if txm && s.get (FIO_LOOP_LO_v j) == s.get (FIO_LOOP_HI_v j) then s.fioCfgBad o j
  else
    let was := s.on (FIO_LOOP_CFG_txm j)
    let s := (s.setWord a w).setLoop j { s.loopAt j with run := 0 }
    if was && !txm then
      (((s.putB (FIO_LOOP_STAT_holding j) false).putB (FIO_LOOP_STAT_faulted j) false)).sink j (s.get (FIO_LOOP_SET_ua j))
    else s))

/-- Loop j goes to the NE 43 fault level (R386; assumption 66, DEDUCED). -/
def State.loopFault (s : State) (j : Nat) : State :=
  let was := s.on (FIO_LOOP_STAT_faulted j)
  let s := (s.putB (FIO_LOOP_STAT_faulted j) true).putB (FIO_LOOP_STAT_holding j) false
  let s := s.sink j (if s.on (FIO_LOOP_CFG_fail j) then 21000 else 3600)
  if was then s else (s.fioCnt 3).fieldLog (s.loopOwner j) 0x0D05 (fdata j 0 0)

/-- A sample of its source reaches loop j in transmitter mode (R385, R386). -/
def State.loopSample (s : State) (j : Nat) (x : AinSample) : State :=
  let l := s.loopAt j
  if x.domain then (s.setLoop j { l with run := if x.suspect then l.run + 1 else 0 }).loopFault j
  else if x.suspect then
    let s := s.setLoop j { l with run := l.run + 1 }
    if s.get (FIO_LOOP_CFG_hold_n j) < l.run + 1 then s.loopFault j
    else s.putB (FIO_LOOP_STAT_holding j) (!s.on (FIO_LOOP_STAT_faulted j))
  else
    let lo := s.getS (FIO_LOOP_LO_v j)
    let hi := s.getS (FIO_LOOP_HI_v j)
    let i := roundNear (4000 + 16000 * ((x.val - lo : Int) : ℚ) / ((hi - lo : Int) : ℚ)) s.free
    let s := s.tookFree.setLoop j { l with run := 0 }
    let s := (s.putB (FIO_LOOP_STAT_holding j) false).putB (FIO_LOOP_STAT_faulted j) false
    s.sink j (clampInt 3800 20500 i).toNat

/-- A sample is handed to the registers of its channel and to the loops that follow it (R375). -/
def State.handSample (s : State) (x : AinSample) : State :=
  let c := x.ch
  let s := (s.putS (FIO_AIN_RAW_raw c) x.raw).putS (FIO_AIN_VAL_val c) x.val
  let s := (s.wrap (FIO_AIN_STAT_seq c)).putB (FIO_AIN_STAT_new c) true
  let s := ((s.putB (FIO_AIN_STAT_domain c) x.domain).putB (FIO_AIN_STAT_open c) x.open_).putB (FIO_AIN_STAT_ovr c) x.ovr
  let s := (s.putB (FIO_AIN_STAT_cm c) x.cm).putB (FIO_AIN_STAT_suspect c) x.suspect
  let s := if x.suspect then (s.sat (FIO_AIN_STAT_susp_run c)).fioCnt 1 else s.put (FIO_AIN_STAT_susp_run c) 0
  let s := (s.fioCnt 0).when x.domain (fun t => t.fioCnt 2)
  s.each (List.range 2) (fun j t =>
    if t.on (FIO_LOOP_CFG_txm j) && t.get (FIO_LOOP_CFG_src j) == c then t.loopSample j x else t)

/-- PHASE_FIO (R375, R385, R386). -/
def execPhaseFio (cycles : Nat) (s : State) : Host.Outcome State Fault Refusal :=
  let l := s.fio.done
  let s := { s with fio := { s.fio with done := [] } }
  .next ((s.each l (fun x t => t.handSample x)).phaseUsed 8 cycles)

/-- AIN_VAL_READ (R370, Table 14.7). -/
def execAinValRead (who : Agent) (n : Fin 8) (s : State) : Host.Outcome State Fault Refusal :=
  .next (s.ifOwned who (s.ainOwner n.val) (0x240110 + 0x20 * n.val) (fun s =>
    (s.putB (FIO_AIN_STAT_new n.val) false).answer (agentId who) (s.word (0x240110 + 0x20 * n.val))))

/-- LOOP_OVERRANGE (R381): above 24.0 V for 100 ms, or below it again. -/
def execLoopOverrange (j : Fin 2) (above : Bool) (s : State) : Host.Outcome State Fault Refusal :=
  let j := j.val
  let was := s.on (FIO_LOOP_STAT_overrange j)
  .next (if !s.dieRuns then s
  else (s.putB (FIO_LOOP_STAT_overrange j) above).when (above && !was)
    (fun t => t.fieldLog (t.loopOwner j) 0x0D03 (fdata j 0 0)))

/-- LOOP_OPEN (R382): the measured current has stayed more than 1.0 mA below its command for 100 ms, or no longer does. -/
def execLoopOpen (j : Fin 2) (meas : BitVec 16) (s : State) : Host.Outcome State Fault Refusal :=
  let j := j.val
  let was := s.on (FIO_LOOP_STAT_open j)
  let opened := decide (meas.toNat + 1000 < (s.loopAt j).ua)
  .next (if !s.dieRuns then s
  else ((s.put (FIO_LOOP_STAT_i_meas j) meas.toNat).putB (FIO_LOOP_STAT_open j) opened).when (opened && !was)
    (fun t => t.fieldLog (t.loopOwner j) 0x0D04 (fdata j 0 0)))

/-- LOOP_REFRESH_TIMEOUT (R387): 200 ms without a refresh; the loop falls to 3.6 mA or less, to a current that is left
open. -/
def execLoopRefreshTimeout (j : Fin 2) (s : State) : Host.Outcome State Fault Refusal :=
  let j := j.val
  .next (match (s.loopAt j).stale with
  | some t =>
    if s.since t (200 * ms) then
      let ua := s.free % 3601
      (s.tookFree.setLoop j { s.loopAt j with ua := ua }).send (.loop j ua)
    else s
  | none => s)

/-- The die no longer refreshes the loops, from now on (R387). -/
def State.loopsStale (s : State) : State :=
  s.each (List.range 2) (fun j t => t.setLoop j { t.loopAt j with stale := some ((t.loopAt j).stale.getD t.clk) })

/-- FIO_DIE_LOST (R387). -/
def execFioDieLost (s : State) : Host.Outcome State Fault Refusal :=
  .next (if s.fuse.is7401 ∨ !s.on FIO_STATUS_link then s
  else
    let s := (s.putB FIO_STATUS_link false).loopsStale
    let s := { s with fio := { s.fio with cur := none } }
    s.dieDiscard)

/-- FIO_DIE_LINK_UP (R387): register writes count again, and the loops are refreshed at their settings. -/
def execFioDieLinkUp (s : State) : Host.Outcome State Fault Refusal :=
  .next (if s.fuse.is7401 ∨ !s.domainOn 29 ∨ !s.domainOn 30 then s
  else
    let s := s.putB FIO_STATUS_link true
    let s := { s with fio := { s.fio with dieLogged := false } }
    s.each (List.range 2) (fun j t =>
      let t := t.setLoop j { t.loopAt j with stale := none }
      if t.on (FIO_LOOP_CFG_txm j) then t else t.sink j (t.get (FIO_LOOP_SET_ua j))))

/-! ### Custom tables (R380) -/

/-- Shadow word i of table k. -/
def State.tabWord (s : State) (k i : Nat) : Word := storeGet (fun _ => (0 : Word)) s.fio.shadow (65 * k + i)
def State.setTabWord (s : State) (k i : Nat) (w : Word) : State :=
  { s with fio := { s.fio with shadow := storeSet (fun _ => (0 : Word)) s.fio.shadow (65 * k + i) w } }

/-- The shadow of table k as a table: kind, and its first count points. -/
def State.shadowTab (s : State) (k : Nat) : CurveTab :=
  let h := (s.tabWord k 0).toNat
  ⟨bits h 9 8, (List.range (bits h 5 0)).map (fun p => ((s.tabWord k (1 + 2 * p)).toInt, (s.tabWord k (2 + 2 * p)).toInt))⟩

/-- CTAB_COMMIT (R380). -/
def execCtabCommit (s : State) : Host.Outcome State Fault Refusal :=
  let k := s.get FIO_CTAB_SEL_table
  let t := s.shadowTab k
  let n := bits (s.tabWord k 0).toNat 5 0
  let rising := (t.points.zip (t.points.drop 1)).all (fun p => decide (p.1.1 < p.2.1))
  let used := (List.range 8).any (fun c => s.get (FIO_AIN_CFG_curve c) == 12 + k &&
    s.get (FIO_AIN_CFG_exc c) != 1 && s.get (FIO_AIN_CFG_exc c) != 2)
  .next (s.ifPresent 0x240404 (fun s =>
  if !s.on FIO_STATUS_link then s.dieDiscard
  else if n < 2 ∨ 32 < n ∨ !rising ∨ (t.kind = 2 ∧ used) then s.fieldLog none 0x0D07 (fdata (12 + k) 0 0)
  else { s with fio := { s.fio with commit := s.fio.commit ++ [(k, t)] } }))

/-- CTAB_ACTIVATE (R380): committed tables become active at the tick edge. -/
def execCtabActivate (s : State) : Host.Outcome State Fault Refusal :=
  let l := s.fio.commit
  .next { s with fio := { s.fio with commit := [], tabs := l.foldl (fun a x => a.set x.1 x.2) s.fio.tabs } }

/-! ### Binary inputs (R388 to R392) -/

/-- Binary input i. -/
def State.din (s : State) (i : Nat) : DinState := s.fio.dins.getD i ⟨.empty, 0, none, none, [], false, 0⟩
def State.setDin (s : State) (i : Nat) (x : DinState) : State :=
  { s with fio := { s.fio with dins := s.fio.dins.set i x } }

/-- TIM_DIN_LEVEL of input i: 0 low, 1 high, 2 INDET. -/
def State.dinLevel (s : State) (i : Nat) : Nat := s.get TIM_DIN_LEVEL_level / 4 ^ i % 4
def State.setDinLevel (s : State) (i v : Nat) : State :=
  s.put TIM_DIN_LEVEL_level (s.get TIM_DIN_LEVEL_level - s.dinLevel i * 4 ^ i + v % 4 * 4 ^ i)

/-- The binary inputs are read: PD26 is on and bank 4 is a 3.3 V bank (R562; assumption 67, DEDUCED). -/
def State.dinReads (s : State) : Bool := s.domainOn 26 && s.get GLB_STRAP_bank4 == 2

/-- Where a ball voltage lies: below, inside or above the band of input i (2 mV units in thr and hys). -/
def State.dinSide (s : State) (i mv : Nat) : Option Bool :=
  let thr := 2 * s.get (TIM_DIN_CFG_thr i)
  let hys := 2 * s.get (TIM_DIN_CFG_hys i)
  if thr + hys < mv then some true else if mv + hys < thr then some false else none

/-- The queue of input i. -/
def State.dinDesc (s : State) (i : Nat) : QueueDesc :=
  ⟨TIM_DIN_STAT_ovf i, TIM_DIN_STAT_view i, TIM_DIN_STAT_count i, TIM_DIN_STAT_dropped i, TIM_DIN_E_word i, 0x0B09, i,
    s.dinOwner i, true, i⟩

/-- An event of input i is recorded: its edge, stamp and whether it tells of chatter (R390 to R392); none before an image is
accepted (R18). -/
def State.dinEvent (s : State) (i : Nat) (rise : Bool) (stamp : Nat) (chat : Bool) : State :=
  if s.device.isNone then s
  else
  let x := s.din i
  let r := s.pushStamp (s.dinDesc i) x.fifo x.seq stamp rise (bitNat chat + 2 * bitNat (s.on TIM_FPB_STAT_dip))
  (r.1.setDin i { x with fifo := r.2, seq := (x.seq + 1) % 65536 }).when (s.domainOn 26) (fun t => t.wakeEvent 5)

/-- Input i is evaluated at a ball voltage without an event (R388, R389; assumption 67, DEDUCED). -/
def State.dinEvaluate (s : State) (i mv : Nat) : State :=
  let l := if s.dinReads then s.dinSide i mv else none
  (s.setDinLevel i (match l with | some true => 1 | some false => 0 | none => 2)).setDin i
    { s.din i with level := l, run := none }

/-- DIN_CROSSING (R388 to R390): the ball of input i has moved to a voltage in mV. -/
def execDinCrossing (i : Fin 8) (mv : Nat) (frac : Fin 16) (s : State) : Host.Outcome State Fault Refusal :=
  let i := i.val
  .next (if !s.dinReads then s
  else match s.dinSide i mv with
    | none => s
    | some l =>
      let x := s.din i
      let s := s.setDinLevel i (bitNat l)
      match x.level with
      | none => s.setDin i { x with level := some l, run := none }
      | some old =>
        if old = l then s.setDin i { x with run := none }
        else if x.run.isSome then s
        else s.setDin i { x with run := some (l, s.stampAt frac.val, s.clk) })

/-- The new level l of input i, whose crossing was stamped and happened at at_, has held for filt (R390, R391). -/
def State.settleDin (s : State) (i : Nat) (l : Bool) (stamp at_ : Nat) : State :=
      let x := s.din i
      let c := s.get (TIM_DIN_CFG_chat i)
      let edges := x.edges.filter (fun t => decide (at_ < t + sec)) ++ [at_]
      let enters := c != 0 && !x.chatter && decide (4 * c < edges.length)
      let s := s.setDin i { x with level := some l, run := none, edges := edges, lastEdge := at_, chatter := x.chatter || enters }
      if x.chatter then s
      else if enters then (s.dinEvent i l stamp true).limBothKind (s.dinOwner i) i 0x0B0A (fdata i 0 0)
      else if (if l then s.on (TIM_DIN_CFG_rise i) else s.on (TIM_DIN_CFG_fall i)) then s.dinEvent i l stamp false
      else s

/-- DIN_EVENT. -/
def execDinEvent (i : Fin 8) (s : State) : Host.Outcome State Fault Refusal :=
  .next (match (s.din i.val).run with
  | none => s
  | some (l, stamp, at_) =>
    if s.since at_ (s.get (TIM_DIN_CFG_filt i.val) * 100 * us) then s.settleDin i.val l stamp at_ else s)

/-- CHATTER_END (R391): no edge for 1 s. -/
def execChatterEnd (i : Fin 8) (s : State) : Host.Outcome State Fault Refusal :=
  let i := i.val
  let x := s.din i
  .next (if x.chatter && s.since x.lastEdge sec then
    (s.setDin i { x with chatter := false, edges := [] }).dinEvent i (x.level == some true) (s.stampAt 0) true
  else s)

/-- DIN_CFG_WRITE (R388): a write of TIM_DINi_CFG, the ball being at a voltage in mV. -/
def execDinCfgWrite (i : Fin 8) (data : Word) (mv : Nat) (s : State) : Host.Outcome State Fault Refusal :=
  let i := i.val
  let thr := wfield data (TIM_DIN_CFG_thr 0)
  .next (if thr < 50 ∨ 1500 < thr ∨ 250 < wfield data (TIM_DIN_CFG_hys 0) then
    s.fieldLog (s.dinOwner i) 0x0B0F (fdata i 0 0)
  else (s.setWord (0x1C0A00 + 0x20 * i) data).dinEvaluate i mv)

/-- A read of E0 of DIN i by a source: the state and the word. -/
def State.readDin (s : State) (src i : Nat) : State × Word :=
  let r := s.popStamp src (s.dinDesc i) (s.din i).fifo
  (r.2.1.setDin i { r.2.1.din i with fifo := r.2.2 }, BitVec.ofNat 32 r.1)

/-- DIN_E0_READ (R222, R390). -/
def execDinE0Read (who : Agent) (i : Fin 8) (s : State) : Host.Outcome State Fault Refusal :=
  .next (s.ifOwned who (s.dinOwner i.val) (0x1C0A08 + 0x20 * i.val) (fun s =>
    let r := s.readDin (agentId who) i.val
    r.1.answer (agentId who) r.2))

/-- WETTING_DIP (R392): FPB_WSENSE is below dip_thr, at a voltage in mV. -/
def execWettingDip (mv : Nat) (s : State) : Host.Outcome State Fault Refusal :=
  let was := s.on TIM_FPB_STAT_dip
  .next (if !s.domainOn 26 then s
  else if mv < s.get TIM_FPB_CFG_dip_thr then
    let s := { s.putB TIM_FPB_STAT_dip true with fio := { s.fio with recovered := none } }
    if was then s else s.fieldLog none 0x0B0B 0
  else { s with fio := { s.fio with recovered := if was then some (s.fio.recovered.getD s.clk) else none } })

/-- WETTING_DIP_END (R392): 10 ms after it recovered. -/
def execWettingDipEnd (s : State) : Host.Outcome State Fault Refusal :=
  .next (if s.on TIM_FPB_STAT_dip && s.fio.recovered.any (fun t => s.since t (10 * ms)) then
    { s.putB TIM_FPB_STAT_dip false with fio := { s.fio with recovered := none } }
  else s)

/-! ### Binary outputs (R393 to R396) -/

/-- A latch holds output k off. -/
def State.doutLatched (s : State) (k : Nat) : Bool :=
  s.on (TIM_DOUT_STAT_short k) || s.on (TIM_DOUT_STAT_contention k)

/-- The outputs may be driven: an image accepted, PD26 on, no FATAL (R18, R396, R540; assumption 67, DEDUCED). -/
def State.doutMay (s : State) : Bool := s.device.isSome && s.domainOn 26 && !s.flt.fatal

/-- DOUT_CMD (R393, R395, R396). -/
def execDoutCmd (k : Fin 4) (on : Bool) (s : State) : Host.Outcome State Fault Refusal :=
  let k := k.val
  .next (if on && s.doutLatched k then s
  else
    let s := s.putB (TIM_DOUT_CMD_on k) on
    if !on then
      ((s.putB (TIM_DOUT_STAT_limiting k) false).setDout k ⟨none, none⟩).switchDout k false
    else if s.on (TIM_DOUT_STAT_driven k) || (s.dout k).retry.isSome || !s.doutMay then s
    else s.switchDout k true)

/-- DOUT_CLEAR (R393, R395): the latches and the retry count; a pending retry stays. -/
def execDoutClear (k : Fin 4) (s : State) : Host.Outcome State Fault Refusal :=
  let k := k.val
  .next (((s.putB (TIM_DOUT_STAT_short k) false).putB (TIM_DOUT_STAT_contention k) false).put (TIM_DOUT_STAT_tries k) 0)

/-- Output k has limited for 200 µs (R393). -/
def State.shorted (s : State) (k : Nat) : State :=
    let failed := (s.dout k).trying.isSome
    let s := (s.switchDout k false).fieldLog (s.doutOwner k) 0x0B0C (fdata k 0 0)
    let s := s.when failed (fun t => t.sat (TIM_DOUT_STAT_tries k))
    if s.get (TIM_DOUT_CFG_retries k) ≤ s.get (TIM_DOUT_STAT_tries k) then
      ((s.putB (TIM_DOUT_STAT_limiting k) false).putB (TIM_DOUT_STAT_short k) true).setDout k ⟨none, none⟩
    else (s.putB (TIM_DOUT_STAT_limiting k) true).setDout k ⟨some (s.clk + 100 * ms), none⟩

/-- DOUT_SHORT (R393): a driven output. -/
def execDoutShort (k : Fin 4) (s : State) : Host.Outcome State Fault Refusal :=
  .next (if s.on (TIM_DOUT_STAT_driven k.val) then s.shorted k.val else s)

/-- DOUT_RETRY (R393): 100 ms after the output turned off. -/
def execDoutRetry (k : Fin 4) (s : State) : Host.Outcome State Fault Refusal :=
  let k := k.val
  .next (match (s.dout k).retry with
  | some t => if s.clk < t ∨ !s.doutMay then s
      else (s.setDout k ⟨none, some s.clk⟩).switchDout k true
  | none => s)

/-- DOUT_RETRY_SUCCESS (R393): a retry has run 100 ms without limiting. -/
def execDoutRetrySuccess (k : Fin 4) (s : State) : Host.Outcome State Fault Refusal :=
  let k := k.val
  .next (match (s.dout k).trying with
  | some t =>
    if s.since t (100 * ms) && s.on (TIM_DOUT_STAT_driven k) then
      ((s.put (TIM_DOUT_STAT_tries k) 0).putB (TIM_DOUT_STAT_limiting k) false).setDout k ⟨none, none⟩
    else s
  | none => s)

/-- The contention probe's gap of output m. -/
def State.probeGap (s : State) (m : Nat) : State := (s.send (.dout m false)).send (.dout m true)

/-- DOUT_EXTDRV (R394, R395): output k, commanded off, has read high for 1 ms. Bit m of low: k reads low in the gap of
output m. -/
def execDoutExtdrv (k : Fin 4) (low : BitVec 4) (s : State) : Host.Outcome State Fault Refusal :=
  let k := k.val
  let driven := (List.range 4).filter (fun m => m != k && s.on (TIM_DOUT_STAT_driven m))
  .next (if s.on (TIM_DOUT_CMD_on k) ∨ s.on (TIM_DOUT_STAT_driven k) ∨ !s.domainOn 26 then s
  else
    let s := s.putB (TIM_DOUT_STAT_readback k) true
    match driven.find? (fun m => bit low.toNat m) with
    | some m =>
      let s := s.each (driven.takeWhile (fun i => i != m)) (fun i t => t.probeGap i)
      let off := fun (t : State) (i : Nat) => ((t.putB (TIM_DOUT_STAT_contention i) true).putB
        (TIM_DOUT_STAT_limiting i) false |>.setDout i ⟨none, none⟩).switchDout i false
      (off (off s m) k).fieldLog (s.doutOwner k) 0x0B0E (fdata k m 0)
    | none =>
      let s := s.each driven (fun i t => t.probeGap i)
      (s.putB (TIM_DOUT_STAT_extdrv k) true).fieldLog (s.doutOwner k) 0x0B0D (fdata k 0 0))

/-- DOUT_EXTDRV_CLEAR (R394): the readback has been low for 1 ms. -/
def execDoutExtdrvClear (k : Fin 4) (s : State) : Host.Outcome State Fault Refusal :=
  .next (if s.on (TIM_DOUT_STAT_driven k.val) then s
    else (s.putB (TIM_DOUT_STAT_readback k.val) false).putB (TIM_DOUT_STAT_extdrv k.val) false)

end Sys2Proof.Machine
end

