-- ==== Sys2Proof/Machine/Flc.lean ====
section
/-!
DEFINITION. The flash controller's commands: program, erase, suspend, resume, completion, reads
(spec/20_flash_arrays.md, R502 to R516).
-/

namespace Sys2Proof.Machine

open Sys2Proof

/-- s with an FLC record: port and flash address in its data, PF vector 7 (R516). -/
def State.flcLog (s : State) (code port addr : Nat) : State := (s.logDev code 0xF (fdata port 0 addr)).raisePf 7

/-- An operation is active: a program, an erase, the program of a commit record, or the controller's own write at a Cast
freeze (R504, R522, R526). -/
def State.flashActive (s : State) : Bool := s.flc.active.isSome || s.cst.arming.isSome || s.cst.freezing

/-- The checks of Table 20.2 for a command of a port at a flash address: the code of the first that fails
(assumption 57, DEDUCED). -/
def State.flashRefusal (s : State) (port : Nat) (erase : Bool) (a : Nat) (data : List Byte) : Option Nat :=
  let t := sectorOf a
  if s.on (FLC_PORT_STAT_busy port) || s.flashActive || (erase && s.flc.susp.isSome) then some 0x1304
  else if a % (if erase then 4096 else 32) ≠ 0 then some 0x1306
  else if !s.domainOn (35 + bankOf a) then some 0x130B
  else if s.on FLC_BOOT_state && (decide (t % 4096 < 8) || bankOf a == s.activeBank) then some 0x1305
  else if port < 2 && s.flc.fetch.getD port none == some (bankOf a) then some 0x1301
  else if !erase && s.eraseOpen t then some 0x1303
  else if !erase && (match s.flc.susp with | some o => sectorOf o.addr == t | none => false) then some 0x1308
  else if !erase && s.unit a != erasedUnit && s.unit a != data then some 0x1302
  else none

/-- A command of a port is refused in the same cycle (R505). -/
def State.flashRefuse (s : State) (port code a : Nat) : State :=
  ((s.put (FLC_PORT_STAT_code port) code).sat (FLC_CNT_count 6)).flcLog code port a

/-- An operation starts on a port. -/
def State.flashStart (s : State) (o : FlashOp) : State :=
  let s := (s.putB (FLC_PORT_STAT_busy o.port) true).put (FLC_PORT_STAT_code o.port) 0
  { s with flc := { s.flc with active := some o } }

/-- A port's command ends with a status. -/
def State.flashEnd (s : State) (port code : Nat) : State :=
  (s.putB (FLC_PORT_STAT_busy port) false).put (FLC_PORT_STAT_code port) code

/-- A program of data at flash address a by a port: checked, done at once where the unit already holds the data, and
otherwise started (R505, R506). -/
def State.flashProgram (s : State) (port a : Nat) (data : List Byte) : State :=
  match s.flashRefusal port false a data with
  | some c => s.flashRefuse port c a
  | none =>
    if s.unit a = data then (s.flashEnd port 0).sat (FLC_CNT_count 1)
    else s.flashStart ⟨port, false, a, data, s.clk, s.clk, 0, false⟩

/-- An erase of the sector at flash address a by a port: OPEN is recorded in both copies first (R507, R511). -/
def State.flashErase (s : State) (port a : Nat) : State :=
  match s.flashRefusal port true a [] with
  | some c => s.flashRefuse port c a
  | none => (s.markSector 1 (sectorOf a)).flashStart ⟨port, true, a, [], s.clk, s.clk, 0, false⟩

/-- FLC_PORTp_CMD op 1: the address and the 32 bytes stand in the port's registers. -/
def execFlashProgramCmd (port : Fin 3) (s : State) : Host.Outcome State Fault Refusal :=
  .next (s.flashProgram port.val (s.get (FLC_PORT_ADDR_addr port.val))
    ((List.range 8).flatMap (fun w => beBytes 4 (s.get (FLC_PORT_DATA_data port.val w)))))

/-- FLC_PORTp_CMD op 2. -/
def execFlashEraseCmd (port : Fin 3) (s : State) : Host.Outcome State Fault Refusal :=
  .next (s.flashErase port.val (s.get (FLC_PORT_ADDR_addr port.val)))

/-- The running erase is suspended: its run time is kept; held says whether by command (R508, R510). -/
def State.suspendErase (s : State) (held : Bool) : State :=
  match s.flc.active with
  | some o =>
    if o.erase then
      let o' := { o with ran := o.ran + (s.clk - o.at_) }
      let s := s.sat (FLC_CNT_count 3)
      { s with flc := { s.flc with active := none, susp := some o', held := held, lastRead := s.clk } }
    else s
  | none => s

/-- The suspended erase runs again, where nothing else is active. -/
def State.resumeErase (s : State) : State :=
  match s.flc.susp with
  | some o =>
    if s.flashActive then { s with flc := { s.flc with held := false } }
    else { s with flc := { s.flc with active := some { o with at_ := s.clk }, susp := none, held := false } }
  | none => s

/-- FLC_PORT2_CMD op 3: the erase is suspended and held until op 4 (R510); without an erase it has no effect. -/
def execFlashSuspendCmd (s : State) : Host.Outcome State Fault Refusal :=
  .next (if s.flc.susp.isSome then { s with flc := { s.flc with held := true } } else s.suspendErase true)

/-- FLC_PORT2_CMD op 4: an erase that is held runs again (R510). -/
def execFlashResumeCmd (s : State) : Host.Outcome State Fault Refusal :=
  .next (if s.flc.held then s.resumeErase else s)

/-- The active program completes; ok: its read-back verifies (R506). What a unit holds after a failed verify is open
(assumption 57, DEDUCED). -/
def execFlashProgramDone (ok : Bool) (s : State) : Host.Outcome State Fault Refusal :=
  .next (match s.flc.active with
    | some o =>
      if o.erase then s
      else
        let s := { s with flc := { s.flc with active := none } }
        if ok then (((s.setUnit o.addr o.data).flashEnd o.port 0).sat (FLC_CNT_count 0))
        else ((((s.setUnit o.addr (s.freeBytes 32)).tookFree.flashEnd o.port 0x130C).sat
          (FLC_CNT_count 7)).flcLog 0x130C o.port o.addr)
    | none => s)

/-- The active erase completes; ok: it verifies, and CLOSE is recorded in both copies; otherwise the sector stays
ERASE_OPEN (R507, R511; assumption 57, DEDUCED). -/
def execFlashEraseDone (ok : Bool) (s : State) : Host.Outcome State Fault Refusal :=
  .next (match s.flc.active with
    | some o =>
      if !o.erase then s
      else
        let t := sectorOf o.addr
        let s := { s with flc := { s.flc with active := none } }
        if ok then (((s.eraseSector t).markSector 2 t).flashEnd o.port 0).sat (FLC_CNT_count 2)
        else
          let s := { s with flc := { s.flc with torn := s.flc.torn ++ [t] } }
          ((s.flashEnd o.port 0x130C).sat (FLC_CNT_count 7)).flcLog 0x130C o.port o.addr
    | none => s)

/-- Flash address a reads with incomplete set: its sector is ERASE_OPEN, or is that of a suspended erase (R510,
R513). -/
def State.incomplete (s : State) (a : Nat) : Bool :=
  s.eraseOpen (sectorOf a) ||
    (match s.flc.susp with | some o => sectorOf o.addr == sectorOf a | none => false)

/-- The word at flash address a as the window shows it, first byte in [7:0] (R6, R503). What a sector with an erase
unfinished stores, and the keep area, whose records have no layout, are open (assumption 23, DESIGN CHOICE;
assumption 26, DESIGN CHOICE). -/
def State.flashWord (s : State) (a : Nat) : Word :=
  let t := sectorOf a
  let busy := match s.flc.active, s.flc.susp with
    | some o, _ => o.erase && sectorOf o.addr == t
    | none, some o => sectorOf o.addr == t
    | none, none => false
  if busy || s.flc.torn.contains t || t % 4096 == 1 || t % 4096 == 2 || !s.domainOn (35 + bankOf a) then
    BitVec.ofNat 32 s.free
  else BitVec.ofNat 32 (leAt (s.flashBytes (a - a % 4) 4) 0 4)

/-- A read of flash address a by a master (0 and 1 the management cores, 2 the host port), with what the unit's ECC finds (0
nothing, 1 corrected, 2 uncorrectable) and the time it stalls: a running erase of the bank is suspended, and the sticky bits of
the host port are set (R502, R503, R508; assumption 26, DESIGN CHOICE). -/
def State.flashRead (s : State) (master a ecc stall : Nat) : State :=
  let same := fun (o : Option FlashOp) => match o with | some x => bankOf x.addr == bankOf a | none => false
  let stalls := same s.flc.active
  let s := s.when stalls (fun t => (t.put FLC_STALL_MAX_ns (max (t.get FLC_STALL_MAX_ns) stall)).suspendErase false)
  let s := s.when (same s.flc.susp) (fun t => { t with flc := { t.flc with lastRead := t.clk } })
  let bad := ecc == 2 || s.badUnit a
  let inc := s.incomplete a
  let s := s.when (ecc == 1) (fun t => t.sat (FLC_CNT_count 4))
  let s := s.when bad (fun t =>
    (t.sat (FLC_CNT_count 5)).limDev 0x1307 0xF (fdata master 0 a))
  s.when (master == 2) (fun t =>
    let t := t.when bad (fun u => u.putB (FLC_PORT_RSTAT_ecc 2) true)
    t.when inc (fun u => u.putB (FLC_PORT_RSTAT_incomplete 2) true))

/-- FLASH_WINDOW_READ: the word goes to the master that read it; a read of the host goes through the window. -/
def execFlashWindowRead (master : Fin 3) (addr : BitVec 25) (ecc : Fin 3) (stall : Nat) (s : State) :
    Host.Outcome State Fault Refusal :=
  let a := addr.toNat
  let s := s.flashRead master.val a ecc.val stall
  .next (s.when (master.val == 2) (fun t => t.send (.completion 0 0 (t.flashWord a)))).tookFree

/-- No read has targeted the bank of an auto-suspended erase for FLC_CFG.idle microseconds: it resumes (R509). -/
def execEraseAutoResume (s : State) : Host.Outcome State Fault Refusal :=
  .next (if !s.flc.held && s.since s.flc.lastRead (s.get FLC_CFG_idle * us) then s.resumeErase else s)

/-- s with the operation's ERASE_SLOW taken. -/
def FlashOp.late (o : FlashOp) (now : Nat) (running : Bool) : Bool :=
  o.erase && !o.slow && (decide (o.since + 2 * sec ≤ now) ||
    decide (120 * ms < o.ran + (if running then now - o.at_ else 0)))

/-- An erase has run for more than 120 ms, or is incomplete 2 s after its command: logged once (R509). -/
def execEraseSlow (s : State) : Host.Outcome State Fault Refusal :=
  let log := fun (o : FlashOp) (t : State) => t.flcLog 0x130A o.port o.addr
  .next (match s.flc.active, s.flc.susp with
    | some o, p =>
      if o.late s.clk true then log o { s with flc := { s.flc with active := some { o with slow := true } } }
      else match p with
        | some q => if q.late s.clk false then
            log q { s with flc := { s.flc with susp := some { q with slow := true } } } else s
        | none => s
    | none, some q => if q.late s.clk false then
        log q { s with flc := { s.flc with susp := some { q with slow := true } } } else s
    | none, none => s)

end Sys2Proof.Machine
end

