-- ==== Sys2Proof/Machine/Hif.lean ====
section
/-!
DEFINITION. The PCI Express host interface (spec/16_pcie_host_interface.md): rings, doorbells, delivery and fetch,
interrupts and function resets.
-/

namespace Sys2Proof.Machine

open Sys2Proof

/-! ### Records and writers -/

/-- A record of a ring of niche n, with its vector 64 (R439). -/
def State.hifLog (s : State) (n r code : Nat) : State :=
  let s := (s.put (HIF_RING_STATUS_code n r) code).logNiche n code 0
  if classOf code = 1 then s else s.raiseNiche n 64

/-- The writer may change the ring registers of niche n: its virtual function, or the PF where the PF serves it (spec/16,
If the PF writes a niche's ring registers). -/
def State.ringWriter (s : State) (who : Agent) (n : Nat) : Bool :=
  match agentNiche who with
  | some m => m == n
  | none => n == 0 && !s.owns 0 (fun x => x.vf)

/-- What a ring's setting lacks (R429). -/
def ringFault (w : Word) (dbase cbase wb : Nat) : Bool :=
  let v := w.toNat
  let k := bits v 30 29
  let z := bits v 23 20
  decide (dbase % 64 ≠ 0 ∨ cbase % 64 ≠ 0 ∨ wb % 64 ≠ 0 ∨ z < 4 ∨ 12 < z ∨ k = 0 ∨ (k = 1 ∧ bits v 7 0 = 0))

/-- RING_ENABLE (R429): a write to HIF_RING_CFG with en = 1. -/
def execRingEnable (who : Agent) (niche : Fin 16) (ring : Fin 64) (data : Word) (s : State) :
    Host.Outcome State Fault Refusal :=
  let n := niche.val
  let r := ring.val
  .next (if !bit data.toNat 31 || s.closed n then s
  else if !s.ringWriter who n || s.on (HIF_RING_CFG_en n r) ||
      ringFault data (s.get (HIF_RING_DBASE_LO_addr n r)) (s.get (HIF_RING_CBASE_LO_addr n r))
        (s.get (HIF_RING_WB_LO_addr n r)) then s.hifLog n r 0x0F02
  else
    let s := s.setWord (ringBase n r) (data &&& 0xE0F000FF)
    let s := ((s.put (HIF_RING_PROD_index n r) 0).put (HIF_RING_CONS_index n r) 0).put (HIF_RING_CPROD_index n r) 0
    (s.putB (HIF_RING_STATUS_err n r) false).setRing n r ⟨0, none⟩)

/-- RING_DISABLE (R429): a write to HIF_RING_CFG with en = 0. Transfers in progress run to their end. -/
def execRingDisable (who : Agent) (niche : Fin 16) (ring : Fin 64) (data : Word) (s : State) :
    Host.Outcome State Fault Refusal :=
  let n := niche.val
  let r := ring.val
  .next (if bit data.toNat 31 || s.closed n then s
  else if !s.ringWriter who n then s.hifLog n r 0x0F02
  else s.setWord (ringBase n r) (data &&& 0xE0F000FF))

/-- What a doorbell does (R431). -/
inductive DoorbellUse where
  | same
  | stale
  | bad
  | take
  deriving DecidableEq, Repr

/-- R431 for index p on a ring of size entries. -/
def doorbellUse (p prod cons size : Nat) : DoorbellUse :=
  let d := (p + 2 ^ 32 - prod) % 2 ^ 32
  if d = 0 then .same
  else if 2 ^ 31 < d then .stale
  else if size < (p + 2 ^ 32 - cons) % 2 ^ 32 then .bad
  else .take

/-- RING_DOORBELL (R431, R225). -/
def execRingDoorbell (who : Agent) (niche : Fin 16) (ring : Fin 64) (p : Word) (s : State) :
    Host.Outcome State Fault Refusal :=
  let n := niche.val
  let r := ring.val
  .next (if s.closed n then s
  else if !s.ringWriter who n then s.hifLog n r 0x0F02
  else if !s.on (HIF_RING_CFG_en n r) then s.sat (HIF_NCNT_count n 0)
  else match doorbellUse p.toNat (s.get (HIF_RING_PROD_index n r)) (s.get (HIF_RING_CONS_index n r)) (s.ringSize n r) with
  | .same => s
  | .stale => s.sat (HIF_NCNT_count n 0)
  | .bad => ((s.sat (HIF_NCNT_count n 1)).put (HIF_RING_STATUS_code n r) 0x0F01).limNiche n 0x0F01 0
  | .take => s.put (HIF_RING_PROD_index n r) p.toNat)

/-! ### Receive (R433) -/

/-- Receive completion of buffer j of k, each of size bytes, of an SDU (Table 16.6). -/
def rxCompletion (d : Sdu) (j k size : Nat) : List Byte :=
  let total := d.data.length
  let last := j + 1 == k
  let len := if last then total - j * size else size
  let flags := bitNat (j == 0) + 2 * bitNat last + 4 * bitNat d.trunc + 8 * bitNat d.stamp.isSome + 16 * bitNat d.ais
  let st := d.stamp.getD (0, 0)
  leBytes 2 len ++ leBytes 1 flags ++ leBytes 1 d.source ++ leBytes 2 d.flow ++ leBytes 1 d.slow ++ zeros 1 ++
    leBytes 8 st.1 ++ leBytes 2 st.2 ++ beBytes 2 (d.keyMeta % 65536) ++ leBytes 2 (if last then total else 0) ++ zeros 10

/-- The SDU at the head of a receive ring, where the ring runs and has the buffers for it (R433): the SDU, its buffers, and
their size. -/
def State.rxReady (s : State) (n r : Nat) : Option (Sdu × Nat × Nat) :=
  let size := 256 * s.get (HIF_RING_CFG_buf n r)
  if !s.ringRuns n r 1 then none
  else match (s.ringQid n r).bind s.headOf with
    | none => none
    | some d =>
      let k := max 1 (ceilDiv d.data.length size)
      if k ≤ s.ringPosted n r then some (d, k, size) else none

/-- The head SDU d of a receive ring goes into k buffers of a size, whose addresses its next descriptors hold (R433, R435,
R436). -/
def State.deliverRx (s : State) (n r : Nat) (d : Sdu) (k size : Nat) (addrs : List (BitVec 64)) : State :=
    let i := s.get (HIF_RING_CONS_index n r)
    let s := (s.dequeue d.id).consume n r k
    let s := s.each (List.range k) (fun j t =>
      t.dmaWrite n (addrs.getD j 0).toNat ((d.data.drop (j * size)).take size))
    let s := s.release d.id
    s.each (List.range k) (fun j t => t.completeAt n r (i + j) (rxCompletion d j k size))

/-- RX_SDU_DELIVER. -/
def execRxSduDeliver (niche : Fin 16) (ring : Fin 64) (addrs : List (BitVec 64)) (s : State) :
    Host.Outcome State Fault Refusal :=
  .next (match s.rxReady niche.val ring.val with
  | none => s
  | some (d, k, size) => s.deliverRx niche.val ring.val d k size addrs)

/-! ### Transmit (R434) -/

/-- Length and flags of a transmit descriptor (Table 16.7). -/
def txLen (d : List Byte) : Nat := leAt d 8 2 % 2 ^ 14
def txFlag (d : List Byte) (i : Nat) : Bool := bit (byteAt d 10) i

/-- Table 16.8, order 1. -/
def txChainGood (chain : List (List Byte)) : Bool :=
  let k := chain.length
  decide (1 ≤ k ∧ k ≤ 16) &&
    chain.zipIdx.all (fun x => txFlag x.1 0 == (x.2 == 0) && txFlag x.1 1 == (x.2 + 1 == k) &&
      decide (1 ≤ txLen x.1) && decide (txLen x.1 ≤ 12288) && byteAt x.1 10 / 16 == 0 && byteAt x.1 11 == 0 &&
      allZero ((x.1.drop 24).take 8)) &&
    decide ((chain.map txLen).sum ≤ 12288)

/-- Table 16.8, orders 2 and 3, for the sop descriptor d of a ring of niche n: 0 where both pass. -/
def State.txRefused (s : State) (n : Nat) (d : List Byte) : Nat :=
  let q := leAt d 12 2 % 2 ^ 11
  if s.qidOwner q ≠ some n then 0x0001
  else match s.roleOf q with
    | some 3 => if txFlag d 3 then 0 else 0x0F05
    | some 1 => if txFlag d 3 then 0x0F05 else 0
    | some 2 => if txFlag d 3 then 0x0F05 else 0
    | _ => 0x0F05

/-- A transmit SDU of k descriptors from index i is refused with a status; TX_REFUSED counts those of R439
(assumption 79, DESIGN CHOICE). -/
def State.refuseTx (s : State) (n r i k ident status reason len : Nat) : State :=
  let s := if status = 0x0F04 ∨ status = 0x0F05 ∨ status = 0x0F09 then
      (s.sat (HIF_NCNT_count n 5)).put (HIF_RING_STATUS_code n r) status else s
  s.completeTx n r i k ident status reason len

/-- Table 16.8, order 5: the SDU of a ring is admitted to its QID, refused, or waits for cells (R218). -/
def State.admitTx (s : State) (n r i k : Nat) (d : List Byte) (data : List Byte) : State :=
  let ident := leAt d 16 4
  let q := leAt d 12 2 % 2 ^ 11
  let id := s.cel.nextId
  let s := s.admitSdu { id := 0, owner := n, data := data, dest := some q, tsReq := txFlag d 2 && s.roleOf q == some 2,
                        tsId := leAt d 14 2, mesh := leAt d 20 4 }
  if s.queued id then s.completeTx n r i k ident 0 0 data.length
  else if (s.sdu id).isNone then s.refuseTx n r i k ident 0x0F09 s.cel.why data.length
  else
    let s := s.putB (HIF_RING_STATUS_idle n r) false
    { s with hif := { s.hif with txWait := s.hif.txWait ++ [⟨id, n, r, i, k, ident⟩] } }

/-- A transmit ring may take the next SDU, of k descriptors. -/
def State.txMay (s : State) (n r k : Nat) : Bool :=
  s.ringRuns n r 2 && k != 0 && decide (k ≤ s.ringPosted n r) && !s.hif.txWait.any (fun x => x.niche == n && x.ring == r)

/-- The next SDU of a transmit ring is taken, judged and admitted (R434): its descriptors in index order, and the data they name,
or none where a data read failed. -/
def State.fetchTx (s : State) (n r : Nat) (chain : List (List Byte)) (data : Option (List Byte)) : State :=
    let k := chain.length
    let i := s.get (HIF_RING_CONS_index n r)
    let d := chain.headD []
    let ident := leAt d 16 4
    let len := (chain.map txLen).sum
    let s := s.consume n r k
    if !txChainGood chain then s.refuseTx n r i k ident 0x0F04 0 len
    else match s.txRefused n d with
      | 0 => match data with
        | none => (s.ringError n r).completeTx n r i k ident 0x0F03 0 len
        | some b => s.admitTx n r i k d (fitBytes len b)
      | 1 => (s.countDenied n (leAt d 12 2 % 2 ^ 11)).completeTx n r i k ident 0x0001 0 len
      | st => s.refuseTx n r i k ident st 0 len

/-- TX_SDU_FETCH (assumption 79, DESIGN CHOICE). -/
def execTxSduFetch (niche : Fin 16) (ring : Fin 64) (chain : List (List Byte)) (data : Option (List Byte)) (s : State) :
    Host.Outcome State Fault Refusal :=
  .next (if s.txMay niche.val ring.val chain.length then s.fetchTx niche.val ring.val chain data else s)

/-! ### Signalling, DMA and Bus Master Enable -/

/-- RING_HOLDOFF_EXPIRY (R436). -/
def execRingHoldoffExpiry (niche : Fin 16) (ring : Fin 64) (s : State) : Host.Outcome State Fault Refusal :=
  let n := niche.val
  let r := ring.val
  .next (match (s.ring n r).firstAt with
  | some t => if s.since t (s.get (HIF_RING_ITR_holdoff n r) * us) then s.signalRing n r else s
  | none => s)

/-- The head SDU of a receive ring, whose data writes are cut short, is dropped as RX_ABORT
(assumption 79, DESIGN CHOICE). -/
def State.rxAbort (s : State) (n r : Nat) : State :=
  match s.rxReady n r with
  | some (d, _, _) => (s.sat (HIF_NCNT_count n 3)).release d.id
  | none => s

/-- DMA_ERROR (spec/16, If a DMA request fails): a descriptor fetch, a data write, or a completion or write-back fails. -/
def execDmaError (niche : Fin 16) (ring : Fin 64) (what : DmaFailure) (s : State) : Host.Outcome State Fault Refusal :=
  let n := niche.val
  let r := ring.val
  .next (if !s.on (HIF_RING_CFG_en n r) || s.on (HIF_RING_STATUS_err n r) || s.closed n then s
  else match what with
  | .dataWrite => (s.rxAbort n r).ringError n r
  | _ => s.ringError n r)

/-- BUS_MASTER_DISABLE (R428): the receive rings whose data writes, and the transmit rings whose data read of an SDU of so
many descriptors, it cuts short. -/
def execBusMasterDisable (fn : Fin 17) (rx : List (Fin 16 × Fin 64)) (tx : List (Fin 16 × Fin 64 × Fin 17)) (s : State) :
    Host.Outcome State Fault Refusal :=
  let mine := fun (n : Fin 16) => s.servedBy n.val == some fn.val
  let s := s.each (rx.filter (fun x => mine x.1)) (fun x t => t.rxAbort x.1.val x.2.val)
  let s := s.each (tx.filter (fun x => mine x.1)) (fun x t =>
    if t.ringRuns x.1.val x.2.1.val 2 then
      t.consume x.1.val x.2.1.val (min x.2.2.val (t.ringPosted x.1.val x.2.1.val)) else t)
  .next (s.modFn fn.val (fun f => { f with bme := false }))

/-- The pending vectors of function f that may be sent now are sent (MSI-X). -/
def State.sendPending (s : State) (f : Nat) : State :=
  s.each ((List.range 68).filter (fun v => bit (s.fn f).pba.toNat v && s.mayInterrupt f v)) (fun v t =>
    (t.send (.msix f v)).modFn f (fun x => { x with pba := x.pba &&& ~~~(BitVec.ofNat 68 (2 ^ v)) }))

/-- BUS_MASTER_ENABLE (R428): the function may use DMA, its rings resume from CONS, and pending vectors may be sent. With it
comes the configuration that the host has written by then (assumption 80, DESIGN CHOICE). -/
def execBusMasterEnable (fn : Fin 17) (cfg : HostConfig) (s : State) : Host.Outcome State Fault Refusal :=
  let s := if s.flt.phase = .held then s else
    let s := (s.putB HIF_STATUS_link true).putB HIF_STATUS_perst false
    let s := (s.put HIF_STATUS_width cfg.width.val).put HIF_STATUS_speed cfg.speed.val
    if fn.val = 0 then (s.put HIF_STATUS_num_vfs cfg.vfs.val).putB HIF_STATUS_vf_enable (cfg.vfs.val != 0) else s
  .next (if s.flt.phase = .held ∨ (fn.val ≠ 0 ∧ s.get HIF_STATUS_num_vfs < fn.val) then s
  else (s.modFn fn.val (fun f => { f with bme := true })).sendPending fn.val)

/-- MSIX_UNMASK (R550): MSI-X is enabled without the function mask (none), or vector v's mask bit is cleared
(assumption 80, DESIGN CHOICE). -/
def execMsixUnmask (fn : Fin 17) (vec : Option (Fin 68)) (s : State) : Host.Outcome State Fault Refusal :=
  let f := fn.val
  let s := match vec with
    | none => s.modFn f (fun x => { x with msix := true, mask := false })
    | some v =>
      let w : Word := BitVec.ofNat 32 (clrBit (s.msixWord f (16 * v.val + 12)).toNat 0)
      s.putMsix f (16 * v.val + 12) w
  .next (s.sendPending f)

/-! ### Resets (Table 16.11) -/

/-- The configuration space and the MSI-X table of function f at their reset values. -/
def State.resetFn (s : State) (f : Nat) : State :=
  let s := s.modFn f (fun _ => ⟨false, false, false, 0⟩)
  { s with hif := { s.hif with table := s.hif.table.filter (fun p => p.1 / 4096 != f) } }

/-- The ring registers of niche n at their reset values (R538). -/
def State.resetRings (s : State) (n : Nat) : State :=
  let lo := 0x2C1000 + 0x1000 * n
  { s with
    regs := s.regs.filter (fun p => !(decide (lo ≤ p.1) && decide (p.1 < lo + 0x1000)))
    hif := { s.hif with rings := s.hif.rings.filter (fun p => p.1 / 64 != n)
                        txWait := s.hif.txWait.filter (fun x => x.niche != n) } }

/-- VF_FLR (R437, R439, Table 16.11). -/
def execVfFlr (v : Fin 16) (s : State) : Host.Outcome State Fault Refusal :=
  let n := v.val
  let f := n + 1
  .next (if s.on HIF_STATUS_vf_enable && decide (f ≤ s.get HIF_STATUS_num_vfs) then
    let s := (s.logDev 0x0F06 n 0).raisePf 0
    let s := ((s.requestReset n 1).resetFn f).resetRings n
    if (s.nreset n).active then { s with hif := { s.hif with flr := f :: s.hif.flr.filter (fun x => x != f) } } else s
  else s)

/-- What resets the PF's side of the interface (Table 16.11). -/
def pfSide (kind : PfReset) (s : State) : State :=
  match kind with
  | .flr => (s.logDev 0x0F06 0xF 0).raisePf 0
  | .hot => s
  | .linkDown => ((s.logDev 0x0F07 0xF 0).raisePf 0).putB HIF_STATUS_link false
  | .perst => (((s.logDev 0x0F07 0xF 0).raisePf 0).putB HIF_STATUS_link false).putB HIF_STATUS_perst true

/-- PF_SIDE_RESET (R437, R438, R439, Table 16.11): a PF function-level reset, hot reset, link down or PCIE_PERST_N
(assumption 80, DESIGN CHOICE). -/
def execPfSideReset (kind : PfReset) (s : State) : Host.Outcome State Fault Refusal :=
  let served := (List.range 16).filter (fun n => s.usable (n + 1) || s.servedBy n == some 0)
  let s := pfSide kind s
  let s := s.each served (fun n t => (t.requestReset n 2).resetRings n)
  let s := (List.range 17).foldl (fun t f => t.resetFn f) s
  let s := (s.putB HIF_STATUS_vf_enable false).put HIF_STATUS_num_vfs 0
  let busy := served.filter (fun n => (s.nreset n).active)
  .next { s with hif := { s.hif with flr := if kind = .flr ∧ busy ≠ [] then [0] else [] } }

end Sys2Proof.Machine
end

