-- ==== Sys2Proof/Machine/MbxOps.lean ====
section
/-!
DEFINITION. The mailbox (spec/17_supervisor_port_and_mailbox.md): messages and their parsing, the checks of Table 17.3,
responses and the tag memory.
-/

namespace Sys2Proof.Machine

open Sys2Proof

/-! ### Sources -/

/-- The mailbox of a source; the functions themselves are no source (spec/17, Sources and permissions). -/
def State.mbx (s : State) (a : Agent) : Mbx :=
  match a with
  | .sup => s.sup.port
  | .mbxPf => s.sup.pf
  | .line => s.sup.line
  | .mbx n => s.sup.niches.getD n.val .empty
  | .pf => .empty
  | .vf _ => .empty

/-- s with the mailbox of a source replaced. -/
def State.setMbx (s : State) (a : Agent) (m : Mbx) : State :=
  match a with
  | .sup => { s with sup := { s.sup with port := m } }
  | .mbxPf => { s with sup := { s.sup with pf := m } }
  | .line => { s with sup := { s.sup with line := m } }
  | .mbx n => { s with sup := { s.sup with niches := s.sup.niches.set n.val m } }
  | .pf => s
  | .vf _ => s

/-- The firmware serves the mailbox: neither during boot nor after FATAL (R459). -/
def State.mbxReady (s : State) : Bool := s.flt.phase == .up && !s.flt.fatal

/-- A SUP condition in the log of its source, once a multiframe with the count (R460). -/
def State.limSup (s : State) (a : Agent) (code : Nat) : State :=
  match a with
  | .mbx n => s.limNiche n.val code 0
  | _ => s.limDev code 0xF 0

/-! ### Messages (Table 17.2) -/

/-- A complete message: header word, payload and CRC word. -/
structure Req where
  hdr : Nat
  payload : List Word
  crc : Word
  deriving DecidableEq, Repr

def Req.resp (r : Req) : Bool := bit r.hdr 31
def Req.type (r : Req) : Nat := bits r.hdr 30 26
def Req.niche (r : Req) : Nat := bits r.hdr 25 22
def Req.tag (r : Req) : Nat := bits r.hdr 21 6
def Req.len (r : Req) : Nat := bits r.hdr 5 0

/-- Payload word i. -/
def Req.word (r : Req) (i : Nat) : Nat := (r.payload.getD i 0).toNat

/-- Words that the message takes. -/
def Req.size (r : Req) : Nat := r.len + 2

/-- The CRC word holds the CRC-32 over header and payload (R448). -/
def Req.good (r : Req) : Bool := r.crc.toNat == crc32 (wordBytes (BitVec.ofNat 32 r.hdr :: r.payload))

/-- Length of a CAST_CMD by its operation (Table 21.4); an ARM that waits may leave its second out
(assumption 81, DEDUCED). -/
def castLenOk (op word1 len : Nat) : Bool :=
  if op = 1 then len == 2
  else if op = 4 then len == 4 || (bit word1 1 && len == 2)
  else op ∈ [2, 3, 5, 6] && len == 1

/-- The type is known and the length is as Table 17.4 gives (assumption 81, DEDUCED). -/
def Req.shaped (r : Req) : Bool :=
  !r.resp && match r.type with
  | 1 => decide (r.len ≤ 62)
  | 2 => r.len == 2 && decide (1 ≤ r.word 1 ∧ r.word 1 ≤ 62)
  | 3 => decide (2 ≤ r.len)
  | 4 => r.len == 0
  | 5 => r.len == 13
  | 6 => r.len == 1
  | 7 => r.len == 9
  | 8 => r.len == 0
  | 9 => decide (3 ≤ r.len ∧ r.len ≤ 62)
  | 10 => castLenOk (bits (r.word 0) 7 0) (r.word 1) r.len
  | 11 => r.len == 1 && (bits (r.word 0) 1 0 == 1 || bits (r.word 0) 1 0 == 2)
  | _ => false

/-- Payload words of the response, which the request alone decides (R453); 1 where check 3 fails. -/
def Req.respLen (r : Req) : Nat :=
  if !r.shaped then 1
  else match r.type with
  | 1 => 1 + r.len
  | 2 => 1 + r.word 1
  | 4 => 6
  | 9 => 2
  | 10 => 4
  | _ => 1

/-- A NOP word at a message boundary (R447). -/
def isNop (w : Word) : Bool := bits w.toNat 31 26 == 0

/-- The message at the front of some words, where they hold all of it. -/
def firstReq (ws : List Word) : Option Req :=
  match ws with
  | [] => none
  | h :: rest =>
    let n := bits h.toNat 5 0
    if rest.length < n + 1 then none else some ⟨h.toNat, rest.take n, rest.getD n 0⟩

/-- Words at the end of a select period that belong to a message which the period cuts (R447): the walk stops at a word or
message that is refused, whose period is discarded when it is served. -/
def cutWords : Nat → List Word → Nat
  | 0, _ => 0
  | _, [] => 0
  | fuel + 1, h :: rest =>
    if isNop h then cutWords fuel rest
    else if bit h.toNat 31 then 0
    else match firstReq (h :: rest) with
    | none => rest.length + 1
    | some r => if r.good && r.shaped then cutWords fuel ((h :: rest).drop r.size) else 0

/-! ### The words a source waits with -/

/-- Select periods after k words have been taken from the front. -/
def takeMarks : List Nat → Nat → List Nat
  | [], _ => []
  | m :: l, k => if k < m then (m - k) :: l else takeMarks l (k - m)

/-- s with k words taken from the front of a source's receive FIFO. -/
def State.takeRx (s : State) (a : Agent) (k : Nat) : State :=
  let m := s.mbx a
  let s := s.setMbx a { m with rx := m.rx.drop k }
  match a with
  | .sup => { s with sup := { s.sup with marks := takeMarks s.sup.marks k } }
  | _ => s

/-- NOP words at the front of a source's FIFO. -/
def State.leadNops (s : State) (a : Agent) : Nat := ((s.mbx a).rx.takeWhile isNop).length

/-- The words from the first that is no NOP on, of one select period for the supervisor port. -/
def State.front (s : State) (a : Agent) : List Word :=
  let k := s.leadNops a
  let ws := (s.mbx a).rx.drop k
  match a with
  | .sup => ws.take ((takeMarks s.sup.marks k).headD 0)
  | _ => ws

/-- The complete message at the front of a source. -/
def State.headReq (s : State) (a : Agent) : Option Req := firstReq (s.front a)

/-- s with the message at the front of a source taken, and the NOPs before it. -/
def State.tookReq (s : State) (a : Agent) (r : Req) : State := s.takeRx a (s.leadNops a + r.size)

/-- The rest of the period is discarded (R449); a PF or niche mailbox discards until its flush bit is written (R450). A message
of the line source fills its own SDU. -/
def State.dropRest (s : State) (a : Agent) : State :=
  match a with
  | .sup =>
    let k := s.leadNops .sup
    let left := takeMarks s.sup.marks k
    let s := s.takeRx .sup (k + left.headD 0)
    if left.length ≤ 1 && s.sup.selected then { s with sup := { s.sup with cutRest := true } } else s
  | .line => match s.headReq .line with
    | some r => s.tookReq .line r
    | none => s.setMbx .line { s.mbx .line with rx := [] }
  | _ => s.setMbx a { s.mbx a with rx := [], discard := true, skip := 0 }

/-! ### Responses -/

/-- Words that the FIFO towards a source holds (R442, R445). -/
def txRoom (a : Agent) : Nat := match a with | .sup => 256 | _ => 128

/-- A message of n words fits whole (R445). A response to the line source leaves in an SDU of its own. -/
def State.fits (s : State) (a : Agent) (n : Nat) : Bool :=
  match a with
  | .line => true
  | _ => decide ((s.mbx a).tx.length + n ≤ txRoom a)

/-- A message placed for a source (assumption 82, DESIGN CHOICE). -/
def State.place (s : State) (a : Agent) (m : List Word) : State :=
  match a with
  | .line => s.admitSdu { id := 0, owner := 0, data := wordBytes m, dest := some mgmtQueue, pf := true }
  | .mbx n =>
    let b := s.mbx a
    let s := s.setMbx a { b with tx := b.tx ++ m }
    if b.tx.isEmpty then s.raiseNiche n.val 66 else s
  | _ =>
    let b := s.mbx a
    s.setMbx a { b with tx := b.tx ++ m }

/-- The response to a request: its header, the status and the words after it, which are 0 in a refusal (R453). -/
def response (r : Req) (status : Nat) (ws : List Word) : List Word :=
  let n := r.respLen
  let body := if status = 0 then ws else List.replicate (n - 1) 0
  withCrc (BitVec.ofNat 32 (2 ^ 31 + r.type * 2 ^ 26 + r.niche * 2 ^ 22 + r.tag * 64 + n) ::
    BitVec.ofNat 32 (status * 65536) :: body)

/-- The response to a request placed, counted and logged by its status; an executed request is remembered (R456). -/
def State.respond (s : State) (a : Agent) (r : Req) (executed : Bool) (status : Nat) (ws : List Word) : State :=
  let m := response r status ws
  let s := if executed then
      let b := s.mbx a
      s.setMbx a { b with tags := (⟨r.tag, r.crc, m⟩ :: b.tags).take 64 }
    else s
  let s := s.when (status != 0) (fun t => t.sat (SUP_CNT_count 7))
  let s := s.when (status / 256 == 0x10) (fun t => t.limSup a status)
  s.place a m

/-! ### Permissions (R451, R452, R129) -/

/-- The FIO register at address a belongs to a point that niche n owns (R370). -/
def State.fioOwn (s : State) (n a : Nat) : Bool :=
  (decide (0x240100 ≤ a ∧ a < 0x240200) && s.ainOwner ((a - 0x240100) / 0x20) == some n) ||
  (decide (0x240300 ≤ a ∧ a < 0x240340) && s.loopOwner ((a - 0x240300) / 0x20) == some n)

/-- Addresses that a REG_READ or a REG_WRITE covers. -/
def Req.addrs (r : Req) : List Nat :=
  let n := if r.type = 2 then r.word 1 else r.len - 1
  (List.range n).map (fun i => r.word 0 + 4 * i)

/-- What check 4 refuses: a niche source outside its own niche, types and points (R451). -/
def State.crossNiche (s : State) (a : Agent) (r : Req) : Bool :=
  match a with
  | .mbx n => r.niche != n.val || !(r.type == 1 || ((r.type == 2 || r.type == 3) && r.addrs.all (s.fioOwn n.val)))
  | _ => false

/-- Bit of SUP_PERMIT that a type needs (Table 17.4). -/
def permitBit (ty : Nat) : Option Nat :=
  match ty with
  | 2 => some 0
  | 3 => some 1
  | 4 => some 0
  | 5 => some 2
  | 6 => some 2
  | 7 => some 2
  | 8 => some 2
  | 9 => some 3
  | 10 => some 3
  | 11 => some 4
  | _ => none

/-- The line source may write the register (R129). -/
def lineWritable (a : Nat) : Bool :=
  decide ((USL_ALLOC_aid 0).addr ≤ a ∧ a < (USL_ALLOC_aid 64).addr) ||
  decide ((USL_FID_fid 0).addr ≤ a ∧ a < (USL_FID_fid 1024).addr) ||
  decide ((DSL_FID_fid 0).addr ≤ a ∧ a < (DSL_FID_fid 1024).addr)

/-- What check 5 permits. -/
def State.permitted (s : State) (a : Agent) (r : Req) : Bool :=
  match a with
  | .sup =>
    (match permitBit r.type with
      | some b => s.marked SUP_PERMIT_class b
      | none => true) && !(r.type == 3 && r.addrs.contains SUP_PERMIT_class.addr)
  | .line => r.type ∈ [1, 2, 4, 9, 10] || (r.type == 3 && s.on CST_MGMT_prov && r.addrs.all lineWritable)
  | _ => true

/-! ### Serving a request -/

/-- The request at the front of source a, where p takes it, served under Table 17.3: run answers the state after it, its status
and the words after the status. It waits while its response does not fit; a request that resets the device gets none
(assumption 19, DESIGN CHOICE; assumption 81, DEDUCED; assumption 82, DESIGN CHOICE). -/
def State.serve (s : State) (a : Agent) (p : Req → Bool) (run : Req → State → State × Nat × List Word) : State :=
  match s.headReq a with
  | none => s
  | some r =>
    if !s.mbxReady || !r.good || !r.shaped || !p r then s
    else match (s.mbx a).tags.find? (fun t => t.tag == r.tag) with
    | some t =>
      if t.crc = r.crc then
        if s.fits a t.resp.length then ((s.tookReq a r).sat (SUP_CNT_count 6)).place a t.resp else s
      else if s.fits a (r.respLen + 2) then (s.tookReq a r).respond a r false 0x1004 [] else s
    | none =>
      if !s.fits a (r.respLen + 2) then s
      else
        let s := s.tookReq a r
        if s.crossNiche a r then
          let s := match a with | .mbx n => s.countDenied n.val (r.word 0) | _ => s
          s.respond a r false 0x0001 []
        else if !s.permitted a r then s.respond a r false 0x1003 []
        else
          let x := run r s
          if x.1.flt.phase = .held then x.1 else x.1.respond a r true x.2.1 x.2.2

end Sys2Proof.Machine
end

