-- ==== Sys2Proof/Machine/Mbx.lean ====
section
/-!
DEFINITION. The supervisor port at word level, the PF and niche mailboxes, and the requests that act on the mailbox, the
trust slots, the line secret and resets (spec/17_supervisor_port_and_mailbox.md).
-/

namespace Sys2Proof.Machine

open Sys2Proof

/-! ### The supervisor port (R440 to R446) -/

/-- The idle word of a source whose receive FIFO has n free words (Table 17.1; assumption 82, DESIGN CHOICE). -/
def State.idleWord (s : State) (n : Nat) : Word :=
  BitVec.ofNat 32 (2 ^ 31 + s.flt.bootCount.toNat % 16 * 2 ^ 22 + n * 2 ^ 13 + s.get SUP_STATUS_rx_ovf * 16 +
    bitNat s.mbxReady * 4)

/-- The word that the port begins to transmit: the head of its FIFO, or the idle word (R445, R459). -/
def State.supLoad (s : State) : State :=
  let m := s.sup.port
  let w := match m.tx with
    | w :: _ => if s.mbxReady && s.on SUP_CTRL_en then (true, w) else (false, s.idleWord (256 - m.rx.length))
    | [] => (false, s.idleWord (256 - m.rx.length))
  { s with sup := { s.sup with out := w } }

/-- SUP_CS_FALL (R440, R441): a select period opens, and its first word begins; it is wake source 6. -/
def execSupCsFall (s : State) : Host.Outcome State Fault Refusal :=
  .next (if !s.domainOn 32 || s.sup.selected then s
  else
    ({ s with sup := { s.sup with selected := true, cutRest := false, marks := s.sup.marks ++ [0] } }.supLoad).wakeEvent 6)

/-- The word in transmission is out; from the FIFO it leaves at this edge (R442). -/
def State.supTransmit (s : State) : State :=
  let m := s.sup.port
  let t := s.send (.word 17 s.sup.out.2)
  if s.sup.out.1 then (t.setMbx .sup { m with tx := m.tx.drop 1 }).sat (SUP_CNT_count 1) else t

/-- One more word of the present select period. -/
def pushMark (l : List Nat) : List Nat := l.dropLast ++ [l.getLastD 0 + 1]

/-- A word that the port has received: into the FIFO, or discarded (R442, R444, R459). -/
def State.supReceive (s : State) (word : Word) : State :=
  let m := s.sup.port
  if !s.mbxReady then s.sat (SUP_CNT_count 2)
  else if !s.on SUP_CTRL_en || s.sup.cutRest then s
  else if m.rx.length ≥ 256 then
    let s := ((s.putB SUP_STATUS_rx_ovf true).sat (SUP_CNT_count 3)).limSup .sup 0x1005
    { s with sup := { s.sup with cutRest := true } }
  else
    let s := (s.setMbx .sup { m with rx := m.rx ++ [word] }).sat (SUP_CNT_count 0)
    { s with sup := { s.sup with marks := pushMark s.sup.marks } }

/-- SUP_WORD_EDGE (R442 to R446, R459): word is received at the edge that samples its bit 0, the word in transmission is out,
and the next one begins (assumption 81, DEDUCED). -/
def execSupWordEdge (word : Word) (s : State) : Host.Outcome State Fault Refusal :=
  .next (if !s.domainOn 32 || !s.sup.selected then s else (s.supTransmit.supReceive word).supLoad)

/-- A message that the end of a select period cuts is discarded as FRAME_BAD (R447). -/
def State.cutPeriod (s : State) : State :=
  let m := s.sup.port
  let last := s.sup.marks.getLastD 0
  let k := cutWords 256 (m.rx.drop (m.rx.length - last))
  if k = 0 then s
  else
    let s := s.setMbx .sup { m with rx := m.rx.take (m.rx.length - k) }
    let s := { s with sup := { s.sup with marks := s.sup.marks.dropLast ++ [last - k] } }
    (s.sat (SUP_CNT_count 5)).limSup .sup 0x1002

/-- SUP_CS_RISE (R443, R447): partial says that the bit count of the period is no multiple of 32. -/
def execSupCsRise (partialWord : Bool) (s : State) : Host.Outcome State Fault Refusal :=
  .next (if !s.sup.selected then s
  else
    let s := if partialWord then (s.sat (SUP_CNT_count 2)).limSup .sup 0x1006 else s
    let s := s.cutPeriod
    { s with sup := { s.sup with selected := false, cutRest := false } })

/-! ### The PF and niche mailboxes (R442, R444, R450) -/

/-- The source behind SUP_PF_TX (none) or HIF_MBXn_TX. -/
def boxAgent (box : Option (Fin 16)) : Agent :=
  match box with
  | some n => .mbx n
  | none => .mbxPf

/-- The mailbox registers are within the reach of who: a virtual function reaches its own niche's alone (Table 25.2). -/
def reachesBox (who : Agent) (box : Option (Fin 16)) : Bool :=
  match who with
  | .vf n => box == some n
  | .mbx _ => false
  | _ => true

/-- Words that end a FIFO inside a message, with that message's header. -/
def partialTail (ws : List Word) : Nat × Option Word :=
  let k := cutWords ws.length ws
  (k, if k = 0 then none else (ws.drop (ws.length - k)).head?)

/-- SUP_PF_TX_WRITE: a word pushed by a write of SUP_PF_TX or HIF_MBXn_TX (assumption 82, DESIGN CHOICE). -/
def execSupPfTxWrite (who : Agent) (box : Option (Fin 16)) (word : Word) (s : State) :
    Host.Outcome State Fault Refusal :=
  let a := boxAgent box
  let m := s.mbx a
  .next (if !reachesBox who box then s
  else if !s.mbxReady then s.sat (SUP_CNT_count 2)
  else if m.discard then s
  else if m.skip ≠ 0 then s.setMbx a { m with skip := m.skip - 1 }
  else if m.rx.length ≥ 128 then
    let t := partialTail m.rx
    let h := (t.2.getD word).toNat
    let left := if bits h 31 26 = 0 ∨ bit h 31 then 0 else bits h 5 0 + 2 - (t.1 + 1)
    let s := s.setMbx a { m with rx := m.rx.take (m.rx.length - t.1), skip := left }
    ((s.putB SUP_STATUS_rx_ovf true).sat (SUP_CNT_count 3)).limSup a 0x1005
  else s.setMbx a { m with rx := m.rx ++ [word] })

/-- SUP_PF_RX_READ: a read of SUP_PF_RX or HIF_MBXn_RX pops a word, or returns the idle word. -/
def execSupPfRxRead (who : Agent) (box : Option (Fin 16)) (s : State) : Host.Outcome State Fault Refusal :=
  let a := boxAgent box
  let m := s.mbx a
  .next (if !reachesBox who box then s
  else match m.tx with
    | w :: rest => (s.setMbx a { m with tx := rest }).answer (agentId who) w
    | [] => s.answer (agentId who) (s.idleWord (128 - m.rx.length)))

/-- MBX_FLUSH (R450): the flush bit of SUP_PF_STAT or HIF_MBXn_STAT resumes the parser. -/
def execMbxFlush (who : Agent) (box : Option (Fin 16)) (s : State) : Host.Outcome State Fault Refusal :=
  let a := boxAgent box
  .next (if reachesBox who box then s.setMbx a { s.mbx a with discard := false } else s)

/-- MBX_FRAME_BAD (R447, R449, R450): what stands at the front of a source is refused for its framing or its CRC, and the
rest of its period goes with it. -/
def execMbxFrameBad (src : Agent) (s : State) : Host.Outcome State Fault Refusal :=
  .next (if !s.mbxReady then s
  else match s.front src with
  | [] => s
  | h :: _ =>
    if bit h.toNat 31 then ((s.sat (SUP_CNT_count 5)).limSup src 0x1002).dropRest src
    else match s.headReq src with
    | none => s
    | some r =>
      if !r.good then ((s.sat (SUP_CNT_count 4)).limSup src 0x1001).dropRest src
      else if r.shaped || !s.fits src 3 then s
      else match (s.mbx src).tags.find? (fun t => t.tag == r.tag) with
      | some _ => (s.tookReq src r).respond src r false 0x1004 []
      | none =>
        (((s.dropRest src).sat (SUP_CNT_count 5)).limSup src 0x1002).place src (response r 0x1002 []))

/-! ### Requests -/

/-- MBX_ECHO. -/
def execMbxEcho (src : Agent) (s : State) : Host.Outcome State Fault Refusal :=
  .next (s.serve src (fun r => r.type == 1) (fun r t => (t, 0, r.payload)))

/-- s with trust slot k replaced. -/
def State.setTrust (s : State) (k : Nat) (x : TrustSlot) : State :=
  { s with arm := { s.arm with trust := s.arm.trust.set k x } }

/-- MBX_TRUST_ENROL (R454): a slot that is enrolled or revoked is refused with SLOT_USED. -/
def execMbxTrustEnrol (src : Agent) (s : State) : Host.Outcome State Fault Refusal :=
  .next (s.serve src (fun r => r.type == 5) (fun r t =>
    let k := bits (r.word 0) 1 0
    match t.arm.trust.getD k ⟨none, false⟩ with
    | ⟨none, false⟩ => (t.setTrust k ⟨some (wordBytes (r.payload.drop 1)), false⟩, 0, [])
    | _ => (t, 0x1007, [])))

/-- MBX_TRUST_REVOKE (R454). -/
def execMbxTrustRevoke (src : Agent) (s : State) : Host.Outcome State Fault Refusal :=
  .next (s.serve src (fun r => r.type == 6) (fun r t =>
    let k := bits (r.word 0) 1 0
    (t.setTrust k { t.arm.trust.getD k ⟨none, false⟩ with revoked := true }, 0, [])))

/-- MBX_SECRET_ENROL (R410, R454). -/
def execMbxSecretEnrol (src : Agent) (s : State) : Host.Outcome State Fault Refusal :=
  .next (s.serve src (fun r => r.type == 7) (fun r t =>
    let b := wordBytes (r.payload.take 8)
    let k := bits (r.word 8) 23 0
    if t.enrolOk b k then (t.enrol b k, 0, []) else (t.logDev 0x0E0C 0xF 0, 0x0E0C, [])))

/-- MBX_SECRET_CLEAR (R411, R454). -/
def execMbxSecretClear (src : Agent) (s : State) : Host.Outcome State Fault Refusal :=
  .next (s.serve src (fun r => r.type == 8) (fun _ t =>
    if t.secretInUse then (t.logDev 0x0E0C 0xF 0, 0x0E0C, []) else (t.clearSecret, 0, [])))

/-- MBX_NICHE_RESET (R548, R585): RESET op 1 requests niche reset of the header's niche, cause 4. -/
def execMbxNicheReset (src : Agent) (s : State) : Host.Outcome State Fault Refusal :=
  .next (s.serve src (fun r => r.type == 11 && bits (r.word 0) 1 0 == 1) (fun r t =>
    (t.requestReset r.niche 4, if t.exists_ r.niche then 0 else 0x150A, [])))

/-- MBX_DEVICE_RESET (R455): RESET op 2; the reset follows the response. -/
def execMbxDeviceReset (src : Agent) (s : State) : Host.Outcome State Fault Refusal :=
  .next (s.serve src (fun r => r.type == 11 && bits (r.word 0) 1 0 == 2) (fun _ t =>
    ({ t with sup := { t.sup with resetAt := some (agentId src, t.clk + 10 * ms) } }, 0, [])))

/-- Words that a source has yet to read, by its number. -/
def State.unread (s : State) (k : Nat) : Nat :=
  if k = 17 then s.sup.port.tx.length else if k = 18 then s.sup.pf.tx.length else 0

/-- MBX_RESET_DEFERRED (R455): the response has been read out, or 10 ms have passed since it was placed. -/
def execMbxResetDeferred (s : State) : Host.Outcome State Fault Refusal :=
  .next (match s.sup.resetAt with
  | some (k, t) => if s.unread k = 0 ∨ t ≤ s.clk then s.warmReset 10 else s
  | none => s)

end Sys2Proof.Machine
end

