-- ==== Sys2Proof/Machine/Msh.lean ====
section
/-!
DEFINITION. The field mesh (spec/13_field_mesh.md).
-/

namespace Sys2Proof.Machine

open Sys2Proof

/-! ### Records, radio parameters -/

/-- An MSH record: the device log and PF vector 11 (R368). -/
def State.mshLog (s : State) (code data : Nat) : State := (s.logDev code 0xF data).raisePf 11

/-- MSH_CNTn. -/
def State.mshCnt (s : State) (n : Nat) : State := s.sat (MSH_CNT_count n)

/-- mesh_band of the accepted image; 0 off. -/
def State.meshBand (s : State) : Nat := match s.device with | some d => d.band | none => 0

/-- Channels, rate in kbit/s, bytes of SHR and PHR, bytes of the SHR alone, and the PSDU limit of the mode (Table 13.1). A
mode that the table does not list has no channel. -/
structure PhyMode where
  channels : Nat
  rate : Nat
  head : Nat
  shr : Nat
  most : Nat
  maxAck : Nat

/-- The mode of MSH_PHY in the band. -/
def State.phy (s : State) : PhyMode :=
  match s.meshBand, s.get MSH_PHY_mode with
  | 1, 0 => ⟨34, 50, 12, 10, 2047, 6080⟩
  | 1, _ => ⟨17, 100, 12, 10, 2047, 3040⟩
  | 2, 0 => ⟨129, 50, 12, 10, 2047, 6080⟩
  | 2, _ => ⟨64, 100, 12, 10, 2047, 3040⟩
  | 3, 0 => ⟨16, 250, 6, 5, 127, 2400⟩
  | _, _ => ⟨0, 1, 0, 0, 0, 0⟩

/-- Largest PSDU in bytes (Table 13.2). -/
def State.maxPsdu (s : State) : Nat :=
  let p := s.phy
  min p.most ((s.get MSH_TS_slot - 2120 - 1000 - p.maxAck - 224) * p.rate / 8000 - p.head)

/-- Position k of the hopping sequence. -/
def State.hopEntry (s : State) (k : Nat) : Nat :=
  bits (s.get (MSH_HOP_sequence (k / 4))) (8 * (k % 4) + 7) (8 * (k % 4))

/-- Channel of a channel offset in a slot (R346). -/
def State.hop (s : State) (asn chan : Nat) : Nat := s.hopEntry ((asn + chan) % s.get MSH_HOP_CTRL_len)

/-! ### Run and stop (R345, R346, R349) -/

/-- MSH_ASN_BASE and MSH_ASN_HWM. -/
def State.asnBase (s : State) : Nat := s.get MSH_ASN_BASE_HI_asn * 2 ^ 32 + s.get MSH_ASN_BASE_LO_asn
def State.asnHwm (s : State) : Nat := s.get MSH_ASN_HWM_HI_asn * 2 ^ 32 + s.get MSH_ASN_HWM_LO_asn

/-- A start would use an ASN again under an old key (R345; assumption 68, DEDUCED). -/
def State.asnReuse (s : State) : Bool :=
  decide (s.asnBase ≤ s.asnHwm) &&
    !(List.range 32).any (fun k => s.on (MSH_KID_valid k) && bit s.msh.fresh k)

/-- MESH_RUN (R345, R346, R349): the schedule starts at the next tick edge, or is refused (assumption 68, DEDUCED). -/
def execMeshRun (s : State) : Host.Outcome State Fault Refusal :=
  let slot := s.get MSH_TS_slot
  .next (s.ifPresent 0x200000 (fun s =>
  if s.on MSH_CTRL_run then s
  else if s.asnReuse then s.mshLog 0x0C05 0
  else if slot < 10000 ∨ 50000 < slot ∨ s.maxPsdu < 64 then s.mshLog 0x0C04 0
  else if (List.range (s.get MSH_HOP_CTRL_len)).any (fun k => decide (s.phy.channels ≤ s.hopEntry k)) then
    s.mshLog 0x0C0B 0
  else { s.putB MSH_CTRL_run true with msh := { s.msh with starting := true } }))

/-- What a stop does: the radio is off and every frame that it holds expires (spec/13, If PD28 is switched off). -/
def State.meshStop (s : State) : State :=
  let s := s.dropMesh (fun _ => true) (fun _ t => t.mshCnt 11)
  let s := ((s.putB MSH_CTRL_run false).putB MSH_STATUS_running false).putB MSH_STATUS_locked false
  { s with msh := { s.msh with
    t0 := none, starting := false, air := none, listen := none, pending := none, beacon := none, idle := false } }

/-- MESH_STOP. -/
def execMeshStop (s : State) : Host.Outcome State Fault Refusal := .next s.meshStop

/-- What a tick edge does to the mesh: T₀ is taken (R345), and the frames of a node that changed owner or is no longer
valid expire. -/
def State.meshEdge (s : State) : State :=
  let s := if s.msh.starting then
      { s.putB MSH_STATUS_running true with msh := { s.msh with
        t0 := some s.tick.stamp, starting := false, next := 0, black := (List.range 5).map (fun w => s.word (0x200060 + 4 * w)) } }
    else s
  s.dropMesh (fun x => decide (x.node < 512) &&
    (!s.on (MSH_NODE_CFG_valid x.node) || s.get (MSH_NODE_CFG_owner x.node) != x.niche)) (fun _ t => t.mshCnt 11)

/-! ### Guard times (R350, R351) -/

/-- Time since node n was last heard, in ns; none where it never was. -/
def State.unheard (s : State) (n : Nat) : Option Nat :=
  (s.msh.heard.find? (fun p => p.1 == n)).map (fun p => s.clk - p.2)

/-- The half-guard of node n in 10⁻⁶ ns (R350); the largest one for a lost node and for one never heard
(assumption 74, DEDUCED). -/
def State.guardOf (s : State) (n : Nat) : Nat :=
  let most := s.get MSH_GUARD_max * 100000000000
  match if s.on (MSH_NODE_STATUS_lost n) then none else s.unheard n with
  | none => most
  | some d => min most (s.get MSH_GUARD_base * 1000000000 + s.get MSH_GUARD_ppm * d)

/-- A frame or acknowledgement of node n has been received. -/
def State.heardNode (s : State) (n : Nat) : State :=
  let s := (s.putB (MSH_NODE_STATUS_lost n) false).put (MSH_NODE_STATUS_age n) 0
  { s with msh := { s.msh with heard := (n, s.clk) :: s.msh.heard.filter (fun p => p.1 != n) } }

/-- A calibration is due: the period has passed, or the die has moved 10 °C (R357). -/
def State.calNow (s : State) : Bool :=
  s.since s.msh.calAt (s.get MSH_CAL_period * sec) || decide (1000 ≤ (s.getS GLB_TEMP_temp - s.msh.calTemp).natAbs)

/-- What phase MESH does (R350, R357): guard times and ages of the children; a calibration that is due is scheduled. -/
def State.meshTick (s : State) : State :=
  let s := s.each ((List.range 512).filter (fun n => s.on (MSH_NODE_CFG_valid n) && s.on (MSH_NODE_CFG_child n)))
    (fun n t =>
      let g := roundAny ((t.guardOf n : ℚ) / 10000000000) t.free
      (t.put (MSH_NODE_STATUS_g n) g.toNat).tookFree.put (MSH_NODE_STATUS_age n)
        (match t.unheard n with | some d => min 0xFFFF (d / sec) | none => 0xFFFF))
  if s.msh.t0.isSome && s.msh.calDue.isNone && s.calNow then
    { s.putB MSH_STATUS_cal_due true with msh := { s.msh with calDue := some s.clk, starved := false } }
  else s

/-- PHASE_MESH. -/
def execPhaseMesh (cycles : Nat) (s : State) : Host.Outcome State Fault Refusal := .next (s.meshTick.phaseUsed 7 cycles)

/-- Node n, a direct child, was last heard longer than MSH_GUARD.lost ago and is not lost yet (R351). -/
def State.silent (s : State) (n : Nat) : Bool :=
  s.on (MSH_NODE_CFG_valid n) && s.on (MSH_NODE_CFG_child n) && !s.on (MSH_NODE_STATUS_lost n) &&
    (s.unheard n).any (fun d => decide (s.get MSH_GUARD_lost * sec < d))

/-- Node n is lost: logged, and its indirect frames expire (R351). -/
def State.loseNode (s : State) (n : Nat) : State :=
  let s := s.putB (MSH_NODE_STATUS_lost n) true
  let s := (s.logNiche (s.get (MSH_NODE_CFG_owner n)) 0x0C06 0).mshLog 0x0C06 0
  let gone := s.msh.ind.filter (fun x => x.node == n)
  let s := s.setInd (s.msh.ind.filter (fun x => x.node != n))
  s.each gone (fun x t => (t.mshCnt 11).release x.sdu)

/-- NODE_LOST (R351). -/
def execNodeLost (n : Fin 512) (s : State) : Host.Outcome State Fault Refusal :=
  .next (if s.silent n.val then s.loseNode n.val else s)

/-- A scheduled calibration runs in the present idle slot (R357). -/
def execRadioCalibration (s : State) : Host.Outcome State Fault Refusal :=
  .next (if s.msh.idle && s.msh.calDue.isSome then
    { (s.mshCnt 19).putB MSH_STATUS_cal_due false with msh := { s.msh with
      calAt := s.clk, calTemp := s.getS GLB_TEMP_temp, calDue := none, starved := false, idle := false } }
  else s)

/-- CAL_STARVED (R357): no idle slot for 60 s since a calibration was scheduled; logged once. -/
def execCalStarved (s : State) : Host.Outcome State Fault Refusal :=
  .next (match s.msh.calDue with
    | some t => if s.since t (60 * sec) && !s.msh.starved then
        { s.mshLog 0x0C08 0 with msh := { s.msh with starved := true } } else s
    | none => s)

/-- The median of an even number of measurements, doubled. -/
def median2 (l : List Int) : Int :=
  let m := sortBy (fun a b => decide (a ≤ b)) l
  m.getD (l.length / 2 - 1) 0 + m.getD (l.length / 2) 0

/-- CCA_LOOP_STEP (R358): 64 channel energies in dBm; the threshold moves toward their median plus the margin. -/
def execCcaLoopStep (energies : List Int) (s : State) : Host.Outcome State Fault Refusal :=
  let d := median2 energies + 2 * (s.get MSH_CCA_CTRL_margin : Int) - 2 * s.loopOut (loopDesc 6)
  .next (if energies.length = 64 then s.loopStep 6 d.sign false else s)

/-! ### Nodes -/

/-- Extended address of node n. -/
def State.nodeExt (s : State) (n : Nat) : Nat := s.get (MSH_NODE_EXT_ext n 1) * 2 ^ 32 + s.get (MSH_NODE_EXT_ext n 0)

/-- The node of an address. -/
def State.nodeOf (s : State) (addr : Nat) (wide : Bool) : Option Nat :=
  (List.range 512).find? (fun n => s.on (MSH_NODE_CFG_valid n) &&
    (if wide then s.nodeExt n == addr else s.get (MSH_NODE_CFG_short n) == addr && addr != 0xFFFF))

/-- Nodes and direct children of niche o other than node n. -/
def State.nodesOf (s : State) (o n : Nat) (child : Bool) : Nat :=
  ((List.range 512).filter (fun m => m != n && s.on (MSH_NODE_CFG_valid m) && s.get (MSH_NODE_CFG_owner m) == o &&
    (!child || s.on (MSH_NODE_CFG_child m)))).length

/-- A configuration of node n that R342 refuses. -/
def State.nodeOver (s : State) (n : Nat) (w : Word) : Bool :=
  let f := fun (x : Field) => bits w.toNat x.hi x.lo
  let o := f (MSH_NODE_CFG_owner n)
  f (MSH_NODE_CFG_valid n) == 1 && (match s.section o with
    | none => true
    | some x => x.nodes == 0 || decide (x.nodes < s.nodesOf o n false + 1) ||
        (f (MSH_NODE_CFG_child n) == 1 && decide (x.children < s.nodesOf o n true + 1)))

/-- MSH_NODE_WRITE (R342): register 0 CFG, 1 EXT_LO, 2 EXT_HI, 3 STATUS, which is read only (assumption 68, DEDUCED). -/
def execMshNodeWrite (n : Fin 512) (reg : Fin 4) (data : Word) (s : State) : Host.Outcome State Fault Refusal :=
  .next (s.ifPresent (0x204000 + 16 * n.val + 4 * reg.val) (fun s =>
  match reg.val with
    | 0 =>
      if s.nodeOver n.val data then s.mshLog 0x0C07 0
      else s.setWord (0x204000 + 16 * n.val) (data &&& 0xE0F0FFFF#32)
    | 3 => s
    | r => s.setWord (0x204000 + 16 * n.val + 4 * r) data))

/-- MSH_ASN_LO_READ (R577). -/
def execMshAsnLoRead (who : Agent) (s : State) : Host.Outcome State Fault Refusal :=
  let src := agentId who
  .next ((s.latchHi src 0x200034 (s.word 0x200034)).answer src (s.word 0x200030))

/-! ### Dequeue (R352, R359, R364) -/

/-- Fields of a mesh word. -/
def meshNode (w : Nat) : Nat := bits w 9 0
def meshTtl (w : Nat) : Option Nat := if bit w 19 then some (bits w 23 20) else none

/-- The next role-3 QID after the one served last that holds a frame. -/
def State.nextMeshQid (s : State) : Option Nat :=
  ((List.range 2048).map (fun i => (s.msh.lastQ + 1 + i) % 2048)).find?
    (fun q => (s.headOf q).isSome && (match s.qidGroup q with | some g => g.role == 3 | none => false))

/-- A frame for the radio enters the transmit store, or the indirect queue of a sleepy child. -/
def State.meshEnter (s : State) (x : MeshTx) : State :=
  if x.node < 512 ∧ s.on (MSH_NODE_CFG_sleepy x.node) then
    if 4 ≤ (s.msh.ind.filter (fun y => y.node == x.node)).length then (s.mshCnt 10).release x.sdu
    else s.setInd (s.msh.ind ++ [x])
  else { s with msh := { s.msh with store := s.msh.store ++ [x] } }

/-- The head frame d of role-3 QID q passes to the radio, or is dropped (R349, R352, R364). The length of the header that the
terminal builds is a free value (assumption 74, DEDUCED). -/
def State.meshTake (s : State) (q : Nat) (d : Sdu) : State :=
      let s := { s.dequeue d.id with msh := { s.msh with lastQ := q } }
      let n := meshNode d.mesh
      let k := bits d.mesh 18 14
      let level := bits d.mesh 13 11
      let overhead := s.free
      let s := s.tookFree
      if meshTtl d.mesh = some 0 ∨ level = 4 then (s.mshLog 0x0C0B 0).release d.id
      else if n ≠ 0x3FF ∧ !(decide (n < 512) && s.on (MSH_NODE_CFG_valid n) && s.on (MSH_NODE_CFG_child n) &&
          s.get (MSH_NODE_CFG_owner n) == d.owner) then (s.mshCnt 15).release d.id
      else if level ≠ 0 ∧ s.slotOwner (64 + k) ≠ some d.owner then (s.countDenied d.owner (64 + k)).release d.id
      else if s.maxPsdu < d.data.length + overhead then (s.mshCnt 4).release d.id
      else s.meshEnter ⟨d.id, d.owner, n, bit d.mesh 10, level, k, meshTtl d.mesh, s.clk, 0,
        s.get MSH_BACKOFF_min_be, 0, false, false⟩

/-- MESH_DEQUEUE: the next head frame of a role-3 QID. -/
def execMeshDequeue (s : State) : Host.Outcome State Fault Refusal :=
  .next (if s.msh.t0.isNone ∨ 256 ≤ s.msh.store.length then s
  else match s.nextMeshQid with
  | none => s
  | some q => match s.headOf q with
    | none => s
    | some d => s.meshTake q d)

/-! ### Expiry (R353, R359, R363) -/

/-- Held longer than MSH_IND.hold. -/
def State.meshOld (s : State) (x : MeshTx) : Bool := s.since x.at_ (s.get MSH_IND_hold * sec + 1)

/-- INDIRECT_EXPIRE (R359, R360): an entry announced as pending stays. -/
def execIndirectExpire (s : State) : Host.Outcome State Fault Refusal :=
  let gone := s.msh.ind.filter (fun x => s.meshOld x && !x.due)
  .next ((s.setInd (s.msh.ind.filter (fun x => !(s.meshOld x && !x.due)))).each gone
    (fun x t => (t.mshCnt 11).release x.sdu))

/-- MESH_STORE_EXPIRE (R353). -/
def execMeshStoreExpire (s : State) : Host.Outcome State Fault Refusal :=
  let gone := s.msh.store.filter s.meshOld
  let t := { s with msh := { s.msh with store := s.msh.store.filter (fun x => !s.meshOld x) } }
  .next (t.each gone (fun x t => (t.mshCnt 11).release x.sdu))

/-- SEEN_EXPIRE (R363). -/
def execSeenExpire (s : State) : Host.Outcome State Fault Refusal :=
  .next { s with msh := { s.msh with
    seen := s.msh.seen.filter (fun x => !s.since x.at_ (s.get MSH_FLOOD_hold * sec)) } }

/-- A seen key entered, the oldest giving way when 512 are held. -/
def State.seenAdd (s : State) (addr : Nat) (wide : Bool) (seq : Nat) : State :=
  { s with msh := { s.msh with seen := (⟨addr, wide, seq, s.clk⟩ :: s.msh.seen).take 512 } }

/-! ### Transmission (R347, R348, R353, R355, R360, R361) -/

/-- The bytes of an RFC 4944 mesh header of 16-bit addresses with Hops Left h. -/
def meshHeader (orig h : Nat) : List Byte :=
  beBytes 1 (0xB0 + min h 15) ++ beBytes 2 orig ++ beBytes 2 0xFFFF ++ (if 15 ≤ h then beBytes 1 h else [])

/-- A frame held for the radio is gone: it was acknowledged, broadcast or dropped. -/
def State.meshGone (s : State) (id : Nat) : State :=
  let s := { s with msh := { s.msh with store := s.msh.store.filter (fun x => x.sdu != id) } }
  (s.setInd (s.msh.ind.filter (fun x => x.sdu != id))).release id

/-- s with the frame of an SDU changed where the radio holds it. -/
def State.modMesh (s : State) (id : Nat) (f : MeshTx → MeshTx) : State :=
  let g := fun (x : MeshTx) => if x.sdu = id then f x else x
  { s with msh := { s.msh with store := s.msh.store.map g, ind := s.msh.ind.map g } }

/-- The frame defers by TSCH CSMA-CA: as many shared cells as its backoff exponent allows, any number of them, and the
exponent rises (assumption 69, PRESUMED). -/
def State.meshBackoff (s : State) (id : Nat) : State :=
  (s.modMesh id (fun x => { x with
    wait := s.free % 2 ^ x.be, be := min (x.be + 1) (s.get MSH_BACKOFF_max_be) })).tookFree

/-- An attempt without a valid acknowledgement: TX_NOACK and CH_NOACK, then a retry or the drop after the last one; an
indirect entry stays at the head until the child polls again (assumption 69, PRESUMED). -/
def State.meshNoAck (s : State) : State :=
  match s.msh.air with
  | none => s
  | some a =>
    let s := (s.mshCnt 2).sat (MSH_CHCNT_noack a.channel)
    let s := { s with msh := { s.msh with air := none, pending := if a.indirect then none else s.msh.pending } }
    match (s.msh.store ++ s.msh.ind).find? (fun x => x.sdu == a.sdu) with
    | none => s
    | some x =>
      if s.get MSH_BACKOFF_retries ≤ x.tries then (s.mshCnt 3).meshGone x.sdu
      else
        let s := s.modMesh x.sdu (fun y => { y with tries := y.tries + 1, due := false })
        if a.shared then s.meshBackoff x.sdu else s

/-- MESH_ACK_TIMEOUT (R353, R361; assumption 73, DEDUCED). -/
def execMeshAckTimeout (s : State) : Host.Outcome State Fault Refusal := .next s.meshNoAck

/-- A SEC_FAIL: counted, and logged at most once per multiframe, in the niche's log as well where a node has one. -/
def State.secFail (s : State) (o : Option Nat) : State := (s.mshCnt 14).limBoth o 0x0C0A 0

/-- The MAC payload of a frame before it is secured, the seen key of a flood being entered (R364). -/
def State.meshPayload (s : State) (x : MeshTx) : List Byte × State :=
  let data := match s.sdu x.sdu with | some d => d.data | none => []
  match x.flood with
  | some h =>
    let seq := s.free % 256
    let orig := s.get MSH_PAN_short
    (meshHeader orig h ++ [0x50, BitVec.ofNat 8 seq] ++ data, s.tookFree.seenAdd orig false seq)
  | none => (data, s)

/-- A frame goes on the air at TsTxOffset of a slot; one that asks for no acknowledgement, and a broadcast, is then
released. A frame whose key slot is empty or not mapped is dropped as SEC_FAIL (R366, R406; assumption 73, DEDUCED). -/
def State.meshSend (s : State) (x : MeshTx) (chan channel asn : Nat) (shared indirect more : Bool) : State :=
  if x.level ≠ 0 ∧ ((s.keyIn (64 + x.kid)).isNone ∨ !s.on (MSH_KID_valid x.kid)) then
    (s.secFail (some x.niche)).meshGone x.sdu
  else
    let p := s.meshPayload x
    let s := (p.2.mshCnt 0).send (.radio channel asn 1 x.node more 0 x.level (p.2.get (MSH_KID_kid x.kid)) p.1)
    if x.ack && x.node != 0x3FF then
      { s with msh := { s.msh with air := some ⟨x.sdu, x.node, channel, shared, indirect, chan, asn⟩ } }
    else s.meshGone x.sdu

/-- An Enhanced Beacon: ASN, join metric 0, the hopping sequence, and template 0 or the full template. -/
def State.beaconBody (s : State) (asn : Nat) : List Byte :=
  leBytes 5 asn ++ [0] ++ (List.range (s.get MSH_HOP_CTRL_len)).flatMap (fun k => beBytes 1 (s.hopEntry k)) ++
    (if s.get MSH_TS_slot = 10000 then [0] else leBytes 2 (s.get MSH_TS_slot))

/-- A slot that its unlocked synthesiser skips (R355). -/
def State.skipUnlock (s : State) : State := (s.mshCnt 8).limDev 0x0C09 0xF 0

/-- Link i is active in the slot of an ASN: its slotframe is in use and the slot offset matches. -/
def State.linkActive (s : State) (asn i : Nat) : Bool :=
  let f := s.get (MSH_LINK_sf i)
  let slots := match s.device with | some d => d.slotframes | none => 0
  s.on (MSH_LINK_valid i) && decide (f < slots) && s.on (MSH_SF_valid f) &&
    asn % s.get (MSH_SF_size f) == s.get (MSH_LINK_slot i)

/-- The active links, lowest slotframe first, then lowest index. -/
def State.activeLinks (s : State) (asn : Nat) : List Nat :=
  let l := (List.range 1024).filter (s.linkActive asn)
  (List.range 4).flatMap (fun f => l.filter (fun i => s.get (MSH_LINK_sf i) == f))

/-- Options of a link. -/
def State.linkTx (s : State) (i : Nat) : Bool := bit (s.get (MSH_LINK_opt i)) 2
def State.linkRx (s : State) (i : Nat) : Bool := bit (s.get (MSH_LINK_opt i)) 1
def State.linkShared (s : State) (i : Nat) : Bool := bit (s.get (MSH_LINK_opt i)) 0

/-- Channel c is blacklisted (R348). -/
def State.blackChannel (s : State) (c : Nat) : Bool := bit (s.msh.black.getD (c / 32) 0).toNat (c % 32)

/-- The beacon may be sent in link i. -/
def State.beaconReady (s : State) (asn i : Nat) : Bool :=
  i == s.get MSH_EB_link && (match s.msh.beacon with
    | some a => decide (s.get MSH_EB_period ≤ asn - a)
    | none => true)

/-- The oldest stored frame for the neighbour of link i. -/
def State.linkFrame (s : State) (i : Nat) : Option MeshTx :=
  s.msh.store.find? (fun x => x.node == s.get (MSH_LINK_node i))

/-- A frame is ready for TX cell i: a beacon, or a frame whose backoff has run out where the cell is shared. -/
def State.txReady (s : State) (asn i : Nat) : Bool :=
  s.beaconReady asn i || (match s.linkFrame i with
    | some x => !s.linkShared i || x.wait == 0
    | none => false)

/-- The shared TX cells of a slot pass for the frames that back off. -/
def State.passShared (s : State) (links : List Nat) : State :=
  let ids := (links.filter (fun i => s.linkTx i && s.linkShared i)).filterMap (fun i => (s.linkFrame i).map (fun x => x.sdu))
  { s with msh := { s.msh with store := s.msh.store.map (fun x =>
    if ids.contains x.sdu then { x with wait := x.wait - 1 } else x) } }

/-- The head entry of a child's indirect queue in its pending slot (R360, R361; assumption 73, DEDUCED). -/
def State.servePending (s : State) (asn node chan : Nat) (locked : Bool) : State :=
  let l := s.msh.ind.filter (fun x => x.node == node)
  let s := { s with msh := { s.msh with pending := none } }
  match l with
  | [] => s
  | x :: rest =>
    let c := s.hop asn chan
    if s.blackChannel c then (s.mshCnt 16).modMesh x.sdu (fun y => { y with due := false })
    else if !locked then (s.skipUnlock.mshCnt 2).modMesh x.sdu (fun y => { y with due := false })
    else
      let s := s.meshSend x chan c asn false true !rest.isEmpty
      match rest with
      | y :: _ => { s.modMesh y.sdu (fun z => { z with due := true }) with
          msh := { (s.modMesh y.sdu (fun z => { z with due := true })).msh with
            pending := some ((asn + 1) % 2 ^ 40, node, chan) } }
      | [] => s

/-- TX cell i with a frame ready (R353, R355). -/
def State.serveTx (s : State) (asn i : Nat) (locked busy : Bool) : State :=
  let chan := s.get (MSH_LINK_chan i)
  let c := s.hop asn chan
  let eb := s.beaconReady asn i
  if !locked then s.skipUnlock
  else if s.linkShared i && busy then
    let s := s.mshCnt 9
    if eb then s else match s.linkFrame i with
      | some x => s.meshBackoff x.sdu
      | none => s
  else if eb then
    { (s.mshCnt 0).send (.radio c asn 0 0x3FF false 0 0 0 (s.beaconBody asn)) with
      msh := { s.msh with beacon := some asn } }
  else match s.linkFrame i with
    | some x => s.meshSend x chan c asn (s.linkShared i) false false
    | none => s

/-- RX cell i (R350, R356). -/
def State.serveRx (s : State) (asn i start : Nat) (locked : Bool) : State :=
  if !locked then s.mshCnt 18
  else
    let chan := s.get (MSH_LINK_chan i)
    { s with msh := { s.msh with
      listen := some ⟨s.get (MSH_LINK_node i), s.linkShared i, chan, s.hop asn chan, asn, start⟩ } }

/-- The ASN of a new slot: MSH_ASN, and MSH_ASN_HWM where it is the highest (R345). -/
def State.putAsn (s : State) (asn : Nat) : State :=
  let s := (s.put MSH_ASN_LO_asn asn).put MSH_ASN_HI_asn (asn / 2 ^ 32)
  let s := { s with msh := { s.msh with asn := asn, next := s.msh.next + 1, listen := none, idle := false,
                                        black := (List.range 5).map (fun w => s.word (0x200060 + 4 * w)) } }
  if s.asnHwm < asn then
    { (s.put MSH_ASN_HWM_LO_asn asn).put MSH_ASN_HWM_HI_asn (asn / 2 ^ 32) with msh := { s.msh with fresh := 0 } }
  else s

/-- A slot that is no pending slot: a TX cell with a frame ready, otherwise an RX cell, otherwise nothing (R347). -/
def State.serveLink (s : State) (asn start : Nat) (locked busy : Bool) (tx rx : Option Nat) (idle : Bool) : State :=
  match tx, rx with
  | some i, _ => s.serveTx asn i locked busy
  | none, some i => s.serveRx asn i start locked
  | none, none => { s with msh := { s.msh with idle := idle } }

/-- What a slot serves: the pending slot of its neighbour, a link to send on, a link to listen on, or nothing (idle says that no
link is active) (assumption 73, DEDUCED). -/
def State.slotWork (s : State) (asn start : Nat) (locked busy : Bool) (tx rx : Option Nat) (idle : Bool) : State :=
  match s.msh.pending with
  | some (a, node, chan) =>
    if a = asn then (s.when (tx.isSome || rx.isSome) (fun t => t.mshCnt 17)).servePending asn node chan locked
    else { s with msh := { s.msh with pending := none } }.serveLink asn start locked busy tx rx idle
  | none => s.serveLink asn start locked busy tx rx idle

/-- Timebase stamp at which the next slot begins, the schedule having begun at t0 (R345). -/
def State.slotAt (s : State) (t0 : Nat) : Nat := t0 + s.msh.next * s.get MSH_TS_slot * us * 65536

/-- The next slot begins at a stamp (R345 to R348, R353 to R357, R360); the synthesiser is locked or not, and a clear channel
assessment finds the channel busy or not. -/
def State.meshSlot (s : State) (start : Nat) (locked busy : Bool) : State :=
      let asn := (s.asnBase + s.msh.next) % 2 ^ 40
      let s := (s.meshNoAck.putAsn asn).putB MSH_STATUS_locked locked
      let act := s.activeLinks asn
      let good := act.filter (fun i => !s.blackChannel (s.hop asn (s.get (MSH_LINK_chan i))))
      let s := s.satBy (MSH_CNT_count 16) (act.length - good.length)
      let tx := good.find? (fun i => s.linkTx i && s.txReady asn i)
      let rx := good.find? s.linkRx
      let s := s.passShared good
      s.slotWork asn start locked busy tx rx act.isEmpty

/-- MESH_SLOT_START. -/
def execMeshSlotStart (locked busy : Bool) (s : State) : Host.Outcome State Fault Refusal :=
  .next (match s.msh.t0 with
  | none => s
  | some t0 => if s.stampAt 15 < s.slotAt t0 then s else s.meshSlot (s.slotAt t0) locked busy)

/-! ### Reception (R340 to R344, R350, R354, R360, R363 to R366) -/

/-- A mesh header at the head of a MAC payload: originator and its width, final destination, Hops Left with the place of
the byte that holds it, and where the header ends. -/
structure MeshHead where
  orig : Nat
  wide : Bool
  final : Nat
  hops : Nat
  deep : Bool
  size : Nat

/-- The RFC 4944 mesh header of a payload. -/
def meshHead (b : List Byte) : Option MeshHead :=
  let x := byteAt b 0
  if b = [] ∨ x / 64 ≠ 2 then none
  else
    let no := if bit x 5 then 2 else 8
    let nf := if bit x 4 then 2 else 8
    let deep := x % 16 == 15
    let i := if deep then 2 else 1
    some ⟨beAt b i no, !bit x 5, beAt b (i + no) nf, if deep then byteAt b 1 else x % 16, deep, i + no + nf⟩

/-- A flood frame (spec/13, Flooding): its header and BC0 sequence number. -/
def floodOf (b : List Byte) : Option (MeshHead × Nat) :=
  match meshHead b with
  | some h => if h.final = 0xFFFF ∧ byteAt b h.size = 0x50 then some (h, byteAt b (h.size + 1)) else none
  | none => none

/-- The payload with Hops Left reduced by one. -/
def lessHop (b : List Byte) (h : MeshHead) : List Byte :=
  if h.deep then b.set 1 (BitVec.ofNat 8 (h.hops - 1)) else b.set 0 (BitVec.ofNat 8 (byteAt b 0 - 1))

/-- The length of the message integrity code of a security level. -/
def micLen (level : Nat) : Nat := [0, 4, 8, 16, 0, 4, 8, 16].getD level 0

/-- The key slot of a key index: the first valid mapping (R366). -/
def State.kidSlot (s : State) (kid : Nat) : Option Nat :=
  (List.range 32).find? (fun k => s.on (MSH_KID_valid k) && s.get (MSH_KID_kid k) == kid)

/-- The MAC payload of a received frame in the clear with the niche that its key slot serves; none where R366 drops it. A
frame without security has no key (assumption 74, DEDUCED). -/
def State.meshOpen (s : State) (f : RadioFrame) (sender : Option Nat) (asn : Nat) : Option (List Byte × Option (Option Nat)) :=
  let level := f.level.val
  if level < s.get MSH_CTRL_min_level then none
  else if level = 0 then some (f.payload, none)
  else match s.kidSlot f.kid.toNat with
  | none => none
  | some k => match s.keyIn (64 + k), (if f.srcWide then some f.src.toNat else sender.map s.nodeExt) with
    | some key, some ext =>
      let nonce := beBytes 8 ext ++ beBytes 5 asn
      let m := micLen level
      let text := if 5 ≤ level then ccmText key nonce f.payload else f.payload
      let tag := if 5 ≤ level then ccmTag key nonce f.header text m else ccmTag key nonce (f.header ++ f.payload) [] m
      if tag = f.mic then some (text, some (s.slotOwner (64 + k))) else none
    | _, _ => none

/-- A frame uses only what the terminal supports (R340, R341): version 2, security with key identifier mode 1 and not at
level 4, and no other feature that is excluded. -/
def radioSupported (f : RadioFrame) : Bool :=
  f.version == 2 && (f.level == 0 || f.keyMode == 1) && f.level != 4 && !f.excluded

/-- The MAC destination names the root, or everyone, in the root's PAN (R340, R344; assumption 74, DEDUCED). -/
def State.forRoot (s : State) (f : RadioFrame) : Bool :=
  (f.pan == 0xFFFF || f.pan.toNat == s.get MSH_PAN_pan_id) && if f.dstWide then f.dst.toNat == Config.meshExt % 2 ^ 64 else f.dst.toNat == 0xFFFF || f.dst.toNat == s.get MSH_PAN_short

/-- An Enhanced Acknowledgement of the frame on the air (R353, R360): its cells are released. -/
def State.meshAcked (s : State) (f : RadioFrame) : State :=
  match s.msh.air with
  | none => s
  | some a =>
    if (s.meshOpen f (some a.node) a.asn).isNone then s.secFail (some (s.get (MSH_NODE_CFG_owner a.node)))
    else
      let s := ({ s with msh := { s.msh with air := none } }.mshCnt 1).heardNode a.node
      s.meshGone a.sdu

/-- A Data payload of originator o (none the PF) is delivered to the classifier as source 7, stamped with its
SFD (R344; assumption 74, DEDUCED). -/
def State.meshDeliver (s : State) (o node : Option Nat) (payload : List Byte) (stamp : Nat) : State :=
  s.toClassifier { id := 0, owner := o.getD 0, data := payload, source := 7, pf := o.isNone,
                   keyMeta := (node.getD 0xFFFF) % 65536, stamp := some (stamp / 65536, stamp % 65536) }

/-- A flood frame under MSH_FLOOD.en: discarded where it has been seen, otherwise delivered and forwarded (R363). -/
def State.meshFlood (s : State) (f : RadioFrame) (o node : Option Nat) (payload : List Byte) (h : MeshHead)
    (seq stamp : Nat) : State :=
  if s.msh.seen.any (fun x => x.addr == h.orig && x.wide == h.wide && x.seq == seq) then s.mshCnt 12
  else
    let s := (s.seenAdd h.orig h.wide seq).meshDeliver o node payload stamp
    if h.hops ≤ 1 ∨ 256 ≤ s.msh.store.length then s
    else
      let id := s.cel.nextId
      let s := s.admitSdu { id := 0, owner := o.getD 0, data := lessHop payload h, pf := o.isNone }
      if (s.sdu id).isSome then
        (s.meshEnter ⟨id, o.getD 0, 0x3FF, false, f.level.val, (s.kidSlot f.kid.toNat).getD 0, none, s.clk, 0,
          s.get MSH_BACKOFF_min_be, 0, false, true⟩).mshCnt 13
      else s

/-- The acknowledgement of a frame from a child, with Frame Pending for a poll that has an entry waiting: the slot at
ASN + 1 is then a pending slot (R360). -/
def State.meshAnswer (s : State) (f : RadioFrame) (l : MeshListen) (node : Option Nat) : State :=
  if !f.ack || (!f.dstWide && f.dst.toNat == 0xFFFF) then s
  else
    let head := node.bind (fun n =>
      if s.on (MSH_NODE_CFG_sleepy n) && s.on (MSH_NODE_CFG_child n) then s.msh.ind.find? (fun x => x.node == n) else none)
    let corr := clampInt (-2047) 2047 (roundAny (-(f.late : ℚ) / 1000) s.free)
    let s := s.tookFree.send (.radio l.channel l.asn 2 (node.getD 0x3FF) head.isSome corr f.level.val f.kid.toNat [])
    match head, node with
    | some x, some n =>
      let s := s.modMesh x.sdu (fun y => { y with due := true })
      { s with msh := { s.msh with pending := some ((l.asn + 1) % 2 ^ 40, n, l.chan) } }
    | _, _ => s

/-- A frame that began inside the window of a cell that is listened on (assumption 74, DEDUCED). -/
def State.meshReceive (s : State) (f : RadioFrame) (l : MeshListen) : State :=
  let s := { s with msh := { s.msh with listen := none } }
  let node := s.nodeOf f.src.toNat f.srcWide
  let own := node.map (fun n => s.get (MSH_NODE_CFG_owner n))
  if !f.fcsOk then (s.mshCnt 6).sat (MSH_CHCNT_crc l.channel)
  else if !radioSupported f then s.mshCnt 7
  else if !s.forRoot f then s
  else
    let s := s.mshCnt 5
    match s.meshOpen f node l.asn with
    | none => s.secFail own
    | some (payload, slot) =>
      let head := if f.kind = 1 then meshHead payload else none
      let from_ := match head with | some h => s.nodeOf h.orig h.wide | none => node
      let o := from_.map (fun n => s.get (MSH_NODE_CFG_owner n))
      if slot.isSome ∧ slot ≠ some o then s.secFail o
      else
        let s := match node with | some n => s.heardNode n | none => s
        let s := (s.meshAnswer f l node).when from_.isNone (fun t => t.mshCnt 15)
        if f.kind = 2 then s
        else
          let stamp := l.start + ((2120 * us + s.phy.shr * 8000000 / s.phy.rate : Nat) + f.late).toNat * 65536 +
            f.frac.val * 4096
          match if s.on MSH_FLOOD_en then floodOf payload else none with
          | some (h, seq) => s.meshFlood f o from_ payload h seq stamp
          | none => s.meshDeliver o from_ payload stamp

/-- MESH_FRAME_RX: a frame in the cell that is listened on, inside the half-guard of its neighbour (R350), or the
acknowledgement that the frame on the air awaits. -/
def execMeshFrameRx (frame : RadioFrame) (s : State) : Host.Outcome State Fault Refusal :=
  .next (if frame.kind = 0 then
    match s.msh.air with
    | some a => if !frame.fcsOk then (s.mshCnt 6).sat (MSH_CHCNT_crc a.channel)
        else if !radioSupported frame then s.mshCnt 7 else s.meshAcked frame
    | none => s
  else match s.msh.listen with
    | none => s
    | some l =>
      let g := if l.shared || l.node == 0x3FF then s.get MSH_GUARD_base * 1000000000 else s.guardOf l.node
      if frame.late.natAbs * 1000000 ≤ g then s.meshReceive frame l else s)

end Sys2Proof.Machine
end

