-- ==== Sys2Proof/Machine/Consent.lean ====
section
/-!
DEFINITION. What the blocks of Table 19.2 answer to a power-mode entry (R337, R362, R481).
-/

namespace Sys2Proof.Machine

open Sys2Proof

/-- TIME refuses (R337): an armed target less than 2 ms ahead in its view, or less than 2 ms behind. -/
def State.timeRefuses (s : State) : Bool :=
  (List.range 4).any (fun k => match (s.toutAt k).armed with
    | some x => decide ((s.dNow x.view x.s x.ns).natAbs < 2000000)
    | none => false)

/-- A Cast is armed. -/
def State.castArmed (s : State) : Bool := s.get CST_STATUS_state == 3

/-- FLASH refuses: a program or erase is in progress or suspended. -/
def State.flashRefuses (s : State) : Bool := s.flc.active.isSome || s.flc.susp.isSome || s.cst.arming.isSome

/-- Niche n refuses. -/
def State.nicheRefuses (s : State) (n : Nat) : Bool :=
  s.exists_ n && s.owns n (fun x => x.veto) && s.on (HIF_NPWR_veto n)

/-- MESH refuses: an indirect entry is held (R362). -/
def State.meshRefuses (s : State) : Bool := !s.msh.ind.isEmpty

/-- The local refusers in the order of Table 19.2, without PENDANT: place in the table (PENDANT is 3, niche n is 5 + n) and
code. -/
def State.localRefusers (s : State) : List (Nat × Nat) :=
  (if s.timeRefuses then [(0, 0x0B)] else []) ++ (if s.castArmed then [(1, 0x14)] else []) ++
    (if s.flashRefuses then [(2, 0x13)] else []) ++ (if s.meshRefuses then [(4, 0x0C)] else []) ++
    ((List.range 16).filter s.nicheRefuses).map (fun n => (5 + n, 0x20 + n))

end Sys2Proof.Machine
end

