-- ==== Sys2Proof/Machine/Tim.lean ====
section
/-!
DEFINITION. The commands of the time block (spec/12_time.md).
-/

namespace Sys2Proof.Machine

open Sys2Proof

/-- A twin-colour result is written and passed on (R176, R318), and v0_ext follows its length as ACT_TC_LEN shows it, rounded to
1 m (R25; assumption 45, DESIGN CHOICE). One accepted before the line was lost traces nothing (R23). -/
def State.applyTwin (s : State) (r : TwinResult) : State :=
    let s := ((s.put ACT_TC_LEN_len r.len).putS ACT_TC_ASYM_asym r.asym).putS ACT_TC_DDOWN_d_down r.dDown
    let s := ((s.put ACT_TC_STATUS_set r.set).putB ACT_TC_STATUS_valid true).put ACT_TC_STATUS_age 0
    let s := (s.sat (ACT_CNT_count 10)).putB GLB_SERVICE_v0_ext (decide (40000 < r.len))
    let s := { s with
      act := { s.act with twin := none, twinAt := some s.clk, traceTwin := s.act.traceTwin || !r.stale },
      tim := { s.tim with dNext := some r.dDown } }
    s.syncTrace

/-- TWIN_COLOUR_APPLY: an accepted result at the tick edge. -/
def execTwinColourApply (s : State) : Host.Outcome State Fault Refusal :=
  .next (match s.act.twin with
  | none => s
  | some r => s.applyTwin r)

/-! ### Views -/

/-- VIEW_OFFSET_CMD (R311, R312): the shadow offset as it stands is applied in the next phase TIME
(assumption 61, DEDUCED). -/
def execViewOffsetCmd (who : Agent) (view : Fin 4) (s : State) : Host.Outcome State Fault Refusal :=
  let v := view.val
  .next (if !s.mayWriteView who v then s.refuseView who v
  else
    let ns := s.get (TIM_VIEW_OFS_NS_ons v)
    if 1000000000 ≤ ns then s.viewBad
    else s.addViewJob { viewJobFor v with
      ofs := some (s.get (TIM_VIEW_OFS_SHI_os v) * 2 ^ 32 + s.get (TIM_VIEW_OFS_SLO_os v), ns,
        s.get (TIM_VIEW_OFS_FRAC_ofrac v)) })

/-- VIEW_RATE_CMD (R311). -/
def execViewRateCmd (who : Agent) (view : Fin 4) (s : State) : Host.Outcome State Fault Refusal :=
  let v := view.val
  .next (if !s.mayWriteView who v then s.refuseView who v
  else s.addViewJob { viewJobFor v with
    rate := some (toSigned 40 (s.get (TIM_VIEW_RATE_HI_r v) * 2 ^ 32 + s.get (TIM_VIEW_RATE_LO_r v))) })

/-- VIEW_STEP_CMD (R312). -/
def execViewStepCmd (who : Agent) (view : Fin 4) (s : State) : Host.Outcome State Fault Refusal :=
  let v := view.val
  .next (if !s.mayWriteView who v then s.refuseView who v
  else s.addViewJob { viewJobFor v with
    step := toSigned 48 (s.get (TIM_VIEW_STEP_HI_step v) * 2 ^ 32 + s.get (TIM_VIEW_STEP_LO_step v)) * 65536 })

/-- TIM_SNAP (R314; assumption 64, DESIGN CHOICE). -/
def execTimSnap (s : State) : Host.Outcome State Fault Refusal :=
  let t := s.stampAt 0
  let s := ((s.put TIM_SNAP_TB_LO_ns s.tb).put TIM_SNAP_TB_HI_ns (s.tb / 2 ^ 32)).put TIM_SNAP_TB_FRAC_frac 0
  .next (s.each (List.range 4) (fun v u =>
    let r := u.readView v t
    ((u.put (TIM_SNAP_SLO_s v) r.1).put (TIM_SNAP_SHI_s v) (r.1 / 2 ^ 32)).put (TIM_SNAP_NS_ns v) r.2.1))

/-! ### TOUT -/

/-- IRIG frame of TOUT k for the target it fires, in mode 3. -/
def State.fireFrame (s : State) (k : Nat) (x : Sched) : State :=
  s.when (s.toutOn k) (fun t => t.send (.irig k (t.irigFrame k x.s)))

/-- The schedule of TOUT k fires (R329 to R332, Table 12.5): its action, and where it repeats the next target, past
every one that has gone by. -/
def State.fire (s : State) (k : Nat) (x : Sched) (late : Bool) : State :=
  let s := s.when late (fun t => t.putB (TIM_TOUT_STAT_late k) true)
  let s := s.setTout k { s.toutAt k with last := some (x.view, x.s, x.ns) }
  let r := s.readView x.view (s.stampAt 0)
  let stop := fun (t : State) => t.setTout k { t.toutAt k with armed := none }
  let again := fun (t : State) (period : Nat) =>
    let d := viewD r x.s x.ns
    let p := (d / (period : Int)).toNat + 1
    let g := moveTarget x.s x.ns (p * period)
    (t.satBy (TIM_TOUT_STAT_skipped k) (p - 1)).setTout k
      { t.toutAt k with armed := some { x with s := g.1, ns := g.2 } }
  match x.mode with
  | 0 => stop (s.drive k x.pol)
  | 1 => stop (s.drive k x.level)
  | 2 =>
    let g := if late then moveTarget r.1 r.2.1 x.width else moveTarget x.s x.ns x.width
    let s := s.drive k (!x.pol)
    let s := s.setTout k { s.toutAt k with fall := some (x.view, g.1, g.2) }
    if x.period = 0 then stop s else again s x.period
  | _ => again (s.fireFrame k x) 1000000000

/-- A schedule that R328 or R330 refuses. -/
def State.schedBad (s : State) (x : Sched) : Bool :=
  let d := viewDiff (s.readView x.view (s.stampAt 0)) x.s x.ns
  decide (1000000000 ≤ x.ns) || decide (549755813887 < d.natAbs) ||
    (x.mode == 2 && (decide (x.width < 10) ||
      (x.period != 0 && (decide (x.period < x.width + 10) || decide (549755813887 < x.period)))))

/-- SCHED_RANGE for TOUT k. -/
def State.schedRange (s : State) (o : Option Nat) (k : Nat) : State :=
  (s.sat (TIM_CNT_count 4)).logBoth o 0x0B03 (fdata k 0 0)

/-- A schedule of TOUT k written in an earlier tick is armed, refused, or fired at once as late (R328, R329). -/
def State.armTout (s : State) (k : Nat) : State :=
  match (s.toutAt k).asked.filter (fun a => decide (a.2 < s.tick.edges)) with
  | none => s
  | some (x, _) =>
    let s := s.setTout k { s.toutAt k with asked := none }
    if s.schedBad x then s.schedRange x.niche k
    else
      let s := s.setTout k { s.toutAt k with armed := some x, last := none, fall := none }
      if 0 ≤ s.dNow x.view x.s x.ns then
        ((s.sat (TIM_CNT_count 5)).logBoth x.niche 0x0B04 (fdata k 0 0)).fire k x true
      else s

/-- TOUT_ARM (R222, R328): the schedule as its registers stand awaits phase TIME of the next tick. -/
def execToutArm (who : Agent) (k : Fin 4) (s : State) : Host.Outcome State Fault Refusal :=
  let k := k.val
  let x : Sched :=
    { mode := s.get (TIM_TOUT_CFG_mode k), view := s.get (TIM_TOUT_CFG_view k), level := s.on (TIM_TOUT_CFG_level k),
      pol := s.on (TIM_TOUT_CFG_pol k),
      s := s.get (TIM_TOUT_TGT_SHI_target k) * 2 ^ 32 + s.get (TIM_TOUT_TGT_SLO_target k),
      ns := s.get (TIM_TOUT_TGT_NS_target k),
      period := s.get (TIM_TOUT_PER_HI_period k) * 2 ^ 32 + s.get (TIM_TOUT_PER_LO_period k),
      width := s.get (TIM_TOUT_WIDTH_width k), niche := agentNiche who }
  .next (s.ifOwned who (s.toutOwner k) (0x1C0620 + 0x40 * k) (fun s => s.setTout k { s.toutAt k with asked := some (x, s.tick.edges) }))

/-- TOUT_DISARM (Table 12.11): disarmed, and the output at its idle level. -/
def execToutDisarm (k : Fin 4) (s : State) : Host.Outcome State Fault Refusal :=
  let k := k.val
  let s := s.setTout k { s.toutAt k with armed := none, asked := none, fall := none, last := none }
  .next (s.drive k (s.on (TIM_TOUT_CFG_pol k)))

/-- TOUT_FIRE (R329): the armed schedule has reached D ≥ 0. -/
def execToutFire (k : Fin 4) (s : State) : Host.Outcome State Fault Refusal :=
  .next (match (s.toutAt k.val).armed with
  | some x => if 0 ≤ s.dNow x.view x.s x.ns then s.fire k.val x false else s
  | none => s)

/-- TOUT_PULSE_END (Table 12.5, mode 2): the width has passed in the schedule's view. -/
def execToutPulseEnd (k : Fin 4) (s : State) : Host.Outcome State Fault Refusal :=
  let k := k.val
  .next (match (s.toutAt k).fall with
  | some g =>
    if 0 ≤ s.dNow g.1 g.2.1 g.2.2 then
      (s.setTout k { s.toutAt k with fall := none }).drive k (s.on (TIM_TOUT_CFG_pol k))
    else s
  | none => s)

/-! ### Phase TIME -/

/-- The line error of this tick in ps before it is rounded (R317); a paired wing takes the face's view 0 instead
(R192). None where there is no aligned verdict or no time to compare with. -/
def State.lineError (s : State) : Option ℚ :=
  let v := s.view 0
  let ps := fun (n : ℚ) => n * 1000 / 65536
  -- the reading at a timebase value that need not be a whole number of units
  let readAt := fun (t : ℚ) =>
    ps (v.offset + t + (⌊(t - v.e) * v.r / 2 ^ 44 + 1 / 2⌋ : Int))
  if !s.aligned then none
  else if s.isWing then
    if s.pairedAs 1 then s.pnd.peer.map (fun p =>
      (((p.v0s * 1000000000 + p.v0ns) * 1000 : Nat) : ℚ) + (s.getS PND_LINK_DELAY_delay : ℚ) -
        readAt ((s.pnd.arr : ℚ) * 4096))
    else none
  else s.tim.tod.map (fun x =>
    let tm : ℚ := (s.tick.stamp : ℚ) - (s.get TIM_LINE_RXLAT_lat : ℚ) * 65536 / 1000
    ((((x.tai * 1000000000 + x.ns : Nat) : Int) + ((s.tick.fc : Int) - x.f) * 125000) * 1000 + s.tim.dDown : Int) -
      readAt tm)

/-- A servo with an error in ps of this tick, or without one. -/
def Servo.take (x : Servo) (e : Option Int) : Servo :=
  match e with
  | some e => { x with sum := x.sum + e, valid := x.valid + 1 }
  | none => x

/-- Servo v (0 line, 1 PTP). -/
def State.servo (s : State) (v : Nat) : Servo := s.tim.servos.getD v ⟨0, 0, 0, 0, true, 0⟩
def State.setServo (s : State) (v : Nat) (x : Servo) : State :=
  { s with tim := { s.tim with servos := s.tim.servos.set v x } }

/-- A forward step of a view has passed an armed target: it fires at once, late (R331). -/
def State.stepFires (s : State) (v : Nat) : State :=
  s.each (List.range 4) (fun k t =>
    match (t.toutAt k).armed with
    | some x => if x.view = v ∧ 0 ≤ t.dNow x.view x.s x.ns then t.fire k x true else t
    | none => t)

/-- The shadow writes and servo results of the ticks before this one take effect at the edge stamp (R311), and a forward step
fires the targets it passes (R331). -/
def State.applyViews (s : State) : State :=
  let due := fun (j : ViewJob) => decide (j.tick < s.tick.edges)
  let jobs := s.tim.jobs.filter due
  let s := { s with tim := { s.tim with jobs := s.tim.jobs.filter (fun j => !due j) } }
  let s := s.each jobs (fun j t => t.viewJob t.tick.stamp j)
  s.each ((jobs.filter (fun j => j.step != 0 || j.ofs.isSome || j.aim.isSome || j.copy)).map (fun j => j.view))
    (fun v t => t.stepFires v)

/-- What phase TIME does, in the order of spec/95: the line error over view 0 as the tick ran on it (R317, R318), the pending
views at the edge stamp (R311), schedules (R328). -/
def State.timeTick (s : State) : State :=
  let e := s.lineError.map (fun x => roundNear x s.free)
  let s := s.tookFree
  let s := match e with
    | some e => (s.putB TIM_LINE_STATUS_err_valid true).putS TIM_LINE_ERR_e (satSigned 32 e)
    | none => s.putB TIM_LINE_STATUS_err_valid false
  let s := s.applyViews
  let trace := s.on GLB_SERVICE_v0_trace
  let slave := s.on TIM_STATUS_ptp_slave
  let a := (s.servo 0).take e
  let b := s.servo 1
  let s := s.setServo 0 { a with ticks := a.ticks + 1, first := a.first || !trace }
  let s := s.setServo 1 { b with ticks := b.ticks + 1, first := b.first || !slave }
  let s := { s with tim := { s.tim with
    dDown := s.tim.dNext.getD s.tim.dDown, dNext := none,
    class6 := if s.class6Holds then some s.clk else s.tim.class6 } }
  s.each (List.range 4) (fun k t => t.armTout k)

/-- PHASE_TIME. -/
def execPhaseTime (cycles : Nat) (s : State) : Host.Outcome State Fault Refusal := .next (s.timeTick.phaseUsed 5 cycles)

/-! ### TIME_OF_DAY -/

/-- Body of a TIME_OF_DAY by message byte (Table 12.2). -/
def todBody (m : List Byte) : TodBody :=
  { f := beAt m 4 7, tai := beAt m 11 6, ns := beAt m 17 4, utc := toSigned 16 (beAt m 21 2),
    leap61 := bit (byteAt m 23) 0, leap59 := bit (byteAt m 23) 1, traceable := bit (byteAt m 23) 2,
    leapTai := beAt m 24 6, gm := byteAt m 30 }

/-- A TIME_OF_DAY that R315 refuses. -/
def State.todRefused (s : State) (x : TodBody) : Bool :=
  let d := (x.f + 2 ^ 51 - s.tick.fc) % 2 ^ 51
  decide (1000000000 ≤ x.ns) || (x.leap61 && x.leap59) || ((x.leap61 || x.leap59) && x.leapTai == 0) ||
    decide (2 ^ 51 ≤ x.f) || (decide (8192 < d) && decide (d < 2 ^ 51 - 8192))

/-- A TIME_OF_DAY is accepted for the next tick edge (R315). -/
def State.acceptTod (s : State) (x : TodBody) : State :=
  { s.sat (TIM_CNT_count 0) with tim := { s.tim with todNext := some (x, s.tick.edges) } }

/-- A TIME_OF_DAY body (message bytes) is refused, or accepted (R315). -/
def State.takeTod (s : State) (m : List Byte) : State :=
  let x := todBody m
  if s.todRefused x then (s.sat (TIM_CNT_count 1)).logDev 0x0B02 0xF 0 else s.acceptTod x

/-- TIME_OF_DAY (R315); a paired face sends what it accepts on to its wing (R193). -/
def execTimeOfDay (msg : List Byte) (s : State) : Host.Outcome State Fault Refusal :=
  .next (if !s.inInbox msg 0x05 then s
  else
    let bad := s.todRefused (todBody msg)
    let s := (s.tookMsg msg).takeTod msg
    if bad then s
    else { s with pnd := { s.pnd with tod := some ((msg.drop 4).take 40), todOwed := true } })

/-- TOD_APPLY (R315): the accepted message replaces the previous one at the tick edge. -/
def execTodApply (s : State) : Host.Outcome State Fault Refusal :=
  .next (match s.tim.todNext with
  | none => s
  | some (x, tick) =>
    if s.tick.edges ≤ tick then s
    else
      let s := (s.putS TIM_LINE_UTC_utc_off x.utc).putB TIM_LINE_UTC_leap61 x.leap61
      let s := (s.putB TIM_LINE_UTC_leap59 x.leap59).put TIM_LINE_LEAP_LO_leap_tai x.leapTai
      let s := (s.put TIM_LINE_LEAP_HI_leap_tai (x.leapTai / 2 ^ 32)).putB TIM_STATUS_tod_valid
        (!s.isWing || s.pnd.todSeen)
      let now := (s.readView 0 (s.stampAt 0)).1
      let s := { s with tim := { s.tim with tod := some x, todNext := none, utcNow := (todOffset x now).1 } }
      s.syncTrace)

/-- LEAP_ADOPT (R334): at leap_tai of view 0 the new offset is in force, whether or not a TIME_OF_DAY follows
(assumption 64, DESIGN CHOICE). -/
def execLeapAdopt (s : State) : Host.Outcome State Fault Refusal :=
  let now := (s.readView 0 (s.stampAt 0)).1
  .next (match s.tim.tod with
  | some x =>
    if (x.leap61 || x.leap59) && decide (x.leapTai ≤ now) then
      { s with tim := { s.tim with utcNow := (todOffset x now).1 } }
    else s
  | none => s)

/-! ### Servos -/

/-- Rate in 2⁻⁴⁴ of a servo's exact rate: rounded to a neighbouring unit; a rate that 40 bits cannot hold is left
open. -/
def State.servoRate (s : State) (r : ℚ) : Int :=
  let n := roundAny (r * 2 ^ 44) s.free
  if -(2 ^ 39 : Int) ≤ n ∧ n < (2 ^ 39 : Int) then n else toSigned 40 s.free

/-- TIM_STATUS.srvs_locked. -/
def servoLocked (v : Nat) : Field := if v = 0 then TIM_STATUS_srv0_locked else TIM_STATUS_srv1_locked

/-- One update of servo v with its mean error in ps (R320; assumption 61, DEDUCED). -/
def State.servoStep (s : State) (v : Nat) (e : ℚ) : State :=
  let x := s.servo v
  let cfg := TIM_SRV_CFG_i v
  let was := s.on (servoLocked v)
  let abs : ℚ := if e < 0 then -e else e
  if x.first ∨ (s.get (TIM_SRV_CFG_step_thr v) * 1000 : ℚ) < abs then
    let n := roundAny (e * 65536 / 1000) s.free
    let s := (s.addViewJob { viewJobFor v with step := n }).tookFree
    let s := s.setServo v { x with first := false, good := 0 }
    let s := (s.sat (TIM_CNT_count (2 + v))).logDev 0x0B05 0xF (fdata v 0 (ofSigned 32 (satSigned 32 (n / 65536))))
    (s.putB (servoLocked v) false).when was (fun t => t.raisePf 9)
  else
    let rp : ℚ := e / ((s.get cfg : ℚ) * 125000000) / 2 ^ s.get (TIM_SRV_CFG_kp v)
    let integ := x.integ + rp / 2 ^ s.get (TIM_SRV_CFG_ki v)
    let lim : ℚ := (s.get (TIM_SRV_LIM_lim v) : ℚ) / 1000000
    let rate := max (-lim) (min lim (rp + integ))
    let good := if abs ≤ (s.get (TIM_SRV_CFG_lock_thr v) * 1000 : ℚ) then x.good + 1 else 0
    let s := (s.addViewJob { viewJobFor v with rate := some (s.servoRate rate) }).tookFree
    let s := s.setServo v { x with integ := integ, good := good }
    let now := decide (16 ≤ good)
    (s.putB (servoLocked v) now).when (was != now) (fun t => t.raisePf 9)

/-- Servo v may discipline its view (R319, Table 12.1). -/
def State.servoRuns (s : State) (v : Nat) : Bool :=
  if v = 0 then s.on GLB_SERVICE_v0_trace && s.on TIM_CTRL_v0_servo
  else s.on TIM_PTP_CFG_en && s.on TIM_STATUS_ptp_slave

/-- Ticks of an update interval of servo v. -/
def State.servoInterval (s : State) (v : Nat) : Nat := 8 * (s.get (TIM_SRV_CFG_i v) + 1)

/-- An interval of servo v ends; one with too few valid errors is skipped. While no port is in SLAVE, view 1 takes view 0's
parameters at each line-servo update (R320, R324). -/
def State.endInterval (s : State) (v : Nat) : State :=
    let x := s.servo v
    let n := s.servoInterval v
    let s := s.setServo v { x with sum := 0, valid := 0, ticks := 0 }
    if 2 * x.valid < n ∨ x.valid = 0 ∨ !s.servoRuns v then s
    else
      let s := s.servoStep v ((x.sum : ℚ) / x.valid)
      if v = 0 ∧ s.on TIM_PTP_CFG_en ∧ !s.on TIM_STATUS_ptp_slave then
        s.addViewJob { viewJobFor 1 with copy := true }
      else s

/-- SERVO_UPDATE (R320). -/
def execServoUpdate (servo : Fin 2) (s : State) : Host.Outcome State Fault Refusal :=
  .next (if (s.servo servo.val).ticks < s.servoInterval servo.val then s else s.endInterval servo.val)

/-! ### PTP -/

/-- portState values of Table 12.11. -/
def ptpStates : List Nat := [1, 3, 4, 6, 7, 8, 9]

/-- A PTP frame taken on port p: the port state the protocol reaches, and the master offset in ps where the exchange is
complete, are the service's own results (IEEE 1588) (assumption 63, PRESUMED). -/
def State.takePtp (s : State) (p state : Nat) (offset : Option Int) : State :=
    let s := s.sat (TIM_CNT_count 7)
    let s := if ptpStates.contains state then s.put (TIM_PTP_PORT_state p) state else s
    let slave := (List.range 6).any (fun q => s.get (TIM_PTP_PORT_state q) == 9)
    let s := s.putB TIM_STATUS_ptp_slave slave
    if s.get (TIM_PTP_PORT_state p) = 9 then s.setServo 1 ((s.servo 1).take offset) else s

/-- PTP_FRAME_RX (assumption 64, DESIGN CHOICE). -/
def execPtpFrameRx (port : Fin 6) (frame : List Byte) (state : Fin 16) (offset : Option Int) (s : State) :
    Host.Outcome State Fault Refusal :=
  .next (if s.ptpTakes port.val frame then s.takePtp port.val state.val offset else s)

/-! ### Stamp queues -/

/-- A read of E0 of the transmit-timestamp queue of port p by a source: the state and the word. -/
def State.readTsq (s : State) (src p : Nat) : State × Word :=
  let r := s.popStamp src (s.tsqDesc p) (s.tim.tsq.getD p .empty)
  ({ r.2.1 with tim := { r.2.1.tim with tsq := r.2.1.tim.tsq.set p r.2.2 } }, BitVec.ofNat 32 r.1)

/-- TSQ_E0_READ (R222, R325). -/
def execTsqE0Read (who : Agent) (port : Fin 6) (s : State) : Host.Outcome State Fault Refusal :=
  .next (s.ifOwned who (s.ethOwner port.val) (0x1C0404 + 0x20 * port.val) (fun s =>
    let r := s.readTsq (agentId who) port.val
    r.1.answer (agentId who) r.2))

/-- TIN_EDGE (R326, R327): an edge before which the level was held for some nanoseconds. -/
def execTinEdge (tin : Fin 4) (rise : Bool) (held : Nat) (frac : Fin 16) (s : State) :
    Host.Outcome State Fault Refusal :=
  let i := tin.val
  let x := s.tin i
  let t := s.stampAt frac.val
  let en := if rise then s.on (TIM_TIN_CFG_rise i) else s.on (TIM_TIN_CFG_fall i)
  .next (if !s.tinOn i || !en || decide (held < s.get (TIM_TIN_CFG_filt i) * 8) then s
  else if x.last.any (fun u => decide (t < u + 100 * 65536)) then s.sat (TIM_TIN_STAT_dropped i)
  else
    let r := s.pushStamp (s.tinDesc i) x.fifo x.seq t rise 0
    (r.1.setTin i ⟨r.2, (x.seq + 1) % 65536, some t⟩).when (s.domainOn 26) (fun u => u.wakeEvent 4))

/-- A read of E0 of TIN i by a source: the state and the word. -/
def State.readTin (s : State) (src i : Nat) : State × Word :=
  let r := s.popStamp src (s.tinDesc i) (s.tin i).fifo
  (r.2.1.setTin i { r.2.1.tin i with fifo := r.2.2 }, BitVec.ofNat 32 r.1)

/-- TIN_E0_READ (R222, R327). -/
def execTinE0Read (who : Agent) (tin : Fin 4) (s : State) : Host.Outcome State Fault Refusal :=
  .next (s.ifOwned who (s.tinOwner tin.val) (0x1C0508 + 0x20 * tin.val) (fun s =>
    let r := s.readTin (agentId who) tin.val
    r.1.answer (agentId who) r.2))

/-! ### Calendar writes (R335, R336) -/

/-- The TAI second of a UTC date and time in the layouts of TIM_CAL_WDATE and TIM_CAL_WTIME: none where R335 refuses them, and
no second where no TAI second renders as them (R336; assumption 64, DESIGN CHOICE). -/
def State.calTai (s : State) (date time : Nat) : Option (Option Int) :=
  let year : Int := 2000 + bits date 17 9
  let month : Int := bits date 8 5
  let day : Int := bits date 4 0
  let h := bits time 16 12
  let m := bits time 11 6
  let sec := bits time 5 0
  let good := decide (year ≤ 2399) && decide (1 ≤ month) && decide (month ≤ 12) && decide (1 ≤ day) &&
    decide (day ≤ monthDays year month)
  let u : Int := daysOf year month day * 86400 + (h * 3600 + m * 60 + min sec 59 : Nat)
  let tai := taiOf s.todOrZero u (sec == 60)
  if !good || decide (23 < h) || decide (59 < m) || decide (60 < sec) || (sec == 60 && tai.isNone) then none
  else some tai

/-- What the calendar registers name. -/
def State.calNamed (s : State) : Option (Option Int) :=
  s.calTai (s.word TIM_CAL_WDATE_year.addr).toNat (s.word TIM_CAL_WTIME_hour.addr).toNat

/-- TIM_CAL_GO. -/
def execTimCalGo (who : Agent) (target : Fin 4) (s : State) : Host.Outcome State Fault Refusal :=
  let w := s.calNamed
  let ns := s.get TIM_CAL_WNS_ns
  let bad := w.isNone || decide (1000000000 ≤ ns)
  let v := target.val
  .next (if bad then (s.sat (TIM_CNT_count 6)).logBoth (agentNiche who) 0x0B01 0
  else if v ≠ 0 ∧ !s.mayWriteView who v then s.refuseView who v
  else
    let t := match w with
      | some (some t) => (t % 2 ^ 48).toNat
      | _ => s.free % 2 ^ 48
    let s := s.when (w == some none) State.tookFree
    let s := (s.put TIM_CAL_TAI_LO_tai t).put TIM_CAL_TAI_HI_tai (t / 2 ^ 32)
    if v = 0 then s else s.addViewJob { viewJobFor v with aim := some (t, ns) })

end Sys2Proof.Machine
end

