-- ==== Sys2Proof/Machine/Pnd.lean ====
section
/-!
DEFINITION. The Pendant link (spec/07_pendant_mode.md): link states, records, binding and pairing.
-/

namespace Sys2Proof.Machine

open Sys2Proof

/-! ### Link states (Table 7.7) -/

/-- s after f, with the tick told of a change of the aligned verdict that f made (R190). -/
def State.withVerdict (s : State) (f : State → State) : State := (f s).verdict s.aligned

/-- LINK_TRAIN_START: link_en = 1, PD37 on and signal present. -/
def execLinkTrainStart (s : State) : Host.Outcome State Fault Refusal :=
  .next (if s.get PND_STATUS_link == 0 && s.on PND_CTRL_link_en && s.domainOn 37 && decide (s.pnd.since ≤ s.clk) then
    { s.put PND_STATUS_link 1 with pnd := { s.pnd with since := s.clk, markers := 0, marker := false, missing := 0, stopped := false } }
  else s)

/-- LINK_TRAIN_TIMEOUT: 100 ms in TRAIN; training is retried after 100 ms. -/
def execLinkTrainTimeout (s : State) : Host.Outcome State Fault Refusal :=
  .next (if s.get PND_STATUS_link == 1 && s.since s.pnd.since (100 * ms) then
    { s.put PND_STATUS_link 0 with pnd := { s.pnd with since := s.clk + 100 * ms } }
  else s)

/-- PND consents where no answer can come: the terminal is unbound or the link is DOWN (R206). -/
def State.consentFreed (s : State) : State :=
  { s with pnd := { s.pnd with req := s.pnd.req.map (fun (q : ConsentReq) =>
    if q.answer = none then { q with answer := some (true, 0) } else q) } }

/-- The link goes DOWN; from UP that is partner loss (R183). -/
def State.linkDown (s : State) : State :=
  s.withVerdict (fun s =>
    let up := s.linkUp
    let s := (s.put PND_STATUS_link 0).putB PND_STATUS_paired false
    let s := { s.consentFreed with pnd := { s.consentFreed.pnd with since := s.clk, missing := 0, markers := 0, marker := false } }
    if up then ((s.logDev 0x0601 0xF 0).raisePf 4).pndCnt 0 else s)

/-- LINK_DOWN: block lock is lost, four expected marker blocks are missing, link_en = 0, or PD37 is off. -/
def execLinkDown (lost : Bool) (s : State) : Host.Outcome State Fault Refusal :=
  .next (if s.get PND_STATUS_link != 0 &&
      ((s.linkUp && (lost || decide (4 ≤ s.pnd.missing))) || !s.on PND_CTRL_link_en || !s.domainOn 37) then s.linkDown
  else s)

/-- LINK_MARKER_BLOCK (Table 7.3, R181, R190): record parsing resumes; in TRAIN a marker 22,680 blocks after the last one
counts; in a wing its arrival is a marker position of the line. -/
def execLinkMarkerBlock (line : List Byte) (spaced : Bool) (s : State) : Host.Outcome State Fault Refusal :=
  let p := beAt (linkOctets line) 0 8
  .next (if s.get PND_STATUS_link == 0 || bits p 63 48 != 0x4BA5 then s
  else s.withVerdict (fun s => { s with
    pnd := { s.pnd with
      stopped := false, marker := true, missing := 0, peerTick := bits p 47 46,
      markers := if spaced then s.pnd.markers + 1 else 1 },
    dsl := { s.dsl with mark := s.dsl.mark || s.isWing } }))

/-! ### Records (R180, R181) -/

/-- A record whose header or frame check sequence fails: RECORD_CRC (R181, R209). -/
def State.recordBad (s : State) : State := (s.pndCnt 1).limDev 0x0605 0xF 0

/-- A record of a type as the lane brings it, after the octets of the block before it (R179): its arg and payload where it passes
R181. -/
def State.readRecord (s : State) (line : List Byte) (type : Nat) : Option (Nat × List Byte) × State :=
  let b := linkOctets line
  let n := beAt b 2 2
  let up := s.linkUp || (type == 1 && s.get PND_STATUS_link == 1 && decide (2 ≤ s.pnd.markers))
  if !up || s.pnd.stopped then (none, s)
  else if byteAt b 7 ≠ crc8 (b.take 7) then (none, { s.recordBad with pnd := { s.recordBad.pnd with stopped := true } })
  else if byteAt b 0 ≠ type then (none, s)
  else if 0 < n ∧ fcsGood ((b.drop 8).take (n + 4)) = false then (none, s.recordBad)
  else (some (beAt b 4 2, (b.drop 8).take n), s)

/-! ### Binding -/

/-- The terminal's own serial. -/
def State.ownSerial (s : State) : Nat := s.fuse.serial.toNat

/-- The partner named at binding. -/
def State.partner (s : State) : Nat := s.get (PND_PARTNER_serial 1) * 2 ^ 32 + s.get (PND_PARTNER_serial 0)

/-- The terminal is bound: form 1 span or 2 guard, role (span 0 face, 1 wing; guard the side), partner and pair
identifier. -/
def State.bind (s : State) (form role partner pairId : Nat) : State :=
  let s := (s.putB PND_STATUS_bound true).put PND_STATUS_form form
  let s := ((s.put PND_STATUS_role role).put PND_PAIR_ID_pair_id pairId).put GLB_SERVICE_pendant form
  let s := (s.put (PND_PARTNER_serial 0) partner).put (PND_PARTNER_serial 1) (partner / 2 ^ 32)
  { s with pnd := { s.pnd with wins := [], upSeq := [], met := false } }

/-- The terminal becomes the wing of a face (R187, R191). -/
def State.becomeWing (s : State) (p : Peer) : State :=
  s.withVerdict (fun s =>
    let s := { s with pnd := { s.pnd with own := s.get ACT_STATUS_state } }
    let s := (s.bind 1 1 p.serial p.pairId).putB USL_CTRL_force_dark true
    let s := { s with act := { s.act with t1 := none, t2 := none, t3 := none, t4 := none } }
    s.setSafe 4 true)

/-- The terminal is unbound (R186, R189, R191; assumption 75, DEDUCED). -/
def State.unbind (s : State) : State :=
  s.withVerdict (fun s =>
    let wing := s.isWing
    let s := ((s.putB PND_STATUS_bound false).putB PND_STATUS_paired false).put PND_STATUS_form 0
    let s := ((s.put PND_STATUS_role 0).put PND_PAIR_ID_pair_id 0).put GLB_SERVICE_pendant 0
    let s := (s.put (PND_PARTNER_serial 0) 0).put (PND_PARTNER_serial 1) 0
    let s := { s.consentFreed with pnd := { s.consentFreed.pnd with unbind := false } }
    if wing then
      let s := ((s.put ACT_STATUS_state s.pnd.own).put ACT_STATUS_tn 0).putB ACT_STATUS_tn_valid false
      ((s.put GLB_SERVICE_act s.pnd.own).put GLB_SERVICE_v0_trace 0 |>.putB USL_CTRL_force_dark false).setSafe 4 false
    else s)

/-- The binding in force, as a PENDANT_BIND would state it. -/
def State.bindingNow (s : State) : Option BindBody :=
  if s.on PND_STATUS_bound then
    let f := s.get PND_STATUS_form
    some ⟨f, if f = 2 then s.get PND_STATUS_role else 0, s.partner, s.get PND_PAIR_ID_pair_id⟩
  else none

/-- The bindings in force and accepted: no bind of other content joins them (R178, R185; assumption 75, DEDUCED). -/
def State.bindings (s : State) : List BindBody :=
  s.bindingNow.toList ++ (s.pnd.pend.map (fun x => x.2)).filter (fun b => b.op != 0)

/-- The body of a PENDANT_BIND, and its frame. -/
def bindBody (m : List Byte) : BindBody := ⟨byteAt m 4, byteAt m 5, beAt m 6 8, beAt m 14 4⟩
def bindFrame (m : List Byte) : Nat := beAt m 18 7

/-- A PENDANT_BIND is refused with a code (R185). -/
def State.bindRefuse (s : State) (m : List Byte) (code : Nat) : State := (s.logDev code 0xF 0).ackMsg m 1 code

/-- The content of a PENDANT_BIND beside its op differs from that of a binding; that of a bind also where its op does
(assumption 75, DEDUCED). -/
def BindBody.differs (b x : BindBody) : Bool :=
  (b.op != 0 && b.op != x.op) || b.side != x.side || b.partner != x.partner || b.pairId != x.pairId

/-- BIND_BAD of a PENDANT_BIND (R185). -/
def State.bindBad (s : State) (m : List Byte) : Bool :=
  let b := bindBody m
  decide (2 < b.op) || decide (1 < b.side) || b.pairId == 0 || (b.op == 1 && b.side == 1) ||
    s.get ACT_STATUS_state != 4 || !s.linkUp || (match s.pnd.peer with | some p => p.serial != b.partner | none => true) ||
    decide (bindFrame m < s.tick.fc + 2) || decide (2 ^ 51 ≤ bindFrame m) || s.bindings.any b.differs

/-- Why a PENDANT_BIND is refused: BIND_BAD, BIND_ARM or BUSY (R185; assumption 75, DEDUCED). -/
def State.bindCode (s : State) (m : List Byte) : Option Nat :=
  if s.bindBad m then some 0x0602
  else if s.pnd.peer.all (fun p => p.niches != s.get ARM_NICHES_niches) then some 0x0603
  else if s.castArmed || s.pnd.peer.any (fun p => bit p.flags 1) then some 0x060A
  else none

/-- A PENDANT_BIND that is refused, or accepted for the edge of its frame (R185, R186). -/
def State.admitBind (s : State) (m : List Byte) : State :=
  match s.bindCode m with
  | some code => s.bindRefuse m code
  | none =>
    let le := fun (x y : Nat × BindBody) => decide (x.1 ≤ y.1)
    { s with pnd := { s.pnd with pend := sortBy le (s.pnd.pend ++ [(bindFrame m, bindBody m)]) } }.ackMsg m 0 0

/-- A bind of op 1 or 2 (R185, R186; assumption 75, DEDUCED). -/
def State.takeBind (s : State) (m : List Byte) : State :=
  let s := s.tookMsg m
  if s.bindingNow = some (bindBody m) then s.ackMsg m 0 0 else s.admitBind m

/-- PENDANT_BIND_SPAN: op 1, and op values that R185 refuses. -/
def execPendantBindSpan (msg : List Byte) (s : State) : Host.Outcome State Fault Refusal :=
  .next (if s.inInbox msg 0x09 && byteAt msg 4 != 0 && byteAt msg 4 != 2 then s.takeBind msg else s)

/-- PENDANT_BIND_GUARD: op 2. -/
def execPendantBindGuard (msg : List Byte) (s : State) : Host.Outcome State Fault Refusal :=
  .next (if s.inInbox msg 0x09 && byteAt msg 4 == 2 then s.takeBind msg else s)

/-- PENDANT_UNBIND (R185, R186): op 0. -/
def execPendantUnbind (msg : List Byte) (s : State) : Host.Outcome State Fault Refusal :=
  .next (if !s.inInbox msg 0x09 || byteAt msg 4 != 0 then s
  else
    let s := s.tookMsg msg
    if s.bindingNow.isNone then s.ackMsg msg 2 0 else s.admitBind msg)

/-- An accepted PENDANT_BIND takes effect (R178, R186): an unbind where the terminal is bound, a bind where it is not. -/
def State.applyBind (s : State) (b : BindBody) : State :=
  if b.op = 0 then s.when (s.on PND_STATUS_bound) State.unbind
  else if s.on PND_STATUS_bound then s
  else if b.op = 1 then s.bind 1 0 b.partner b.pairId
  else s.bind 2 b.side b.partner b.pairId

/-- PENDANT_BIND_APPLY (R186): the edge of frame F, for every one whose frame has come. -/
def execPendantBindApply (s : State) : Host.Outcome State Fault Refusal :=
  let due := s.pnd.pend.filter (fun x => decide (x.1 ≤ s.tick.fc))
  let rest := s.pnd.pend.filter (fun x => !decide (x.1 ≤ s.tick.fc))
  .next (State.each { s with pnd := { s.pnd with pend := rest } } due (fun x t => t.applyBind x.2))

/-- PND_CMD.unbind (R189): at the next tick edge. -/
def execPndCmdUnbind (s : State) : Host.Outcome State Fault Refusal :=
  .next { s with pnd := { s.pnd with unbind := s.on PND_STATUS_bound } }

/-! ### STATE records (Table 7.6, R187 to R193) -/

/-- A STATE payload. -/
def readPeer (b : List Byte) : Peer :=
  { serial := beAt b 0 8, partner := beAt b 8 8, pairId := beAt b 16 4, form := byteAt b 20 % 4,
    role := bitNat (bit (byteAt b 20) 2), bound := bit (byteAt b 20) 3, act := byteAt b 21 % 8,
    tnValid := bit (byteAt b 21) 7, tn := byteAt b 22, flags := byteAt b 23, fc := beAt b 24 7,
    v0s := beAt b 32 6, v0ns := beAt b 38 4, dep := beAt b 42 8, arr := beAt b 50 8, niches := beAt b 58 2,
    boot := beAt b 60 4 }

/-- The partner's record makes a pair with the own binding (R188, Table 7.1). -/
def State.pairs (s : State) (p : Peer) : Bool :=
  s.on PND_STATUS_bound && p.bound && p.form == s.get PND_STATUS_form && p.pairId == s.get PND_PAIR_ID_pair_id &&
    p.role != s.get PND_STATUS_role && p.partner == s.ownSerial && p.serial == s.partner

/-- The partner's record calls for this terminal as its wing (R187). -/
def State.calledAsWing (s : State) (p : Peer) : Bool :=
  !s.on PND_STATUS_bound && p.form == 1 && p.bound && p.role == 0 && p.partner == s.ownSerial && s.on PND_CTRL_wing_ok

/-- The record clashes with the own role: a face calls a terminal that is active (R187), or two guard sides do not fit
(R188; assumption 75, DEDUCED). -/
def State.roleClash (s : State) (p : Peer) : Bool :=
  (s.calledAsWing p && decide (1 < s.get ACT_STATUS_state)) ||
    (s.boundAs 2 && p.bound && p.form == 2 && (p.role == s.get PND_STATUS_role || p.pairId != s.get PND_PAIR_ID_pair_id))

/-- A wing whose pair is not paired may join it (R187, R205): its own activation state is Dark or Listening and wing_ok stands. -/
def State.mayJoin (s : State) : Bool := !s.isWing || (decide (s.pnd.own ≤ 1) && s.on PND_CTRL_wing_ok)

/-- A pair becomes paired: the upstream guard counters start at 0 (R198), a wing has no TOD record yet (R193), and the first time
since the binding no window is started (R201; assumption 75, DEDUCED). -/
def State.becomePaired (s : State) : State :=
  let s := s.putB PND_STATUS_paired true
  let s := { s with pnd := { s.pnd with
    upSeq := [], todSeen := false, todOwed := s.pnd.tod.isSome, met := true, wins := if s.pnd.met then s.pnd.wins else [] } }
  s.when s.isWing (fun t => t.putB TIM_STATUS_tod_valid false)

/-- What a wing reports of its face (R190 to R192; assumption 76, DEDUCED). -/
def State.followFace (s : State) (p : Peer) : State :=
  let s := ((s.put ACT_STATUS_state p.act).put ACT_STATUS_tn p.tn).putB ACT_STATUS_tn_valid p.tnValid
  let s := s.put GLB_SERVICE_act p.act
  let s := { s with dsl := { s.dsl with count := p.fc % 2 ^ 51 } }
  s.when (s.on PND_STATUS_paired) (fun t => t.putB GLB_SERVICE_v0_trace (bit p.flags 0))

/-- The registers and the record that show the partner. -/
def State.notePeer (s : State) (p : Peer) : State :=
  let s := (s.put PND_STATUS_link 2).putB PND_STATUS_partner_v0 (bit p.flags 0)
  let s := (s.putB PND_STATUS_partner_aligned (bit p.flags 2)).put PND_STATUS_partner_act p.act
  { s with pnd := { s.pnd with peer := some p } }

/-- The partner has started anew. -/
def State.peerRestarted (s : State) : State :=
  let s := s.logDev 0x0609 0xF 0
  { s with pnd := { s.pnd with upSeq := [] } }

/-- A clash of roles with the partner's record p, logged when it begins (R187, R188). -/
def State.noteClash (s : State) (p : Peer) : State :=
  let now := s.roleClash p
  let t := s.when (now && !s.pnd.clash) (fun t => t.logDev 0x0604 0xF 0)
  { t with pnd := { t.pnd with clash := now } }

/-- The partner's record p has the serial number of the record before it, but another boot number. -/
def State.rebooted (s : State) (p : Peer) : Bool :=
  match s.pnd.peer with
  | some q => q.serial == p.serial && q.boot != p.boot
  | none => false

/-- A STATE record of the partner. -/
def State.takePeer (s : State) (p : Peer) : State :=
  let s := ((s.notePeer p).when (s.rebooted p) State.peerRestarted).noteClash p
  let s := if s.calledAsWing p && decide (s.get ACT_STATUS_state ≤ 1) then s.becomeWing p else s
  let s := if s.pairs p && !s.on PND_STATUS_paired && s.mayJoin then s.becomePaired else s
  if s.isWing then s.followFace p else s

/-- STATE_RECORD. -/
def execStateRecord (record : List Byte) (s : State) : Host.Outcome State Fault Refusal :=
  .next (match s.readRecord record 1 with
  | (some (_, b), s) => s.withVerdict (fun t => t.takePeer (readPeer b))
  | (none, s) => s)

/-! ### Consent (R206, R207) -/

/-- CONSENT_REQ (R207): answered from the consents of the own blocks other than PND. -/
def execConsentReq (record : List Byte) (s : State) : Host.Outcome State Fault Refusal :=
  .next (match s.readRecord record 2 with
  | (some (n, _), s) =>
    let r := (s.localRefusers.map (fun x => x.2)).headD 0
    s.sendRecord 3 n (beBytes 1 (bitNat (r != 0)) ++ beBytes 1 r ++ [0, 0])
  | (none, s) => s)

/-- CONSENT_REPLY (R206). -/
def execConsentReply (record : List Byte) (s : State) : Host.Outcome State Fault Refusal :=
  .next (match s.readRecord record 3 with
  | (some (n, b), s) =>
    match s.pnd.req with
    | some q =>
      if q.number = n ∧ q.answer = none then
        let ok := byteAt b 0 == 0
        let s := { s with pnd := { s.pnd with req := some { q with answer := some (ok, byteAt b 1) } } }
        s.when (!ok) (fun t => t.pndCnt 13)
      else s
    | none => s
  | (none, s) => s)

/-- CONSENT_TIMEOUT (R206): no answer within 8 ticks. -/
def execConsentTimeout (s : State) : Host.Outcome State Fault Refusal :=
  .next (match s.pnd.req with
  | some q =>
    if q.answer = none ∧ q.tick + 8 ≤ s.tick.edges then
      ({ s with pnd := { s.pnd with req := some { q with answer := some (false, 0) } } }.pndCnt 13).logDev 0x0608 0xF 0
    else s
  | none => s)

/-! ### Time, guard and span records -/

/-- TOD_RECORD (R193): the wing applies it as a TIME_OF_DAY that R315 has accepted. -/
def execTodRecord (record : List Byte) (s : State) : Host.Outcome State Fault Refusal :=
  .next (match s.readRecord record 5 with
  | (some (_, b), s) =>
    if s.isWing && s.pairedAs 1 then { s.acceptTod (todBody (zeros 4 ++ b)) with pnd := { s.pnd with todSeen := true } } else s
  | (none, s) => s)

/-- A record that finds nothing to go to: ORPHAN. -/
def State.orphan (s : State) : State := s.pndCnt 9

/-- DUP_UP_RECORD (R198, R199). -/
def execDupUpRecord (record : List Byte) (s : State) : Host.Outcome State Fault Refusal :=
  .next (match s.readRecord record 0x10 with
  | (some (a, b), s) =>
    let n := a % 256
    let q := s.get (PND_GFLOW_qid n)
    if s.on GLB_SERVICE_up_ok && s.pairedAs 2 && s.on (PND_GFLOW_valid n) && s.on (PND_GFLOW_dir n) then
      (s.pndCnt 3).admitSdu { id := 0, owner := (s.qidOwner q).getD 0, data := b, dest := some q }
    else s.orphan
  | (none, s) => s)

/-- DUP_DOWN_RECORD (R200 to R203). -/
def execDupDownRecord (record : List Byte) (s : State) : Host.Outcome State Fault Refusal :=
  .next (match s.readRecord record 0x11 with
  | (some (a, b), s) =>
    let n := a % 256
    let f := s.get (PND_GFLOW_flow n)
    if !(s.pairedAs 2 && s.on (PND_GFLOW_valid n) && !s.on (PND_GFLOW_dir n) && s.on (PND_GFLOW_egress n) &&
        s.on (DSL_FID_valid f)) then s.orphan
    else if !tagGood n b then s.tagBad
    else
      let r := s.fromRecord b
      r.2.forward r.1 (.copy n f)
  | (none, s) => s)

/-- SPAN_UP_RECORD (R194): allocation and class in arg. -/
def execSpanUpRecord (record : List Byte) (s : State) : Host.Outcome State Fault Refusal :=
  .next (match s.readRecord record 0x12 with
  | (some (a, b), s) =>
    let alloc := bits a 13 8
    match if s.pairedAs 1 && !s.on PND_STATUS_role && s.on (USL_ALLOC_valid alloc) then s.allocBase alloc else none with
    | some q =>
      (s.pndCnt 11).admitSdu { id := 0, owner := (s.qidOwner (q + a % 8)).getD 0, data := b, dest := some (q + a % 8) }
    | none => s.orphan
  | (none, s) => s)

/-- SPAN_DOWN_RECORD (R195). -/
def execSpanDownRecord (record : List Byte) (s : State) : Host.Outcome State Fault Refusal :=
  .next (match s.readRecord record 0x13 with
  | (some (a, b), s) =>
    let f := a % 1024
    if s.isWing && s.pairedAs 1 && s.on (DSL_FID_valid f) then
      let r := (s.pndCnt 12).fromRecord b
      r.2.forward r.1 (.dest f)
    else s.orphan
  | (none, s) => s)

/-- MEMBER_RECORD (R303): dir 0 a member SDU to send upstream on relay r, dir 1 one for the members that name relay r. -/
def execMemberRecord (record : List Byte) (s : State) : Host.Outcome State Fault Refusal :=
  .next (match s.readRecord record 0x14 with
  | (some (a, b), s) =>
    let r := a % 64
    if !s.pairedAs 2 then s
    else if bit a 15 then s.each (s.membersOn true r) (fun m t => t.acceptMember m b)
    else if r < 48 ∧ s.on (TDM_RELAY_valid r) ∧ relayGood b then
      let mine := s.usl.members.filter (fun x => x.member == 48 + r)
      let rest := if 2 ≤ mine.length then (match mine with | x :: _ => s.usl.members.erase x | [] => s.usl.members)
        else s.usl.members
      { s with usl := { s.usl with members := rest ++ [⟨48 + r, s.get (TDM_RELAY_ufid r), b, 0⟩] } }
    else s
  | (none, s) => s)

/-! ### Guard flow and span map writes (R208) -/

/-- The word that a PND register will hold from the next tick edge. -/
def State.pndNext (s : State) (a : Nat) : Word :=
  match s.pnd.writes.reverse.find? (fun w => w.1 == a) with
  | some w => w.2
  | none => s.word a

/-- A PND_GFLOWn entry that R208 refuses. -/
def State.gflowBad (s : State) (n : Nat) (w : Nat) : Bool :=
  let q := bits w 26 16
  let f := w % 1024
  bit w 31 &&
    (if bit w 30 then
      s.roleOf q != some 1 || (List.range 256).any (fun m =>
        let v := (s.pndNext (0xA1000 + 4 * m)).toNat
        m != n && bit v 31 && bit v 30 && bits v 26 16 == q)
    else !s.on (DSL_FID_valid f) || s.get (DSL_FID_dest f) != 0)

/-- PND_GFLOW_WRITE (R208): checked, then queued for the next tick edge. -/
def execPndGflowWrite (n : Fin 256) (data : Word) (s : State) : Host.Outcome State Fault Refusal :=
  let w := data &&& 0xE7FF03FF#32
  .next (if s.gflowBad n.val w.toNat then s.logDev 0x060B 0xF 0
  else { s with pnd := { s.pnd with writes := s.pnd.writes ++ [(0xA1000 + 4 * n.val, w)] } })

/-! ### The tick edge (R182, R184, R189) -/

/-- The marker block that starts a link frame (Table 7.3). -/
def State.linkMarker (s : State) : List Byte :=
  [0x4B, 0xA5] ++ beBytes 1 (s.get TICK_STATUS_state * 64 + s.get PND_STATUS_form * 16) ++ beBytes 5 s.tick.fc

/-- The STATE payload for a marker whose departure has a stamp in 2⁻⁴ ns (Table 7.6, R309). -/
def State.statePayload (s : State) (left : Nat) : List Byte :=
  let v := s.readView 0 (left * 4096)
  let flags := bitNat (s.on GLB_SERVICE_v0_trace) + 2 * bitNat s.castArmed + 4 * bitNat s.aligned +
    8 * bitNat (s.on GLB_SERVICE_up_ok) + 16 * bitNat (s.on PWR_STATUS_entering)
  beBytes 8 s.ownSerial ++ beBytes 8 s.partner ++ beBytes 4 (s.get PND_PAIR_ID_pair_id) ++
    beBytes 1 (s.get PND_STATUS_form + 4 * s.get PND_STATUS_role + 8 * s.get PND_STATUS_bound) ++
    beBytes 1 (s.get ACT_STATUS_state + 128 * s.get ACT_STATUS_tn_valid) ++ beBytes 1 (s.get ACT_STATUS_tn) ++
    beBytes 1 flags ++ beBytes 7 s.tick.fc ++ [0] ++ beBytes 6 v.1 ++ beBytes 4 v.2.1 ++
    beBytes 8 (left / 16) ++ beBytes 8 (s.pnd.arr / 16) ++ beBytes 2 (s.get ARM_NICHES_niches) ++
    beBytes 4 s.flt.bootCount.toNat

/-- The conditions of R528 hold for this terminal: every part has started, the Armature is accepted and, where CST_CFG asks for
it, activation has reached Serving. -/
def State.trialGood (s : State) : Bool :=
  s.cst.started && s.on GLB_SERVICE_arm && (!s.on CST_CFG_serve_req || s.get ACT_STATUS_state == 4)

/-- The settle count in ticks (R528). -/
def State.settleTicks (s : State) : Nat := s.get CST_CFG_settle * 8000

/-- What a STATE record shows as settled: the set has settled, or R528 holds for it and waits for the partner
(R532; assumption 84, DEDUCED). -/
def State.settledOwn (s : State) : Bool :=
  s.get CST_STATUS_state == 5 ||
    (s.get CST_STATUS_state == 4 && decide (s.settleTicks ≤ s.cst.settle) && s.trialGood)

/-- The CAST STATE payload of a pair session (Table 21.10). -/
def State.castPayload (s : State) : List Byte :=
  [1] ++ beBytes 1 (s.get CST_STATUS_state) ++ [0, 0] ++ beBytes 4 (s.get (CST_DIGEST_digest 0)) ++
    beBytes 4 (s.get (CST_DIGEST_digest 1)) ++ beBytes 2 (s.get CST_AT_HI_at) ++ beBytes 4 (s.get CST_AT_LO_at) ++
    beBytes 1 (bitNat s.settledOwn + 2 * bitNat (s.get CST_STATUS_state == 6)) ++ zeros 5

/-- The delay sample of a tick (R184), from stamps of the timebase (R309; assumption 76, DEDUCED). -/
def State.delaySample (s : State) (link : LinkSample) : State :=
  match link.arrived, s.pnd.peer with
  | some t4, some p =>
    let sample := ((t4 : Int) - s.pnd.dep) - ((p.dep : Int) - p.arr) * 16
    let l := (sample :: s.pnd.samples).take 1024
    let m := roundAny ((l.sum : ℚ) * 125 / 4 / l.length) s.free
    (({ s with pnd := { s.pnd with samples := l } }.putS PND_LINK_DELAY_delay m)).tookFree
  | _, _ => s

/-- The SDUs of a paired wing's allocation classes leave in SPAN_UP records (R194), as far as one link frame has room
(assumption 76, DEDUCED). -/
def State.sendSpan (s : State) : State :=
  let l := s.cel.sdus.filter (fun d => match d.queue with
    | some q => (s.allocOfQid q).isSome
    | none => false)
  (l.foldl (fun (a : Nat × State) d =>
    match d.queue.bind a.2.allocOfQid with
    | some (al, c) =>
      let r := pndRecord 0x12 (al * 256 + c) d.data
      if a.1 < r.length then a
      else (a.1 - r.length, ((((a.2.sendRecord 0x12 (al * 256 + c) d.data).pndCnt 11).addBytes al 1 (d.data.length - d.taken)).release
        d.id))
    | none => a) (181352 - (s.pnd.queue.map (fun x => x.bytes.length)).sum, s)).2

/-- A link frame starts (R182): marker and STATE record, then the records that are owed. -/
def State.sendLinkFrame (s : State) (left : Nat) : State :=
  let s := s.endFrame
  if s.get PND_STATUS_link == 0 then { s with pnd := { s.pnd with queue := [] } }
  else
    let s := { s with pnd := { s.pnd with head := s.linkMarker, frameAt := s.clk } }.queueRecord 1 0 (s.statePayload left)
    let face := s.pairedAs 1 && !s.on PND_STATUS_role
    let s := match if face && s.linkUp && (s.pnd.todOwed || decide (8191 ≤ s.pnd.todAge)) then s.pnd.tod else none with
      | some b => { s.sendRecord 5 0 b with pnd := { s.pnd with todOwed := false, todAge := 0 } }
      | none => { s with pnd := { s.pnd with todAge := s.pnd.todAge + 1 } }
    let s := s.when (s.on CST_STATUS_pair && s.linkUp) (fun t => t.sendRecord 4 0 t.castPayload)
    if s.isWing && s.pairedAs 1 && s.linkUp then s.sendSpan else s

/-- What a tick edge does to the link: writes, unbinding and the end of pairing take effect (R186, R189), the delay is
sampled and a link frame starts. -/
def State.pndEdge (s : State) (link : LinkSample) : State :=
  let s := s.each s.pnd.writes (fun w t => t.setWord w.1 w.2)
  let s := { s with pnd := { s.pnd with writes := [], marker := false,
                                        missing := if s.pnd.marker then 0 else s.pnd.missing + 1 } }
  let faceGone := s.isWing && s.linkUp && (match s.pnd.peer with | some p => !p.bound | none => false)
  let s := if s.pnd.unbind || faceGone then s.unbind else s
  let s := match s.pnd.peer with
    | some p => if s.on PND_STATUS_paired && !s.pairs p then s.putB PND_STATUS_paired false else s
    | none => s
  let s := if s.linkUp then s.delaySample link else s
  let s := { s with pnd := { s.pnd with dep := link.left, arr := link.arrived.getD s.pnd.arr } }
  s.sendLinkFrame link.left

end Sys2Proof.Machine
end

