-- ==== Sys2Proof/Machine/Manifest.lean ====
section
/-!
DEFINITION. Cast manifests: their layout (Tables 21.1 to 21.3), the parts of a bank and the checks of Table 21.5
(spec/21_cast.md).
-/

namespace Sys2Proof.Machine

open Sys2Proof

/-! ### Layout -/

/-- A manifest entry (Table 21.2). -/
structure Part where
  type : Nat
  target : Nat
  flags : Nat
  offset : Nat
  length : Nat
  version : Nat
  digest : List Byte
  deriving DecidableEq, Repr

/-- keep: the part is copied from the active set. -/
def Part.keep (p : Part) : Bool := bit p.flags 0

/-- Entry i of a manifest's bytes. -/
def partAt (d : List Byte) (i : Nat) : Part :=
  let b := (d.drop (64 + 64 * i)).take 64
  ⟨byteAt b 0, byteAt b 1, beAt b 2 2, beAt b 4 4, beAt b 8 4, beAt b 12 4, (b.drop 16).take 48⟩

/-- The entries that the header counts. -/
def partsOf (d : List Byte) : List Part := (List.range (beAt d 12 2)).map (partAt d)

/-- Offset of the signer key, which follows the entries. -/
def keyOffset (d : List Byte) : Nat := 64 + 64 * beAt d 12 2

/-- The header's pair flag. -/
def isPairManifest (d : List Byte) : Bool := bit (beAt d 10 2) 0

/-- Byte o of a bank. -/
def bankAddr (bank o : Nat) : Nat := bank * 2 ^ 24 + o

/-- The manifest of n bytes at sector 8 of a bank. -/
def State.manifestBytes (s : State) (bank n : Nat) : List Byte := s.flashBytes (bankAddr bank 0x8000) n

/-- The manifest that a bank holds, as long as its own length field says. -/
def State.bankManifest (s : State) (bank : Nat) : List Byte :=
  s.manifestBytes bank (min (beAt (s.manifestBytes bank 24) 20 4) 4096)

/-- The stored bytes of a part of a bank. -/
def State.partBytes (s : State) (bank : Nat) (p : Part) : List Byte := s.flashBytes (bankAddr bank p.offset) p.length

/-- The bank that is not active, which a Cast stages (spec/21). -/
def State.stagingBank (s : State) : Nat := 1 - s.activeBank

/-- The staged manifest. -/
def State.stagedManifest (s : State) : List Byte := s.manifestBytes s.stagingBank s.cst.length

/-- A range of a bank touches an ERASE_OPEN sector, or reads with incomplete or ecc set. -/
def State.unreadable (s : State) (bank o n : Nat) : Bool :=
  let first := (bankAddr bank o) / 32
  let units := ceilDiv (o % 32 + n) 32
  s.openSectors.any (fun t => decide (bank * 4096 + o / 4096 ≤ t ∧ t ≤ bank * 4096 + (o + n - 1) / 4096)) ||
    s.flc.badUnits.any (fun u => decide (first ≤ u ∧ u < first + units)) ||
    (match s.flc.susp with
      | some x => decide (bank * 4096 + o / 4096 ≤ sectorOf x.addr ∧ sectorOf x.addr ≤ bank * 4096 + (o + n - 1) / 4096)
      | none => false)

/-! ### Orders 1 to 6 -/

/-- Two ranges of one target share a byte. -/
def Part.meets (a b : Part) : Bool :=
  a.target == b.target && decide (a.offset < b.offset + b.length) && decide (b.offset < a.offset + a.length)

/-- Some two entries overlap. -/
def anyMeet : List Part → Bool
  | [] => false
  | p :: l => l.any p.meets || anyMeet l

/-- An entry is well formed: its type and target known, its other flags 0, its range within sectors 10 to 4,095. -/
def Part.formed (p : Part) (pair : Bool) : Bool :=
  decide (1 ≤ p.type ∧ p.type ≤ 6) && decide (p.target ≤ bitNat pair) && decide (p.flags < 2) &&
    p.offset % 4096 == 0 && decide (0xA000 ≤ p.offset) && decide (1 ≤ p.length) &&
    decide (p.offset + p.length ≤ 2 ^ 24)

/-- Order 1 for a manifest of the given bytes. -/
def manifestFormed (d : List Byte) : Bool :=
  let n := beAt d 12 2
  let pair := isPairManifest d
  beAt d 0 4 == 0x45564D46 && beAt d 4 2 == 1 && decide (beAt d 10 2 < 2) && decide (3 ≤ n ∧ n ≤ 32) &&
    beAt d 20 4 == d.length && d.length == keyOffset d + 193 && beAt d 14 2 == 0 && allZero ((d.drop 40).take 24) &&
    (pair || allZero ((d.drop 24).take 16)) && (partsOf d).all (fun p => p.formed pair) && !anyMeet (partsOf d)

/-- Entries of a type for a target. -/
def countParts (l : List Part) (target type : Nat) : Nat :=
  (l.filter (fun p => p.target == target && p.type == type)).length

/-- The counts of Table 21.3 hold for a target. -/
def countsOk (l : List Part) (target : Nat) (is7401 : Bool) : Bool :=
  let die := if is7401 then 0 else 1
  countParts l target 1 == 1 && countParts l target 2 == 1 && countParts l target 3 == die &&
    countParts l target 4 == die && countParts l target 5 == 1 && decide (countParts l target 6 ≤ 8)

/-- The terminal's own serial, its partner's, and those that a pair manifest names, stand in their places: pair_a names the
guard side 0 or the span face, pair_b the other. -/
def State.pairSerials (s : State) (d : List Byte) : Bool :=
  let own := s.fuse.serial.toNat
  let other := s.get (PND_PARTNER_serial 1) * 2 ^ 32 + s.get (PND_PARTNER_serial 0)
  if s.on PND_STATUS_role then beAt d 24 8 == other && beAt d 32 8 == own
  else beAt d 24 8 == own && beAt d 32 8 == other

/-- Target number of this terminal's entries. -/
def State.ownTarget (s : State) (d : List Byte) : Nat :=
  if isPairManifest d && beAt d 32 8 == s.fuse.serial.toNat then 1 else 0

/-- Order 6: 0, FORMAT or PAIR_BAD (R530). -/
def State.countFault (s : State) (d : List Byte) : Nat :=
  let l := partsOf d
  let bound := s.on PND_STATUS_bound
  if isPairManifest d then
    if bound && s.on PND_STATUS_paired && s.pairSerials d && countsOk l 0 s.fuse.is7401 && countsOk l 1 s.fuse.is7401
      then 0 else 0x140E
  else if bound then 0x140E
  else if countsOk l 0 s.fuse.is7401 then 0 else 0x1401

/-- Orders 1 to 6 of Table 21.5: the code of the first that fails, or 0. The boot ROM judges no pair rules
(assumption 83, DEDUCED). -/
def State.manifestFault (s : State) (d : List Byte) (boot : Bool) : Nat :=
  let key := (d.drop (keyOffset d)).take 97
  if !manifestFormed d then 0x1401
  else if beAt d 6 2 ≠ s.part ∨ s.revBelow (byteAt d 8) (byteAt d 9) then 0x1404
  else if !s.trusts key then 0x1402
  else if !ecdsaP384 key (d.take (keyOffset d + 97)) ((d.drop (keyOffset d + 97)).take 96) then 0x1403
  else if s.fuse.is7401 && (partsOf d).any (fun p => p.type == 3 || p.type == 4) then 0x1405
  else if boot then 0 else s.countFault d

/-! ### Orders 7 to 10 -/

/-- Entries of the staged manifest that this terminal programs. -/
def State.ownParts (s : State) (d : List Byte) : List Part :=
  (partsOf d).filter (fun p => p.target == s.ownTarget d)

/-- The entries of the running set. -/
def State.activeParts (s : State) : List Part :=
  let d := s.bankManifest s.activeBank
  s.ownParts d

/-- The active part that a keep entry copies: of its type, and of its digest where several are of that type. -/
def State.keepSource (s : State) (p : Part) : Option Part :=
  match s.activeParts.find? (fun q => q.type == p.type && q.digest == p.digest) with
  | some q => some q
  | none => s.activeParts.find? (fun q => q.type == p.type)

/-- Order 7 fails for a part (R517). -/
def State.keepBad (s : State) (p : Part) : Bool :=
  p.keep && (match s.keepSource p with | some q => q.digest != p.digest | none => true)

/-- Order 8 fails for a part of a bank. -/
def State.digestBad (s : State) (bank : Nat) (p : Part) : Bool :=
  s.unreadable bank p.offset p.length || sha384 (s.partBytes bank p) != p.digest

/-- Order 9: the code of the first check of Table 3.8 that the Armature part fails, 0 where it passes. -/
def State.armatureFault (s : State) (bank : Nat) (p : Part) : Nat :=
  if p.type ≠ 5 then 0
  else match s.checkImage .check (s.partBytes bank p) with
  | .ok _ => 0
  | .error e => e.1

/-- A pair manifest's own Armature part carries another epoch than the image now accepted (R530). -/
def State.epochBad (s : State) (d : List Byte) (bank : Nat) (p : Part) : Bool :=
  isPairManifest d && p.type == 5 && beAt (s.partBytes bank p) 20 4 != s.get ARM_EPOCH_epoch

/-- Order 10 fails for a part: a patch for the cartridge that is present (R471). -/
def State.patchBad (s : State) (bank : Nat) (p : Part) : Bool :=
  let b := s.partBytes bank p
  p.type == 6 && (p.length != 64 || (s.crt.cal.isSome && beAt b 0 8 == beAt s.crt.record 8 8 &&
    !patchGood s.crt.record b))

/-- The checks of Table 21.5 on the staged set (R521): code and data of the first that fails, or code 0; alone leaves the
pair rules of order 6 out. -/
def State.setFault (s : State) (alone : Bool) : Nat × Nat :=
  let d := s.stagedManifest
  let bank := s.stagingBank
  let own := s.ownParts d
  let m := s.manifestFault d alone
  if m ≠ 0 then (m, 0)
  else if !alone && own.any (s.epochBad d bank) then (0x140F, 0)
  else if own.any s.keepBad then (0x1413, 0)
  else if own.any (s.digestBad bank) then (0x1406, 0)
  else match own.find? (fun p => s.armatureFault bank p != 0) with
  | some p => (0x1407, s.armatureFault bank p)
  | none => if own.any (s.patchBad bank) then (0x1107, 0) else (0, 0)

end Sys2Proof.Machine
end

