-- ==== Sys2Proof/Machine/CstOps.lean ====
section
/-!
DEFINITION. The Cast session: its registers, records and messages, staging, and the scheduled second
(spec/21_cast.md, R518 to R525, R533, R534).
-/

namespace Sys2Proof.Machine

open Sys2Proof

/-! ### Records and reports -/

/-- CST_STATUS.state. -/
def State.cast (s : State) : Nat := s.get CST_STATUS_state

/-- CST_CNTn. -/
def State.castCnt (s : State) (n : Nat) : State := s.sat (CST_CNT_count n)

/-- A CST record (R534); PATCH_BAD is one of the cartridge's too (R476, R521). -/
def State.castLog (s : State) (code data : Nat) : State :=
  (((s.put CST_STATUS_code code).logDev code 0xF data).raisePf 5).when (code == 0x1107) (fun t => t.raisePf 8)

/-- A CST condition logged once a multiframe (R534); its record raises the vector when it is written. -/
def State.castLim (s : State) (code data : Nat) : State :=
  (s.put CST_STATUS_code code).limDev code 0xF data

/-- First 8 bytes of the staged manifest's digest. -/
def State.digest8 (s : State) : List Byte := beBytes 4 (s.get (CST_DIGEST_digest 0)) ++ beBytes 4 (s.get (CST_DIGEST_digest 1))

/-- Scheduled second, 0 where there is none. -/
def State.castAt (s : State) : Nat := s.get CST_AT_HI_at * 2 ^ 32 + s.get CST_AT_LO_at

/-- The scheduled second set or removed. -/
def State.setSecond (s : State) (t : Option Nat) : State :=
  let n := t.getD 0
  let s := (s.put CST_AT_HI_at (n / 2 ^ 32)).put CST_AT_LO_at n
  { s with cst := { s.cst with second := t } }

/-- CAST_STATUS with a code is queued (Table 21.11). -/
def State.castReport (s : State) (code : Nat) : State :=
  s.queueUp 0x86 (beBytes 1 s.cast ++ zeros 1 ++ beBytes 2 code ++ beBytes 4 (s.get CST_RUNNING_serial) ++
    beBytes 4 (s.get CST_STAGED_serial) ++ s.digest8 ++ beBytes 6 s.castAt ++ beBytes 1 (s.get CST_STATUS_attempts) ++
    beBytes 1 (s.get CST_STATUS_early + 2 * s.get CST_STATUS_pair))

/-- A change of state (R533). -/
def State.setCast (s : State) (st : Nat) : State :=
  if s.cast = st then s
  else
    let s := (s.put CST_STATUS_state st).raisePf 5
    if st ∈ [2, 3, 5, 6, 7] then s.castReport (s.get CST_STATUS_code) else s

/-! ### The flash of the staging bank -/

/-- What stands in the way of a program or an erase of a sector (bank × 4,096 + sector) of the staging bank: a code of
Table 20.2, or 0. -/
def State.stageFault (s : State) (sectors : List Nat) (erase : Bool) : Nat :=
  if s.flashActive || (erase && s.flc.susp.isSome) then 0x1304
  else if !s.domainOn (35 + s.stagingBank) then 0x130B
  else if !erase && sectors.any s.eraseOpen then 0x1303
  else match s.flc.susp with
  | some o => if sectors.contains (sectorOf o.addr) then 0x1308 else 0
  | none => 0

/-- A sector of the staging bank erased, its OPEN and CLOSE records written (R507, R511). -/
def State.stageErase (s : State) (t : Nat) : State := ((s.markSector 1 t).eraseSector t).markSector 2 t

/-- Bytes written from flash address a on, into the units that hold them (assumption 83, DEDUCED). -/
def State.stageWrite (s : State) (a : Nat) (data : List Byte) : State :=
  let first := a / 32
  let n := ceilDiv (a % 32 + data.length) 32
  s.each (List.range n) (fun i t =>
    let u := (first + i) * 32
    let old := t.unit u
    let lo := a - u
    let off := u - a
    t.setUnit u (splice old lo ((data.drop off).take (32 - lo))))

/-! ### Objects -/

/-- First byte and length of object k of the session: 0 the manifest, k entry k - 1. -/
def State.object (s : State) (k : Nat) : Option (Nat × Nat) :=
  if k = 0 then some (0x8000, s.cst.length)
  else if s.cst.ready then ((partsOf s.stagedManifest)[k - 1]?).map (fun p => (p.offset, p.length))
  else none

/-- Byte i of object k has been programmed. -/
def State.hasByte (s : State) (k i : Nat) : Bool :=
  s.cst.got.any (fun g => g.1 == k && decide (g.2.1 ≤ i) && decide (i < g.2.2))

/-- Bytes of object k programmed one after another from offset p on. -/
def contiguous (got : List (Nat × Nat × Nat)) (k : Nat) : Nat → Nat → Nat
  | 0, p => p
  | fuel + 1, p => match got.find? (fun g => g.1 == k && decide (g.2.1 ≤ p) && decide (p < g.2.2)) with
    | some g => contiguous got k fuel g.2.2
    | none => p

/-- Bytes of object k programmed contiguously from offset 0. -/
def State.progress (s : State) (k : Nat) : Nat := contiguous s.cst.got k (s.cst.got.length + 1) 0

/-- Object k is complete. -/
def State.objectDone (s : State) (k : Nat) : Bool :=
  match s.object k with
  | some o => s.progress k == o.2
  | none => false

/-- Bytes [a, b) of object k are programmed. -/
def State.noteBytes (s : State) (k a b : Nat) : State :=
  { s with cst := { s.cst with got := s.cst.got ++ [(k, a, b)] } }

/-- The manifest is complete (R518): checked under orders 1 to 6; where it passes, the sectors of its entries are erased and
the keep parts copied. -/
def State.takeManifest (s : State) : State :=
  let d := s.stagedManifest
  let bank := s.stagingBank
  match s.manifestFault d false with
  | 0 =>
    let own := s.ownParts d
    let s := s.each own (fun p t => t.each (List.range' (p.offset / 4096) (ceilDiv p.length 4096)) (fun k u =>
      u.stageErase (bank * 4096 + k)))
    let s := s.each (partsOf d).zipIdx (fun e t =>
      match if e.1.keep && e.1.target == t.ownTarget d then t.keepSource e.1 else none with
      | some q =>
        (t.stageWrite (bankAddr bank e.1.offset) ((t.partBytes t.activeBank q).take e.1.length)).noteBytes (e.2 + 1) 0
          e.1.length
      | none => t)
    let s := { s with cst := { s.cst with ready := true } }
    let s := (s.put CST_STAGED_serial (beAt d 16 4)).putB CST_STATUS_pair (isPairManifest d)
    let h := sha384 d
    s.each (List.range 12) (fun n t => t.put (CST_DIGEST_digest n) (beAt h (4 * n) 4))
  | c => s.castLog c 0

/-- A block for a part of the partner's is forwarded in a CAST record (R520). -/
def State.forwards (s : State) (k : Nat) : Bool :=
  match if k = 0 then none else (partsOf s.stagedManifest)[k - 1]? with
  | some p => p.target != s.ownTarget s.stagedManifest
  | none => false

/-- A block of object k at an offset (R518 to R520): the state after it and its status. A last word may pass the object's end:
what passes it is padding (assumption 83, DEDUCED). -/
def State.castBlock (s : State) (k off : Nat) (data : List Byte) : State × Nat :=
  if s.cast ≠ 1 ∨ (k ≠ 0 ∧ !s.cst.ready) then ((s.castCnt 1).castLog 0x1409 0, 0x1409)
  else match s.object k with
  | none => ((s.castCnt 1).castLim 0x140A 0, 0x140A)
  | some o =>
    if off % 4 ≠ 0 ∨ ceilDiv o.2 4 * 4 < off + data.length then ((s.castCnt 1).castLim 0x140A 0, 0x140A)
    else
      let data := data.take (o.2 - off)
      let stop := off + data.length
      if s.forwards k then
        if s.linkUp then
          (((s.sendRecord 4 0 (beBytes 1 2 ++ beBytes 1 k ++ zeros 2 ++ beBytes 4 off ++ data)).noteBytes k off stop).castCnt 0, 0)
        else ((s.castCnt 1).castLog 0x1408 0, 0x1408)
      else
        let a := bankAddr s.stagingBank (o.1 + off)
        let old := s.flashBytes a data.length
        let had := (List.range data.length).filter (fun i => s.hasByte k (off + i))
        if had.any (fun i => old.getD i 0 != data.getD i 0) then ((s.castCnt 1).castLim 0x140B (fdata 0 0 0x1302), 0x140B)
        else if had.length = data.length then (s.castCnt 0, 0)
        else
          let sectors := (List.range (ceilDiv (a % 4096 + data.length) 4096)).map (fun i => sectorOf a + i)
          match s.stageFault sectors false with
          | 0 =>
            let s := ((s.stageWrite a data).noteBytes k off stop).castCnt 0
            (if k = 0 && s.objectDone 0 then s.takeManifest else s, 0)
          | c => ((s.castCnt 1).castLim 0x140B (fdata 0 0 c), 0x140B)

/-! ### Commit record and scheduling -/

/-- The commit record's flash address. -/
def State.commitAddr (s : State) : Nat := bankAddr s.stagingBank 0x9000

/-- The commit record of the staged manifest (Table 21.6). -/
def State.commitRecord (s : State) : List Byte :=
  let b := beBytes 2 0x434D ++ beBytes 1 (s.get CST_STATUS_pair) ++ zeros 1 ++
    beBytes 4 (match s.selector with | some r => r.seq | none => 0) ++ beBytes 4 (s.get CST_STAGED_serial) ++ s.digest8 ++
    zeros 8
  b ++ beBytes 4 (crc32 b)

/-- The commit record of a bank is valid (R524). -/
def State.commitValid (s : State) (bank : Nat) : Bool :=
  let a := bankAddr bank 0x9000
  s.validRec 0x434D a && !s.incomplete a

/-- Seconds of view 0 now. -/
def State.view0Second (s : State) : Nat := (s.readView 0 (s.stampAt 0)).1

/-- A second lies less than 2 s after the present reading of view 0 (R523). -/
def State.late (s : State) (t : Nat) : Bool :=
  let r := s.readView 0 (s.stampAt 0)
  decide (t * 1000000000 < (r.1 + 2) * 1000000000 + r.2.1 + bitNat (r.2.2 != 0))

/-- The partner's latest STATE record shows one of some states with the staged manifest's digest (R531). -/
def State.peerShows (s : State) (states : List Nat) : Bool :=
  match s.cst.peer with
  | some p => states.contains p.state && p.digest == s.digest8
  | none => false

/-- The commit record erased and the state back to VERIFIED (R524). -/
def State.disarm (s : State) : State :=
  let s := s.stageErase (s.stagingBank * 4096 + 9)
  let s := { s with cst := { s.cst with arming := none, postponed := false } }
  (s.setSecond none).setCast 2

/-- The response of CAST_CMD after an operation: status, CST_STATUS, CST_AT_HI, CST_AT_LO (Table 21.4). -/
def State.castWords (s : State) : List Word :=
  [s.word CST_STATUS_state.addr, s.word CST_AT_HI_at.addr, s.word CST_AT_LO_at.addr]

/-- A CAST_CMD of an operation served for a source: run answers the state and the status. -/
def State.serveCast (s : State) (src : Agent) (op : Nat) (run : Req → State → State × Nat) : State :=
  s.serve src (fun r => r.type == 10 && bits (r.word 0) 7 0 == op) (fun r t =>
    let x := run r t
    (x.1, x.2, x.1.castWords))

/-- A CAST_CMD refused in the present state. -/
def State.castState (s : State) : State × Nat := (s.castLog 0x1409 0, 0x1409)

end Sys2Proof.Machine
end

