-- ==== Sys2Proof/Machine/Cst.lean ====
section
/-!
DEFINITION. Cast commands: staging, verification, arming, the freeze and the trial (spec/21_cast.md).
-/

namespace Sys2Proof.Machine

open Sys2Proof

/-! ### Staging (R518 to R520) -/

/-- CAST_BLOCK. -/
def execCastBlock (src : Agent) (s : State) : Host.Outcome State Fault Refusal :=
  .next (s.serve src (fun r => r.type == 9) (fun r t =>
    let k := bits (r.word 0) 31 24
    let x := t.castBlock k (r.word 1) (wordBytes (r.payload.drop 2))
    (x.1, x.2, [BitVec.ofNat 32 (x.1.progress k)])))

/-- No session is staged. -/
def State.dropSession (s : State) : State :=
  let s := (s.put CST_STAGED_serial 0).putB CST_STATUS_pair false
  let s := s.each (List.range 12) (fun n t => t.put (CST_DIGEST_digest n) 0)
  let c := { s.cst with length := 0, got := [], ready := false, verifying := false, arming := none, peer := none }
  { s with cst := c }.setSecond none

/-- CAST_BEGIN (R518): any session is discarded and sectors 8 and 9 of the staging bank are erased. REVERTED leaves its set for
inspection until then (assumption 83, DEDUCED). -/
def execCastBegin (src : Agent) (s : State) : Host.Outcome State Fault Refusal :=
  .next (s.serveCast src 1 (fun r t =>
    let n := r.word 1
    if !(t.cast ∈ [0, 1, 2, 6]) then t.castState
    else if 4096 < n then (t.castLog 0x140A 0, 0x140A)
    else
      let b := t.stagingBank * 4096
      match t.stageFault [b + 8, b + 9] true with
      | 0 =>
        let t := ((t.dropSession).stageErase (b + 8)).stageErase (b + 9)
        let c := { t.cst with length := n }
        ({ t with cst := c }.setCast 1, 0)
      | c => (t.castLog 0x140B (fdata 0 0 c), 0x140B)))

/-- CAST_ABANDON. -/
def execCastAbandon (src : Agent) (s : State) : Host.Outcome State Fault Refusal :=
  .next (s.serveCast src 2 (fun _ t =>
    if t.cast = 1 ∨ t.cast = 2 then (t.dropSession.setCast 0, 0) else t.castState))

/-! ### Verification (R521) -/

/-- Every object that this terminal programs is complete. -/
def State.allComplete (s : State) : Bool :=
  s.objectDone 0 && (!s.cst.ready || (partsOf s.stagedManifest).zipIdx.all (fun e =>
    e.1.target != s.ownTarget s.stagedManifest || s.objectDone (e.2 + 1)))

/-- CAST_VERIFY. -/
def execCastVerify (src : Agent) (s : State) : Host.Outcome State Fault Refusal :=
  .next (s.serveCast src 3 (fun _ t =>
    if t.cast = 1 && t.allComplete then ({ t with cst := { t.cst with verifying := true } }, 0) else t.castState))

/-- CAST_VERIFY_DONE. -/
def execCastVerifyDone (s : State) : Host.Outcome State Fault Refusal :=
  .next (if !s.cst.verifying || s.cast != 1 then s
  else
    let s := { s with cst := { s.cst with verifying := false } }
    match s.setFault false with
    | (0, _) => s.setCast 2
    | (c, d) => s.castLog c (fdata 0 0 d))

/-! ### Arming (R522 to R525) -/

/-- The second that an ARM names: a refusal code, or the second; none where it waits for CAST_AT. -/
def State.armSecond (s : State) (r : Req) : Except Nat (Option Nat) :=
  if bit (r.word 1) 1 then .ok none
  else if bit (r.word 1) 0 then
    match s.calTai (r.word 2) (r.word 3) with
    | none => .error 0x0B01
    | some none => .ok (some (s.free % 2 ^ 48))
    | some (some t) => .ok (some (t % 2 ^ 48).toNat)
  else .ok (some (r.word 2 % 2 ^ 16 * 2 ^ 32 + r.word 3))

/-- An ARM whose second is judged. -/
def State.armWith (s : State) (sec : Option Nat) : State × Nat :=
  if (match sec with | some t => s.late t | none => false) then (s.castLog 0x140C 0, 0x140C)
  else if s.cast = 3 then
    (match sec with
      | some _ => { s with cst := { s.cst with postponed := false } }.setSecond sec
      | none => s, 0)
  else if s.cst.arming.isSome then
    (if sec.isSome then { s with cst := { s.cst with arming := some sec } } else s, 0)
  else match s.stageFault [s.stagingBank * 4096 + 9] false with
  | 0 =>
    let t := s.setUnit s.commitAddr (s.freeBytes 32)
    ({ t with cst := { t.cst with arming := some sec } }.tookFree, 0)
  | c => (s.castLog 0x140B (fdata 0 0 c), 0x140B)

/-- CAST_ARM (R522, R523, R531): a pair manifest is armed only where the partner shows VERIFIED or ARMED with its digest. -/
def execCastArm (src : Agent) (s : State) : Host.Outcome State Fault Refusal :=
  .next (s.serveCast src 4 (fun r t =>
    if t.cast ≠ 2 ∧ t.cast ≠ 3 then t.castState
    else if t.on CST_STATUS_pair && !t.peerShows [2, 3] then (t.castLog 0x140E 0, 0x140E)
    else match t.armSecond r with
      | .error c => (t.castLog c 0, c)
      | .ok sec => t.armWith sec))

/-- CAST_COMMIT_DURABLE (R522): the program of the commit record has been verified. -/
def execCastCommitDurable (s : State) : Host.Outcome State Fault Refusal :=
  .next (match s.cst.arming with
  | none => s
  | some sec =>
    let s := s.setUnit s.commitAddr s.commitRecord
    let s := { s with cst := { s.cst with arming := none } }
    ((s.castCnt 2).setSecond sec).setCast 3)

/-- CAST_DISARM. -/
def execCastDisarm (src : Agent) (s : State) : Host.Outcome State Fault Refusal :=
  .next (s.serveCast src 5 (fun _ t =>
    if t.cast ≠ 3 then t.castState
    else match t.stageFault [t.stagingBank * 4096 + 9] true with
      | 0 => (t.disarm, 0)
      | c => (t.castLog 0x140B (fdata 0 0 c), 0x140B)))

/-- CAST_QUERY. -/
def execCastQuery (src : Agent) (s : State) : Host.Outcome State Fault Refusal :=
  .next (s.serveCast src 6 (fun _ t => (t, 0)))

/-- A CAST_AT names the armed manifest: serial and digest match (R525). -/
def State.castMatches (s : State) (m : List Byte) : Bool :=
  s.cast == 3 && beAt m 12 4 == s.get CST_STAGED_serial && (m.drop 16).take 8 == s.digest8

/-- A CAST_AT is refused with a code, which its CAST_STATUS carries (R525). -/
def State.castRefuse (s : State) (code : Nat) : State := (s.castLog code 0).castReport code

/-- CAST_AT_SCHEDULE (R525): op 1 (assumption 84, DEDUCED). -/
def execCastAtSchedule (msg : List Byte) (s : State) : Host.Outcome State Fault Refusal :=
  .next (if !s.inInbox msg 6 || byteAt msg 4 != 1 then s
  else
    let s := s.tookMsg msg
    let t := beAt msg 5 6
    if !s.castMatches msg then s.castRefuse 0x140D
    else if s.cst.second = some t then s
    else if s.late t then s.castRefuse 0x140C
    else ({ s with cst := { s.cst with postponed := false } }.setSecond (some t)).castReport 0)

/-- CAST_AT_CANCEL (R525): op 0 acts as DISARM. -/
def execCastAtCancel (msg : List Byte) (s : State) : Host.Outcome State Fault Refusal :=
  .next (if !s.inInbox msg 6 || byteAt msg 4 != 0 then s
  else
    let s := s.tookMsg msg
    if !s.castMatches msg then s.castRefuse 0x140D
    else match s.stageFault [s.stagingBank * 4096 + 9] true with
      | 0 => s.disarm
      | _ => s.castRefuse 0x140B)

/-! ### The freeze (R526, R531, R555) -/

/-- An outage, or a dying gasp of cause 1 or 2, is in progress. -/
def State.powerFails (s : State) : Bool :=
  s.on GLB_SERVICE_outage || (match s.pwr.gasp with | some g => g.1 == 1 || g.1 == 2 | none => false)

/-- The edge stamp of the tick, read in view 0, is at or after the scheduled second. -/
def State.freezeDue (s : State) : Bool :=
  match s.cst.second with
  | some t => decide (t ≤ (s.readView 0 s.tick.stamp).1)
  | none => false

/-- The pair permits the freeze: the link is UP and the partner shows ARMED with the same digest and second. -/
def State.pairFreezes (s : State) : Bool :=
  !s.on CST_STATUS_pair || (s.linkUp && s.peerShows [3] && (match s.cst.peer with
    | some p => some p.at_ == s.cst.second
    | none => false))

/-- The freeze is given up: the commit record is erased, ABORTED is logged and the state is VERIFIED again. -/
def State.abortCast (s : State) : State :=
  let s := (s.castCnt 5).castLog 0x1411 0
  (s.setCast 7).disarm

/-- CAST_FREEZE, in phase EDGE of the tick (assumption 84, DEDUCED). -/
def execCastFreeze (s : State) : Host.Outcome State Fault Refusal :=
  .next (if s.cast ≠ 3 ∨ s.cst.freezing ∨ !s.freezeDue then s
  else if s.powerFails then
    ({ s with cst := { s.cst with postponed := true } }.setSecond none).castReport 0
  else if !s.pairFreezes || !s.commitValid s.stagingBank then s.abortCast
  else { s with cst := { s.cst with freezing := true } })

/-- CAST_SELECTOR_DURABLE (R526): both copies hold the trial record; the reset follows. -/
def execCastSelectorDurable (s : State) : Host.Outcome State Fault Refusal :=
  .next (if !s.cst.freezing then s
  else
    let s := s.select s.stagingBank true 0
    let s := { s with cst := { s.cst with freezing := false } }
    ((s.castCnt 3).castLog 0x1412 0).warmReset 7)

/-! ### Trial (R528, R529, R532, R554) -/

/-- The partner of a pair settles too (R532). -/
def State.peerSettles (s : State) : Bool :=
  !s.on CST_STATUS_pair || (match s.cst.peer with
    | some p => p.settled && p.digest == s.digest8
    | none => false)

/-- CAST_SETTLE (R529; assumption 84, DEDUCED). -/
def execCastSettle (s : State) : Host.Outcome State Fault Refusal :=
  .next (if s.cast = 4 ∧ s.settleTicks ≤ s.cst.settle ∧ s.trialGood ∧ s.peerSettles then
    let s := (s.select s.activeBank false 0).raiseFloor
    let s := { s with cst := { s.cst with trial := false } }
    (s.put CST_STATUS_attempts 0).setCast 5
  else s)

/-- A failed start in trial (R528, R554; assumption 84, DEDUCED). -/
def State.failStart (s : State) : State := s.warmReset 8

/-- CAST_FAILED_START: why is 0 where the set has not settled within the count, 1 where a part failed to start, 2 where its
Armature is refused, 3 where ticks without a verdict have used the count up (R554). -/
def execCastFailedStart (why : Fin 4) (s : State) : Host.Outcome State Fault Refusal :=
  .next (if s.cast ≠ 4 then s
  else match why.val with
    | 0 => if s.settleTicks ≤ s.cst.settle ∧ !(s.trialGood && s.peerSettles) then s.failStart else s
    | 1 => if s.cst.started then s else s.failStart
    | 2 => if s.on GLB_SERVICE_arm then s else s.failStart
    | _ => if s.settleTicks ≤ s.cst.deaf then s.failStart else s)

/-- The revert record of R527 and its reset (R532). -/
def State.revertNow (s : State) : State := (s.select (1 - s.activeBank) false 0).failStart

/-- CAST_RECORD (R520, R531, R532, Table 21.10). -/
def execCastRecord (record : List Byte) (s : State) : Host.Outcome State Fault Refusal :=
  .next (match s.readRecord record 4 with
  | (none, s) => s
  | (some (_, b), s) =>
    if byteAt b 0 = 2 then (s.castBlock (byteAt b 1) (beAt b 4 4) (b.drop 8)).1
    else if byteAt b 0 ≠ 1 then s
    else
      let p : CastPeer := ⟨byteAt b 1, (b.drop 4).take 8, beAt b 12 6, bit (byteAt b 18) 0, bit (byteAt b 18) 1⟩
      let s := { s with cst := { s.cst with peer := some p } }
      if !s.on CST_STATUS_pair then s
      else if s.cast = 4 ∧ (p.reverted ∨ (p.state ∈ [4, 5] ∧ p.digest ≠ s.digest8)) then s.revertNow
      else if s.isWing ∧ s.cast = 3 ∧ p.state = 3 ∧ p.at_ ≠ 0 ∧ p.digest = s.digest8 then s.setSecond (some p.at_)
      else s)

end Sys2Proof.Machine
end

