-- ==== Sys2Proof/Machine/Domains.lean ====
section
/-!
DEFINITION. What a block loses when its power domain goes off, how it starts when the domain returns
(spec/19_power_domains_and_modes.md, R484, R485, R500), and block resets (spec/22_faults_and_resets.md, R549, Table 22.6).
-/

namespace Sys2Proof.Machine

open Sys2Proof

/-! ### Registers of a block -/

/-- A word with its RW bits at the reset value (R549). -/
def wordRewind (a : Nat) (w : Word) : Word :=
  let k : Word := match rowOf a with | some r => r.rw | none => 0
  (w &&& ~~~k) ||| (resetWord a &&& k)

/-- The registers at the addresses of p at their reset values, RS bits apart. -/
def State.resetRegs (s : State) (p : Nat → Bool) : State :=
  { s with regs := remapRegs s.regs (fun a w => if p a then wordReset a w else w) }

/-- The RW bits of the registers at the addresses of p at their reset values. -/
def State.rewindRegs (s : State) (p : Nat → Bool) : State :=
  { s with regs := remapRegs s.regs (fun a w => if p a then wordRewind a w else w) }

/-- lo ≤ a < hi. -/
def within (lo hi a : Nat) : Bool := decide (lo ≤ a) && decide (a < hi)

/-! ### A domain off (R500) -/

/-- Ethernet port p with its domain off: its link is down, nothing is pending; its counters stay. -/
def State.ethOff (s : State) (p : Nat) : State :=
  let s := (s.settlePort p).loseTx p
  let base := 0x100000 + 0x4000 * p
  let s := s.resetRegs (within base (base + 0x200))
  s.modEth p (fun x => { EthPort.reset with rx48 := x.rx48, tx48 := x.tx48 })

/-- The TDM ports of a domain stop: neither framing nor counting; their balance counters stay. -/
def State.tdmOff (s : State) (ports : List Nat) : State :=
  s.each ports (fun t u =>
    let u := u.setTdmPort t { u.tdmPort t with seen := 0, secs := [] }
    u.resetRegs (within (0x180104 + 0x80 * t) (0x18010C + 0x80 * t)))

/-- PD26 off: every DOUT off, no schedule armed, no input judged (R396, R484). -/
def State.pointsOff (s : State) : State :=
  let s := s.each (List.range 4) (fun k t => t.doutOff k)
  let s := s.each (List.range 4) (fun k t => t.setTout k ⟨none, none, none, none, false⟩)
  let s := s.resetRegs (fun a => within 0x1C0500 0x1C0700 a || within 0x1C0900 0x1C0C00 a)
  { s with fio := { s.fio with dins := FioState.reset.dins, recovered := none },
           tim := { s.tim with tins := TimState.reset.tins } }

/-- The field I/O die without power: its loops are no longer refreshed (R387). -/
def State.dieOff (s : State) : State :=
  let s := s.loopsStale.resetRegs (within 0x240000 0x240600)
  let x := s.fio
  { s with fio := { FioState.reset with loops := x.loops, dins := x.dins, douts := x.douts, recovered := x.recovered } }

/-- PCI Express without power: no function is enabled and no ring runs. -/
def State.hifOff (s : State) : State :=
  { s.resetRegs (fun a => within 0x2C0000 0x2C0100 a || within 0x2C0200 0x2C0400 a || within 0x2C1000 0x2E0000 a) with
    hif := HifState.reset }

/-- The Pendant link without power: DOWN, which from UP counts LINK_DOWN (R183); no record is logged for it (R500). -/
def State.pendantOff (s : State) : State :=
  let s := s.when s.linkUp (fun t => t.pndCnt 0)
  let s := (s.put PND_STATUS_link 0).putB PND_STATUS_paired false
  { s with pnd := { s.pnd with since := s.clk, missing := 0, markers := 0, marker := false, stopped := false, peer := none,
                               req := none, head := [], queue := [] } }

/-- The supervisor port without power: its FIFOs are empty. -/
def State.supOff (s : State) : State :=
  let m := { s.sup.port with rx := [], tx := [], skip := 0 }
  { s with sup := { s.sup with port := m, selected := false, cutRest := false, marks := [] } }

/-- The cartridge bus without power: no cartridge is accepted; the Patina accruals in management RAM stay. -/
def State.busOff (s : State) : State :=
  let s := (s.endSet.putB GLB_SERVICE_cart false).resetRegs (fun a => within 0x300000 0x340000 a && !within 0x300040 0x300080 a)
  ({ s with crt := { s.crt with cal := none, record := [], fails := 0, stuckLogged := false, raw := none } }).syncUp.syncLaser

/-- A counter of the classifier: CLS_NCNT_k, CLS_POLi_PASS and CLS_POLi_DROP. -/
def clsCounter (a : Nat) : Bool :=
  (within 0x141000 0x145400 a && decide (0x100 ≤ (a - 0x141000) % 0x400)) ||
    (within 0x148000 0x149000 a && decide (8 ≤ a % 16))

/-- The key store without power: every slot is empty, without an alarm (R409; spec/15, If PD55 is switched off). -/
def State.keysOff (s : State) : State :=
  let s := s.each (List.range 256) (fun k t => t.emptySlot k)
  { s with cph := { s.cph with secret := none, seeded := false, erased := true } }

/-- Flash of a bank without power: an operation that was in progress is cut (R511). -/
def State.flashOff (s : State) (bank : Nat) : State :=
  let hit := fun (o : Option FlashOp) => match o with | some x => bankOf x.addr == bank | none => false
  if hit s.flc.active || hit s.flc.susp then { s with flc := { s.flashAfterReset with fetch := s.flc.fetch } }.tookFree else s

/-- What the block of domain d is after the domain has gone off: reset, with nothing logged and no vector raised. -/
def State.domainLost (s : State) (d : Nat) : State :=
  match d with
  | 1 => { s.resetRegs (fun a => within 0x40000 0x60000 a && !within 0x40040 0x40090 a) with dsl := DslState.reset }
  | 2 => { s.putB USL_STATUS_pll_lock false with usl := { s.usl with relock := none } }
  | 3 => s.busOff
  | 4 => { (s.resetRegs (fun a => within 0x20000 0x40000 a && !within 0x20100 0x20130 a)).putB GLB_SERVICE_tick_line false with
      tick := { TickState.reset with edges := s.tick.edges } }
  | 6 => { s with cel := { s.cel with quads := s.cel.quads.set 0 ⟨true, true⟩ } }
  | 7 => { s with cel := { s.cel with quads := s.cel.quads.set 1 ⟨true, true⟩ } }
  | 8 => { s with cel := { s.cel with quads := s.cel.quads.set 2 ⟨true, true⟩ } }
  | 9 => { s with cel := { s.cel with quads := s.cel.quads.set 3 ⟨true, true⟩ } }
  | 14 => { s.resetRegs (fun a => within 0x140000 0x150000 a && !clsCounter a) with cls := ClsState.reset }
  | 17 => s.ethOff 0
  | 18 => s.ethOff 1
  | 19 => s.ethOff 2
  | 20 => s.ethOff 3
  | 21 => s.ethOff 4
  | 22 => s.ethOff 5
  | 23 => s.tdmOff (List.range 8)
  | 24 => s.tdmOff (List.range' 8 4)
  | 26 => s.pointsOff
  | 27 => s.meshStop
  | 28 => let s := s.meshStop
    { s.resetRegs (fun a => within 0x200000 0x240000 a && !within 0x200800 0x200900 a) with msh := MshState.reset }
  | 29 => s.dieOff
  | 30 => s.dieOff
  | 31 => s.hifOff
  | 32 => s.supOff
  | 35 => s.flashOff 0
  | 36 => s.flashOff 1
  | 37 => s.pendantOff
  | 55 => s.keysOff
  | _ => s

/-- Domain d goes off. -/
def State.domainOff (s : State) (d : Nat) : State :=
  if s.domainOn d then ({ s with pwr := { s.pwr with on := clrBit s.pwr.on d } }).domainLost d else s

/-- Domain d goes on; its block starts from its reset state. -/
def State.domainBack (s : State) (d : Nat) : State :=
  if s.domainOn d then s
  else
    let s := { s with pwr := { s.pwr with on := setBit s.pwr.on d } }
    match d with
    | 2 => s.startRelock
    | 6 => { s with cel := { s.cel with quads := s.cel.quads.set 0 ⟨false, false⟩ } }
    | 7 => { s with cel := { s.cel with quads := s.cel.quads.set 1 ⟨false, false⟩ } }
    | 8 => { s with cel := { s.cel with quads := s.cel.quads.set 2 ⟨false, false⟩ } }
    | 9 => { s with cel := { s.cel with quads := s.cel.quads.set 3 ⟨false, false⟩ } }
    | 23 => s.each ((List.range 8).filter s.framed) (fun t u => u.startPort t)
    | 24 => s.each ((List.range' 8 4).filter s.framed) (fun t u => u.startPort t)
    | 55 => s.recoverKeys
    | _ => s

/-! ### Block reset (Table 22.6) -/

/-- The domains of a block of FLT_BLK_RST. -/
def blockDomains (b : Nat) : List Nat :=
  if b < 6 then [17 + b]
  else match b with
  | 6 => [23, 24]
  | 7 => [27, 28]
  | 8 => [29, 30]
  | 9 => [3]
  | 10 => [32]
  | _ => []

/-- Addresses of a block. -/
def blockAddrs (b a : Nat) : Bool :=
  if b < 6 then within (0x100000 + 0x4000 * b) (0x104000 + 0x4000 * b) a
  else match b with
  | 6 => within 0x180000 0x1C0000 a
  | 7 => within 0x200000 0x240000 a
  | 8 => within 0x240000 0x280000 a
  | 9 => within 0x300000 0x340000 a
  | 10 => within 0x2E0000 0x300000 a
  | _ => false

/-- TDM: framers re-acquire, slip buffers restart, no circuit or member is valid. -/
def State.tdmBlockReset (s : State) : State :=
  let s := s.each (List.range 48) (fun m t =>
    ((t.dropMembers m).putB (TDM_MEM_STATUS_up m) false).setMem m ⟨[], 1, none, none, none, false⟩)
  let s := s.each (List.range 12) (fun c t =>
    ((t.unstart c).put (TDM_CIR_STATUS_up c) 0).putB (TDM_CIR_STATUS_down c) false)
  { s with tdm := { s.tdm with writes := [] } }

/-- The effects of Table 22.6 beyond the registers. -/
def State.blockEffect (s : State) (b : Nat) : State :=
  if b < 6 then ((s.abortTx b).modEth b (fun x => { x with iface := none, pend := [] })).syncLink b
  else match b with
  | 6 => s.tdmBlockReset
  | 7 => s.meshStop
  | 8 =>
    let s := (s.putB FIO_STATUS_link false).loopsStale
    { s with fio := { s.fio with cur := none, shadow := [], commit := [] } }
  | 9 =>
    let s := (s.endSet.putB GLB_SERVICE_cart false).putB CRT_STATUS_accepted false
    ({ s with crt := { s.crt with cal := none, record := [], fails := 0, raw := none } }).syncUp.syncLaser
  | 10 =>
    let m := { s.sup.port with rx := [], tx := [], skip := 0 }
    { s with sup := { s.sup with port := m, marks := s.sup.marks.map (fun _ => 0) } }
  | _ => s

/-- Block b is reset (R549). -/
def State.blockReset (s : State) (b : Nat) : State :=
  let s := (s.blockEffect b).rewindRegs (blockAddrs b)
  if b = 6 then s.each ((List.range 12).filter s.framed) (fun t u => u.startPort t) else s

end Sys2Proof.Machine
end

