-- ==== Sys2Proof/Machine/Pwr.lean ====
section
/-!
DEFINITION. Power modes: requests, consent, entries, exits, the dying gasp, outages and sleep allowances
(spec/19_power_domains_and_modes.md).
-/

namespace Sys2Proof.Machine

open Sys2Proof

/-! ### Groups of step 3 (Table 19.3) -/

/-- The domain groups in the order of an entry (assumption 88, DEDUCED). -/
def offGroups : List (List Nat) :=
  [List.range' 38 16, [17, 18, 19, 20, 21, 22, 23, 24, 26, 27, 28, 29, 30], [31, 37], [10, 11, 12, 13, 14],
   [5, 6, 7, 8, 9], [2], [15, 16, 55], [1, 3, 4], [34, 35, 36, 54, 25, 32, 33]]

/-- Domain d is a packet memory quadrant. -/
def isQuadrant (d : Nat) : Bool := decide (6 ≤ d) && decide (d ≤ 9)

/-- The domains of group i that are on and are to go off in mode m. -/
def State.dueOff (s : State) (m i : Nat) : List Nat :=
  (offGroups.getD i []).filter (fun d => s.domainOn d && !bit (s.wanted m) d)

/-- The first group from k on with something to switch. -/
def State.nextOff (s : State) (m k : Nat) : Option Nat :=
  (List.range 9).find? (fun i => decide (k ≤ i) && !(s.dueOff m i).isEmpty)

/-- Some domain is on that mode m wants off. -/
def State.shrinks (s : State) (m : Nat) : Bool := (s.nextOff m 0).isSome

/-- Some domain is off that mode m wants on. -/
def State.grows (s : State) (m : Nat) : Bool := (onesOf 56 (s.wanted m)).any (fun d => !s.domainOn d)

/-- Group i goes off for an entry to mode m: a quadrant begins to drain where the mode keeps packet memory (R479). -/
def State.groupOff (s : State) (m i : Nat) : State :=
  s.each (s.dueOff m i) (fun d t =>
    if isQuadrant d && decide (m ≤ 2) then
      { t with cel := { t.cel with quads := t.cel.quads.modify (d - 6) (fun (q : Quadrant) => { q with draining := true }) } }
    else t.domainOff d)

/-! ### Requests and consent (R480 to R482) -/

/-- MODE_BAD. -/
def State.modeRefused (s : State) : State := s.pwrLog 0x1204 0

/-- An entry to mode m is requested; consent is asked for in phase PWR of the next tick (R481). -/
def State.askEntry (s : State) (m : Nat) : State :=
  let e : PwrEntry := ⟨m, false, .consent, s.tick.edges, 0, 0, s.clk, 0, 0⟩
  { s with pwr := { s.pwr with entry := some e }, pnd := { s.pnd with req := none } }

/-- The present mode under its present mask: an entry where it turns a domain off, otherwise domains that it turns on return. -/
def State.refreshMode (s : State) : State :=
  if s.shrinks s.mode then s.askEntry s.mode
  else if s.grows s.mode then s.startRise s.mode false else s

/-- POWER_MODE_REQUEST: PWR_CMD with go = 1 (assumption 87, DEDUCED). -/
def execPowerModeRequest (target : Fin 8) (s : State) : Host.Outcome State Fault Refusal :=
  let m := target.val
  .next (if s.pwr.entry.isSome || s.pwr.rise.isSome || s.pwr.exit_.isSome then s
  else
    let s := s.put PWR_LAST_target m
    if 5 ≤ m then s.modeRefused
    else if m < s.mode then s.leaveFor (if s.mode = 3 ∨ s.mode = 4 then s.wakeMode else m)
    else if m = s.mode then s.refreshMode
    else if m = 2 && !(s.get ACT_STATUS_state == 4 && s.on PWR_STATUS_allow) then s.modeRefused
    else s.askEntry m)

/-- The PND block is to ask its partner (R206; assumption 88, DEDUCED). -/
def State.asksPartner (s : State) : Bool := s.on PND_STATUS_bound && s.get PND_STATUS_link != 0

/-- The consent of the partner is asked for. -/
def State.askPartner (s : State) (m : Nat) : State :=
  let n := s.pnd.reqNo % 65536
  let s := { s with pnd := { s.pnd with reqNo := s.pnd.reqNo + 1, req := some ⟨n, m, s.tick.edges, none⟩ } }
  s.sendRecord 2 n (beBytes 1 m ++ zeros 3)

/-- What phase PWR does (R481, R483): the blocks are asked in the tick after a request; from the decision on every local consent
is taken again. -/
def State.pwrPoll (s : State) : State :=
  match s.pwr.entry with
  | none => s
  | some e =>
    match e.stage with
    | .consent => if s.pnd.req.isNone && e.asked < s.tick.edges && s.asksPartner then s.askPartner e.target else s
    | .window => s
    | _ => match s.localRefusers with
      | [] => s
      | r :: _ => s.pwrAbort r.2 0

/-- PHASE_PWR. -/
def execPhasePwr (cycles : Nat) (s : State) : Host.Outcome State Fault Refusal := .next (s.phaseUsed 9 cycles).pwrPoll

/-- The refusers in the order of Table 19.2, and the partner's refuser byte. -/
def State.refusers (s : State) : List (Nat × Nat) × Nat :=
  let l := s.localRefusers
  match s.pnd.req with
  | some ⟨_, _, _, some (false, b)⟩ =>
    (l.filter (fun r => decide (r.1 < 3)) ++ [(3, 0x06)] ++ l.filter (fun r => decide (3 < r.1)), b)
  | _ => (l, 0)

/-- A request is refused (R482, R501). -/
def State.refuseEntry (s : State) (m : Nat) (l : List (Nat × Nat)) (partner : Nat) : State :=
  let first := (l.map (fun r => r.2)).headD 0
  let data := fdata m (if first = 0x06 then partner else 0) first
  let s := s.each l (fun r t => t.pwrCnt r.1)
  let map := domainSet (l.map (fun r => r.1))
  let s := (s.put PWR_REFUSE_MAP_blocks map).put PWR_REFUSE_MAP_niches (map / 32)
  let s := ((s.put PWR_LAST_refuser first).put PWR_LAST_target m).put PWR_LAST_outcome 2
  let s := { s.put PWR_LAST_wake 0 with pwr := { s.pwr with entry := none } }
  let s := s.each (l.filter (fun r => decide (5 ≤ r.1))) (fun r t => t.logNiche (r.1 - 5) 0x1201 data)
  s.pwrLog 0x1201 data

/-- The niches that step 1 notifies: the owners of the domains due to go off, or every existing niche
(assumption 88, DEDUCED). -/
def State.noticeFor (s : State) (m : Nat) : Nat :=
  if 3 ≤ m then domainSet ((List.range 16).filter s.exists_)
  else domainSet (((List.range 9).flatMap (s.dueOff m)).map s.domainOwner |>.filter (fun o => decide (o < 15) && s.exists_ o))

/-- The answer of the partner is still awaited. -/
def State.awaitsPartner (s : State) : Bool :=
  match s.pnd.req with
  | some q => q.answer.isNone
  | none => s.asksPartner

/-- Nobody has refused entry e: the notice begins (Table 19.3, step 1). -/
def State.beginEntry (s : State) (e : PwrEntry) : State :=
  let who := s.noticeFor e.target
  let e := { e with stage := .notice, decided := s.tick.edges, notified := who }
  let s := { s with pwr := { s.pwr with entry := some e } }
  let s := (s.putB PWR_STATUS_entering true).put PWR_STATUS_target e.target
  (s.pwrEvents who 1).raisePf 6

/-- POWER_DECISION, in phase PWR of the first tick in which every answer is available. -/
def execPowerDecision (s : State) : Host.Outcome State Fault Refusal :=
  .next (match s.pwr.entry with
  | none => s
  | some e =>
    if e.stage != .consent || decide (s.tick.edges ≤ e.asked) || s.awaitsPartner then s
    else if s.refusers.1.isEmpty then s.beginEntry e
    else s.refuseEntry e.target s.refusers.1 s.refusers.2)

/-! ### The entry sequence (Table 19.3) -/

/-- The dying gasp ends (R148, R496): dg is 0 from the next burst (assumption 88, DEDUCED). -/
def State.endGasp (s : State) : State :=
  { s.putB USL_STATUS_dg false with pwr := { s.pwr with gasp := none }, usl := { s.usl with gasp := none } }

/-- The freeze that an outage or a gasp has put off is given a second, the first at least 10 s away (R555). -/
def State.resumeCast (s : State) : State :=
  if s.cst.postponed && !s.powerFails && s.cast == 3 then
    let r := s.readView 0 (s.stampAt 0)
    let t := if r.2.1 = 0 ∧ r.2.2 = 0 then r.1 + 10 else r.1 + 11
    ({ s with cst := { s.cst with postponed := false } }.setSecond (some (t % 2 ^ 48))).castReport 0
  else s

/-- An entry ends: the mode is taken (assumption 88, DEDUCED). -/
def State.finishEntry (s : State) (e : PwrEntry) : State :=
  let s := if e.target = s.mode then s else (s.put PWR_STATUS_prev s.mode).put PWR_STATUS_mode e.target
  let alarm := if 3 ≤ e.target ∧ s.get PWR_ALARM_s ≠ 0 then some (s.clk + s.get PWR_ALARM_s * sec) else none
  let from_ := if e.target = 2 then s.get PWR_STATUS_prev else s.pwr.watchFrom
  let at_ := if e.target = 2 ∧ s.pwr.watchFc = none then some s.tick.fc else s.pwr.watchFc
  let s := { s with pwr := { s.pwr with entry := none, alarm := alarm, watchFrom := from_, watchFc := at_ } }
  let s := (s.putB PWR_STATUS_entering false).put PWR_STATUS_target 0
  let s := (((s.put PWR_LAST_outcome 1).put PWR_LAST_target e.target).put PWR_LAST_refuser 0).put PWR_LAST_wake 0
  (s.pwrCnt 21).endGasp

/-- The plinth regulator's mode (R491). -/
def State.setLp (s : State) (b : Bool) : State := (s.putB PWR_STATUS_lp b).putB PWR_PLN_STATUS_lp b

/-- Step 3 is over once no group has anything to switch: DORMANT and OFF go on to the wake loss window, the others end. -/
def State.endGroups (s : State) (e : PwrEntry) : State :=
  if s.shrinks e.target then s
  else if 3 ≤ e.target then
    let e := { e with stage := .window, at_ := s.clk }
    { s.setLp true with pwr := { s.pwr with entry := some e } }
  else s.finishEntry e

/-- ENTRY_NICHE_RESETS (step 2): notice ticks after the decision. The notice passes for every target; DORMANT and OFF then
reset every niche and hold it, and activation goes to Dark. -/
def execEntryNicheResets (s : State) : Host.Outcome State Fault Refusal :=
  .next (match s.pwr.entry with
  | none => s
  | some e =>
    if e.stage != .notice || decide (s.tick.edges < e.decided + s.get PWR_CTRL_notice) then s
    else if e.target < 3 then { s with pwr := { s.pwr with entry := some { e with stage := .groups 0, last := s.tick.edges } } }
    else
      let l := (List.range 16).filter s.exists_
      let e := { e with stage := .resets, held := domainSet l, last := s.tick.edges }
      let s := { s with pwr := { s.pwr with entry := some e } }
      (s.each l (fun n t => t.requestHeld n 8 .sleep)).setAct 0)

/-- The group that an entry switches next; none while it may not go on. -/
def State.groupNext (s : State) (e : PwrEntry) : Option Nat :=
  let next := s.domainOn 4 && decide (s.tick.edges ≤ e.last)
  match e.stage with
  | .resets => if next || s.nres.any (fun r => r.active) then none else some 0
  | .groups k => if next then none else some k
  | _ => none

/-- DOMAIN_GROUP_OFF (step 3): at a tick edge the next group with something to switch goes off. -/
def execDomainGroupOff (s : State) : Host.Outcome State Fault Refusal :=
  .next (match s.pwr.entry with
  | none => s
  | some e => match s.groupNext e with
    | none => s
    | some k => match s.nextOff e.target k with
      | none => s.endGroups e
      | some i =>
        let e := { e with stage := .groups (i + 1), last := s.tick.edges }
        ({ s.groupOff e.target i with pwr := { (s.groupOff e.target i).pwr with entry := some e } }).endGroups e)

/-- WAKE_LOSS_WINDOW (R490): 3 plinth cycles after its start the entry has ended, and the level sources are sampled; rose says
that MAINS_OK rose within the window. -/
def execWakeLossWindow (rose : Bool) (s : State) : Host.Outcome State Fault Refusal :=
  .next (match s.pwr.entry with
  | none => s
  | some e =>
    if e.stage != .window || !s.since e.at_ 91552 then s
    else
      let s := s.finishEntry e
      if s.pwr.wakeLow && s.marked PWR_WAKE_EN_src 0 then s.wakeEvent 0
      else if rose && s.pwr.mains then s.wakeEvent 1 else s)

/-- A forced entry to mode m (R496, R497): no consent, no notice, no niche reset; every group at once
(assumption 87, DEDUCED). -/
def State.forceEntry (s : State) (m : Nat) : State :=
  let s := s.pwrAbort 0 0
  let s := { s with pwr := { s.pwr with rise := none, exit_ := none } }
  let s := (s.pwrCnt 23).pwrLog 0x120A 0
  let s := s.each (List.range 9) (fun i t => t.groupOff m i)
  let e : PwrEntry := ⟨m, true, .groups 9, s.tick.edges, s.tick.edges, s.tick.edges, s.clk, 0, 0⟩
  if 3 ≤ m then { s.setLp true with pwr := { s.pwr with entry := some { e with stage := .window } } } else s.finishEntry e

/-! ### Exits (R489) -/

/-- POWER_EXIT: the regulator goes to normal mode and the domains follow; OFF ends in a device warm reset. -/
def execPowerExit (s : State) : Host.Outcome State Fault Refusal :=
  .next (match s.pwr.exit_ with
  | none => s
  | some m =>
    if s.pwr.entry.isSome then s
    else if s.mode = 4 then
      let src := s.get PWR_WAKE_CAUSE_src
      ((s.warmReset 11).put PWR_WAKE_CAUSE_src src).pwrCnt 25
    else
      -- the watchdog starts again with the core's clock (assumption 60, DEDUCED)
      let s := if s.mode = 3 then { s with flt := { s.flt with wdogAt := s.clk } } else s
      ((s.setLp false).pwrCnt 25).startRise m (s.mode == 3))

/-- The resend timers of held messages, which stood still in WATCH, go on (R487). -/
def State.resumeResends (s : State) : State :=
  match s.pwr.watchFc with
  | none => s
  | some f =>
    let d := s.tick.fc - f
    { s with pwr := { s.pwr with watchFc := none },
             act := { s.act with held := s.act.held.map (fun (x : HeldMsg) => if x.dormant then x else { x with last := x.last + d }) } }

/-- The domains have returned: the mode is taken, and an exit from DORMANT releases the niches. -/
def State.endRise (s : State) (r : PwrRise) : State :=
  let s := if r.mode < 2 then s.resumeResends else s
  let s := if r.mode = s.mode then s else (s.put PWR_STATUS_prev s.mode).put PWR_STATUS_mode r.mode
  let s := { s with pwr := { s.pwr with rise := none, alarm := none } }
  if r.release then s.each (List.range 16) (fun n t => t.unhold n .sleep) else s

/-- The groups in the order of Waking, each with the domains that are to return. -/
def State.dueOn (s : State) (r : PwrRise) (i : Nat) : List Nat :=
  (offGroups.getD (8 - i) []).filter (fun d => bit r.want d && !s.domainOn d)

/-- The next group of a rise goes on, or the rise ends. -/
def State.riseStep (s : State) (r : PwrRise) : State :=
    match (List.range 9).find? (fun i => decide (r.next ≤ i) && !(s.dueOn r i).isEmpty) with
    | none => s.endRise r
    | some i =>
      let t := s.each (s.dueOn r i) (fun d t => t.domainBack d)
      let r := { r with next := i + 1, at_ := s.clk + 10 * us }
      let t := { t with pwr := { t.pwr with rise := some r } }
      if (List.range 9).any (fun j => !(t.dueOn r j).isEmpty) then t else t.endRise r

/-- DOMAIN_GROUP_ON: 20 µs after the exit began and then every 10 µs the next group goes on. -/
def execDomainGroupOn (s : State) : Host.Outcome State Fault Refusal :=
  .next (match s.pwr.rise with
  | none => s
  | some r => if s.clk < r.at_ then s else s.riseStep r)

/-! ### Wake sources (Table 19.5) -/

/-- WAKE_N_ASSERT: a change of WAKE_N. -/
def execWakeNAssert (low : Bool) (s : State) : Host.Outcome State Fault Refusal :=
  let was := s.pwr.wakeLow
  let s := { s with pwr := { s.pwr with wakeLow := low } }
  .next (if low && !was then s.wakeEvent 0 else s)

/-- PLINTH_ALARM (R490): the alarm compares by "at or after". -/
def execPlinthAlarm (s : State) : Host.Outcome State Fault Refusal :=
  .next (match s.pwr.alarm with
  | some t => if t ≤ s.clk then ({ s with pwr := { s.pwr with alarm := none } }).wakeEvent 2 else s
  | none => s)

/-- MAINS_OK_RISE: a wake source; during an outage the restore hold starts (R499). -/
def execMainsOkRise (s : State) : Host.Outcome State Fault Refusal :=
  .next (if s.pwr.mains then s
  else
    let s := { s with pwr := { s.pwr with mains := true, mainsAt := s.clk } }
    -- a gasp of cause 1 whose condition has gone before the power block acts ends (R148)
    let s := match s.pwr.gasp with
      | some (1, _) => s.endGasp.resumeCast
      | _ => s
    s.wakeEvent 1)

/-- MAINS_OK_FALL (R499). -/
def execMainsOkFall (s : State) : Host.Outcome State Fault Refusal :=
  .next (if s.pwr.mains then { s with pwr := { s.pwr with mains := false, mainsAt := s.clk } } else s)

/-! ### Dying gasp (R495, R496, R146 to R150) -/

/-- The body of DYING_GASP for a cause. -/
def State.gaspBody (s : State) (cause : Nat) : List Byte :=
  let r := s.readView 0 (s.stampAt 0)
  beBytes 1 cause ++ zeros 3 ++ beBytes 6 r.1 ++ beBytes 4 r.2.1

/-- A dying gasp is detected: dg is set, the message is ready for the next three bursts where the state sends one, a Patina
record is written, an entry in progress aborts and WATCH ends. -/
def State.detectGasp (s : State) (cause : Nat) : State :=
  let st := s.get ACT_STATUS_state
  let sends := st == 3 || st == 4 || st == 5 || (st == 2 && s.on ACT_STATUS_tn_valid)
  let s := s.pwrAbort 0 0
  let s := { s.putB USL_STATUS_dg true with pwr := { s.pwr with gasp := some (cause, s.clk) } }
  let s : State := if sends then
      let m := lineMsg s.ownTn 0x84 s.act.seq (s.gaspBody cause)
      { s with usl := { s.usl with gasp := some (m, 3) }, act := { s.act with seq := (s.act.seq + 1) % 256 } }
    else s
  let s := if s.on GLB_SERVICE_cart then s.writePatina false else s
  let s := (s.logDev 0x0406 0xF 0).pwrLog 0x1208 0
  s.leaveWatch

/-- PLINTH_SUPPLY_LOW: VDD_PLINTH below 2.95 V for 10 µs. -/
def execPlinthSupplyLow (s : State) : Host.Outcome State Fault Refusal :=
  .next (if s.pwr.supplyLow then s else ({ s with pwr := { s.pwr with supplyLow := true } }).detectGasp 2)

/-- PLINTH_SUPPLY_RECOVERY (R148). -/
def execPlinthSupplyRecovery (s : State) : Host.Outcome State Fault Refusal :=
  let s := { s with pwr := { s.pwr with supplyLow := false } }
  .next (match s.pwr.gasp with
  | some (2, _) => s.endGasp.resumeCast
  | _ => s)

/-- PWR_GASP_CMD: cause 3 (assumption 87, DEDUCED). -/
def execPwrGaspCmd (s : State) : Host.Outcome State Fault Refusal := .next (s.detectGasp 3)

/-- PWR_GASP_CLR. -/
def execPwrGaspClr (s : State) : Host.Outcome State Fault Refusal :=
  .next (if s.pwr.gasp.isSome then s.endGasp.resumeCast else s)

/-- GASP_ACT (R496): the condition of cause 1 or 2 still holds PWR_GASP.act ms after detection. -/
def execGaspAct (s : State) : Host.Outcome State Fault Refusal :=
  .next (match s.pwr.gasp with
  | some (c, t) =>
    if s.since t (s.get PWR_GASP_act * ms) && ((c == 1 && !s.pwr.mains) || (c == 2 && s.pwr.supplyLow)) then s.forceEntry 4
    else s
  | none => s)

/-! ### Outages (R497 to R499) -/

/-- The existing niches. -/
def State.nicheMask (s : State) : Nat := domainSet ((List.range 16).filter s.exists_)

/-- An outage begins (R497). -/
def State.beginOutage (s : State) : State :=
  let before := s.mode
  let s := s.pwrAbort 0 0
  let s := (s.putB GLB_SERVICE_outage true).putB PWR_STATUS_outage true
  let s := { s with pwr := { s.pwr with
    outage := some s.clk, before := before, step := s.clk + s.get PWR_OUTAGE_CFG_delay * sec, warned := 0 } }
  let s := (s.pwrLog 0x1206 0).pwrEvents s.nicheMask 6
  if before = 0 then s.forceEntry 1 else s

/-- MAINS_LOSS_FILTERED (R495, R497): MAINS_OK has been low for filt ms. -/
def execMainsLossFiltered (s : State) : Host.Outcome State Fault Refusal :=
  .next (if s.pwr.mains || !s.since s.pwr.mainsAt (s.get PWR_OUTAGE_CFG_filt * ms) then s
  else if s.on PWR_OUTAGE_CFG_battery then (if s.pwr.outage.isSome then s else s.beginOutage)
  else match s.pwr.gasp with
    | some (1, _) => s
    | _ => s.detectGasp 1)

/-- Shed rank of niche n, 0 for N0 and where it has none. -/
def State.shedRank (s : State) (n : Nat) : Nat :=
  if n = 0 ∨ !s.exists_ n then 0 else match s.device with | some x => x.ranks.getD n 0 | none => 0

/-- The niches that the next step sheds: those of the highest rank not yet shed. -/
def State.nextShed (s : State) : List Nat :=
  let l := (List.range 16).filter (fun n => !s.marked PWR_SHED_shed n && decide (0 < s.shedRank n))
  let top := (l.map s.shedRank).foldl max 0
  l.filter (fun n => s.shedRank n == top)

/-- Shedding runs: an outage, above DORMANT. -/
def State.shedding (s : State) : Bool := s.pwr.outage.isSome && decide (s.mode < 3)

/-- SHED_WARNING: event 3 one second before a niche's turn. -/
def execShedWarning (s : State) : Host.Outcome State Fault Refusal :=
  let l := s.nextShed.filter (fun n => !bit s.pwr.warned n)
  .next (if s.shedding && decide (s.pwr.step ≤ s.clk + sec) && !l.isEmpty then
    let s := s.pwrEvents (domainSet l) 3
    { s with pwr := { s.pwr with warned := s.pwr.warned ||| domainSet l } }
  else s)

/-- The niches of a step pass through niche reset and are held there (R498). -/
def State.shed (s : State) (l : List Nat) : State :=
    let map := domainSet l
    let s := s.each l (fun n t => t.requestHeld n 7 .shed)
    let s := (s.pwrEvents map 4).put PWR_SHED_shed (s.get PWR_SHED_shed ||| map)
    let s := { s with pwr := { s.pwr with
      shedding := s.pwr.shedding ||| map, step := s.pwr.step + s.get PWR_OUTAGE_CFG_step * sec } }
    (s.pwrCnt 24).pwrLog 0x1207 (fdata 0 0 map)

/-- SHED_STEP (R498). -/
def execShedStep (s : State) : Host.Outcome State Fault Refusal :=
  .next (if s.shedding && decide (s.pwr.step ≤ s.clk) && !s.nextShed.isEmpty then s.shed s.nextShed else s)

/-- The outage is over: no niche is shed, and the mode before it returns (assumption 88, DEDUCED). -/
def State.endOutage (s : State) : State :=
  let shed := s.get PWR_SHED_shed
  let s := s.each (onesOf 16 shed) (fun n t => t.unhold n .shed)
  let s := (s.put PWR_SHED_shed 0).pwrAbort 0 0
  let s := { s with pwr := { s.pwr with outage := none, warned := 0, shedding := 0 } }
  let s := ((s.putB GLB_SERVICE_outage false).putB PWR_STATUS_outage false).pwrLog 0x1206 0
  let s := (s.pwrEvents shed 5).pwrEvents (s.nicheMask &&& (0xFFFF ^^^ shed)) 7
  s.when (decide (s.mode < 3)) (fun t => t.startRise (min t.pwr.before t.mode) false)

/-- OUTAGE_END (R499): MAINS_OK high for filt ms and then restore s. -/
def execOutageEnd (s : State) : Host.Outcome State Fault Refusal :=
  .next (if s.pwr.outage.isNone || !s.pwr.mains ||
      !s.since s.pwr.mainsAt (s.get PWR_OUTAGE_CFG_filt * ms + s.get PWR_OUTAGE_CFG_restore * sec) then s
  else s.endOutage.resumeCast)

/-! ### Sleep allowances (R486 to R488) -/

/-- A standing grant is installed or pending. -/
def State.anyStanding (s : State) : Bool :=
  (List.range 8).any (fun k => s.on (USL_STAND_A_active k)) || s.usl.changes.any (fun c => c.isSome)

/-- SLEEP_ALLOW with an op other than 0. -/
def execSleepAllow (msg : List Byte) (s : State) : Host.Outcome State Fault Refusal :=
  let n := beAt msg 5 2
  .next (if !s.inInbox msg 8 || byteAt msg 4 == 0 then s
  else
    let s := s.tookMsg msg
    if byteAt msg 4 ≠ 1 ∨ n < 10 ∨ 10000 < n ∨ s.get ACT_STATUS_state ≠ 4 ∨ s.anyStanding then
      (s.ackMsg msg 1 0x1205).pwrLog 0x1205 0
    else
      let s := { s.putB PWR_STATUS_allow true with pwr := { s.pwr with allow := some (s.clk + n * ms) } }
      s.ackMsg msg 0 0)

/-- The allowance ends: an entry to WATCH in progress aborts, and WATCH is left. -/
def State.endAllow (s : State) : State :=
  let s := { s.putB PWR_STATUS_allow false with pwr := { s.pwr with allow := none } }
  let s := match s.pwr.entry with
    | some e => if e.target = 2 then s.pwrAbort 0 0 else s
    | none => s
  s.leaveWatch

/-- SLEEP_WITHDRAW: op 0. -/
def execSleepWithdraw (msg : List Byte) (s : State) : Host.Outcome State Fault Refusal :=
  .next (if s.inInbox msg 8 && byteAt msg 4 == 0 then ((s.tookMsg msg).endAllow).ackMsg msg 0 0 else s)

/-- SLEEP_ALLOWANCE_END. -/
def execSleepAllowanceEnd (s : State) : Host.Outcome State Fault Refusal :=
  .next (match s.pwr.allow with
  | some t => if t ≤ s.clk then s.endAllow else s
  | none => s)

/-- WATCH_EXIT (R488): 1.0 ms before the allowance ends, WATCH is left. Its other ends are taken where they occur: a directed
line message (State.hear), an SDU admitted to an allocation-class QID (State.enqueue), a withdrawal, a wake source and a dying
gasp. -/
def execWatchExit (s : State) : Host.Outcome State Fault Refusal :=
  .next (match s.pwr.allow with
  | some t => if t ≤ s.clk + ms then s.leaveWatch else s
  | none => s.leaveWatch)

/-! ### Masks and quadrants (R478, R479) -/

/-- Quadrants that a mask leaves on. -/
def maskQuads (m : Nat) : Nat := ((List.range' 6 4).filter (fun d => bit m d)).length

/-- A mask is refused for mode m (R478). -/
def State.maskBad (s : State) (m mask : Nat) : Bool :=
  (s.fuse.is7401 && (List.range' 27 4).any (fun d => bit mask d)) || (bit mask 28 && !bit mask 27) ||
    (bit mask 29 != bit mask 30) ||
    (decide (m ≤ 2) && decide (maskQuads mask * 98304 < ((List.range 16).map s.cellMin).sum + 16384))

/-- PWR_MASK_WRITE: hi selects PWR_MASKm_HI (assumption 87, DEDUCED). -/
def execPwrMaskWrite (m : Fin 4) (hi : Bool) (data : Word) (s : State) : Host.Outcome State Fault Refusal :=
  let m := m.val
  let old := s.pwrMask m
  let raw := if hi then data.toNat % 2 ^ 24 * 2 ^ 32 + old % 2 ^ 32 else old / 2 ^ 32 * 2 ^ 32 + data.toNat
  let new := (raw &&& s.optionalSet m)
  .next (if s.maskBad m new then s.pwrLog 0x1203 0
  else
    let s := (s.put (PWR_MASK_LO_mask m) new).put (PWR_MASK_HI_mask m) (new / 2 ^ 32)
    if m = s.mode ∧ s.pwr.entry = none ∧ s.pwr.rise = none ∧ s.pwr.exit_ = none then s.refreshMode else s)

/-- QUADRANT_PARK (R479): a draining quadrant whose cells are all free is parked. -/
def execQuadrantPark (q : Fin 4) (s : State) : Host.Outcome State Fault Refusal :=
  let x := s.quad q.val
  .next (if x.draining && !x.parked && (List.range' (98304 * q.val) 98304).all s.isFree then
    { s with cel := { s.cel with quads := s.cel.quads.set q.val ⟨true, true⟩ } }
  else s)

/-! ### What a tick edge does to the domains -/

/-- The mode whose domains the terminal is heading for. -/
def State.aimMode (s : State) : Nat :=
  match s.pwr.entry with
  | some e => if e.stage = .consent ∨ e.stage = .notice then s.mode else e.target
  | none => s.mode

/-- Quadrant q at a tick edge: parked and unwanted it goes off; wanted again it ends draining or parking (R479). -/
def State.quadEdge (s : State) (q : Nat) : State :=
  let x := s.quad q
  let want := bit (s.wanted s.aimMode) (6 + q)
  if !want && x.parked && s.domainOn (6 + q) then s.domainOff (6 + q)
  else if want && (x.draining || x.parked) && s.pwr.rise.isNone then
    let s := s.domainBack (6 + q)
    { s with cel := { s.cel with quads := s.cel.quads.set q ⟨false, false⟩ } }
  else s

/-- A niche that has been shed and whose reset has completed loses the domains that ARM_PD_OWNERn gives it (R498). -/
def State.shedEdge (s : State) (n : Nat) : State :=
  if bit s.pwr.shedding n && !(s.nreset n).active then
    let l := (List.range 56).filter (fun d => d != 0 && (d == 38 + n || (s.domainOwner d == n && decide (n < 15))))
    let s := s.each l (fun d t => t.domainOff d)
    { s with pwr := { s.pwr with shedding := clrBit s.pwr.shedding n } }
  else s

/-- The domains at a tick edge: the niche logic of existing niches comes on (R210), quadrants and shed niches follow. -/
def State.pwrEdge (s : State) : State :=
  let s := s.each (List.range 16) (fun n t => t.shedEdge n)
  let s := s.each (List.range 4) (fun q t => t.quadEdge q)
  let s := if s.pwr.entry.isNone && s.pwr.rise.isNone && decide (s.mode < 3) then
      s.each (List.range' 38 16) (fun d t => if bit (t.wanted t.mode) d then t.domainBack d else t)
    else s
  match s.pwr.entry with
  | some e => match e.stage with
    | .groups _ => if (s.nextOff e.target 0).isNone then s.endGroups e else s
    | _ => s
  | none => s

end Sys2Proof.Machine
end

