-- ==== Sys2Proof/Machine/Boot.lean ====
section
/-!
DEFINITION. The boot ROM and bring-up: the choice of a bank, the trial rules, the start of the running set
(spec/20_flash_arrays.md, R514, R515; spec/21_cast.md, R527, Table 21.9; spec/22_faults_and_resets.md, R548, R550).
-/

namespace Sys2Proof.Machine

open Sys2Proof

/-! ### The bank (R514, R527) -/

/-- What the trial rules decide: the bank, and whether it is in trial, early or a revert. -/
structure BootPick where
  bank : Nat
  trial : Bool
  early : Bool
  reverted : Bool
  deriving DecidableEq, Repr

/-- The commit record of a bank is valid and was written under the newest selector record. -/
def State.commitCurrent (s : State) (bank : Nat) : Bool :=
  s.commitValid bank && beAt (s.unit (bankAddr bank 0x9000)) 4 4 == (match s.selector with | some r => r.seq | none => 0)

/-- The pseudocode of R527: the pick, and the selector record that it appends first. -/
def State.bootRules (s : State) : State × BootPick :=
  let b := s.selectorBank
  let attempts := match s.selector with | some r => r.attempts | none => 0
  if s.trialBoot && decide (attempts < 3) then (s.select b true (attempts + 1), ⟨b, true, false, false⟩)
  else if s.trialBoot then (s.select (1 - b) false 0, ⟨1 - b, false, false, true⟩)
  else if s.commitCurrent (1 - b) then (s.select (1 - b) true 1, ⟨1 - b, true, true, false⟩)
  else (s, ⟨b, false, false, false⟩)

/-- Why the boot ROM refuses a bank: a code of Table 21.15, or 0 where it passes (assumption 85, DEDUCED). -/
def State.bankFault (s : State) (bank : Nat) : Nat :=
  let d := s.bankManifest bank
  let m := s.manifestFault d true
  if s.unreadable bank 0x8000 (min (max d.length 64) 4096) then 0x1406
  else if m ≠ 0 then m
  else if !countsOk (partsOf d) (s.ownTarget d) s.fuse.is7401 then 0x1401
  else if (s.ownParts d).any (s.digestBad bank) then 0x1406 else 0

/-- BOOT_FALLBACK with its reason. -/
def State.bootRefused (s : State) (bank reason : Nat) : State :=
  ((s.put FLC_BOOT_reason reason).logDev 0x1309 0xF (fdata bank 0 reason)).raisePf 7

/-! ### The running set -/

/-- CST_STATUS.state after a reset (Table 21.9). -/
def castAfter (prior : Nat) (trial reverted : Bool) : Nat :=
  if trial then 4
  else if reverted || prior == 4 then 6
  else if prior = 2 ∨ prior = 3 ∨ prior = 7 then 2
  else if prior = 5 ∨ prior = 6 then prior
  else 0

/-- The digest registers show the manifest d, and the session its serial and form. -/
def State.showManifest (s : State) (d : List Byte) : State :=
  let s := s.putB CST_STATUS_pair (isPairManifest d)
  let h := sha384 d
  s.each (List.range 12) (fun n t => t.put (CST_DIGEST_digest n) (beAt h (4 * n) 4))

/-- The session that a reset leaves: a verified or reverted set stands in the staging bank, a set in trial or settled is the
running one. -/
def State.restoreSession (s : State) (st : Nat) : State :=
  let run := s.bankManifest s.activeBank
  let staged := s.bankManifest s.stagingBank
  if st = 2 ∨ st = 6 then
    let got := (0, 0, staged.length) :: (partsOf staged).zipIdx.map (fun e => (e.2 + 1, 0, e.1.length))
    let s := { s with cst := { s.cst with length := staged.length, ready := true, got := got } }
    (s.put CST_STAGED_serial (beAt staged 16 4)).showManifest staged
  else if st = 4 ∨ st = 5 then s.showManifest run
  else s

/-- The Cast state after a reset, with what it reports: EARLY or REVERTED. -/
def State.castBoot (s : State) (p : BootPick) : State :=
  let fell := s.on FLC_BOOT_fallback
  let st := castAfter (if fell then 0 else s.cst.prior) (p.trial && !fell) (p.reverted && !fell)
  let early := !fell && p.trial && (p.early || s.cst.priorEarly)
  let s := (s.put CST_STATUS_state st).putB CST_STATUS_early early
  let attempts := match s.selector with | some r => r.attempts | none => 0
  let s := { s.put CST_STATUS_attempts attempts with cst := { s.cst with trial := p.trial && !fell } }
  let s := s.restoreSession st
  if p.early && !fell then ((s.castCnt 6).castLog 0x1414 0).castReport 0x1414
  else if st = 6 && s.cst.prior != 6 then ((s.castCnt 4).castLog 0x1410 0).castReport 0x1410
  else s

/-- The words of an Armature part of a bank staged for its checks, those read with incomplete or ecc set marked (R503). -/
def State.stageImage (s : State) (bank : Nat) (p : Part) : State :=
  let b := s.partBytes bank p
  let bad := (List.range (ceilDiv b.length 4)).filter (fun i => s.unreadable bank (p.offset + 4 * i) 4)
  let ws := (List.range (ceilDiv b.length 4)).map (fun i => (i, (BitVec.ofNat 32 (beAt ((b ++ zeros 3).drop (4 * i)) 0 4))))
  { s with arm := { s.arm with staging := ws.filter (fun e => e.2 != 0), badWords := bad } }

/-- The sealed enrolment secret, if there is one, is opened. -/
def State.openSecret (s : State) : State :=
  match s.cph.sealed with
  | some x => s.enrol x (keyCheck x)
  | none => s

/-- The Armature image of a set, if it has one, is staged and accepted. -/
def State.acceptSetImage (s : State) (bank : Nat) (own : List Part) : State :=
  match own.find? (fun p => p.type == 5) with
  | some p => (s.stageImage bank p).armStart .accept
  | none => s

/-- The accepted bank's set starts: its parts are reported, its patches stored, the enrolment secret unsealed (R411), and its
Armature given to the block for acceptance. -/
def State.startSet (s : State) (bank : Nat) : State :=
  let d := s.bankManifest bank
  let own := s.ownParts d
  let s := s.put CST_RUNNING_serial (beAt d 16 4)
  let s := s.each (partsOf d).zipIdx (fun e t => t.put (CST_PART_version e.2) e.1.version)
  let patches := (own.filter (fun p => p.type == 6)).map (s.partBytes bank)
  let s := { s with crt := { s.crt with patches := patches }, flc := { s.flc with fetch := [some bank, some bank] } }
  s.openSecret.acceptSetImage bank own

/-- The ROM starts the firmware from a bank that it has accepted. -/
def State.bootFrom (s : State) (bank : Nat) (p : BootPick) : State :=
  let s := (s.put FLC_BOOT_state 1).put FLC_BOOT_bank bank
  let s := s.putB FLC_BOOT_fallback (bank != s.selectorBank)
  let s := { s with flt := { s.flt with phase := .bringUp } }
  (s.castBoot p).startSet bank

/-- No bank can be started: NOBANK, the lasers in SAFE_OFF with cause FATAL. -/
def State.noBank (s : State) : State :=
  let s := { s with flt := { s.flt with phase := .bringUp } }
  (((s.put FLC_BOOT_state 0).logDev 0x130D 0xF 0).raisePf 7).setSafe 3 true

/-- The picked bank is started, the other where it is refused, or neither (R514). -/
def State.bootPicked (s : State) (p : BootPick) : State :=
  let c := s.bankFault p.bank
  if c = 0 then s.bootFrom p.bank p
  else
    let s := s.bootRefused p.bank c
    let e := s.bankFault (1 - p.bank)
    if e = 0 then s.bootFrom (1 - p.bank) p else (s.bootRefused (1 - p.bank) e).noBank

/-- BOOT_ROM (R514, R527), after the release of a reset. FATAL lets no bring-up start (R540; assumption 5,
DESIGN CHOICE; assumption 85, DEDUCED). -/
def execBootRom (s : State) : Host.Outcome State Fault Refusal :=
  .next (if s.flt.phase ≠ .boot ∨ s.flt.fatal then s else s.bootRules.1.bootPicked s.bootRules.2)

/-! ### Bring-up complete -/

/-- A staged set that was verified before the reset is judged anew (Table 21.9): where it fails, the session is over
(assumption 85, DEDUCED). -/
def State.reverify (s : State) : State :=
  if s.cast ≠ 2 then s
  else match s.setFault (s.on CST_STATUS_pair) with
  | (0, _) => s
  | (c, d) => (s.castLog c (fdata 0 0 d)).setCast 0

/-- Every part of the running set has started: FLT_STATUS.up is set, RESET is logged with FLT_CAUSE (R548), BOR after a trip of
the plinth brown-out (R493), and the vectors owed are raised (R550). -/
def State.goUp (s : State) : State :=
    let s := s.reverify
    let s := { s with cst := { s.cst with started := true } }
    let s := s.logDev 0x1501 0xF (fdata 0 0 (s.word FLT_CAUSE_cause.addr).toNat)
    let s := if s.flt.borDue then s.pwrLog 0x1209 (fdata 0 0 (2 * bitNat s.flt.borLoad + 4 * bitNat s.flt.borSupply)) else s
    let s := { s with flt := { s.flt with phase := .up, borDue := false } }
    if s.flt.deferred then { s.raisePf 0 with flt := { (s.raisePf 0).flt with deferred := false } } else s

/-- BRING_UP_COMPLETE. -/
def execBringUpComplete (s : State) : Host.Outcome State Fault Refusal :=
  .next (if s.flt.phase ≠ .bringUp ∨ s.flt.fatal ∨ !s.on FLC_BOOT_state then s else s.goUp)

end Sys2Proof.Machine
end

