-- ==== Sys2Proof/Machine/Rst.lean ====
section
/-!
DEFINITION. Resets, the watchdog, the acknowledgement of fault records and block resets as commands
(spec/22_faults_and_resets.md), and the monitors of the rails and the die (spec/24_package_and_electrical.md).
-/

namespace Sys2Proof.Machine

open Sys2Proof

/-! ### Cold and warm resets (R493, R494, R535 to R540, R560, R565, R566) -/

/-- COLD_RESET: VDD_PLINTH powers up; lost says that it had fallen below the retention level, so that its latches are lost
(R494; assumption 86, DEDUCED). -/
def execColdReset (lost : Bool) (s : State) : Host.Outcome State Fault Refusal :=
  let s := if lost then
      { s with flt := { s.flt with bootCount := 0, borLoad := false, borSupply := false, borDue := false } }
    else s
  .next (s.coldReset (if s.flt.borSupply then 2 else if s.flt.borLoad then 1 else 0))

/-- PLINTH_BROWNOUT (R493): load where the plinth load trips it in low-power mode, otherwise VDD_PLINTH below 2.85 V. -/
def execPlinthBrownout (load : Bool) (s : State) : Host.Outcome State Fault Refusal :=
  .next (if load && !s.on PWR_PLN_STATUS_lp then s
  else
    let f := s.flt
    let s := { s with flt := { f with borLoad := f.borLoad || load, borSupply := f.borSupply || !load, borDue := true } }
    s.coldReset (if load then 1 else 2))

/-- RST_N_ASSERT: RST_N low for at least 1 µs, or its rise, at which SUP_MODE may be sampled (R566; assumption
86, DEDUCED). -/
def execRstNAssert (low strap : Bool) (s : State) : Host.Outcome State Fault Refusal :=
  .next (if low then
    if s.flt.rstLow then s
    else { s with flt := { s.flt with rstLow := true } }.warmReset 3
  else
    let s := if s.flt.strapDue then { s with sup := { s.sup with mode := strap } } else s
    { s with flt := { s.flt with rstLow := false, strapDue := false } })

/-- TEST_EN_ASSERT: TEST_EN leaves low, or returns to it (R560). -/
def execTestEnAssert (active : Bool) (s : State) : Host.Outcome State Fault Refusal :=
  .next (if active then
    if s.flt.testEn then s
    else { s with flt := { s.flt with testEn := true } }.warmReset 13
  else { s with flt := { s.flt with testEn := false } })

/-- The watchdog restarts with the timeout as it stands (assumption 60, DEDUCED). -/
def State.kick (s : State) : State :=
  { s with flt := { s.flt with wdogAt := s.clk, wdogMs := s.get FLT_WDOG_timeout } }

/-- WARM_RESET_RELEASE: 10 µs after the trigger, or when RST_N rises, whichever is later (assumption 86, DEDUCED). -/
def execWarmResetRelease (s : State) : Host.Outcome State Fault Refusal :=
  .next (if s.flt.phase = .held ∧ s.since s.flt.resetAt (10 * us) ∧ !s.flt.rstLow ∧ !s.flt.testEn then
    { s with flt := { s.flt with phase := .boot } }.kick
  else s)

/-- MRAM_ECC. -/
def execMramEcc (s : State) : Host.Outcome State Fault Refusal := .next ((s.logDev 0x1506 0xF 0).faultReset 12)

/-- FLT_CMD_WARM: FLT_CMD.warm. -/
def execFltCmdWarm (s : State) : Host.Outcome State Fault Refusal := .next (s.warmReset 10)

/-! ### The watchdog (R541) -/

/-- The watchdog runs: a reset has been released, FATAL is not latched and the management core's clock runs
(assumption 60, DEDUCED). -/
def State.watched (s : State) : Bool := s.flt.phase != .held && !s.flt.fatal && decide (s.get PWR_STATUS_mode < 3)

/-- WATCHDOG_KICK: FLT_WDOG_KICK written. -/
def execWatchdogKick (data : Word) (s : State) : Host.Outcome State Fault Refusal :=
  .next (if data = 0xA5 then s.kick else s)

/-- WATCHDOG_EXPIRY. -/
def execWatchdogExpiry (s : State) : Host.Outcome State Fault Refusal :=
  .next (if s.watched && s.since s.flt.wdogAt (s.flt.wdogMs * ms) then (s.logDev 0x1505 0xF 0).faultReset 4 else s)

/-! ### Fault logs (R545) -/

/-- Record seq r is acknowledged by a write of q: r is q or earlier, modulo 2³² within 2³¹. -/
def ackedBy (q r : Nat) : Bool := decide ((q + 2 ^ 32 - r % 2 ^ 32) % 2 ^ 32 < 2 ^ 31)

/-- l with every open record up to q closed. -/
def FaultLog.ack (l : FaultLog) (q : Nat) : FaultLog := { l with opened := l.opened.filter (fun r => !ackedBy q r) }

/-- FLT_LOG_ACK: FLT_NACKn of niche log n below 16, FLT_DACK at 16. -/
def execFltLogAck (log : Fin 17) (data : Word) (s : State) : Host.Outcome State Fault Refusal :=
  let q := data.toNat
  .next (if log.val = 16 then { s with flt := { s.flt with devLog := s.flt.devLog.ack q } }
  else { s with flt := { s.flt with nicheLogs := s.flt.nicheLogs.modify log.val (fun l => l.ack q) } })

/-! ### Niche resets (R225 to R228, R538, R545, R546, R585) -/

/-- FLT_NCMD_RESET: FLT_NCMDn.reset. -/
def execFltNcmdReset (n : Fin 16) (s : State) : Host.Outcome State Fault Refusal := .next (s.requestReset n.val 5)

/-- What R538 returns to its reset values in niche n: its host rings, its mailbox and the credits of its policers; what its
shapers had gathered is lost too (R225; assumption 49, DEDUCED). -/
def State.nicheRegs (s : State) (n : Nat) : State :=
  let s := s.resetRings n
  let s := { s with sup := { s.sup with niches := s.sup.niches.set n Mbx.empty } }
  let x := s.policers n
  let s := s.each (List.range' x.1 x.2) (fun i t => t.setCredit i (64 * t.get (CLS_POL_BURST_burst i)))
  s.each ((List.range 6).filter (fun p => s.ethOwner p == some n)) (fun p t =>
    (t.settlePort p).modEth p (fun y => { y with credits := List.replicate 8 0 }))

/-- The reset of niche n completes (R227): its open records close (R545), a re-carve that waits for it proceeds (R71), and its
ingress reopens unless something holds it (R558; assumption 49, DEDUCED). -/
def State.endNicheReset (s : State) (n : Nat) : State :=
    let s := (s.nicheRegs n).modNreset n (fun r => { r with active := false, flushed := false, slow := false })
    let s := { s with
      flt := { s.flt with nicheLogs := s.flt.nicheLogs.modify n (fun l => { l with opened := [] }) }
      hif := { s.hif with flr := s.hif.flr.filter (fun f => f != n + 1) } }
    let s := if (List.range 16).any (fun k => (s.nreset k).active) then s
      else { s with hif := { s.hif with flr := s.hif.flr.filter (fun f => f != 0) } }
    match s.arm.carve with
    | some c => if c.niche = n ∧ !c.requested then s.requestCarve c else s
    | none => s

/-- NICHE_RESET_COMPLETE (R227): at a tick edge after the request the niche holds no cell and none of its cells is
scrub-pending. -/
def execNicheResetComplete (n : Fin 16) (s : State) : Host.Outcome State Fault Refusal :=
  let r := s.nreset n.val
  .next (if r.active && decide (r.tick < s.tick.edges) && s.scrubbed n.val then s.endNicheReset n.val else s)

/-- NRESET_SLOW (R546): the reset of niche n has not completed 4.0 ms after its request. -/
def execNresetSlow (n : Fin 16) (s : State) : Host.Outcome State Fault Refusal :=
  let r := s.nreset n.val
  .next (if r.active && !r.slow && s.since r.at_ (4 * ms) then
    let s := s.modNreset n.val (fun r => { r with slow := true })
    (s.logDev 0x1504 n.val (fdata n.val 0 0)).faultReset 9
  else s)

/-! ### Block resets (R549) -/

/-- One bit of a write of FLT_BLK_RST. -/
def State.blockAsk (s : State) (b : Nat) : State :=
  if bit s.flt.blkActive.toNat b || bit s.flt.blkPending.toNat b || !(blockDomains b).any s.domainOn then
    s.logDev 0x1508 0xF 0
  else { s with flt := { s.flt with blkPending := s.flt.blkPending ||| BitVec.ofNat 11 (2 ^ b) } }

/-- FLT_BLK_RST_WRITE. -/
def execFltBlkRstWrite (data : Word) (s : State) : Host.Outcome State Fault Refusal :=
  .next (s.each (onesOf 11 data.toNat) (fun b t => t.blockAsk b))

/-- BLOCK_RESET_APPLY: at a tick edge the requested resets of blocks begin. -/
def execBlockResetApply (s : State) : Host.Outcome State Fault Refusal :=
  let l := onesOf 11 s.flt.blkPending.toNat
  let s := { s with flt := { s.flt with blkActive := s.flt.blkActive ||| s.flt.blkPending, blkPending := 0 } }
  .next (s.each l (fun b t => t.blockReset b))

/-- BLOCK_RESET_DONE: the reset of block b completes. -/
def execBlockResetDone (b : Fin 11) (s : State) : Host.Outcome State Fault Refusal :=
  .next (if bit s.flt.blkActive.toNat b.val then
    let s := { s with flt := { s.flt with blkActive := s.flt.blkActive &&& ~~~(BitVec.ofNat 11 (2 ^ b.val)) } }
    s.logDev 0x1509 0xF 0
  else s)

/-! ### Rails and temperature (R562, R563, R573) -/

/-- RAIL_EXCURSION: a rail's monitor has reported it outside its window for 1 µs, or reports its return
(assumption 86, DEDUCED). -/
def execRailExcursion (rail : Fin 10) (out : Bool) (s : State) : Host.Outcome State Fault Refusal :=
  .next (if out then ((s.unmark GLB_RAIL_within rail.val).mark GLB_RAIL_sticky rail.val).raisePf 0
  else s.mark GLB_RAIL_within rail.val)

/-- GLB_STRAP's class of I/O bank 1 + b. -/
def bankClass (b : Nat) : Field := ⟨0x10, 2 * b + 2, 2 * b + 1⟩

/-- BANK_RAIL_CLASSIFY: the monitor of I/O bank 1 + b reports its rail within the 3.3 V window or the 1.8 V one. The first
report after a reset release records the class; a later one only after an excursion through which the bank's balls have been
high-impedance (assumption 86, DEDUCED). -/
def execBankRailClassify (b : Fin 5) (v33 hiz : Bool) (s : State) : Host.Outcome State Fault Refusal :=
  let again := hiz && !s.marked GLB_RAIL_within (4 + b.val)
  let t := s.mark GLB_RAIL_within (4 + b.val)
  .next (if s.get (bankClass b.val) = 0 || again then t.put (bankClass b.val) (if v33 then 2 else 1) else t)

end Sys2Proof.Machine
end

