-- ==== Sys2Proof/Machine/Cal.lean ====
section
/-!
DEFINITION. The Caliper (spec/08_niches_cells_and_the_caliper.md, R229 to R237) and the phases SCHED, CALIPER and REPORT of
the tick (spec/02_the_125_microsecond_tick.md, Table 2.3).
-/

namespace Sys2Proof.Machine

open Sys2Proof

/-! ### The snapshot (R229) -/

/-- Cells of packet memory. -/
abbrev allCells : Nat := 393216

/-- Cells queued, and cells in flight. -/
def State.cellsQueued (s : State) : Nat := ((s.cel.sdus.filter (fun d => d.queue.isSome)).map (fun d => d.cells.length)).sum
def State.cellsInFlight (s : State) : Nat := ((s.cel.sdus.filter (fun d => d.queue.isNone)).map (fun d => d.cells.length)).sum

/-- Cells in the scrub list. -/
def State.cellsScrub (s : State) : Nat := (s.cel.scrub.map (fun r => r.count)).sum

/-- Cells in the free pool, parked ones among them: those in no other place (R212). -/
def State.cellsFree (s : State) : Nat :=
  allCells - (s.cellsQueued + s.cellsInFlight + s.cellsScrub + s.cel.lost.length)

/-- Parked cells (R216). -/
def State.cellsParked (s : State) : Nat := 98304 * (s.cel.quads.filter (fun q => q.parked)).length

/-- Occupancy of allocation a: the bytes queued on its class QIDs. -/
def State.queuedBytes (s : State) (a : Nat) : Nat :=
  match s.allocBase a with
  | some q => ((List.range 8).map (fun i => s.qbytes (q + i))).sum
  | none => 0

/-- The snapshot registers take the counts of this cycle. -/
def State.snapshot (s : State) : State :=
  let places := [s.cellsFree, s.cellsQueued, s.cellsInFlight, s.cellsScrub, s.cellsParked, s.cel.lost.length]
  let s := s.each places.zipIdx (fun e t => t.put (CEL_PLACE_count e.2) e.1)
  s.each (List.range 64) (fun a t => t.put (CEL_AOCC_occ a) (t.queuedBytes a))

/-! ### The audit (R230 to R237) -/

/-- The cell balance (R230, R237): left side minus right side (assumption 48, DESIGN CHOICE). -/
def State.cellDelta (s : State) : Int :=
  ((s.cellsFree + s.cellsQueued + s.cellsInFlight + s.cellsScrub : Nat) : Int) - (allCells : Nat)

/-- The byte balance of allocation a (R231; assumption 48, DESIGN CHOICE). -/
def State.byteDelta (s : State) (a : Nat) : Int :=
  toSigned 48 ((s.abytes a 0 + 3 * 2 ^ 48 - s.abytes a 1 - s.abytes a 2 - s.queuedBytes a % 2 ^ 48) % 2 ^ 48)

/-- The frame balance of port t in direction d (R232, R236): counters 4d to 4d + 3 of Table 11.7, and the frames that stand in the
slip buffer beyond those it started with (assumption 48, DEDUCED). -/
def State.frameDelta (s : State) (t d : Nat) : Int :=
  let c := fun (k : Nat) => s.get (TDM_TRIB_CNT_count t (4 * d + k))
  let b := if d = 0 then (s.tdmPort t).line else (s.tdmPort t).port
  let n : Int := (c 0 : Int) + c 3 - c 1 - c 2 + b.base - b.unread.length
  toSigned 32 (ofSigned 32 n)

/-- The balances that fail: cell, bytes of each allocation of ALLOCS, frames of each framed port that a niche owns. -/
def State.breaches (s : State) : List Breach :=
  let cell := [Breach.mk 1 0 0 s.cellDelta]
  let bytes := ((List.range 64).filter (fun a => (s.allocOwner a).isSome)).map (fun a => Breach.mk 2 a 0 (s.byteDelta a))
  let ports := (List.range 12).filter (fun t => s.framed t && (s.tdmOwner t).isSome)
  let frames := ports.flatMap (fun t => [Breach.mk 3 t 0 (s.frameDelta t 0), Breach.mk 3 t 1 (s.frameDelta t 1)])
  (cell ++ bytes ++ frames).filter (fun b => b.delta != 0)

/-- A breach of the cell balance by withdrawn cells (R237). -/
def State.eccBreach (s : State) (b : Breach) : Bool := b.kind == 1 && !s.cel.lost.isEmpty

/-- CALIPER_REPORT (Table 8.4). -/
def State.caliperReport (s : State) (b : Breach) (ecc : Bool) : State :=
  let s := s.queueUp 0x87 (beBytes 1 b.kind ++ beBytes 1 (bitNat ecc + 2 * b.dir) ++ beBytes 1 b.index ++ zeros 1 ++
    beBytes 7 (s.tick.fc % 2 ^ 51) ++ beBytes 4 (ofSigned 32 (satSigned 32 b.delta)) ++ beBytes 2 (min s.cel.unreported 0xFFFF))
  { s with cel := { s.cel with unreported := 0 } }

/-- A breach at an audit that R234 lets make a record: BREACH, vector 1 and the report (R233). -/
def State.recordBreach (s : State) (b : Breach) : State :=
  let ecc := s.eccBreach b
  let delta := ofSigned 32 (satSigned 32 b.delta)
  let s := (s.logDev 0x0701 0xF (fdata b.index (b.kind + 4 * b.dir + 8 * bitNat ecc) delta)).raisePf 1
  let s := ((s.put CEL_CAL_LAST_kind b.kind).put CEL_CAL_LAST_dir b.dir).put CEL_CAL_LAST_index b.index
  let s := s.put CEL_CAL_DELTA_delta delta
  let s := if b.kind = 1 then s.putB CEL_CAL_STATUS_ecc ecc else s
  if s.on CEL_CTRL_report_en then s.caliperReport b ecc else s

/-- The audit of the snapshot (R233 to R235; assumption 48, DESIGN CHOICE). -/
def State.audit (s : State) : State :=
  let l := s.breaches
  let was := s.cel.failing
  let kind := fun (k : Nat) => l.any (fun b => b.kind == k)
  let s := ((s.putB CEL_CAL_STATUS_cell_fail (kind 1)).putB CEL_CAL_STATUS_byte_fail (kind 2)).putB
    CEL_CAL_STATUS_frame_fail (kind 3)
  let s := { s with cel := { s.cel with failing := l } }
  if l.isEmpty then
    if s.cel.acked then { s.putB GLB_SERVICE_cal_ok true with cel := { s.cel with acked := false } } else s
  else
    let s := (s.sat CEL_CAL_STATUS_breaches).putB GLB_SERVICE_cal_ok false
    let s := { s with cel := { s.cel with unreported := s.cel.unreported + 1 } }
    s.each (l.filter (fun b => !was.contains b)) (fun b t => t.recordBreach b)

/-! ### Phases -/

/-- PHASE_CALIPER: the snapshot at cycle 16,200 and its audit; none while PD05 is off (R485). -/
def execPhaseCaliper (cycles : Nat) (s : State) : Host.Outcome State Fault Refusal :=
  .next (if s.domainOn 5 then (s.phaseUsed 10 cycles).snapshot.audit else s)

/-- PHASE_SCHED: the credits of the policers and the pended changes of the ports' shapers. What a report counts is taken at
its burst's cut (Table 5.4). -/
def execPhaseSched (cycles : Nat) (s : State) : Host.Outcome State Fault Refusal :=
  .next (s.phaseUsed 6 cycles).refillPolicers.ethSched

/-- PHASE_REPORT: a record is whole from the cycle in which it is logged, and a report queued in the phase that makes it; the
phase's time is accounted (assumption 11, DESIGN CHOICE). -/
def execPhaseReport (cycles : Nat) (s : State) : Host.Outcome State Fault Refusal := .next (s.phaseUsed 11 cycles)

end Sys2Proof.Machine
end

