-- ==== Sys2Proof/Machine/View.lean ====
section
/-!
DEFINITION. What a read of a register returns (spec/25_register_map.md, Table 0.2): the stored word, or where a field shows state
that is held elsewhere, that state.
-/

namespace Sys2Proof.Machine

open Sys2Proof

/-- A word with value v in field f. -/
def ins (w : Word) (f : Field) (v : Nat) : Word := putBits w f.hi f.lo v

/-- Index and offset of address a in an array of n items that lie d bytes apart from base on. -/
def arrayAt (base d n a : Nat) : Option (Nat × Nat) :=
  if base ≤ a ∧ a < base + d * n then some ((a - base) / d, (a - base) % d) else none

/-! ### Blocks whose registers show other state -/

/-- GLB. -/
def State.liveGlb (s : State) (a : Nat) : Word :=
  let w := s.word a
  match a with
  | 0x0 => ins w GLB_ID_part s.part
  | 0x8 => if s.fuse.is7401 then ins (ins w GLB_PRESENT_fio 0) GLB_PRESENT_msh 0 else w
  | 0x10 => ins w GLB_STRAP_sup_mode (bitNat s.sup.mode)
  | _ => w

/-- ARM: the trust slots and the epoch floor stand in flash (R53). -/
def State.liveArm (s : State) (a : Nat) : Word :=
  let slots := fun (p : TrustSlot → Bool) => ((s.arm.trust.zipIdx).map (fun x => bitNat (p x.1) * 2 ^ x.2)).sum
  if a = 0x1001C then BitVec.ofNat 32 s.arm.floor
  else if a = 0x10028 then
    ins (ins 0 ARM_TRUST_enrolled (slots (fun t => t.digest.isSome))) ARM_TRUST_revoked (slots (fun t => t.revoked))
  else s.word a

/-- TICK: the counter of the present tick. -/
def State.liveTick (s : State) (a : Nat) : Word := if a = 0x20008 then BitVec.ofNat 32 s.tick.fc else s.word a

/-- DSL: a key pair's pending switch and loaded slots. -/
def State.liveDsl (s : State) (a : Nat) : Word :=
  match arrayAt 0x40100 4 32 a with
  | some (k, _) =>
    let w := ins (s.word a) (DSL_KEYPAIR_pending k) (bitNat (s.pair k).pending.isSome)
    ins (ins w (DSL_KEYPAIR_loaded0 k) (bitNat (s.keyIn (2 * k)).isSome)) (DSL_KEYPAIR_loaded1 k)
      (bitNat (s.keyIn (2 * k + 1)).isSome)
  | none => s.word a

/-- The laser-enable lead of a running burst, 32 bit periods long, has not passed: no preamble bit has been sent (Table 5.7). -/
def State.laserArmed (s : State) : Bool := s.usl.plan.any (fun b => b.running && decide (s.clk < b.at_ + 4))

/-- USL: ARMED in the laser-enable lead, the owner of an allocation index. -/
def State.liveUsl (s : State) (a : Nat) : Word :=
  if a = 0x60004 then
    if s.get USL_STATUS_laser = 3 ∧ s.laserArmed then ins (s.word a) USL_STATUS_laser 2 else s.word a
  else match arrayAt 0x60100 4 64 a with
  | some (i, _) => ins (s.word a) (USL_ALLOC_niche i) ((s.allocOwner i).getD 0)
  | none => s.word a

/-- ACT: the serial number. -/
def State.liveAct (s : State) (a : Nat) : Word :=
  if a = 0x80008 then BitVec.ofNat 32 s.fuse.serial.toNat
  else if a = 0x8000C then BitVec.ofNat 32 (s.fuse.serial.toNat / 2 ^ 32)
  else s.word a

/-- Descriptor of cell c without its check byte (Table 8.2). -/
def State.descriptor (s : State) (c next : Nat) : Nat :=
  match s.cel.sdus.find? (fun d => d.cells.contains c) with
  | some d =>
    let i := d.cells.idxOf c
    let place := if d.queue.isSome then 1 else 2
    let fill := min 256 (d.data.length - 256 * i)
    next % 2 ^ 19 * 2 ^ 37 + (d.queue.getD 0) % 2048 * 2 ^ 26 + d.owner % 16 * 2 ^ 22 + place * 2 ^ 20 + fill * 2 ^ 11 +
      bitNat (i == 0) * 2 ^ 10 + bitNat (i + 1 == d.cells.length) * 2 ^ 9
  | none => next % 2 ^ 19 * 2 ^ 37 + (if s.isFree c then 0 else 3) * 2 ^ 20

/-- Cell that follows cell c in its SDU, or in its queue (Table 8.2); none where nothing follows. -/
def State.nextCell (s : State) (c : Nat) : Option Nat :=
  (s.cel.sdus.find? (fun d => d.cells.contains c)).bind (fun d =>
    match d.cells[d.cells.idxOf c + 1]? with
    | some x => some x
    | none => d.queue.bind (fun q =>
        let l := s.queueOf q
        (l[l.findIdx (fun x => x.id == d.id) + 1]?).bind (fun e => e.cells.head?)))

/-- CEL: what a niche holds, the 48-bit counts, and the queues. -/
def State.liveCel (s : State) (a : Nat) : Word :=
  let w := s.word a
  match arrayAt 0xC1000 64 16 a, arrayAt 0xC2000 32 64 a, arrayAt 0xC8000 4 2048 a, arrayAt 0xCA000 4 2048 a,
    arrayAt 0xCC000 4 2048 a with
  | some (n, 0), _, _, _, _ => BitVec.ofNat 32 (s.held n)
  | some (n, 0xC), _, _, _, _ =>
    ins (ins (ins 0 (CEL_NSTATUS_exists n) (bitNat (s.exists_ n))) (CEL_NSTATUS_resetting n) (bitNat (s.nreset n).active))
      (CEL_NSTATUS_borrowing n) (bitNat (decide (s.cellMin n < s.held n)))
  | _, some (i, 0), _, _, _ => BitVec.ofNat 32 (s.abytes i 0)
  | _, some (i, 8), _, _, _ => BitVec.ofNat 32 (s.abytes i 1)
  | _, some (i, 16), _, _, _ => BitVec.ofNat 32 (s.abytes i 2)
  | _, _, some (q, _), _, _ =>
    match s.qidOwner q with
    | some n => ins (ins (ins w (CEL_QCFG_owner q) n) (CEL_QCFG_assigned q) 1) (CEL_QCFG_role q) ((s.roleOf q).getD 0)
    | none => w
  | _, _, _, some (q, _), _ => BitVec.ofNat 32 (s.depth q)
  | _, _, _, _, some (q, _) => BitVec.ofNat 32 (s.qbytes q)
  | _, _, _, _, _ => w

/-- ETH: the owner bit, live credits in bits toward zero, the 48-bit byte counts; an unclocked port reads as its reset values
(R238). -/
def State.liveEth (s : State) (a : Nat) : Word :=
  match arrayAt 0x100000 0x4000 6 a with
  | none => s.word a
  | some (p, o) =>
    if s.ethMux p = 0 then resetWord a
    else if o = 4 then ins (s.word a) (ETH_STATUS_owned p) (bitNat (s.ethOwner p).isSome)
    else if o = 0x204 then BitVec.ofNat 32 (s.ethPort p).rx48
    else if o = 0x234 then BitVec.ofNat 32 (s.ethPort p).tx48
    else match arrayAt 0x40 4 8 o with
    | some (c, _) => BitVec.ofInt 32 ((s.creditNow p c).tdiv 1000000)
    | none => s.word a

/-- TDM: owner and type of a port. -/
def State.liveTdm (s : State) (a : Nat) : Word :=
  match arrayAt 0x180100 128 12 a with
  | some (t, 0) => ins (ins (s.word a) (TDM_TRIB_CFG_owner t) ((s.tdmOwner t).getD 0xF)) (TDM_TRIB_CFG_type t) (s.tribType t)
  | _ => s.word a

/-- TIM: the calendar rendering of the view that TIM_CAL_CFG names (R333). -/
def State.liveTim (s : State) (a : Nat) : Word :=
  let c := s.render (s.readView (s.get TIM_CAL_CFG_view) (s.stampAt 0)).1 0
  let n := fun (x : Int) => x.toNat
  if a = 0x1C0704 then
    ins (ins (ins (ins 0 TIM_CAL_DATE_wday (n c.wday)) TIM_CAL_DATE_year (n (c.year - 2000))) TIM_CAL_DATE_month (n c.month))
      TIM_CAL_DATE_day (n c.day)
  else if a = 0x1C0708 then
    ins (ins (ins (ins 0 TIM_CAL_TIME_valid (bitNat c.valid)) TIM_CAL_TIME_hour (n c.hour)) TIM_CAL_TIME_minute (n c.minute))
      TIM_CAL_TIME_second (n c.second)
  else s.word a

/-- FIO: die present, active loops, the shadow of the selected custom table (R380). -/
def State.liveFio (s : State) (a : Nat) : Word :=
  let k := s.get FIO_CTAB_SEL_table
  match arrayAt 0x240300 32 2 a, arrayAt 0x240500 8 32 a with
  | some (j, 0x10), _ => ins (s.word a) (FIO_LOOP_STAT_active j) (bitNat (s.loopActive j))
  | _, some (p, 0) => s.tabWord k (1 + 2 * p)
  | _, some (p, _) => s.tabWord k (2 + 2 * p)
  | _, _ => if a = 0x240408 then s.tabWord k 0 else s.word a

/-- CPH: alarms of the last 600 s (R415), slot owners, the fixed attributes of the line slots (R404, R406);
the write-only secret and key words read 0. -/
def State.liveCph (s : State) (a : Nat) : Word :=
  match arrayAt 0x284000 8 256 a with
  | some (k, 0) =>
    let w := ins (s.word a) (CPH_SLOT_CFG_owner k) ((s.slotOwner k).getD 0xF)
    if k < 64 then ins (ins (ins w (CPH_SLOT_CFG_owner k) 0xF) (CPH_SLOT_CFG_klen k) 1) (CPH_SLOT_CFG_modes k) 8 else w
  | _ =>
    if within 0x280020 0x280040 a || (within 0x281000 0x282100 a && decide (0x20 ≤ a % 0x100) && decide (a % 0x100 < 0x48)) then 0
    else if a = 0x280004 then
      ins (s.word a) CPH_STATUS_alarms (min 255 (s.cph.alarms.filter (fun t => decide (s.clk < t + 600 * sec))).length)
    else s.word a

/-- HIF: niche status and mailbox levels (assumption 28, DEDUCED). -/
def State.liveHif (s : State) (a : Nat) : Word :=
  match arrayAt 0x2C0010 4 16 a, arrayAt 0x2C0100 16 16 a with
  | some (n, _), _ =>
    let f := s.servedBy n
    let w := ins (ins 0 (HIF_NSTATUS_flr n) (bitNat (s.hif.flr.contains (n + 1)))) (HIF_NSTATUS_usable n) (bitNat (s.usable (n + 1)))
    ins (ins w (HIF_NSTATUS_bme n) (bitNat (match f with | some x => (s.fn x).bme | none => false)))
      (HIF_NSTATUS_pf_served n) (bitNat (f == some 0))
  | _, some (n, 8) =>
    let m := s.sup.niches.getD n .empty
    BitVec.ofNat 32 (m.tx.length * 2 ^ 8 + m.rx.length)
  | _, _ => s.word a

/-- SUP: FIFO levels, boot count, ready and mode. -/
def State.liveSup (s : State) (a : Nat) : Word :=
  if a = 0x2E0004 then
    let w := ins (ins (s.word a) SUP_STATUS_tx_level s.sup.port.tx.length) SUP_STATUS_rx_level s.sup.port.rx.length
    ins (ins (ins w SUP_STATUS_boot (s.flt.bootCount.toNat % 16)) SUP_STATUS_ready (bitNat s.mbxReady)) SUP_STATUS_mode
      (bitNat s.sup.mode)
  else if a = 0x2E0018 then BitVec.ofNat 32 (s.sup.pf.tx.length * 2 ^ 8 + s.sup.pf.rx.length)
  else s.word a

/-- PWR: the domains that are on, the allowance left, the domains a mask may hold, and the brown-out latches. -/
def State.livePwr (s : State) (a : Nat) : Word :=
  match a with
  | 0x34000C => BitVec.ofNat 32 s.pwr.on
  | 0x340010 => BitVec.ofNat 32 (s.pwr.on / 2 ^ 32)
  | 0x340054 => match s.pwr.allow with
    | some t => BitVec.ofNat 32 (min 0xFFFF ((t - s.clk) / ms))
    | none => 0
  | 0x340064 => ins (ins (s.word a) PWR_PLN_STATUS_bor_supply (bitNat s.flt.borSupply)) PWR_PLN_STATUS_bor_load
      (bitNat s.flt.borLoad)
  | _ => match arrayAt 0x340020 8 4 a with
    | some (m, o) => BitVec.ofNat 32 (s.pwrMask m / 2 ^ (8 * o))
    | none => s.word a

/-- FLC: operations, open sectors and the selector's bank. -/
def State.liveFlc (s : State) (a : Nat) : Word :=
  if a = 0x380000 then
    let op := match s.flc.active with | some o => if o.erase then 2 else 1 | none => if s.cst.freezing || s.cst.arming.isSome then 3 else 0
    let ob := match s.flc.active with | some o => bankOf o.addr | none => 0
    let w := ins (ins 0 FLC_STATUS_open_cnt s.openSectors.length) FLC_STATUS_susp_sector
      (match s.flc.susp with | some o => sectorOf o.addr | none => 0)
    ins (ins (ins (ins (ins w FLC_STATUS_held (bitNat s.flc.held)) FLC_STATUS_suspended (bitNat s.flc.susp.isSome)) FLC_STATUS_op op)
      FLC_STATUS_op_bank ob) FLC_STATUS_active_bank s.selectorBank
  else if a = 0x380010 then
    let t := s.get FLC_SSEL_sector
    let under := fun (o : Option FlashOp) => match o with | some x => x.erase && sectorOf x.addr == t | none => false
    ins (ins 0 FLC_SSTATE_erasing (bitNat (under s.flc.active || under s.flc.susp))) FLC_SSTATE_open (bitNat (s.eraseOpen t))
  else s.word a

/-- Word w of a fault record (Table 22.4). -/
def LogRec.word (r : LogRec) (w : Nat) : Word :=
  BitVec.ofNat 32 (match w with
  | 0 => r.code % 65536 * 65536 + r.niche % 16 * 4096 + r.cls % 4 * 1024 + bitNat r.nested * 512 + bitNat r.escalated * 256
  | 1 => r.seq
  | 2 => r.link
  | 3 => r.fc
  | 4 => r.ts
  | 5 => r.ts / 2 ^ 32
  | 6 => r.count % 65536 * 65536 + r.data / 2 ^ 32 % 65536
  | _ => r.data)

/-- Word w of slot i of a log of cap records (R543); 0 where no record has taken the slot. -/
def FaultLog.slot (l : FaultLog) (cap i w : Nat) : Word :=
  match l.recs.find? (fun r => r.seq % cap == i) with
  | some r => r.word w
  | none => 0

/-- FLT: status bits, boot count, block resets, logs. -/
def State.liveFlt (s : State) (a : Nat) : Word :=
  let log := fun (n : Nat) => s.nicheLog n
  match a with
  | 0x3C0000 => BitVec.ofNat 32 (bitNat s.flt.fatal * 2 ^ 31 + bitNat (s.flt.phase == .up) * 2 ^ 30 +
      bitNat (!s.flt.devLog.opened.isEmpty) * 2 ^ 16 +
      ((List.range 16).map (fun n => bitNat (!(log n).opened.isEmpty) * 2 ^ n)).sum)
  | 0x3C0008 => s.flt.bootCount
  | 0x3C0018 => (s.flt.blkPending ||| s.flt.blkActive).setWidth 32
  | 0x3C001C => BitVec.ofNat 32 s.flt.devLog.next
  | _ => match arrayAt 0x3C0100 16 16 a, arrayAt 0x3C1000 32 64 a, arrayAt 0x3C2000 0x400 16 a with
    | some (n, 0), _, _ =>
      ins (ins (s.word a) (FLT_NSTAT_open n) (bitNat (!(log n).opened.isEmpty))) (FLT_NSTAT_resetting n) (bitNat (s.nreset n).active)
    | some (n, 4), _, _ => BitVec.ofNat 32 (log n).next
    | _, some (i, o), _ => s.flt.devLog.slot 64 i (o / 4)
    | _, _, some (n, o) => (log n).slot 32 (o / 32) (o % 32 / 4)
    | _, _, _ => s.word a

/-! ### Reads -/

/-- Address a belongs to MSH or FIO, which the EVT-7401 does not have (Table 0.1). -/
def absentBlock (a : Nat) : Bool := within 0x200000 0x280000 a

/-- While FATAL is latched only GLB, FLT and PWR_PLN_STATUS read as themselves (R540). -/
def fatalReads (a : Nat) : Bool := within 0 0x10000 a || within 0x3C0000 0x400000 a || a == 0x340064

/-- Word of the classifier table window at an offset: the raw contents, the first byte in [7:0] (R6); beyond the last block 0. -/
def State.tableWord (s : State) (o : Nat) : Word := BitVec.ofNat 32 (leAt (s.sram (o / 16 * 16) 16) (o % 16 / 4 * 4) 4)

/-- The word that a register shows. -/
def State.live (s : State) (a : Nat) : Word :=
  if a < 0x10000 then s.liveGlb a
  else if a < 0x20000 then s.liveArm a
  else if a < 0x40000 then s.liveTick a
  else if a < 0x60000 then s.liveDsl a
  else if a < 0x80000 then s.liveUsl a
  else if a < 0xA0000 then s.liveAct a
  else if a < 0xC0000 then s.word a
  else if a < 0x100000 then s.liveCel a
  else if a < 0x140000 then s.liveEth a
  else if a < 0x180000 then s.word a
  else if a < 0x1C0000 then s.liveTdm a
  else if a < 0x200000 then s.liveTim a
  else if a < 0x240000 then s.word a
  else if a < 0x280000 then s.liveFio a
  else if a < 0x2C0000 then s.liveCph a
  else if a < 0x2E0000 then s.liveHif a
  else if a < 0x300000 then s.liveSup a
  else if a < 0x340000 then s.word a
  else if a < 0x380000 then s.livePwr a
  else if a < 0x3A0000 then s.liveFlc a
  else if a < 0x3C0000 then s.word a
  else s.liveFlt a

/-- What a read of the register at address a shows: absent blocks read 0 (R3), and with FATAL latched most of the map does
(R540). -/
def State.shown (s : State) (a : Nat) : Word :=
  if (s.fuse.is7401 && absentBlock a) || (s.flt.fatal && !fatalReads a) then 0
  else if within 0x1000000 0x2000000 a then s.tableWord (a - 0x1000000)
  else s.live a

end Sys2Proof.Machine
end

