-- ==== Sys2Proof/Machine/Bus.lean ====
section
/-!
DEFINITION. Register writes and reads by address (spec/00_scope.md, Table 0.2; spec/25_register_map.md): what each register takes,
with the refusals that its chapter gives, and the reads that change state. A register whose write has a command of its own calls
that command's meaning.
-/

namespace Sys2Proof.Machine

open Sys2Proof

/-- The state after a meaning; s where it gives none. -/
def State.via (s : State) (o : Host.Outcome State Fault Refusal) : State :=
  match o with
  | .next t => t
  | _ => s

/-- A write by access code (Table 0.2): RW and RS bits take the data, W1C bits are cleared and W1S bits set by a 1, all others
keep their value. -/
def State.plainWrite (s : State) (a : Nat) (w : Word) : State :=
  match rowOf a with
  | some r => s.setWord a ((((s.word a &&& ~~~r.rw) ||| (w &&& r.rw)) &&& ~~~(w &&& r.w1c)) ||| (w &&& r.w1s))
  | none => s

/-- Field f of a data word. -/
def fieldIn (w : Word) (f : Field) : Nat := bits w.toNat f.hi f.lo

/-- v lies from lo to hi. -/
def inRange (lo hi v : Nat) : Bool := decide (lo ≤ v) && decide (v ≤ hi)

/-- A block whose domain is off takes no register write (R500; assumption 70, DEDUCED). -/
def State.blockOff (s : State) (a : Nat) : Bool :=
  if within 0x20000 0x40000 a then !s.domainOn 4
  else if within 0x40000 0x60000 a then !s.domainOn 1
  else if within 0x100000 0x118000 a then decide ((a - 0x100000) % 0x4000 < 0x200) && !s.domainOn (17 + (a - 0x100000) / 0x4000)
  else if within 0x140000 0x141000 a then !s.domainOn 14
  else if within 0x1C0500 0x1C0700 a || within 0x1C0900 0x1C0C00 a then !s.domainOn 26
  else if within 0x200000 0x240000 a then !s.domainOn 28
  else if within 0x2C1000 0x2E0000 a then !s.domainOn 31
  else if within 0x300000 0x340000 a then !s.domainOn 3
  else false

/-! ### Writes, block by block -/

/-- ARM. -/
def State.writeArm (s : State) (a : Nat) (w : Word) : State :=
  if a = 0x10000 then
    match w.toNat % 8 with
    | 0 => s
    | 1 => s.via (execArmCheck s)
    | 2 => s.via (execArmAccept s)
    | 4 => s.via (execArmRecarve s)
    | _ => s.via (execArmCmdMultiBit s)
  else if a = 0x10008 then s.via (execArmLoadAddrWrite w s)
  else if a = 0x1000C then s.via (execArmLoadDataWrite w s)
  else s.plainWrite a w

/-- TICK. -/
def State.writeTick (s : State) (a : Nat) (w : Word) : State :=
  if a = 0x20000 then s.via (execTickForceHoldWrite w s)
  else if a = 0x20024 then (if bit w.toNat 0 then s.via (execTickHwmClr s) else s)
  else s.plainWrite a w

/-- A write that places a DSL field out of its range (spec/04, Registers). -/
def State.dslEnvBad (s : State) : State := s.logDev 0x0309 0xF 0

/-- DSL. -/
def State.writeDsl (s : State) (a : Nat) (w : Word) : State :=
  match arrayAt 0x41000 4 1024 a with
  | some (n, _) => s.via (execDslFidWrite (Fin.ofNat 1024 n) w s)
  | none =>
    if a = 0x40000 then
      let s := s.plainWrite a w
      if bit w.toNat 0 || s.get DSL_STATUS_frame == 0 then s else s.setFrame 0
    else if a = 0x40008 then
      (if inRange 2 8 (fieldIn w DSL_ALIGN_CFG_loss_n) && inRange 1 4 (fieldIn w DSL_ALIGN_CFG_presync_n) &&
        inRange 0 4 (fieldIn w DSL_ALIGN_CFG_marker_err) then s.plainWrite a w else s.dslEnvBad)
    else if a = 0x40014 then
      (if inRange 3 5 (fieldIn w DSL_BER_CFG_sf_exp) && inRange 4 9 (fieldIn w DSL_BER_CFG_sd_exp) then s.plainWrite a w else s.dslEnvBad)
    else if a = 0x40180 then
      let s := s.via (execLoopHoldWrite 0 (bit w.toNat 0) s)
      s.via (execLoopHoldWrite 1 (bit w.toNat 1) s)
    else if a = 0x40184 then s.via (execLoopEnvWrite 0 w s)
    else if a = 0x4018C then s.via (execLoopManWrite 0 w s)
    else if a = 0x40190 then s.via (execLoopEnvWrite 1 w s)
    else if a = 0x40198 then s.via (execLoopManWrite 1 w s)
    else s.plainWrite a w

/-- USL_ALLOCn (Table 5.15, R134): an announce or ranging AID is refused as ENV_BAD, an AID valid in another entry as AID_DUP;
valid is written only where the Armature gives the index to a niche (assumption 23, DESIGN CHOICE). -/
def State.writeAlloc (s : State) (n : Nat) (w : Word) : State :=
  let aid := fieldIn w (USL_ALLOC_aid n)
  let old := s.get (USL_ALLOC_aid n)
  let was := s.on (USL_ALLOC_valid n)
  let valid := if (s.allocOwner n).isSome then bit w.toNat 15 else was
  if 0xF00 ≤ aid then s.logDev 0x0409 0xF (fdata n 0 0)
  else if (List.range 64).any (fun i => i != n && s.on (USL_ALLOC_valid i) && s.get (USL_ALLOC_aid i) == aid) then
    s.logDev 0x040B 0xF (fdata n 0 0)
  else
    let s := (s.put (USL_ALLOC_aid n) aid).putB (USL_ALLOC_valid n) valid
    (if was && (!valid || aid != old) then s.markRemovals old else s).syncBound

/-- USL. -/
def State.writeUsl (s : State) (x : Ambient) (a : Nat) (w : Word) : State :=
  match arrayAt 0x61000 4 1024 a, arrayAt 0x60100 4 64 a, arrayAt 0x60084 4 4 a, arrayAt 0x600A4 4 4 a with
  | some (n, _), _, _, _ => s.via (execUslFidWrite (Fin.ofNat 1024 n) w s)
  | _, some (n, _), _, _ => s.writeAlloc n w
  | _, _, some (m, _), _ => s.via (execLoopEnvWrite (Fin.ofNat 7 (m + 2)) w s)
  | _, _, _, some (m, _) => s.via (execLoopManWrite (Fin.ofNat 7 (m + 2)) w s)
  | _, _, _, _ =>
    if a = 0x60000 then
      let was := s.on USL_CTRL_force_dark
      let s := s.plainWrite a w
      if s.on USL_CTRL_force_dark != was then s.setSafe 4 (s.on USL_CTRL_force_dark) else s
    else if a = 0x60010 then (if bit w.toNat 16 then s.via (execUslSafeClr x.dark s) else s)
    else if a = 0x60080 then
      s.each (List.range 4) (fun m t => t.via (execLoopHoldWrite (Fin.ofNat 7 (m + 2)) (bit w.toNat m) t))
    else s.plainWrite a w

/-- ACT: T3 of 0 is refused (Table 6.9); 0 in ACT_SILENCE.silenced acts as SILENCE op 0 (R168; assumption 25, DEDUCED). -/
def State.writeAct (s : State) (a : Nat) (w : Word) : State :=
  if a = 0x80010 ∧ fieldIn w ACT_T3_t3 = 0 then s.logDev 0x050C 0xF 0
  else if a = 0x80014 ∧ !bit w.toNat 0 then s.via (execSilenceReleaseWrite w s)
  else s.plainWrite a w

/-- PND: the guard flows and the span map await the tick edge. -/
def State.writePnd (s : State) (a : Nat) (w : Word) : State :=
  match arrayAt 0xA1000 4 256 a with
  | some (n, _) => s.via (execPndGflowWrite (Fin.ofNat 256 n) w s)
  | none =>
    if a = 0xA0018 then (if bit w.toNat 0 then s.via (execPndCmdUnbind s) else s)
    else if within 0xA0100 0xA0180 a then { s with pnd := { s.pnd with writes := s.pnd.writes ++ [(a, w)] } }
    else s.plainWrite a w

/-- CEL: the floor's range, the audit's acknowledgement, the descriptor latch with its check byte open, queue limits of
assigned QIDs. -/
def State.writeCel (s : State) (a : Nat) (w : Word) : State :=
  if a = 0xC0004 then
    (if inRange 1024 16384 (fieldIn w CEL_FLOOR_floor) then s.plainWrite a w else s.logDev 0x0705 0xF 0)
  else if a = 0xC002C then s.via (execCalAckWrite w s)
  else if a = 0xC0030 then
    let c := fieldIn w CEL_DESC_SEL_cell
    let d := s.descriptor c ((s.nextCell c).getD s.free)
    let s := ((s.plainWrite a w).put CEL_DESC_LO_desc_lo d).put CEL_DESC_HI_desc_hi (d / 2 ^ 32 % 2 ^ 24 + s.tookFree.free % 256 * 2 ^ 24)
    s.tookFree.tookFree
  else match arrayAt 0xC8000 4 2048 a with
    | some (q, _) => if (s.qidOwner q).isSome then s.plainWrite a w else s.logDev 0x0704 0xF 0
    | none => s.plainWrite a w

/-- ETH: an unclocked port takes nothing (R238); frame lengths have ranges (Table 9.7). -/
def State.writeEth (s : State) (a : Nat) (w : Word) : State :=
  match arrayAt 0x100000 0x4000 6 a with
  | none => s
  | some (p, o) =>
    let f := Fin.ofNat 6 p
    if s.ethMux p = 0 then s.modeBad p
    else if o = 0 then (s.plainWrite a w).syncLink p
    else if o = 8 then
      (if inRange 60 12284 (fieldIn w (ETH_MAXLEN_tx p)) && inRange 64 12288 (fieldIn w (ETH_MAXLEN_rx p)) then s.plainWrite a w
       else s.modeBad p)
    else if o = 0xC ∨ o = 0x10 then (if 1000000 < w.toInt.natAbs then s.modeBad p else s.ethPend p a w)
    else if o = 0x14 then s.via (execEthCbsWrite f 8 w s)
    else if o = 0x80 then s.via (execEthWakeEnable f w s)
    else match arrayAt 0x20 4 8 o with
      | some (c, _) => s.via (execEthCbsWrite f (Fin.ofNat 9 c) w s)
      | none =>
        match arrayAt 0x100 0x20 8 o with
        | some (k, 0) => if inRange 1 128 (fieldIn w (ETH_WAKE_CFG_len p k)) then s.plainWrite a w else s.modeBad p
        | _ => s.plainWrite a w

/-- Niche n names profile p, which it does not own (R263). -/
def State.profileDenied (s : State) (who : Agent) (p : Nat) : Option Nat :=
  (agentNiche who).bind (fun n => if s.profileOwner p == some n then none else some n)

/-- A write that awaits the tick edge in a shadow copy (R278), unless it names a profile of another owner: a rule names
one whether it is valid or not (R263). -/
def State.clsShadow (s : State) (who : Agent) (named : Option Nat) (a : Nat) (w : Word) : State :=
  match named.bind (s.profileDenied who) with
  | some n => s.deny n (agentId who) a
  | none =>
    let m : Word := match rowOf a with | some r => r.rw | none => 0
    { s with cls := { s.cls with shadow := s.cls.shadow ++ [(a, w &&& m)] } }

/-- CLS: owner sets, sources, profiles, policers (assumption 22, DEDUCED). -/
def State.writeCls (s : State) (who : Agent) (a : Nat) (w : Word) : State :=
  match arrayAt 0x140200 32 7 a, arrayAt 0x140400 64 32 a, arrayAt 0x141000 0x400 17 a, arrayAt 0x148000 16 256 a with
  | some (_, o), _, _, _ =>
    s.clsShadow who (some (if o = 0 then fieldIn w (CLS_SRC_CFG_def_prof 0) else fieldIn w (CLS_SRC_RULE_profile 0 0))) a w
  | _, some _, _, _ => s.clsShadow who none a w
  | _, _, some (n, o), _ =>
    let f := Fin.ofNat 17 n
    if o = 0 then s.clsShadow who (some (fieldIn w (CLS_NCFG_mesh_prof n))) a w
    else if o = 4 then s.via (execClsNtabWrite f w s)
    else if o = 8 then
      match w.toNat % 8 with
      | 1 => s.via (execClsUpdWrite f s)
      | 2 => s.via (execClsUpdRead f s)
      | 3 => s.via (execClsUpdHash f s)
      | 4 => s.via (execClsUpdInvalidate f s)
      | _ => if s.on (CLS_UPD_STATUS_busy n) then s.updRefuse n 0x0902 else s
    else if o = 0xA0 then s.via (execClsTreeSelWrite f w s)
    else s.plainWrite a w
  | _, _, _, some (_, o) =>
    let v := w.toNat % 2 ^ 24
    if (o = 0 ∧ 10000000 < v) ∨ (o = 4 ∧ v < 256) then s else s.plainWrite a w
  | _, _, _, _ => s.plainWrite a w

/-- TDM: port, circuit and member configurations await the tick edge (R294; spec/11, If a port's type is changed). -/
def State.writeTdm (s : State) (a : Nat) (w : Word) : State :=
  match arrayAt 0x180100 128 12 a, arrayAt 0x180800 16 12 a, arrayAt 0x181000 64 48 a with
  | some (t, 0), _, _ =>
    if inRange 1 12 (fieldIn w (TDM_TRIB_CFG_n t)) then
      s.tdmQueue a ((s.word a &&& 0xFFFFF0E0#32) ||| (w &&& 0xF1F#32))
    else s.tdmBad 0x0A05 t
  | _, some (c, 0), _ => s.via (execTdmCirWrite (Fin.ofNat 12 c) w s)
  | _, _, some (m, 0) => s.via (execTdmMemWrite (Fin.ofNat 48 m) w s)
  | _, _, _ =>
    if a = 0x180000 then (if bit w.toNat 0 then { s with tdm := { s.tdm with pmClr := true } } else s)
    else s.plainWrite a w

/-- TIM_VIEWv: the shadow registers and the command (R311 to R313). -/
def State.writeView (s : State) (who : Agent) (v o a : Nat) (w : Word) : State :=
  let f := Fin.ofNat 4 v
  if !s.mayWriteView who v then s.refuseView who v
  else if o ≠ 0x20 then s.plainWrite a w
  else if bit w.toNat 0 && decide (1000000000 ≤ s.get (TIM_VIEW_OFS_NS_ons v)) then s.viewBad
  else
    let s := s.when (bit w.toNat 0) (fun t => t.via (execViewOffsetCmd who f t))
    let s := s.when (bit w.toNat 1) (fun t => t.via (execViewRateCmd who f t))
    s.when (bit w.toNat 2) (fun t => t.via (execViewStepCmd who f t))

/-- TIM and port B. -/
def State.writeTim (s : State) (who : Agent) (x : Ambient) (a : Nat) (w : Word) : State :=
  match arrayAt 0x1C0100 64 4 a, arrayAt 0x1C0600 64 4 a, arrayAt 0x1C0A00 32 8 a, arrayAt 0x1C0B00 16 4 a with
  | some (v, o), _, _, _ => s.writeView who v o a w
  | _, some (k, o), _, _ =>
    let f := Fin.ofNat 4 k
    if o = 0x1C ∧ 100000 < w.toInt.natAbs then s
    else if o = 0x20 then
      (s.when (bit w.toNat 1) (fun t => t.via (execToutDisarm f t))).when (bit w.toNat 0) (fun t => t.via (execToutArm who f t))
    else s.plainWrite a w
  | _, _, some (i, 0), _ => s.via (execDinCfgWrite (Fin.ofNat 8 i) w (x.dins.getD i 0) s)
  | _, _, _, some (k, 4) =>
    let f := Fin.ofNat 4 k
    let s := s.when (bit w.toNat 8) (fun t => t.via (execDoutClear f t))
    s.via (execDoutCmd f (bit w.toNat 0) s)
  | _, _, _, _ =>
    if a = 0x1C0008 then (if bit w.toNat 0 then s.via (execTimSnap s) else s)
    else if a = 0x1C0280 ∨ a = 0x1C0288 then
      (if fieldIn w (TIM_SRV_CFG_i 0) = 0 then s.viewBad else s.plainWrite a w)
    else if a = 0x1C071C then
      (if bit w.toNat 0 then s.via (execTimCalGo who (Fin.ofNat 4 (fieldIn w TIM_CAL_CMD_target)) s) else s)
    else s.plainWrite a w

/-- MSH: what the schedule rests on is written only while run = 0 (R346); R342, R345, Table 13.7
(assumption 25, DEDUCED). -/
def State.writeMsh (s : State) (a : Nat) (w : Word) : State :=
  let bad := s.mshLog 0x0C0B 0
  let slots := match s.device with | some d => d.slotframes | none => 0
  match arrayAt 0x204000 16 512 a, arrayAt 0x200080 4 4 a with
  | some (n, o), _ => s.via (execMshNodeWrite (Fin.ofNat 512 n) (Fin.ofNat 4 (o / 4)) w s)
  | _, some (k, _) =>
    if bit w.toNat 31 && decide (slots ≤ k) then bad
    else if inRange 1 1021 (fieldIn w (MSH_SF_size k)) then s.plainWrite a w else s
  | _, _ =>
    if a = 0x200000 then
      let s := s.put MSH_CTRL_min_level (fieldIn w MSH_CTRL_min_level)
      if bit w.toNat 0 then s.via (execMeshRun s) else if s.on MSH_CTRL_run then s.via (execMeshStop s) else s
    else if a = 0x200008 ∨ a = 0x20000C ∨ a = 0x200054 ∨ within 0x200100 0x200140 a then
      (if s.on MSH_CTRL_run then bad
       else if a = 0x200054 ∧ !inRange 1 64 (fieldIn w MSH_HOP_CTRL_len) then s else s.plainWrite a w)
    else if a = 0x200014 then
      let lo := fieldIn w MSH_BACKOFF_min_be
      if inRange lo 8 (fieldIn w MSH_BACKOFF_max_be) && inRange 0 7 (fieldIn w MSH_BACKOFF_retries) then s.plainWrite a w else s
    else if a = 0x200038 ∨ a = 0x20003C then
      let t := s.plainWrite a w
      if t.asnHwm = s.asnHwm then t else { t with msh := { t.msh with fresh := 0 } }
    else if a = 0x200040 then
      (s.via (execLoopHoldWrite 6 (bit w.toNat 8) s)).put MSH_CCA_CTRL_margin (fieldIn w MSH_CCA_CTRL_margin)
    else if a = 0x200044 then s.via (execLoopEnvWrite 6 w s)
    else if a = 0x20004C then s.via (execLoopManWrite 6 w s)
    else if within 0x200600 0x200680 a ∧ fieldIn w (MSH_KID_kid 0) = 0 then bad
    else s.plainWrite a w

/-- FIO: a die whose link is down takes nothing (R387). -/
def State.writeFio (s : State) (who : Agent) (a : Nat) (w : Word) : State :=
  let k := s.get FIO_CTAB_SEL_table
  if !s.on FIO_STATUS_link then s.dieDiscard
  else match arrayAt 0x240100 32 8 a, arrayAt 0x240200 4 3 a, arrayAt 0x240300 32 2 a, arrayAt 0x240500 8 32 a with
  | some (n, 0), _, _, _ => s.via (execFioEnergyCfgWrite (Fin.ofNat 11 n) w s)
  | some (n, 8), _, _, _ =>
    if s.get (FIO_AIN_CFG_curve n) = 11 ∧ fieldIn w (FIO_AIN_SPAN_span n) = 0 then s.fioCfgBad (s.ainOwner n) n else s.plainWrite a w
  | _, some (i, _), _, _ => s.via (execFioEnergyCfgWrite (Fin.ofNat 11 (8 + i)) w s)
  | _, _, some (j, 0), _ => s.via (execLoopTxmWrite who (Fin.ofNat 2 j) w s)
  | _, _, some (j, 4), _ => s.via (execLoopSetWrite (Fin.ofNat 2 j) w s)
  | _, _, some (j, o), _ =>
    let other := if o = 8 then s.word (a + 4) else s.word (a - 4)
    if s.on (FIO_LOOP_CFG_txm j) && (o == 8 || o == 0xC) && other == w then s.fioCfgBad (s.loopOwner j) j else s.plainWrite a w
  | _, _, _, some (p, o) => s.setTabWord k (if o = 0 then 1 + 2 * p else 2 + 2 * p) w
  | _, _, _, _ =>
    if a = 0x240404 then (if bit w.toNat 0 then s.via (execCtabCommit s) else s)
    else if a = 0x240408 then s.setTabWord k 0 (w &&& 0x33F#32)
    else s.plainWrite a w

/-- CPH: an owner set (assumption 22, DEDUCED; assumption 80, DESIGN CHOICE). -/
def State.writeCphSet (s : State) (who : Agent) (o r a : Nat) (w : Word) : State :=
  let f := Fin.ofNat 17 o
  if r = 0 then
    let own := if o < 16 then (s.ringQid o (fieldIn w (CPH_NLA_ring o))).isSome else (s.ringQid 0 (fieldIn w (CPH_NLA_ring o))).isSome
    if own then s.plainWrite a w
    else match agentNiche who with
      | some n => s.deny n (agentId who) a
      | none => s.limDev 0x0001 0xF (fdata 0 0 a)
  else if r = 4 then
    let k := Fin.ofNat 256 (fieldIn w (CPH_LOAD_CMD_slot o))
    match w.toNat % 8 with
    | 1 => s.via (execCphPlainLoad f k s)
    | 2 => s.via (execCphUnwrapLoad f k (Fin.ofNat 256 (fieldIn w (CPH_LOAD_CMD_wslot o))) s)
    | 3 => s.via (execCphZero f k s)
    | _ => s
  else if within 0x20 0x48 r then s.setWord a w
  else s.plainWrite a w

/-- CPH. -/
def State.writeCph (s : State) (who : Agent) (a : Nat) (w : Word) : State :=
  match arrayAt 0x281000 0x100 17 a, arrayAt 0x284000 8 256 a with
  | some (o, r), _ => s.writeCphSet who o r a w
  | _, some (k, 0) =>
    let o := match agentNiche who with | some n => n | none => (s.slotOwner k).getD 16
    s.via (execCphSlotCfgWrite (Fin.ofNat 17 o) (Fin.ofNat 256 k) w s)
  | _, _ =>
    if a = 0x28000C then (if bit w.toNat 0 then s.via (execCphEraseCmd s) else s)
    else if a = 0x280010 then
      (s.when (bit w.toNat 0) (fun t => t.via (execSecretEnrolCmd t))).when (bit w.toNat 1) (fun t => t.via (execSecretClearCmd t))
    else if a = 0x280014 then (if s.on CPH_STATUS_secret then s else s.plainWrite a w)
    else if within 0x280020 0x280040 a then s.setWord a w
    else s.plainWrite a w

/-- HIF rings: a niche in reset takes no write (R225); of a served niche only its function writes; addresses and write-back
stand while en = 1 (spec/16, Ring life; assumption 80, DESIGN CHOICE). -/
def State.writeRing (s : State) (who : Agent) (n r o a : Nat) (w : Word) : State :=
  let fn := Fin.ofNat 16 n
  let fr := Fin.ofNat 64 r
  if s.closed n then s
  else if o = 0 then (if bit w.toNat 31 then s.via (execRingEnable who fn fr w s) else s.via (execRingDisable who fn fr w s))
  else if o = 0x1C then s.via (execRingDoorbell who fn fr w s)
  else if o = 0x30 || within 4 0x1C o then
    (if !s.ringWriter who n || (o != 0x30 && s.on (HIF_RING_CFG_en n r)) then s.hifLog n r 0x0F02 else s.plainWrite a w)
  else s

/-- A write of word w at a byte offset of function f's MSI-X table; a vector whose mask bit is cleared may be sent. -/
def State.msixWrite (s : State) (f off : Nat) (w : Word) : State :=
  let n := if f = 0 then 64 else 68
  if off < 16 * n then
    let v : Word := if off % 16 = 12 then w &&& 1#32 else if off % 16 = 0 then w &&& 0xFFFFFFFC#32 else w
    (s.putMsix f off v).sendPending f
  else s

/-- HIF. -/
def State.writeHif (s : State) (who : Agent) (a : Nat) (w : Word) : State :=
  match arrayAt 0x2C1000 0x1000 16 a, arrayAt 0x2C0100 16 16 a, arrayAt 0x2C0200 4 16 a with
  | some (n, o), _, _ => s.writeRing who n (o / 64) (o % 64) a w
  | _, some (n, o), _ =>
    let b := some (Fin.ofNat 16 n)
    if o = 0 then s.via (execSupPfTxWrite who b w s)
    else if o = 8 ∧ bit w.toNat 31 then s.via (execMbxFlush who b s)
    else s
  | _, _, some (n, _) => if s.owns n (fun x => x.veto) then s.plainWrite a w else s
  | _, _, _ => if within 0x2D8000 0x2D9000 a then s.msixWrite 0 (a - 0x2D8000) w else s.plainWrite a w

/-- SUP. -/
def State.writeSup (s : State) (who : Agent) (a : Nat) (w : Word) : State :=
  if a = 0x2E0010 then s.via (execSupPfTxWrite who none w s)
  else if a = 0x2E0018 then (if bit w.toNat 31 then s.via (execMbxFlush who none s) else s)
  else s.plainWrite a w

/-- CRT (Table 18.9). -/
def State.writeCrt (s : State) (a : Nat) (w : Word) : State :=
  if a = 0x300000 ∧ fieldIn w CRT_CFG_speed = 3 then s.crtLog 0x110B 0
  else if a = 0x300024 then
    let t := fieldIn w CRT_RAW_addr
    if bit w.toNat 31 then s.via (execCrtRawGo w s)
    else if t = 0x50 ∨ t = 0x51 then s.plainWrite a w
    else s.crtLog 0x110B 0
  else s.plainWrite a w

/-- PWR (Table 19.8): gasp_clr is taken before gasp, and gasp before a mode request. -/
def State.writePwr (s : State) (a : Nat) (w : Word) : State :=
  match arrayAt 0x340020 8 4 a with
  | some (m, o) => s.via (execPwrMaskWrite (Fin.ofNat 4 m) (o == 4) w s)
  | none =>
    if a = 0x340008 then
      let s := s.when (bit w.toNat 9) (fun t => t.via (execPwrGaspClr t))
      let s := s.when (bit w.toNat 8) (fun t => t.via (execPwrGaspCmd t))
      s.when (bit w.toNat 3) (fun t => t.via (execPowerModeRequest (Fin.ofNat 8 (w.toNat % 8)) t))
    else if a = 0x340040 then
      (if inRange 1 100 (fieldIn w PWR_OUTAGE_CFG_filt) && inRange 1 255 (fieldIn w PWR_OUTAGE_CFG_step) then s.plainWrite a w else s)
    else if a = 0x340064 then
      { s with flt := { s.flt with borLoad := s.flt.borLoad && !bit w.toNat 1, borSupply := s.flt.borSupply && !bit w.toNat 2 } }
    else s.plainWrite a w

/-- FLC: the host has port 2; ports 0 and 1 take commands only from their cores (spec/20, Registers; assumption
22, DEDUCED). -/
def State.writeFlc (s : State) (a : Nat) (w : Word) : State :=
  match arrayAt 0x380100 64 3 a with
  | some (p, o) =>
    if p ≠ 2 then s
    else if o = 0 then
      match w.toNat % 8 with
      | 1 => s.via (execFlashProgramCmd 2 s)
      | 2 => s.via (execFlashEraseCmd 2 s)
      | 3 => s.via (execFlashSuspendCmd s)
      | 4 => s.via (execFlashResumeCmd s)
      | _ => s
    else s.plainWrite a w
  | none => if a = 0x380004 ∧ fieldIn w FLC_CFG_idle = 0 then s else s.plainWrite a w

/-- CST. -/
def State.writeCst (s : State) (a : Nat) (w : Word) : State :=
  if a = 0x3A0004 ∧ !inRange 10 3600 (fieldIn w CST_CFG_settle) then s else s.plainWrite a w

/-- FLT (assumption 25, DEDUCED). -/
def State.writeFlt (s : State) (a : Nat) (w : Word) : State :=
  match arrayAt 0x3C0100 16 16 a with
  | some (n, 8) => s.via (execFltLogAck (Fin.ofNat 17 n) w s)
  | some (n, 0xC) => if bit w.toNat 0 then s.via (execFltNcmdReset (Fin.ofNat 16 n) s) else s
  | _ =>
    if a = 0x3C000C then (if bit w.toNat 0 then s.via (execFltCmdWarm s) else s)
    else if a = 0x3C0010 then
      (if inRange 10 10000 (fieldIn w FLT_WDOG_timeout) then s.plainWrite a w else s.logDev 0x1508 0xF 0)
    else if a = 0x3C0014 then s.via (execWatchdogKick w s)
    else if a = 0x3C0018 then s.via (execFltBlkRstWrite w s)
    else if a = 0x3C001C then
      { s with flt := { s.flt with devLog := { s.flt.devLog with next := w.toNat } } }
    else if a = 0x3C0020 then s.via (execFltLogAck 16 w s)
    else s.plainWrite a w

/-- A chapter assigns address a to a register, or it is a word of the PF's MSI-X table or pending bits (R574, Table 16.3). -/
def assigned (a : Nat) : Bool := (rowOf a).isSome || within 0x2D8000 0x2D8400 a || within 0x2D9000 0x2D9008 a

/-- A write to an assigned register of a block that is present and on. -/
def State.writeBlock (s : State) (who : Agent) (x : Ambient) (a : Nat) (w : Word) : State :=
  if a < 0x10000 then s.plainWrite a w
  else if a < 0x20000 then s.writeArm a w
  else if a < 0x40000 then s.writeTick a w
  else if a < 0x60000 then s.writeDsl a w
  else if a < 0x80000 then s.writeUsl x a w
  else if a < 0xA0000 then s.writeAct a w
  else if a < 0xC0000 then s.writePnd a w
  else if a < 0x100000 then s.writeCel a w
  else if a < 0x140000 then s.writeEth a w
  else if a < 0x180000 then s.writeCls who a w
  else if a < 0x1C0000 then s.writeTdm a w
  else if a < 0x200000 then s.writeTim who x a w
  else if a < 0x240000 then s.writeMsh a w
  else if a < 0x280000 then s.writeFio who a w
  else if a < 0x2C0000 then s.writeCph who a w
  else if a < 0x2E0000 then s.writeHif who a w
  else if a < 0x300000 then s.writeSup who a w
  else if a < 0x340000 then s.writeCrt a w
  else if a < 0x380000 then s.writePwr a w
  else if a < 0x3A0000 then s.writeFlc a w
  else if a < 0x3C0000 then s.writeCst a w
  else s.writeFlt a w

/-- A 32-bit aligned write of word w at PF address a by a source. During a reset and while FATAL is latched nothing is taken
(R536, R540); the windows are read only (R274); absent blocks and unassigned offsets log ABSENT (R3, R574;
assumption 16, DESIGN CHOICE; assumption 17, DEDUCED; assumption 23, DESIGN CHOICE). -/
def State.writeReg (s : State) (who : Agent) (x : Ambient) (a : Nat) (w : Word) : State :=
  if s.flt.fatal || s.flt.phase == .held then s
  else if within 0x1000000 0x2000000 a then s.via (execTableWindowWrite (BitVec.ofNat 24 a) s)
  else if within 0x2000000 0x4000000 a then s
  else if !assigned a then s.limDev 0x0002 0xF (fdata 0 0 a)
  else if s.fuse.is7401 && absentBlock a then s.logDev 0x0002 0xF (fdata 0 0 a)
  else if s.blockOff a then s
  else s.writeBlock who x a w

/-! ### Reads that change state -/

/-- A read of GLB_TEMP: the peak starts anew (Table 24.22; assumption 28, DEDUCED). -/
def State.readTemp (s : State) : State × Word := (s.put GLB_TEMP_peak 0x8000, s.word 0x18)

/-- A read of the PF mailbox or of a niche's: the next word, or the idle word. -/
def State.readBox (s : State) (box : Option (Fin 16)) : State × Word :=
  let a := boxAgent box
  let m := s.mbx a
  match m.tx with
  | w :: rest => (s.setMbx a { m with tx := rest }, w)
  | [] => (s, s.idleWord (128 - m.rx.length))

/-- HI registers that show what a read of their LO partner latched for the source, and E1 to E5 of a stamp queue (R577). -/
def latchedAddr (a : Nat) : Bool :=
  a == 0x2000C || a == 0x200034 ||
  (match arrayAt 0xC2000 32 64 a with | some (_, o) => o == 4 || o == 12 || o == 20 | none => false) ||
  (match arrayAt 0x100000 0x4000 6 a with | some (_, o) => o == 0x208 || o == 0x238 | none => false) ||
  (match arrayAt 0x1C0400 32 6 a with | some (_, o) => decide (8 ≤ o) && decide (o < 0x1C) | none => false) ||
  (match arrayAt 0x1C0500 32 4 a with | some (_, o) => decide (12 ≤ o) && decide (o < 0x20) | none => false) ||
  (match arrayAt 0x1C0A00 32 8 a with | some (_, o) => decide (12 ≤ o) && decide (o < 0x20) | none => false)

/-- A 32-bit aligned read at PF address a by a source: the state after it and the word. -/
def State.readReg (s : State) (src a : Nat) : State × Word :=
  let plain := (s, s.shown a)
  if within 0x2000000 0x4000000 a then
    let f := a - 0x2000000
    ((s.flashRead 2 f 0 0).tookFree, s.flashWord f)
  else if within 0x1000000 0x2000000 a then plain
  else if !assigned a then (s.limDev 0x0002 0xF (fdata 0 0 a), 0)
  else if s.fuse.is7401 && absentBlock a then (s, 0)
  else if latchedAddr a then (s, s.latched src a)
  else if a = 0x18 then s.readTemp
  else if a = 0x20008 then (s.readFcLo src, s.shown a)
  else if a = 0x200030 then (s.latchHi src 0x200034 (s.word 0x200034), s.shown a)
  else if a = 0x2E0014 then s.readBox none
  else match arrayAt 0xC2000 32 64 a, arrayAt 0x100000 0x4000 6 a, arrayAt 0x1C0400 32 6 a, arrayAt 0x1C0500 32 4 a,
    arrayAt 0x1C0A00 32 8 a, arrayAt 0x240100 32 8 a, arrayAt 0x2C0100 16 16 a with
  | some (i, o), _, _, _, _, _, _ => if o % 8 = 0 ∧ o < 24 then (s.readCelLo src i (o / 8), s.shown a) else plain
  | _, some (p, o), _, _, _, _, _ =>
    if o = 0x204 then (s.latchHi src (a + 4) (BitVec.ofNat 32 ((s.ethPort p).rx48 / 2 ^ 32)), s.shown a)
    else if o = 0x234 then (s.latchHi src (a + 4) (BitVec.ofNat 32 ((s.ethPort p).tx48 / 2 ^ 32)), s.shown a)
    else plain
  | _, _, some (p, 4), _, _, _, _ => s.readTsq src p
  | _, _, _, some (i, 8), _, _, _ => s.readTin src i
  | _, _, _, _, some (i, 8), _, _ => s.readDin src i
  | _, _, _, _, _, some (n, 0x10), _ => (s.putB (FIO_AIN_STAT_new n) false, s.shown a)
  | _, _, _, _, _, _, some (n, 4) => s.readBox (some (Fin.ofNat 16 n))
  | _, _, _, _, _, _, _ => plain

end Sys2Proof.Machine
end

