-- ==== Sys2Proof/Machine/Edge.lean ====
section
/-!
DEFINITION. The tick edge over all blocks (spec/02_the_125_microsecond_tick.md, Table 2.3, phase EDGE), and the die
temperature (spec/24_package_and_electrical.md, Table 24.22).
-/

namespace Sys2Proof.Machine

open Sys2Proof

/-- The hottest die sensor, sampled every tick (assumption 28, DEDUCED). -/
def State.sampleTemp (s : State) (temp : BitVec 16) : State :=
  let s := s.put GLB_TEMP_temp temp.toNat
  if s.getS GLB_TEMP_peak < temp.toInt then s.put GLB_TEMP_peak temp.toNat else s

/-- A tick of a trial counts toward settling where the downstream block reports aligned (R528); one without that verdict, while
LOS is not reported, counts toward the failed start of R554. -/
def State.countTrial (s : State) : State :=
  if s.get CST_STATUS_state ≠ 4 then s
  else if s.aligned then { s with cst := { s.cst with settle := s.cst.settle + 1 } }
  else if bit (s.get DSL_DEFECT_reported) 0 then s
  else { s with cst := { s.cst with deaf := s.cst.deaf + 1 } }

/-- TICK_EDGE: the tick engine, then every block's part in phase EDGE. -/
def execTickEdge (xo : Int) (e : Option Int) (cycles : Nat) (frac : Fin 16) (link : LinkSample) (temp : BitVec 16) (s : State) :
    Host.Outcome State Fault Refusal :=
  .next (if s.flt.phase = .held || !s.domainOn 4 then s
  else
    let s := s.tickEdge xo e cycles frac.val
    if s.flt.phase = .held then s
    else (((((s.uslEdge.sampleTemp temp).meshEdge).ethEdge).pwrEdge).pndEdge link).countTrial)

end Sys2Proof.Machine
end

