-- ==== Sys2Proof/Machine/Frag.lean ====
section
/-!
DEFINITION. Downstream fragments (spec/04_downstream_frames.md, R88 to R103, R112, R113): decryption under the line keys,
reassembly of the flows, key epochs and the flow entries.
-/

namespace Sys2Proof.Machine

open Sys2Proof

/-! ### Reassembly (R91 to R94) -/

/-- The reassembly of flow n, where it has begun. -/
def State.flow (s : State) (n : Nat) : Option Flow := s.dsl.flows.find? (fun x => x.flow == n)

/-- The reassembly of flow n is x, or has ended. -/
def State.setFlow (s : State) (n : Nat) (x : Option Flow) : State :=
  { s with dsl := { s.dsl with flows := s.dsl.flows.filter (fun y => y.flow != n) ++ x.toList } }

/-- A fragment of flow n has been lost: the flow is broken (R93, R112), also one that discards up to the next last fragment
(R92). A lost fragment ends neither, whatever its last bit says (assumption 77, DEDUCED). -/
def State.breakFlow (s : State) (n : Nat) : State :=
  match s.flow n with
  | some x => s.setFlow n (some { x with broken := true })
  | none => s.setFlow n (some ⟨n, none, s.dsl.count, true, false⟩)

/-- Every flow with a partial SDU is broken (R89). -/
def State.breakPartials (s : State) : State :=
  s.each ((s.dsl.flows.filter (fun x => x.sdu.isSome)).map (fun x => x.flow)) (fun n t => t.breakFlow n)

/-- The cells of a partial SDU go back (R93). -/
def State.dropPartial (s : State) (x : Flow) : State :=
  match x.sdu with
  | some id => s.release id
  | none => s

/-- Bytes b are written at the end of SDU id, which requests the cells that this needs: behind those it waits for, where it waits
(R218, R219). -/
def State.appendTo (s : State) (id : Nat) (b : List Byte) : State :=
  match s.sdu id with
  | none => s
  | some d =>
    let due := match s.cel.waits.find? (fun w => w.id == id) with | some w => w.need | none => 0
    let need := cellsFor (d.data.length + b.length) - d.cells.length - due
    let s := s.modSdu id (fun d => { d with data := d.data ++ b })
    if 0 < due then
      { s with cel := { s.cel with
        waits := s.cel.waits.map (fun (w : CellWait) => if w.id = id then { w with need := w.need + need } else w) } }
    else State.writeCells need id s

/-- The first bytes of an SDU of a downstream flow, in cells of N0 (R211): its id and the state after them. -/
def State.beginPartial (s : State) : Nat × State :=
  (s.cel.nextId, s.newSdu { id := 0, owner := 0, data := [], source := 6 })

/-- A good fragment of flow n (R91 to R93; assumption 77, DEDUCED). -/
def State.takeFragment (s : State) (n : Nat) (last : Bool) (b : List Byte) : State :=
  let x := (s.flow n).getD ⟨n, none, s.dsl.count, false, false⟩
  if x.skip then s.setFlow n (if last then none else some x)
  else if x.broken then
    if last then ((s.dropPartial x).sat (DSL_CNT_count 11)).setFlow n none else s
  else
    let r := match x.sdu with | some id => (id, s) | none => s.beginPartial
    let s := r.2
    let over_ : Flow := ⟨n, none, x.first, false, true⟩
    match s.sdu r.1 with
    | none => s.setFlow n (if last then none else some over_)
    | some d =>
      if s.closed 0 then (s.dropAs r.1 6).setFlow n (if last then none else some over_)
      else if 12288 < d.data.length + b.length then
        ((s.release r.1).sat (DSL_CNT_count 13)).setFlow n (if last then none else some over_)
      else
        let s := s.appendTo r.1 b
        if (s.sdu r.1).isNone then s.setFlow n (if last then none else some over_)
        else if last then (s.setFlow n none).forward r.1 (.line n)
        else s.setFlow n (some { x with sdu := some r.1 })

/-! ### Line decryption (R95 to R98, R101 to R103) -/

/-- How an encrypted fragment is judged by its parity. -/
inductive KeyUse where
  /-- The current parity, or the old one through frame F + 15. -/
  | use
  /-- The new parity before frame F. -/
  | early
  /-- The other parity in the first 16 frames of an epoch, with no switch pending. -/
  | implicit
  | stale
  deriving DecidableEq, Repr

/-- The use of parity p of pair k in the frame received (R101 to R103). -/
def State.keyUse (s : State) (k p : Nat) : KeyUse :=
  let x := s.pair k
  let fc := s.dsl.count
  if p = s.get (DSL_KEYPAIR_parity k) then .use
  else match x.pending with
  | some _ => if x.old.any (fun o => o.1 == p && decide (fc < o.2 + 16)) then .use else .early
  | none =>
    if x.old.any (fun o => o.1 == p && decide (o.2 ≤ fc ∧ fc < o.2 + 16)) then .use
    else if fc % 8192 < 16 then .implicit else .stale

/-- IV of fragment index i of the frame received (R96). -/
def State.fragIv (s : State) (fid i : Nat) : List Byte :=
  beBytes 12 (s.dsl.count * 2 ^ 45 + fid * 2 ^ 29 + i % 2 ^ 14 * 2 ^ 15)

/-- The plaintext of an encrypted fragment with 51 header bits v, where its tag is right (R95). -/
def State.openFragment (s : State) (key : List Byte) (v i : Nat) (text tag : List Byte) : Option (List Byte) :=
  let iv := s.fragIv (bits v 50 35) i
  if (gcmTag key iv (beBytes 8 (hecEncode v)) text).take 8 = tag then some (gcmText key iv text) else none

/-- A fragment that counter k counts is discarded, and its flow is broken. -/
def State.loseFragment (s : State) (n k : Nat) : State := (s.sat (DSL_CNT_count k)).breakFlow n

/-- A fragment whose key is stale is discarded. Its record has a count of its own (R114); Table 4.16 has no code for it but
KEY_MISSING's (assumption 76, DEDUCED). -/
def State.keyStale (s : State) (n : Nat) : State := (s.loseFragment n 16).limitKind 16 0x0305 0xF 1 0

/-- An encrypted fragment of flow n with 51 header bits v (R95 to R103, R416). -/
def State.takeSealed (s : State) (n v i : Nat) (text tag : List Byte) : State :=
  let k := s.get (DSL_FID_pair n)
  let p := bits v 19 19
  let u := s.keyUse k p
  let last := bit v 20
  let missing := (s.loseFragment n 15).limDev 0x0305 0xF 0
  match u, s.keyIn (2 * k + p) with
  | .stale, _ => s.keyStale n
  | .early, none => missing
  | .implicit, none => missing
  | .use, none => (s.loseFragment n 14).limDev 0x0306 0xF 0
  | _, some key =>
    match s.openFragment key v i text tag with
    | none => (s.loseFragment n 14).limDev 0x0306 0xF 0
    | some b =>
      let s := if u = .implicit then s.modPair k (fun x => { x with implicit := some p }) else s
      s.takeFragment n last b

/-- The DSL_FIDn entry that a fid belongs to (R90). -/
def State.fidEntry (s : State) (fid : Nat) : Option Nat :=
  (List.range 1024).find? (fun n => s.on (DSL_FID_valid n) && s.get (DSL_FID_fid n) == fid)

/-- Parsing of the frame ends with a truncated fragment (R89). -/
def State.truncFrame (s : State) : State :=
  let s := (s.sat (DSL_CNT_count 10)).breakPartials
  { s with dsl := { s.dsl with ended := true } }

/-- A fragment with 51 header bits v at data byte start of the frame, index i (R88 to R90, R98, R112); one of length 0, which
Table 4.6 does not give, carries nothing (assumption 77, DEDUCED). -/
def State.downFragment (s : State) (start i v : Nat) (payload tag : List Byte) (bad : List Nat) : State :=
  let fid := bits v 50 35
  let len := bits v 34 21
  let enc := bit v 18
  let size := 8 + len + (if enc then 8 else 0)
  if fid = 0xFFFF then { s with dsl := { s.dsl with ended := true } }
  else if 145152 < start + size then s.truncFrame
  else match s.fidEntry fid with
  | none => s
  | some n =>
    let s := s.sat (DSL_CNT_count 9)
    if !goodBytes bad start size then s.breakFlow n
    else if enc then s.takeSealed n v i (fitBytes len payload) (fitBytes 8 tag)
    else if s.on (DSL_FID_enc_req n) then s.loseFragment n 17
    else s.takeFragment n (bit v 20) (fitBytes len payload)

/-- First byte of the fragment area (Table 4.1, R88); none where the map header is invalid (R83). -/
def State.fragStart (s : State) : Option Nat :=
  let h := beAt s.dsl.data 16 4
  if mapBad (s.dsl.data.drop 16) s.dsl.marked then none else some (20 + 8 * bits h 31 22 + 48 * bits h 21 19)

/-- The fragment with 51 header bits v at data byte d, with what follows it in the frame; the next one begins where it ends
(R88), with the next index (R90). -/
def State.fragmentAt (s : State) (d v : Nat) : State :=
  let len := bits v 34 21
  let b := s.dsl.data.drop (d + 8)
  let size := 8 + len + (if bit v 18 then 8 else 0)
  let i := s.dsl.index
  { s with dsl := { s.dsl with pos := some (d + size), index := i + 1 } }.downFragment d i v (b.take len) ((b.drop len).take 8)
    s.dsl.marked

/-- FRAGMENT_RX (R88 to R90): the next fragment of an aligned frame. A wing takes no fragments from a line (Table 7.1). -/
def execFragmentRx (s : State) : Host.Outcome State Fault Refusal :=
  .next (if !s.aligned || s.isWing || s.dsl.ended || s.dsl.data.isEmpty then s
  else match s.dsl.pos.or s.fragStart with
  | none => { s with dsl := { s.dsl with ended := true } }
  | some d =>
    if 145152 < d + 8 then { s with dsl := { s.dsl with ended := true } }
    else match hecDecode (beAt s.dsl.data d 8) with
    | none => (s.sat (DSL_CNT_count 4)).truncFrame
    | some (v, corrected) => (s.when corrected (fun t => t.sat (DSL_CNT_count 3))).fragmentAt d v)

/-- SDU_TIMEOUT (R94): the SDU of a flow is incomplete 16 frames after its first fragment (assumption 77, DEDUCED). -/
def execSduTimeout (flow : Fin 1024) (s : State) : Host.Outcome State Fault Refusal :=
  .next (match s.flow flow.val with
  | some x =>
    if x.sdu.isSome && decide (16 ≤ (s.dsl.count + 2 ^ 51 - x.first) % 2 ^ 51) then
      ((s.dropPartial x).sat (DSL_CNT_count 12)).setFlow flow.val
        (if x.broken then some { x with sdu := none } else none)
    else s
  | none => s)

/-! ### Key epochs and flow entries -/

/-- KEY_EPOCH (R99, R100): the message takes effect on the pending switch of its pair. -/
def execKeyEpoch (msg : List Byte) (s : State) : Host.Outcome State Fault Refusal :=
  .next (if s.inInbox msg 0x04 then (s.tookMsg msg).keyEpoch msg else s)

/-- KEY_SLOT_RETIRE (R101): from frame F + 16 the old slot is empty and takes the next key (R169). -/
def execKeySlotRetire (pair : Fin 32) (s : State) : Host.Outcome State Fault Refusal :=
  let k := pair.val
  .next (match (s.pair k).old with
  | some (p, f) =>
    if f + 16 ≤ s.tick.fc then
      let s := (s.emptySlot (2 * k + p)).modPair k (fun x => { x with old := none })
      s.when (s.pairInUse k) (fun t => t.fillLine k p)
    else s
  | none => s)

/-- A write to DSL_FIDn takes effect: a partial SDU on a changed entry is discarded (R113), and the flow's broken and skip marks
with it (assumption 77, DEDUCED). -/
def State.applyFid (s : State) (n : Nat) (w : Word) : State :=
  let s := if s.word (0x41000 + 4 * n) = w then s
    else match s.flow n with
    | some x => ((s.dropPartial x).when x.sdu.isSome (fun t => t.sat (DSL_CNT_count 11))).setFlow n none
    | none => s
  s.setWord (0x41000 + 4 * n) w

/-- FID_CHANGE_APPLY (R113, Table 5.16): the writes to the flow entries accepted since the last edge take effect, and a pair
that comes into use is given its keys (R169). -/
def execFidChangeApply (s : State) : Host.Outcome State Fault Refusal :=
  let d := s.dsl.fidWrites
  let u := s.dsl.ufidWrites
  let s := { s with dsl := { s.dsl with fidWrites := [], ufidWrites := [] } }
  let s := s.each d (fun p t => t.applyFid p.1 p.2)
  let s := s.each u (fun p t => t.setWord (0x61000 + 4 * p.1) p.2)
  .next s.fillLines

end Sys2Proof.Machine
end

