-- ==== Sys2Proof/Machine/Reg.lean ====
section
/-!
DEFINITION. Register accesses as commands: by address through PF BAR0 and the niche windows, their refusals, and the register
requests of the mailbox (spec/00_scope.md; spec/25_register_map.md; spec/17_supervisor_port_and_mailbox.md).
-/

namespace Sys2Proof.Machine

open Sys2Proof

/-! ### Niche windows (Table 25.2) -/

/-- A port offset that its owner reaches (spec/09, Registers). -/
def ethOpen (o : Nat) : Bool :=
  o == 4 || o == 8 || o == 0x14 || within 0x20 0x60 o || within 0x200 0x260 o

/-- Niche n owns a resource. -/
def mine (n : Nat) (o : Option Nat) : Bool := o == some n

/-- TIM and port B in the window of niche n: the PF address behind offset o of the group, and whether niche n owns it
(assumption 18, DEDUCED). -/
def State.timWindow (s : State) (n o : Nat) : Option (Nat × Bool) :=
  let a := 0x1C0000 + o
  if o = 4 || within 8 0x50 o || within 0x700 0x728 o || o = 0x908 then some (a, true)
  else match arrayAt 0x100 64 4 o, arrayAt 0x400 32 6 o, arrayAt 0x500 32 4 o, arrayAt 0x600 64 4 o, arrayAt 0xA00 32 8 o,
    arrayAt 0xB00 16 4 o with
  | some (v, _), _, _, _, _, _ => some (a, v == 2 && s.get TIM_CTRL_v2_owner == n && n != 15)
  | _, some (p, _), _, _, _, _ => some (a, mine n (s.ethOwner p))
  | _, _, some (i, _), _, _, _ => some (a, mine n (s.tinOwner i))
  | _, _, _, some (k, _), _, _ => some (a, mine n (s.toutOwner k))
  | _, _, _, _, some (i, _), _ => some (a, mine n (s.dinOwner i))
  | _, _, _, _, _, some (k, _) => some (a, mine n (s.doutOwner k))
  | _, _, _, _, _, _ => none

/-- The groups below 0x18000: cells, allocations, queues, ports. -/
def State.celWindow (s : State) (n off : Nat) : Option (Nat × Bool) :=
  if off < 0x40 then some (0xC1000 + 0x40 * n + off, true)
  else if within 0x1000 0x1800 off then some (0xC2000 + (off - 0x1000), mine n (s.allocOwner ((off - 0x1000) / 32)))
  else if within 0x4000 0xA000 off then some (0xC8000 + (off - 0x4000), mine n (s.qidOwner ((off - 0x4000) % 0x2000 / 4)))
  else match arrayAt 0x10000 0x1000 6 off with
    | some (p, o) => if ethOpen o then some (0x100000 + 0x4000 * p + o, mine n (s.ethOwner p)) else none
    | none => none

/-- The groups from 0x18000 to 0x29FFF: classifier, time and port B, cipher (assumption 18, DEDUCED). -/
def State.clsWindow (s : State) (n off : Nat) : Option (Nat × Bool) :=
  if off < 0x18400 then some (0x141000 + 0x400 * n + (off - 0x18000), true)
  else if within 0x18400 0x184E0 off then
    let src := (off - 0x18400) / 32
    some (0x140200 + (off - 0x18400), decide (src < 6) && mine n (s.ethOwner src))
  else if within 0x18600 0x18E00 off then some (0x140400 + (off - 0x18600), mine n (s.profileOwner ((off - 0x18600) / 64)))
  else if within 0x19000 0x1A000 off then some (0x148000 + (off - 0x19000), mine n (s.policerOwner ((off - 0x19000) / 16)))
  else if within 0x20000 0x28000 off then s.timWindow n (off - 0x20000)
  else if within 0x28000 0x28100 off then some (0x281000 + 0x100 * n + (off - 0x28000), true)
  else if within 0x29200 0x29800 off then some (0x284000 + (off - 0x29000), mine n (s.slotOwner ((off - 0x29000) / 8)))
  else none

/-- The groups from 0x30000 on: host niche set, mailbox, power notice, host counters, faults. -/
def hostWindow (n off : Nat) : Option (Nat × Bool) :=
  if off < 0x31000 then some (0x2C1000 + 0x1000 * n + (off - 0x30000), true)
  else if off < 0x3100C then some (0x2C0100 + 0x10 * n + (off - 0x31000), true)
  else if within 0x31010 0x31014 off then some (0x2C0200 + 4 * n + (off - 0x31010), true)
  else if within 0x31020 0x31038 off then some (0x2C0400 + 0x20 * n + (off - 0x31020), true)
  else if within 0x38000 0x38010 off then some (0x3C0100 + 0x10 * n + (off - 0x38000), true)
  else if within 0x38400 0x38800 off then some (0x3C2000 + 0x400 * n + (off - 0x38400), true)
  else none

/-- The PF address behind offset off of the window of niche n, and whether niche n owns the resource (R575, R576); none
outside every group of Table 25.2. -/
def State.windowAt (s : State) (n off : Nat) : Option (Nat × Bool) :=
  let t := if off < 0x18000 then s.celWindow n off else if off < 0x30000 then s.clsWindow n off else hostWindow n off
  match t with
  | some (a, o) => if (rowOf a).isSome then some (a, o) else none
  | none => none

/-- Virtual function n + 1 completes memory requests: it is usable and under no FLR (R425, R437). -/
def State.vfOpen (s : State) (n : Nat) : Bool := s.usable (n + 1) && !s.hif.flr.contains (n + 1)

/-! ### Accesses -/

/-- NARROW (R8): an access that is not 32 bits wide or not aligned (assumption 17, DEDUCED). -/
def State.narrow (s : State) (who : Agent) (off : Nat) : State :=
  match who with
  | .pf => if s.flt.fatal then s else s.limDev 0x0004 0xF (fdata 0 0 off)
  | .vf n => if s.vfOpen n.val then s.limNiche n.val 0x0004 (fdata 0 0 off) else s
  | _ => s

/-- NARROW_ACCESS (R8): a write is discarded, a read answers 0 in every byte. -/
def execNarrowAccess (who : Agent) (addr : BitVec 26) (write : Bool) (s : State) : Host.Outcome State Fault Refusal :=
  .next ((s.narrow who addr.toNat).when (!write) (fun t =>
    match who with
    | .pf => t.answer 0 0
    | .vf n => if s.vfOpen n.val then t.answer (agentId who) 0 else t
    | _ => t))

/-- An access of niche n to an offset that Table 25.2 does not map (R13). -/
def State.vfUnmapped (s : State) (n off : Nat) : State := s.logNiche n 0x0002 (fdata 0 0 off)

/-- A write of word w at an offset of the window of niche n. -/
def State.windowWrite (s : State) (n : Fin 16) (x : Ambient) (off : Nat) (w : Word) : State :=
  if !s.vfOpen n.val then s
  else if within 0x3E000 0x3E440 off then s.msixWrite (n.val + 1) (off - 0x3E000) w
  else if within 0x3F000 0x3F00C off then s
  else match s.windowAt n.val off with
    | none => s.vfUnmapped n.val off
    | some (a, false) => s.deny n.val (agentId (.vf n)) a
    | some (a, true) => s.writeReg (.vf n) x a w

/-- REGISTER_WRITE (R7, R10, Table 0.2): a write through PF BAR0, through a niche window, or of one register by the supervisor,
whose class SUP_PERMIT must permit (R452). A niche's own registers take it whether or not they have a command of their own
(assumption 16, DESIGN CHOICE; assumption 17, DEDUCED). -/
def execRegisterWrite (who : Agent) (addr : BitVec 26) (data : Word) (x : Ambient) (s : State) :
    Host.Outcome State Fault Refusal :=
  let a := addr.toNat
  .next (match who with
  | .pf => if a % 4 ≠ 0 then s.narrow .pf a else s.writeReg .pf x a data
  | .vf n => if 0x40000 ≤ a then s else if a % 4 ≠ 0 then s.narrow (.vf n) a else s.windowWrite n x a data
  | .sup =>
    if a % 4 ≠ 0 || !s.mbxReady || !s.marked SUP_PERMIT_class 1 || a == SUP_PERMIT_class.addr then s
    else s.writeReg .sup x a data
  | _ => s)

/-- ABSENT_BLOCK_WRITE (R3): a write to a register that the EVT-7401 does not have. -/
def execAbsentBlockWrite (addr : BitVec 26) (s : State) : Host.Outcome State Fault Refusal :=
  let a := addr.toNat
  .next (if s.fuse.is7401 && absentBlock a && assigned a && !s.flt.fatal then s.logDev 0x0002 0xF (fdata 0 0 a) else s)

/-- VF_UNMAPPED_ACCESS (R13). -/
def execVfUnmappedAccess (n : Fin 16) (off : BitVec 18) (write : Bool) (s : State) : Host.Outcome State Fault Refusal :=
  let o := off.toNat
  .next (if !s.vfOpen n.val || within 0x3E000 0x3E440 o || within 0x3F000 0x3F00C o || (s.windowAt n.val o).isSome then s
  else (s.vfUnmapped n.val o).when (!write) (fun t => t.answer (1 + n.val) 0))

/-- PF_UNMAPPED_ACCESS (R574). -/
def execPfUnmappedAccess (addr : BitVec 26) (write : Bool) (s : State) : Host.Outcome State Fault Refusal :=
  let a := addr.toNat
  .next (if 0x1000000 ≤ a || assigned a then s
  else (s.when (!s.flt.fatal) (fun t => t.limDev 0x0002 0xF (fdata 0 0 a))).when (!write) (fun t => t.answer 0 0))

/-- CROSS_NICHE_ACCESS (R576): the request is refused under R222; its answer is DENIED_COMPLETION's. -/
def execCrossNicheAccess (n : Fin 16) (off : BitVec 18) (s : State) : Host.Outcome State Fault Refusal :=
  .next (if !s.vfOpen n.val then s
  else match s.windowAt n.val off.toNat with
    | some (a, false) => s.deny n.val (1 + n.val) a
    | _ => s)

/-- DENIED_COMPLETION (R222, R223): the oldest refused request leaves the owner check 64 ns after it arrived, with status
0x0001 and no data (assumption 19, DESIGN CHOICE). -/
def execDeniedCompletion (s : State) : Host.Outcome State Fault Refusal :=
  .next (match s.cel.denied with
  | [] => s
  | d :: rest =>
    if s.since d.arrived 64 then
      ((({ s with cel := { s.cel with denied := rest } } : State).countDenied d.niche d.target).send (.completion d.source 1 0))
    else s)

/-- GLB_TEMP_READ (R573, Table 24.22): the PF's read of GLB_TEMP. -/
def execGlbTempRead (s : State) : Host.Outcome State Fault Refusal :=
  .next (if s.flt.fatal then s.answer 0 (s.shown 0x18) else (s.readTemp.1).answer 0 s.readTemp.2)

/-! ### Register requests of the mailbox (R451 to R454) -/

/-- The addresses of a request are aligned and within BAR0 (R454). -/
def Req.addrOk (r : Req) : Bool := r.word 0 % 4 == 0 && r.addrs.all (fun a => decide (a + 3 ≤ 0x3FFFFFF))

/-- The registers at some addresses, read in order. -/
def readAll (src : Nat) : List Nat → State → State × List Word
  | [], s => (s, [])
  | a :: as, s =>
    let x := s.readReg src a
    let y := readAll src as x.1
    (y.1, x.2 :: y.2)

/-- Words written in order from an address on. -/
def writeAll (src : Agent) (x : Ambient) : Nat → List Word → State → State
  | _, [], s => s
  | a, w :: ws, s => writeAll src x (a + 4) ws (s.writeReg src x a w)

/-- MBX_REG_READ (R454). -/
def execMbxRegRead (src : Agent) (s : State) : Host.Outcome State Fault Refusal :=
  .next (s.serve src (fun r => r.type == 2) (fun r t =>
    if r.addrOk then
      let y := readAll (agentId src) r.addrs t
      (y.1, 0, y.2)
    else (t, 0x1008, [])))

/-- MBX_REG_WRITE (R454). -/
def execMbxRegWrite (src : Agent) (x : Ambient) (s : State) : Host.Outcome State Fault Refusal :=
  .next (s.serve src (fun r => r.type == 3) (fun r t =>
    if r.addrOk then (writeAll src x (r.word 0) (r.payload.drop 1) t, 0, []) else (t, 0x1008, [])))

/-- MBX_STATUS (R453, Table 17.4): GLB_SERVICE, GLB_ID, GLB_REV, ARM_STATUS and TICK_STATUS. -/
def execMbxStatus (src : Agent) (s : State) : Host.Outcome State Fault Refusal :=
  .next (s.serve src (fun r => r.type == 4) (fun _ t =>
    (t, 0, [0xC, 0, 4, ARM_STATUS_state.addr, TICK_STATUS_state.addr].map t.shown)))

end Sys2Proof.Machine
end

