-- ==== Sys2Proof/Machine/Dispatch.lean ====
section
/-!
DEFINITION. One arm per command: each calls the meaning of that command.
-/

namespace Sys2Proof.Machine

open Sys2Proof

def exec (i : Instr) (s : State) : Host.Outcome State Fault Refusal :=
  match i with
  | .registerWrite who addr data x => Sys2Proof.Machine.execRegisterWrite who addr data x s
  | .narrowAccess who addr write => Sys2Proof.Machine.execNarrowAccess who addr write s
  | .absentBlockWrite addr => Sys2Proof.Machine.execAbsentBlockWrite addr s
  | .vfUnmappedAccess n off write => Sys2Proof.Machine.execVfUnmappedAccess n off write s
  | .pfUnmappedAccess addr write => Sys2Proof.Machine.execPfUnmappedAccess addr write s
  | .crossNicheAccess n off => Sys2Proof.Machine.execCrossNicheAccess n off s
  | .deniedCompletion => Sys2Proof.Machine.execDeniedCompletion s
  | .tickEdge xo e cycles frac link temp => Sys2Proof.Machine.execTickEdge xo e cycles frac link temp s
  | .phaseMap cycles waited => Sys2Proof.Machine.execPhaseMap cycles waited s
  | .phaseGrant cycles waited => Sys2Proof.Machine.execPhaseGrant cycles waited s
  | .phaseAct cycles waited released => Sys2Proof.Machine.execPhaseAct cycles waited released s
  | .phaseTdm cycles => Sys2Proof.Machine.execPhaseTdm cycles s
  | .phaseTime cycles => Sys2Proof.Machine.execPhaseTime cycles s
  | .phaseSched cycles => Sys2Proof.Machine.execPhaseSched cycles s
  | .phaseMesh cycles => Sys2Proof.Machine.execPhaseMesh cycles s
  | .phaseFio cycles => Sys2Proof.Machine.execPhaseFio cycles s
  | .phasePwr cycles => Sys2Proof.Machine.execPhasePwr cycles s
  | .phaseCaliper cycles => Sys2Proof.Machine.execPhaseCaliper cycles s
  | .phaseReport cycles => Sys2Proof.Machine.execPhaseReport cycles s
  | .phaseWindowEnd phase => Sys2Proof.Machine.execPhaseWindowEnd phase s
  | .xoLost => Sys2Proof.Machine.execXoLost s
  | .tickForceHoldWrite data => Sys2Proof.Machine.execTickForceHoldWrite data s
  | .tickHwmClr => Sys2Proof.Machine.execTickHwmClr s
  | .tickFcLoRead who => Sys2Proof.Machine.execTickFcLoRead who s
  | .armCheck => Sys2Proof.Machine.execArmCheck s
  | .armAccept => Sys2Proof.Machine.execArmAccept s
  | .armRecarve => Sys2Proof.Machine.execArmRecarve s
  | .armCmdMultiBit => Sys2Proof.Machine.execArmCmdMultiBit s
  | .armChecksDone => Sys2Proof.Machine.execArmChecksDone s
  | .armDigestCompareDone => Sys2Proof.Machine.execArmDigestCompareDone s
  | .armatureAcceptance => Sys2Proof.Machine.execArmatureAcceptance s
  | .recarveApply => Sys2Proof.Machine.execRecarveApply s
  | .armLoadDataWrite data => Sys2Proof.Machine.execArmLoadDataWrite data s
  | .armLoadAddrWrite data => Sys2Proof.Machine.execArmLoadAddrWrite data s
  | .markerWindowCheck window => Sys2Proof.Machine.execMarkerWindowCheck window s
  | .counterBlock line => Sys2Proof.Machine.execCounterBlock line s
  | .losRaw asserted => Sys2Proof.Machine.execLosRaw asserted s
  | .lolRaw unlocked => Sys2Proof.Machine.execLolRaw unlocked s
  | .berWindowEnd epoch => Sys2Proof.Machine.execBerWindowEnd epoch s
  | .fragmentRx => Sys2Proof.Machine.execFragmentRx s
  | .sduTimeout flow => Sys2Proof.Machine.execSduTimeout flow s
  | .keyEpoch msg => Sys2Proof.Machine.execKeyEpoch msg s
  | .keyEpochSwitch pair => Sys2Proof.Machine.execKeyEpochSwitch pair s
  | .keySlotRetire pair => Sys2Proof.Machine.execKeySlotRetire pair s
  | .keyImplicit pair => Sys2Proof.Machine.execKeyImplicit pair s
  | .thresholdLoopStep => Sys2Proof.Machine.execThresholdLoopStep s
  | .apdLoopStep => Sys2Proof.Machine.execApdLoopStep s
  | .loopEnvWrite loop data => Sys2Proof.Machine.execLoopEnvWrite loop data s
  | .loopManWrite loop data => Sys2Proof.Machine.execLoopManWrite loop data s
  | .loopHoldWrite loop hold => Sys2Proof.Machine.execLoopHoldWrite loop hold s
  | .dslFidWrite n data => Sys2Proof.Machine.execDslFidWrite n data s
  | .uslFidWrite n data => Sys2Proof.Machine.execUslFidWrite n data s
  | .fidChangeApply => Sys2Proof.Machine.execFidChangeApply s
  | .multiframeEnd => Sys2Proof.Machine.execMultiframeEnd s
  | .pllLockTest burst => Sys2Proof.Machine.execPllLockTest burst s
  | .burstCut burst => Sys2Proof.Machine.execBurstCut burst s
  | .burstStart burst => Sys2Proof.Machine.execBurstStart burst s
  | .burstEnd burst => Sys2Proof.Machine.execBurstEnd burst s
  | .pllRelockDone => Sys2Proof.Machine.execPllRelockDone s
  | .standingGrant msg => Sys2Proof.Machine.execStandingGrant msg s
  | .standingGrantApply index => Sys2Proof.Machine.execStandingGrantApply index s
  | .standingRemoveOnAlloc index => Sys2Proof.Machine.execStandingRemoveOnAlloc index s
  | .rogueDetect => Sys2Proof.Machine.execRogueDetect s
  | .uslSafeClr dark => Sys2Proof.Machine.execUslSafeClr dark s
  | .laserLoopStep loop reading => Sys2Proof.Machine.execLaserLoopStep loop reading s
  | .apcCalibration colour => Sys2Proof.Machine.execApcCalibration colour s
  | .apcStarved colour => Sys2Proof.Machine.execApcStarved colour s
  | .assignTn msg => Sys2Proof.Machine.execAssignTn msg s
  | .rangeSet msg => Sys2Proof.Machine.execRangeSet msg s
  | .twinColourApply => Sys2Proof.Machine.execTwinColourApply s
  | .silenceRelease msg => Sys2Proof.Machine.execSilenceRelease msg s
  | .silenceSilence msg => Sys2Proof.Machine.execSilenceSilence msg s
  | .silenceQuarantine msg => Sys2Proof.Machine.execSilenceQuarantine msg s
  | .silenceDeregister msg => Sys2Proof.Machine.execSilenceDeregister msg s
  | .ackDownstream msg => Sys2Proof.Machine.execAckDownstream msg s
  | .t1Expiry => Sys2Proof.Machine.execT1Expiry s
  | .t2Expiry => Sys2Proof.Machine.execT2Expiry s
  | .t3Expiry => Sys2Proof.Machine.execT3Expiry s
  | .t4Expiry => Sys2Proof.Machine.execT4Expiry s
  | .upstreamMsgResend type seq => Sys2Proof.Machine.execUpstreamMsgResend type seq s
  | .keyReportReseries seq => Sys2Proof.Machine.execKeyReportReseries seq s
  | .silenceReleaseWrite data => Sys2Proof.Machine.execSilenceReleaseWrite data s
  | .linkTrainStart => Sys2Proof.Machine.execLinkTrainStart s
  | .linkTrainTimeout => Sys2Proof.Machine.execLinkTrainTimeout s
  | .linkDown lost => Sys2Proof.Machine.execLinkDown lost s
  | .linkMarkerBlock payload spaced => Sys2Proof.Machine.execLinkMarkerBlock payload spaced s
  | .stateRecord record => Sys2Proof.Machine.execStateRecord record s
  | .consentReq record => Sys2Proof.Machine.execConsentReq record s
  | .consentReply record => Sys2Proof.Machine.execConsentReply record s
  | .consentTimeout => Sys2Proof.Machine.execConsentTimeout s
  | .todRecord record => Sys2Proof.Machine.execTodRecord record s
  | .dupUpRecord record => Sys2Proof.Machine.execDupUpRecord record s
  | .dupDownRecord record => Sys2Proof.Machine.execDupDownRecord record s
  | .spanUpRecord record => Sys2Proof.Machine.execSpanUpRecord record s
  | .spanDownRecord record => Sys2Proof.Machine.execSpanDownRecord record s
  | .memberRecord record => Sys2Proof.Machine.execMemberRecord record s
  | .castRecord record => Sys2Proof.Machine.execCastRecord record s
  | .pendantBindSpan msg => Sys2Proof.Machine.execPendantBindSpan msg s
  | .pendantBindGuard msg => Sys2Proof.Machine.execPendantBindGuard msg s
  | .pendantUnbind msg => Sys2Proof.Machine.execPendantUnbind msg s
  | .pendantBindApply => Sys2Proof.Machine.execPendantBindApply s
  | .pndCmdUnbind => Sys2Proof.Machine.execPndCmdUnbind s
  | .pndGflowWrite n data => Sys2Proof.Machine.execPndGflowWrite n data s
  | .cellWaitGrant id => Sys2Proof.Machine.execCellWaitGrant id s
  | .cellWaitTimeout id => Sys2Proof.Machine.execCellWaitTimeout id s
  | .scrubComplete cell => Sys2Proof.Machine.execScrubComplete cell s
  | .descEccError cell => Sys2Proof.Machine.execDescEccError cell s
  | .quadrantPark q => Sys2Proof.Machine.execQuadrantPark q s
  | .nicheQueueFlush n => Sys2Proof.Machine.execNicheQueueFlush n s
  | .nicheResetTxAbort n => Sys2Proof.Machine.execNicheResetTxAbort n s
  | .nicheResetComplete n => Sys2Proof.Machine.execNicheResetComplete n s
  | .nresetSlow n => Sys2Proof.Machine.execNresetSlow n s
  | .calAckWrite data => Sys2Proof.Machine.execCalAckWrite data s
  | .celCountLoRead who a count => Sys2Proof.Machine.execCelCountLoRead who a count s
  | .ethFrameRx port frame ago => Sys2Proof.Machine.execEthFrameRx port frame ago s
  | .pauseExpiry port => Sys2Proof.Machine.execPauseExpiry port s
  | .ethTxStart port clear defer => Sys2Proof.Machine.execEthTxStart port clear defer s
  | .ethTxComplete port ago => Sys2Proof.Machine.execEthTxComplete port ago s
  | .ethCollision port after => Sys2Proof.Machine.execEthCollision port after s
  | .ethBackoffExpiry port clear => Sys2Proof.Machine.execEthBackoffExpiry port clear s
  | .ethLinkChange port report => Sys2Proof.Machine.execEthLinkChange port report s
  | .ethCbsWrite port reg data => Sys2Proof.Machine.execEthCbsWrite port reg data s
  | .ethWakeEnable port data => Sys2Proof.Machine.execEthWakeEnable port data s
  | .ethBytesLoRead who port sent => Sys2Proof.Machine.execEthBytesLoRead who port sent s
  | .classifySdu id ecc => Sys2Proof.Machine.execClassifySdu id ecc s
  | .clsUpdWrite o => Sys2Proof.Machine.execClsUpdWrite o s
  | .clsUpdRead o => Sys2Proof.Machine.execClsUpdRead o s
  | .clsUpdHash o => Sys2Proof.Machine.execClsUpdHash o s
  | .clsUpdInvalidate o => Sys2Proof.Machine.execClsUpdInvalidate o s
  | .clsUpdComplete o => Sys2Proof.Machine.execClsUpdComplete o s
  | .tableWindowWrite offset => Sys2Proof.Machine.execTableWindowWrite offset s
  | .clsTreeSelWrite o data => Sys2Proof.Machine.execClsTreeSelWrite o data s
  | .treeSwitch o => Sys2Proof.Machine.execTreeSwitch o s
  | .treeRetire o => Sys2Proof.Machine.execTreeRetire o s
  | .profileApply => Sys2Proof.Machine.execProfileApply s
  | .clsNtabWrite o data => Sys2Proof.Machine.execClsNtabWrite o data s
  | .ntabClearDone o => Sys2Proof.Machine.execNtabClearDone o s
  | .tdmRxFrame t frame smf => Sys2Proof.Machine.execTdmRxFrame t frame smf s
  | .tdmTxFrame t => Sys2Proof.Machine.execTdmTxFrame t s
  | .tdmDefectChange t raw => Sys2Proof.Machine.execTdmDefectChange t raw s
  | .memberSduAccept id => Sys2Proof.Machine.execMemberSduAccept id s
  | .memberDown m => Sys2Proof.Machine.execMemberDown m s
  | .pmSecondEnd blocks => Sys2Proof.Machine.execPmSecondEnd blocks s
  | .tdmCirWrite c data => Sys2Proof.Machine.execTdmCirWrite c data s
  | .tdmMemWrite m data => Sys2Proof.Machine.execTdmMemWrite m data s
  | .tdmConfigApply => Sys2Proof.Machine.execTdmConfigApply s
  | .viewOffsetCmd who view => Sys2Proof.Machine.execViewOffsetCmd who view s
  | .viewRateCmd who view => Sys2Proof.Machine.execViewRateCmd who view s
  | .viewStepCmd who view => Sys2Proof.Machine.execViewStepCmd who view s
  | .timSnap => Sys2Proof.Machine.execTimSnap s
  | .timeOfDay msg => Sys2Proof.Machine.execTimeOfDay msg s
  | .todApply => Sys2Proof.Machine.execTodApply s
  | .servoUpdate servo => Sys2Proof.Machine.execServoUpdate servo s
  | .leapAdopt => Sys2Proof.Machine.execLeapAdopt s
  | .ptpFrameRx port frame state offset => Sys2Proof.Machine.execPtpFrameRx port frame state offset s
  | .ptpMsgSend port body => Sys2Proof.Machine.execPtpMsgSend port body s
  | .tsqE0Read who port => Sys2Proof.Machine.execTsqE0Read who port s
  | .tinEdge tin rise held frac => Sys2Proof.Machine.execTinEdge tin rise held frac s
  | .tinE0Read who tin => Sys2Proof.Machine.execTinE0Read who tin s
  | .toutArm who k => Sys2Proof.Machine.execToutArm who k s
  | .toutDisarm k => Sys2Proof.Machine.execToutDisarm k s
  | .toutFire k => Sys2Proof.Machine.execToutFire k s
  | .toutPulseEnd k => Sys2Proof.Machine.execToutPulseEnd k s
  | .timCalGo who target => Sys2Proof.Machine.execTimCalGo who target s
  | .meshRun => Sys2Proof.Machine.execMeshRun s
  | .meshStop => Sys2Proof.Machine.execMeshStop s
  | .meshSlotStart locked busy => Sys2Proof.Machine.execMeshSlotStart locked busy s
  | .meshAckTimeout => Sys2Proof.Machine.execMeshAckTimeout s
  | .meshFrameRx frame => Sys2Proof.Machine.execMeshFrameRx frame s
  | .meshDequeue => Sys2Proof.Machine.execMeshDequeue s
  | .indirectExpire => Sys2Proof.Machine.execIndirectExpire s
  | .meshStoreExpire => Sys2Proof.Machine.execMeshStoreExpire s
  | .seenExpire => Sys2Proof.Machine.execSeenExpire s
  | .nodeLost n => Sys2Proof.Machine.execNodeLost n s
  | .radioCalibration => Sys2Proof.Machine.execRadioCalibration s
  | .calStarved => Sys2Proof.Machine.execCalStarved s
  | .ccaLoopStep energies => Sys2Proof.Machine.execCcaLoopStep energies s
  | .mshNodeWrite n reg data => Sys2Proof.Machine.execMshNodeWrite n reg data s
  | .mshAsnLoRead who => Sys2Proof.Machine.execMshAsnLoRead who s
  | .ainSettleStart => Sys2Proof.Machine.execAinSettleStart s
  | .ainConversionEnd raw cmLo cmHi inner => Sys2Proof.Machine.execAinConversionEnd raw cmLo cmHi inner s
  | .ainValRead who n => Sys2Proof.Machine.execAinValRead who n s
  | .fioEnergyCfgWrite reg data => Sys2Proof.Machine.execFioEnergyCfgWrite reg data s
  | .loopSetWrite j data => Sys2Proof.Machine.execLoopSetWrite j data s
  | .loopTxmWrite who j data => Sys2Proof.Machine.execLoopTxmWrite who j data s
  | .ctabCommit => Sys2Proof.Machine.execCtabCommit s
  | .ctabActivate => Sys2Proof.Machine.execCtabActivate s
  | .loopOverrange j above => Sys2Proof.Machine.execLoopOverrange j above s
  | .loopOpen j meas => Sys2Proof.Machine.execLoopOpen j meas s
  | .loopRefreshTimeout j => Sys2Proof.Machine.execLoopRefreshTimeout j s
  | .fioDieLost => Sys2Proof.Machine.execFioDieLost s
  | .dinCrossing n mv frac => Sys2Proof.Machine.execDinCrossing n mv frac s
  | .dinEvent n => Sys2Proof.Machine.execDinEvent n s
  | .chatterEnd n => Sys2Proof.Machine.execChatterEnd n s
  | .dinCfgWrite n data mv => Sys2Proof.Machine.execDinCfgWrite n data mv s
  | .dinE0Read who n => Sys2Proof.Machine.execDinE0Read who n s
  | .wettingDip mv => Sys2Proof.Machine.execWettingDip mv s
  | .wettingDipEnd => Sys2Proof.Machine.execWettingDipEnd s
  | .doutCmd k on => Sys2Proof.Machine.execDoutCmd k on s
  | .doutClear k => Sys2Proof.Machine.execDoutClear k s
  | .doutShort k => Sys2Proof.Machine.execDoutShort k s
  | .doutRetry k => Sys2Proof.Machine.execDoutRetry k s
  | .doutExtdrv k low => Sys2Proof.Machine.execDoutExtdrv k low s
  | .laRequestFetch o desc => Sys2Proof.Machine.execLaRequestFetch o desc s
  | .laRefusalComplete o => Sys2Proof.Machine.execLaRefusalComplete o s
  | .laComplete o index src aad tag error => Sys2Proof.Machine.execLaComplete o index src aad tag error s
  | .cphPlainLoad o slot => Sys2Proof.Machine.execCphPlainLoad o slot s
  | .cphUnwrapLoad o slot wslot => Sys2Proof.Machine.execCphUnwrapLoad o slot wslot s
  | .cphZero o slot => Sys2Proof.Machine.execCphZero o slot s
  | .keyLoadComplete o => Sys2Proof.Machine.execKeyLoadComplete o s
  | .cphSlotCfgWrite o slot data => Sys2Proof.Machine.execCphSlotCfgWrite o slot data s
  | .secretEnrolCmd => Sys2Proof.Machine.execSecretEnrolCmd s
  | .secretClearCmd => Sys2Proof.Machine.execSecretClearCmd s
  | .cphEraseCmd => Sys2Proof.Machine.execCphEraseCmd s
  | .cipherAlarm source => Sys2Proof.Machine.execCipherAlarm source s
  | .alarmRecovery => Sys2Proof.Machine.execAlarmRecovery s
  | .rngHealthFail => Sys2Proof.Machine.execRngHealthFail s
  | .ringEnable who niche ring data => Sys2Proof.Machine.execRingEnable who niche ring data s
  | .ringDisable who niche ring data => Sys2Proof.Machine.execRingDisable who niche ring data s
  | .ringDoorbell who niche ring p => Sys2Proof.Machine.execRingDoorbell who niche ring p s
  | .rxSduDeliver niche ring addrs => Sys2Proof.Machine.execRxSduDeliver niche ring addrs s
  | .txSduFetch niche ring chain data => Sys2Proof.Machine.execTxSduFetch niche ring chain data s
  | .ringHoldoffExpiry niche ring => Sys2Proof.Machine.execRingHoldoffExpiry niche ring s
  | .dmaError niche ring what => Sys2Proof.Machine.execDmaError niche ring what s
  | .busMasterDisable fn rx tx => Sys2Proof.Machine.execBusMasterDisable fn rx tx s
  | .vfFlr v => Sys2Proof.Machine.execVfFlr v s
  | .pfSideReset kind => Sys2Proof.Machine.execPfSideReset kind s
  | .msixUnmask fn vec => Sys2Proof.Machine.execMsixUnmask fn vec s
  | .supCsRise partialWord => Sys2Proof.Machine.execSupCsRise partialWord s
  | .mbxFrameBad src => Sys2Proof.Machine.execMbxFrameBad src s
  | .mbxFlush who box => Sys2Proof.Machine.execMbxFlush who box s
  | .supPfTxWrite who box word => Sys2Proof.Machine.execSupPfTxWrite who box word s
  | .supPfRxRead who box => Sys2Proof.Machine.execSupPfRxRead who box s
  | .mbxEcho src => Sys2Proof.Machine.execMbxEcho src s
  | .mbxRegRead src => Sys2Proof.Machine.execMbxRegRead src s
  | .mbxRegWrite src x => Sys2Proof.Machine.execMbxRegWrite src x s
  | .mbxStatus src => Sys2Proof.Machine.execMbxStatus src s
  | .mbxTrustEnrol src => Sys2Proof.Machine.execMbxTrustEnrol src s
  | .mbxTrustRevoke src => Sys2Proof.Machine.execMbxTrustRevoke src s
  | .mbxSecretEnrol src => Sys2Proof.Machine.execMbxSecretEnrol src s
  | .mbxSecretClear src => Sys2Proof.Machine.execMbxSecretClear src s
  | .mbxNicheReset src => Sys2Proof.Machine.execMbxNicheReset src s
  | .mbxDeviceReset src => Sys2Proof.Machine.execMbxDeviceReset src s
  | .mbxResetDeferred => Sys2Proof.Machine.execMbxResetDeferred s
  | .castBlock src => Sys2Proof.Machine.execCastBlock src s
  | .castBegin src => Sys2Proof.Machine.execCastBegin src s
  | .castAbandon src => Sys2Proof.Machine.execCastAbandon src s
  | .castVerify src => Sys2Proof.Machine.execCastVerify src s
  | .castVerifyDone => Sys2Proof.Machine.execCastVerifyDone s
  | .castArm src => Sys2Proof.Machine.execCastArm src s
  | .castCommitDurable => Sys2Proof.Machine.execCastCommitDurable s
  | .castDisarm src => Sys2Proof.Machine.execCastDisarm src s
  | .castQuery src => Sys2Proof.Machine.execCastQuery src s
  | .castAtSchedule msg => Sys2Proof.Machine.execCastAtSchedule msg s
  | .castAtCancel msg => Sys2Proof.Machine.execCastAtCancel msg s
  | .castFreeze => Sys2Proof.Machine.execCastFreeze s
  | .castSelectorDurable => Sys2Proof.Machine.execCastSelectorDurable s
  | .castSettle => Sys2Proof.Machine.execCastSettle s
  | .castFailedStart why => Sys2Proof.Machine.execCastFailedStart why s
  | .cartRemoved => Sys2Proof.Machine.execCartRemoved s
  | .cartAcceptance identity patina inserted => Sys2Proof.Machine.execCartAcceptance identity patina inserted s
  | .busRecovery failed sda => Sys2Proof.Machine.execBusRecovery failed sda s
  | .busStuckRetry sda => Sys2Proof.Machine.execBusStuckRetry sda s
  | .cartTempPoll temp => Sys2Proof.Machine.execCartTempPoll temp s
  | .patinaWrite ok => Sys2Proof.Machine.execPatinaWrite ok s
  | .requestPatina msg => Sys2Proof.Machine.execRequestPatina msg s
  | .crtRawGo data => Sys2Proof.Machine.execCrtRawGo data s
  | .crtRawDone byte => Sys2Proof.Machine.execCrtRawDone byte s
  | .powerModeRequest target => Sys2Proof.Machine.execPowerModeRequest target s
  | .powerDecision => Sys2Proof.Machine.execPowerDecision s
  | .entryNicheResets => Sys2Proof.Machine.execEntryNicheResets s
  | .domainGroupOff => Sys2Proof.Machine.execDomainGroupOff s
  | .wakeLossWindow rose => Sys2Proof.Machine.execWakeLossWindow rose s
  | .powerExit => Sys2Proof.Machine.execPowerExit s
  | .domainGroupOn => Sys2Proof.Machine.execDomainGroupOn s
  | .wakeNAssert low => Sys2Proof.Machine.execWakeNAssert low s
  | .plinthAlarm => Sys2Proof.Machine.execPlinthAlarm s
  | .mainsOkRise => Sys2Proof.Machine.execMainsOkRise s
  | .mainsLossFiltered => Sys2Proof.Machine.execMainsLossFiltered s
  | .plinthSupplyLow => Sys2Proof.Machine.execPlinthSupplyLow s
  | .pwrGaspCmd => Sys2Proof.Machine.execPwrGaspCmd s
  | .pwrGaspClr => Sys2Proof.Machine.execPwrGaspClr s
  | .gaspAct => Sys2Proof.Machine.execGaspAct s
  | .shedWarning => Sys2Proof.Machine.execShedWarning s
  | .shedStep => Sys2Proof.Machine.execShedStep s
  | .outageEnd => Sys2Proof.Machine.execOutageEnd s
  | .sleepAllow msg => Sys2Proof.Machine.execSleepAllow msg s
  | .sleepWithdraw msg => Sys2Proof.Machine.execSleepWithdraw msg s
  | .watchExit => Sys2Proof.Machine.execWatchExit s
  | .pwrMaskWrite m hi data => Sys2Proof.Machine.execPwrMaskWrite m hi data s
  | .plinthBrownout load => Sys2Proof.Machine.execPlinthBrownout load s
  | .flashProgramCmd port => Sys2Proof.Machine.execFlashProgramCmd port s
  | .flashEraseCmd port => Sys2Proof.Machine.execFlashEraseCmd port s
  | .flashSuspendCmd => Sys2Proof.Machine.execFlashSuspendCmd s
  | .flashResumeCmd => Sys2Proof.Machine.execFlashResumeCmd s
  | .flashProgramDone ok => Sys2Proof.Machine.execFlashProgramDone ok s
  | .flashEraseDone ok => Sys2Proof.Machine.execFlashEraseDone ok s
  | .flashWindowRead master addr ecc stall => Sys2Proof.Machine.execFlashWindowRead master addr ecc stall s
  | .eraseAutoResume => Sys2Proof.Machine.execEraseAutoResume s
  | .eraseSlow => Sys2Proof.Machine.execEraseSlow s
  | .bootRom => Sys2Proof.Machine.execBootRom s
  | .bringUpComplete => Sys2Proof.Machine.execBringUpComplete s
  | .coldReset lost => Sys2Proof.Machine.execColdReset lost s
  | .rstNAssert low strap => Sys2Proof.Machine.execRstNAssert low strap s
  | .testEnAssert active => Sys2Proof.Machine.execTestEnAssert active s
  | .warmResetRelease => Sys2Proof.Machine.execWarmResetRelease s
  | .mramEcc => Sys2Proof.Machine.execMramEcc s
  | .watchdogKick data => Sys2Proof.Machine.execWatchdogKick data s
  | .watchdogExpiry => Sys2Proof.Machine.execWatchdogExpiry s
  | .fltCmdWarm => Sys2Proof.Machine.execFltCmdWarm s
  | .fltNcmdReset n => Sys2Proof.Machine.execFltNcmdReset n s
  | .fltLogAck log data => Sys2Proof.Machine.execFltLogAck log data s
  | .fltBlkRstWrite data => Sys2Proof.Machine.execFltBlkRstWrite data s
  | .blockResetApply => Sys2Proof.Machine.execBlockResetApply s
  | .blockResetDone b => Sys2Proof.Machine.execBlockResetDone b s
  | .railExcursion rail out => Sys2Proof.Machine.execRailExcursion rail out s
  | .bankRailClassify b v33 hiz => Sys2Proof.Machine.execBankRailClassify b v33 hiz s
  | .glbTempRead => Sys2Proof.Machine.execGlbTempRead s
  | .huntMarkerMatch window => Sys2Proof.Machine.execHuntMarkerMatch window s
  | .supCsFall => Sys2Proof.Machine.execSupCsFall s
  | .supWordEdge word => Sys2Proof.Machine.execSupWordEdge word s
  | .rngHealthPass => Sys2Proof.Machine.execRngHealthPass s
  | .fioDieLinkUp => Sys2Proof.Machine.execFioDieLinkUp s
  | .doutExtdrvClear k => Sys2Proof.Machine.execDoutExtdrvClear k s
  | .doutRetrySuccess k => Sys2Proof.Machine.execDoutRetrySuccess k s
  | .busMasterEnable fn cfg => Sys2Proof.Machine.execBusMasterEnable fn cfg s
  | .sleepAllowanceEnd => Sys2Proof.Machine.execSleepAllowanceEnd s
  | .plinthSupplyRecovery => Sys2Proof.Machine.execPlinthSupplyRecovery s
  | .mainsOkFall => Sys2Proof.Machine.execMainsOkFall s
  | .microslotStart k => Sys2Proof.Machine.execMicroslotStart k s

end Sys2Proof.Machine
end

