-- ==== Sys2Proof/Machine/Step.lean ====
section
/-!
DEFINITION. One step of the block: the command at the front of the queue, or, on an empty queue, one nanosecond of the clock.
-/

namespace Sys2Proof.Machine

open Sys2Proof

/-- One cycle of the 1 GHz clock passes (R580); nothing else happens without a command (assumption 71, DESIGN CHOICE). -/
def State.idle (s : State) : State := { s with clk := s.clk + 1 }

/-- The command at the front of the queue runs with the rest of the queue; an empty queue lets a nanosecond pass
(assumption 1, DEDUCED; assumption 71, DESIGN CHOICE; assumption 94, DESIGN CHOICE). -/
def step (s : State) : Host.Outcome State Fault Refusal :=
  match s.pending with
  | c :: rest => exec c { s with pending := rest }
  | [] => .next s.idle

/-- s with the command that a word spells put at the front of its queue; s itself where the word spells none (assumption 1, DEDUCED). -/
def State.withFetchWord (s : State) (nbits w : Nat) : State :=
  match decodeTableWord nbits w with
  | some c => { s with pending := c :: s.pending }
  | none => s

end Sys2Proof.Machine
end

