-- ==== Sys2Proof/Machine/Pins.lean ====
section
/-!
DEFINITION. The levels of the output balls that are functions of the state (spec/24_package_and_electrical.md, Table 24.2).
TOUT, DOUT and the loop outputs have state of their own (Sys2Proof/Machine/TimTypes.lean, FioTypes.lean).
-/

namespace Sys2Proof.Machine

open Sys2Proof

/-- LN_TXDIS is asserted (R467, R536): without an accepted cartridge, in SAFE_OFF, with PD02 off, and from a reset on, which
clears GLB_SERVICE.cart. -/
def State.txDisable (s : State) : Bool :=
  s.flt.phase == .held || !s.on GLB_SERVICE_cart || s.get USL_STATUS_laser == 4 || !s.domainOn 2

/-- The level of SUP_ALERT_N, an open drain: low while the transmit FIFO of the powered port holds a word (R446, R500). -/
def State.supAlertN (s : State) : Bool := !s.domainOn 32 || s.sup.port.tx.isEmpty

/-- The level of PLN_RAIL_EN (R492). -/
def State.railEn (s : State) : Bool := s.mode != 4

end Sys2Proof.Machine
end

