-- ==== Sys2Proof/Safety.lean ====
section
/-!
DEFINITION. What the claims about every step are stated in: the canonical form of the stores, and what no command may touch.
-/

namespace Sys2Proof.Machine

open Sys2Proof

/-- The register file and the MSI-X tables are in canonical form: addresses strictly rising, and no entry equal to what an
unlisted address reads as. -/
def State.canonical (s : State) : Prop :=
  storeWf resetWord s.regs = true ∧ storeWf msixReset s.hif.table = true

/-- Request r stands complete at the front of source a and passes every check of Table 17.3, so it is executed. -/
abbrev State.serves (s : State) (a : Agent) (r : Req) : Prop :=
  s.headReq a = some r ∧ s.mbxReady = true ∧ r.good = true ∧ r.shaped = true ∧
  (s.mbx a).tags.find? (fun t => t.tag == r.tag) = none ∧ s.fits a (r.respLen + 2) = true ∧
  (s.tookReq a r).crossNiche a r = false ∧ (s.tookReq a r).permitted a r = true

/-- The numbers that a guard window accepts of a sequence of copies, in order (R201). -/
def GuardWin.accepted (w : GuardWin) : List Nat → List Nat
  | [] => []
  | q :: l =>
    if (w.take q).1 = .accept then q :: GuardWin.accepted (w.take q).2.1 l else GuardWin.accepted (w.take q).2.1 l

/-- b trusts no more than a did: the epoch floor has not fallen, an enrolled trust slot holds its digest, and a revoked slot stays
revoked. -/
structure Anchored (a b : ArmState) : Prop where
  floor : a.floor ≤ b.floor
  enrolled : ∀ k d, (a.trust.getD k ⟨none, false⟩).digest = some d → (b.trust.getD k ⟨none, false⟩).digest = some d
  revoked : ∀ k, (a.trust.getD k ⟨none, false⟩).revoked = true → (b.trust.getD k ⟨none, false⟩).revoked = true

/-- t stands to s as a command leaves the machine: what manufacture fixed and the commands that wait are untouched, no time has
passed, what has been sent stays sent, the anchors of trust hold, and the stores keep their canonical form. -/
structure Keeps (s t : State) : Prop where
  pending : t.pending = s.pending
  fuse : t.fuse = s.fuse
  clk : t.clk = s.clk
  sent : s.sent <:+ t.sent
  anchored : Anchored s.arm t.arm
  canonical : s.canonical → t.canonical

end Sys2Proof.Machine
end

