-- ==== Sys2Proof/Certificates/Slice0/Obligations.lean ====
section
/-!
DEFINITION. The statements for the provers: what every step keeps, what the shared operations do, and for every command where it
completes and with what next state.
-/

open Sys2Proof Sys2Proof.Machine

/-- A step runs the command at the front of the queue (spec/00_scope.md, spec/95_what_each_step_holds.md). -/
def Obligations.StepRunsTheFrontCommand : Prop :=
  ∀ (c : Instr) (s : State) (rest : List Instr), step { s with pending := c :: rest } = exec c { s with pending := rest }

/-- With no command waiting a step only lets one cycle of the 1 GHz clock pass (model choice, log entry 71) (spec/00_scope.md). -/
def Obligations.EmptyQueueLetsANanosecondPass : Prop :=
  ∀ s : State, s.pending = [] → step s = .next { s with clk := s.clk + 1 }

/-- Every command is answered by a next state (spec/00_scope.md, spec/95_what_each_step_holds.md). -/
def Obligations.EveryCommandAnswersANextState : Prop :=
  ∀ (c : Instr) (s : State), ∃ t, exec c s = .next t

/-- After reset the stores are in canonical form, no command waits and nothing has been sent (spec/22_faults_and_resets.md,
spec/25_register_map.md). -/
def Obligations.ResetIsCanonicalAndIdle : Prop :=
  State.reset.canonical ∧ State.reset.pending = [] ∧ State.reset.sent = []

/-- Every step keeps the register file and the MSI-X tables in canonical form (spec/25_register_map.md,
spec/16_pcie_host_interface.md). -/
def Obligations.EveryStepKeepsTheStores : Prop :=
  ∀ s t : State, s.canonical → step s = .next t → t.canonical

/-- No command lowers the epoch floor, rewrites an enrolled trust slot or restores a revoked one (spec/03_armature_images.md,
spec/17_supervisor_port_and_mailbox.md, spec/22_faults_and_resets.md). -/
def Obligations.EveryStepKeepsTheAnchorsOfTrust : Prop :=
  ∀ s t : State, step s = .next t → Anchored s.arm t.arm

/-- A step takes one command, leaves the fuses, and lets time pass only when no command waits (spec/00_scope.md,
spec/95_what_each_step_holds.md). -/
def Obligations.EveryStepKeepsQueueFusesAndTrace : Prop :=
  ∀ s t : State, step s = .next t → t.pending = s.pending.tail ∧ t.fuse = s.fuse ∧ s.sent <:+ t.sent ∧ t.clk = (if s.pending = [] then s.clk + 1 else s.clk)

/-- Registers after reset hold the values of their Reset columns (spec/00_scope.md, spec/25_register_map.md). -/
def Obligations.ResetRegisterValues : Prop :=
  State.reset.get GLB_ID_vendor = 0x7E3D ∧ State.reset.get GLB_ID_part = 0x7400 ∧ State.reset.get ARM_FAIL_OFF_offset = 0xFFFFFFFF ∧
    State.reset.get TICK_STATUS_state = 0 ∧ State.reset.get DSL_ALIGN_CFG_loss_n = 4 ∧ State.reset.get DSL_ALIGN_CFG_presync_n = 2 ∧
    State.reset.get DSL_ALIGN_CFG_marker_err = 3 ∧ State.reset.get USL_STATUS_laser = 4 ∧ State.reset.get ACT_T3_t3 = 50 ∧
    State.reset.get CEL_FLOOR_floor = 4096 ∧ State.reset.get (ETH_MAXLEN_rx 5) = 1522 ∧ State.reset.get (CLS_POL_BURST_burst 255) = 1536 ∧
    State.reset.get (TDM_TRIB_CFG_owner 11) = 15 ∧ State.reset.get TIM_CTRL_v2_owner = 15 ∧ State.reset.get MSH_TS_slot = 10000 ∧
    State.reset.get (FIO_AIN_CM_lo 7) = 0xFF38 ∧ State.reset.get (CPH_SLOT_CFG_owner 255) = 15 ∧ State.reset.get (HIF_RING_ITR_count 15 63) = 1 ∧
    State.reset.get SUP_PERMIT_class = 31 ∧ State.reset.get PWR_OUTAGE_CFG_restore = 30 ∧ State.reset.get CST_CFG_settle = 120 ∧
    State.reset.get FLT_WDOG_timeout = 1000

/-- A phase above its budget inside its window is logged as OVERBUDGET and flagged (R36) (R36). -/
def Obligations.OverBudgetPhaseIsLoggedAndFlagged : Prop :=
  ∀ (p : Fin 12) (cycles : Nat) (s : State), s.phaseBudget p.val < cycles → cycles ≤ phaseLen p.val →
    exec (.phaseReport cycles) s = .next (s.phaseUsed 11 cycles) ∧ (s.phaseUsed p.val cycles).marked TICK_FLAGS_over_budget p.val = true ∧
    ((s.phaseUsed p.val cycles).flt.devLog.recs.head?).map (fun r => (r.code, bits r.data 47 40)) = some (0x0201, p.val)

/-- A read of TICK_FC_LO latches TICK_FC_HI for its reader: the pair describes one edge (R46) (R46). -/
def Obligations.FrameCounterPairShowsOneEdge : Prop :=
  ∀ (who : Agent) (fc : Nat) (s : State), ∃ t, exec (.tickFcLoRead who) s = .next t ∧
    t.sent = .completion (agentId who) 0 (BitVec.ofNat 32 s.tick.fc) :: s.sent ∧
    (({ t with tick := { t.tick with fc := fc } } : State).readReg (agentId who) TICK_FC_HI_fc_hi.addr).2 = BitVec.ofNat 32 (s.tick.fc / 2 ^ 32)

/-- On the EVT-7401 MSH and FIO registers read 0, and a write to one only logs ABSENT (R3) (R3). -/
def Obligations.AbsentBlocksReadZeroAndRefuseWrites : Prop :=
  ∀ (src : Nat) (addr : BitVec 26) (w : Word) (x : Ambient) (s : State), s.fuse.is7401 = true → absentBlock addr.toNat = true →
    assigned addr.toNat = true → s.readReg src addr.toNat = (s, 0) ∧
    (addr.toNat % 4 = 0 → s.flt.fatal = false → s.flt.phase ≠ .held →
      exec (.registerWrite .pf addr w x) s = .next (s.logDev 0x0002 0xF (fdata 0 0 addr.toNat)))

/-- A record in the device log takes the next seq and changes no register and no niche log (spec/22_faults_and_resets.md). -/
def Obligations.LogRecordFrame : Prop :=
  ∀ (code niche data : Nat) (s : State),
    (s.logDev code niche data).flt.devLog.next = (s.flt.devLog.next + 1) % 2 ^ 32 ∧
    (s.logDev code niche data).flt.devLog.recs.length ≤ 64 ∧
    (s.logDev code niche data).flt.devLog.recs.tail = s.flt.devLog.recs.take 63 ∧
    ((s.logDev code niche data).flt.devLog.recs.head?).map (fun r => (r.code, r.niche, r.seq, r.fc, r.ts, r.data)) =
      some (code, niche, s.flt.devLog.next, s.tick.fc % 2 ^ 32, s.tb, data % 2 ^ 48) ∧
    (∀ a, (s.logDev code niche data).word a = s.word a) ∧
    (s.logDev code niche data).flt.nicheLogs = s.flt.nicheLogs ∧ (s.logDev code niche data).arm = s.arm

/-- A write of s to FLT_DACK or FLT_NACKn closes the open records up to s; a completed niche reset closes them all (R545) (R545). -/
def Obligations.AcknowledgedRecordsAreClosed : Prop :=
  (∀ (log : Fin 17) (data : Word) (s : State), s.flt.nicheLogs.length = 16 → ∃ t, exec (.fltLogAck log data) s = .next t ∧
      (∀ k : Fin 17, (if k.val = 16 then t.flt.devLog.opened else (t.nicheLog k.val).opened) =
        (if k.val = 16 then s.flt.devLog.opened else (s.nicheLog k.val).opened).filter
          (fun q => k ≠ log || decide (2 ^ 31 ≤ (data.toNat + 2 ^ 32 - q % 2 ^ 32) % 2 ^ 32)))) ∧
    (∀ (n : Fin 16) (s : State), (s.nreset n.val).active = true → (s.nreset n.val).tick < s.tick.edges → s.scrubbed n.val = true →
      ∃ t, exec (.nicheResetComplete n) s = .next t ∧ (t.nicheLog n.val).opened = [])

/-- No tick is shorter than 19,439 or longer than 38,879 tick cycles (R39) (R39). -/
def Obligations.TickLengthStaysWithinItsBounds : Prop :=
  (∀ (xo : Int) (e : Option Int) (cycles frac : Nat) (s : State), (s.tick.slew).natAbs ≤ 1 →
      19439 ≤ s.tick.len ∧ s.tick.len ≤ 38879 →
      19439 ≤ (s.tickEdge xo e cycles frac).tick.len ∧ (s.tickEdge xo e cycles frac).tick.len ≤ 38879 ∧
      (s.tickEdge xo e cycles frac).tick.slew.natAbs ≤ 1) ∧
    State.reset.tick.slew.natAbs ≤ 1 ∧ 19439 ≤ State.reset.tick.len ∧ State.reset.tick.len ≤ 38879

/-- TICK_HOLD_FREQ is clamped to ±50 ppm, and a mean outside is logged as XO_RANGE (R31) (R31). -/
def Obligations.HoldFrequencyIsClamped : Prop :=
  ∀ (s : State), ((s.tick.meas.drop 16).take 8192) ≠ [] →
    -54975581 ≤ s.holdFreq.getS TICK_HOLD_FREQ_freq ∧ s.holdFreq.getS TICK_HOLD_FREQ_freq ≤ 54975581 ∧
    (meanOf ((s.tick.meas.drop 16).take 8192) s.free < -54975581 → s.holdFreq.getS TICK_HOLD_FREQ_freq = -54975581) ∧
    (54975581 < meanOf ((s.tick.meas.drop 16).take 8192) s.free → s.holdFreq.getS TICK_HOLD_FREQ_freq = 54975581) ∧
    (54975581 < (meanOf ((s.tick.meas.drop 16).take 8192) s.free).natAbs →
      (s.holdFreq.flt.devLog.recs.head?).map (fun r => r.code) = some 0x0205) ∧
    ((meanOf ((s.tick.meas.drop 16).take 8192) s.free).natAbs ≤ 54975581 →
      s.holdFreq.getS TICK_HOLD_FREQ_freq = meanOf ((s.tick.meas.drop 16).take 8192) s.free ∧ s.holdFreq.flt = s.flt)

/-- A guard window that starts fresh delivers each number of a span of 1,024 exactly once (spec/07_pendant_mode.md). -/
def Obligations.GuardWindowDeliversEachNumberOnce : Prop :=
  ∀ (base : Nat) (ks : List Nat), (∀ k ∈ ks, k ≤ 1023) →
    (GuardWin.accepted ⟨false, 0, 0, 0⟩ (ks.map (fun k => (base + k) % 65536))).Nodup ∧
    (∀ k ∈ ks, (base + k) % 65536 ∈ GuardWin.accepted ⟨false, 0, 0, 0⟩ (ks.map (fun k => (base + k) % 65536)))

/-- XOR with the sequence of R76 is its own inverse (spec/04_downstream_frames.md). -/
def Obligations.DescramblingRestoresTheLine : Prop :=
  ∀ b : List Byte, scramble (scramble b) = b ∧ (scramble b).length = b.length

/-- A HEC-protected field with at most one bit in error is read as it was sent (spec/04_downstream_frames.md). -/
def Obligations.HecCorrectsOneError : Prop :=
  ∀ v : Nat, v < 2 ^ 51 → hecDecode (hecEncode v) = some (v, false) ∧
    ∀ i : Fin 64, hecDecode (hecEncode v ^^^ 2 ^ i.val) = some (v, true)

/-- A refused cross-niche request changes only the requester's DENIED_OUT and its records
(spec/08_niches_cells_and_the_caliper.md, spec/25_register_map.md). -/
def Obligations.CrossNicheRequestChangesOnlyItsOwnAccount : Prop :=
  (∀ (n : Fin 16) (off : BitVec 18) (w : Word) (x : Ambient) (s : State) (a : Nat), s.vfOpen n.val = true → off.toNat % 4 = 0 → off.toNat < 0x3E000 →
      s.windowAt n.val off.toNat = some (a, false) →
      exec (.registerWrite (.vf n) (off.zeroExtend 26) w x) s =
        .next { s with cel := { s.cel with denied := s.cel.denied ++ [⟨n.val, agentId (.vf n), a, s.clk⟩] } }) ∧
    (∀ (d : DeniedReq) (rest : List DeniedReq) (s : State), s.cel.denied = d :: rest → s.since d.arrived 64 = true →
      ∃ t, exec .deniedCompletion s = .next t ∧ t.sent = .completion d.source 1 0 :: s.sent ∧
        (∀ a, a ≠ (CEL_NCNT_count d.niche 8).addr → t.word a = s.word a) ∧
        t.flt.devLog = s.flt.devLog ∧ t.flt.nicheLogs = s.flt.nicheLogs ∧
        (∀ r ∈ t.flt.limited, r ∉ s.flt.limited → r.code = 0x0001 ∧ (r.log = d.niche ∨ r.log = 16 ∧ r.niche = d.niche)))

/-- Device warm reset returns every bit of a register to its reset value but the bits of access code RS (spec/00_scope.md,
spec/22_faults_and_resets.md). -/
def Obligations.WarmResetReturnsRegisters : Prop :=
  ∀ (cause a : Nat) (s : State), a ≠ FLT_CAUSE_boot.addr → (∀ k, k < 8 → a ≠ (FLT_CAUSE_HIST_boot k).addr) → a ≠ GLB_RAIL_within.addr →
    s.canonical → (s.flt.fatal = true ∨ s.on USL_SAFE_rogue_latched = true → a ≠ USL_SAFE_cause.addr ∧ a ≠ USL_STATUS_laser.addr) → (s.warmReset cause).word a = wordReset a (s.word a)

/-- Device warm reset keeps the trust anchors, the FATAL latch, the line enrolment secret, the silence and the ROGUE latch, and drops the accepted
structure (spec/22_faults_and_resets.md, spec/06_activation_and_twin_colour_ranging.md); that the ROGUE latch is kept is a deduction, log entry 99. -/
def Obligations.WarmResetKeepsWhatSurvives : Prop :=
  ∀ (cause : Nat) (s : State), s.canonical → (s.warmReset cause).arm.trust = s.arm.trust ∧ (s.warmReset cause).arm.floor = s.arm.floor ∧
    (s.warmReset cause).flt.fatal = s.flt.fatal ∧ (s.warmReset cause).cph.sealed = s.cph.sealed ∧ (s.warmReset cause).fuse = s.fuse ∧
    (s.warmReset cause).get ACT_SILENCE_silenced = s.get ACT_SILENCE_silenced ∧
    (s.warmReset cause).get ACT_SILENCE_remain = s.get ACT_SILENCE_remain ∧
    (s.warmReset cause).get ACT_SILENCE_reason = s.get ACT_SILENCE_reason ∧
    (s.warmReset cause).on USL_SAFE_rogue_latched = s.on USL_SAFE_rogue_latched ∧
    (s.warmReset cause).flt.phase = .held ∧ (s.warmReset cause).arm.accepted = none ∧
    (s.warmReset cause).cph.keys = CphState.reset.keys ∧ (s.warmReset cause).flt.nicheLogs = FltState.reset.nicheLogs ∧
    (s.warmReset cause).nres = State.reset.nres

/-- A loop whose output lies inside its envelope keeps it inside, whatever it wants (spec/04_downstream_frames.md,
spec/05_upstream_bursts.md, spec/13_field_mesh.md). -/
def Obligations.LoopOutputStaysInItsEnvelope : Prop :=
  ∀ (l : Fin 7) (want : Int) (held : Bool) (s : State), s.loopLo (loopDesc l.val) ≤ s.loopOut (loopDesc l.val) →
    s.loopOut (loopDesc l.val) ≤ s.loopHi (loopDesc l.val) →
    (s.loopStep l.val want held).loopLo (loopDesc l.val) = s.loopLo (loopDesc l.val) ∧
    (s.loopStep l.val want held).loopHi (loopDesc l.val) = s.loopHi (loopDesc l.val) ∧
    s.loopLo (loopDesc l.val) ≤ (s.loopStep l.val want held).loopOut (loopDesc l.val) ∧
    (s.loopStep l.val want held).loopOut (loopDesc l.val) ≤ s.loopHi (loopDesc l.val) ∧
    ((s.loopStep l.val want held).loopOut (loopDesc l.val) - s.loopOut (loopDesc l.val)).natAbs ≤ 1

/-- A reset request that names a niche that does not exist changes nothing but a NO_NICHE record (spec/22_faults_and_resets.md,
spec/17_supervisor_port_and_mailbox.md). -/
def Obligations.ResetOfAnAbsentNicheOnlyLogs : Prop :=
  (∀ (n : Fin 16) (s : State), s.exists_ n.val = false → exec (.fltNcmdReset n) s = .next (s.logDev 0x150A n.val (fdata n.val 0 0))) ∧
    (∀ (src : Agent) (r : Req) (s : State), s.serves src r → r.type = 11 → bits (r.word 0) 1 0 = 1 → (s.tookReq src r).exists_ r.niche = false →
      exec (.mbxNicheReset src) s =
        .next (((s.tookReq src r).logDev 0x150A r.niche (fdata r.niche 0 0)).respond src r true 0x150A []))

/-- LN_TXDIS is asserted after a reset, after the cartridge goes and after the rogue guard trips (spec/05_upstream_bursts.md,
spec/18_optical_cartridge.md, spec/22_faults_and_resets.md). -/
def Obligations.LaserIsDisabledWhereItMustBe : Prop :=
  (∀ (s : State) (cause : Nat), (s.warmReset cause).txDisable = true) ∧ State.reset.txDisable = true ∧ (∀ s : State, ∃ t, exec .cartRemoved s = .next t ∧ t.txDisable = true) ∧ (∀ s : State, bit (s.get USL_SAFE_cause) 0 = false → ∃ t, exec .rogueDetect s = .next t ∧ t.txDisable = true)

/-- The tick edge, its phases' windows, forced holdover and the loss of XO_IN: each command completes, with the next state that
its clause gives (R28, R37, R47, R45, R35, R46). -/
def Obligations.TickEdgeCompletes : Prop :=
  (∀ (xo : Int) (e : Option Int) (cycles : Nat) (frac : Fin 16) (link : LinkSample) (temp : BitVec 16) (s : State), s.flt.phase ≠ .held → s.domainOn 4 = true → (s.tickEdge xo e cycles frac.val).flt.phase ≠ .held → exec (.tickEdge xo e cycles frac link temp) s = .next ((((((((s.tickEdge xo e cycles frac.val).uslEdge).sampleTemp temp).meshEdge).ethEdge).pwrEdge).pndEdge link).countTrial)) ∧
  (∀ (phase : Fin 12) (s : State), s.tick.phaseEnd.any (fun p => p.1 == phase.val && decide (phaseLimit phase.val < p.2)) = true → exec (.phaseWindowEnd phase) s = .next ((s.mark TICK_FLAGS_overrun phase.val).logDev 0x0202 0xF (fdata phase.val 0 0))) ∧
  (∀ (s : State), s.get TICK_STATUS_state = 1 → ∃ t, exec (.xoLost) s = .next t ∧ t.get TICK_HOLD_FREQ_freq = 0 ∧ t.on TIM_STATUS_line_ref = true ∧ t.on TICK_FLAGS_xo_lost = true ∧ t.tick.xoLost = true) ∧
  (∀ (data : Word) (s : State), exec (.tickForceHoldWrite data) s = .next (s.put TICK_CTRL_force_hold data.toNat)) ∧
  (∀ (s : State), exec (.tickHwmClr) s = .next ({ s with tick := { s.tick with hwmClr := true } })) ∧
  (∀ (who : Agent) (s : State), exec (.tickFcLoRead who) s = .next ((s.latchHi (agentId who) 0x2000C (BitVec.ofNat 32 (s.tick.fc / 2 ^ 32))).answer (agentId who) (BitVec.ofNat 32 s.tick.fc)))

/-- The phases of the tick: each command completes, with the next state that its clause gives (R582, R271, R229, R33). -/
def Obligations.PhasesComplete : Prop :=
  (∀ (cycles waited : Nat) (s : State), s.get TICK_STATUS_state = 1 → s.isWing = false → exec (.phaseMap cycles waited) s = .next ((s.takeMap (s.dsl.data.drop 16) s.dsl.marked).phaseUsedAfter 1 cycles waited)) ∧
  (∀ (cycles : Nat) (s : State), exec (.phaseSched cycles) s = .next ((s.phaseUsed 6 cycles).refillPolicers.ethSched)) ∧
  (∀ (cycles : Nat) (s : State), s.domainOn 5 = true → exec (.phaseCaliper cycles) s = .next ((s.phaseUsed 10 cycles).snapshot.audit)) ∧
  (∀ (cycles : Nat) (s : State), exec (.phaseReport cycles) s = .next (s.phaseUsed 11 cycles))

/-- The marker, the counter block, raw defects and error windows of the downstream line: each command completes, with the next
state that its clause gives (R584, R106, R104). -/
def Obligations.FrameAlignmentCompletes : Prop :=
  (∀ (window : BitVec 64) (s : State), s.get DSL_STATUS_frame = 1 → s.markerMatch window = true → s.get DSL_ALIGN_CFG_presync_n ≤ s.dsl.run + 1 → exec (.markerWindowCheck window) s = .next ({ s with dsl := { s.dsl with ended := false } }.setFrame 2)) ∧
  (∀ (window : BitVec 64) (s : State), s.get DSL_STATUS_frame = 2 → s.markerMatch window = true → exec (.markerWindowCheck window) s = .next { s with dsl := { s.dsl with ended := false, mark := true, run := 0 } }) ∧
  (∀ (window : BitVec 64) (s : State), s.get DSL_STATUS_frame = 0 → s.on DSL_CTRL_rx_en = true → s.get DSL_DEFECT_raw % 4 = 0 → s.markerMatch window = true → exec (.huntMarkerMatch window) s = .next (s.setFrame 1)) ∧
  (∀ (line : List Byte) (s : State), s.get DSL_STATUS_frame = 2 → exec (.counterBlock line) s = .next ((let r := (s.tookLine line).judgeCounter (beAt (s.tookLine line).dsl.data 8 8); r.1.counted r.2))) ∧
  (∀ (line : List Byte) (s : State), s.get DSL_STATUS_frame = 1 → s.dsl.run = 0 → exec (.counterBlock line) s = .next (s.tookLine line)) ∧
  (∀ (asserted : Bool) (s : State), exec (.losRaw asserted) s = .next (if asserted then (s.setRaw 0 true).setFrame 0 else s.setRaw 0 false)) ∧
  (∀ (s : State), s.dsl.sfValid = true → s.dsl.sdValid = true → exec (.berWindowEnd true) s = .next { s.sdWindow with dsl := { s.sdWindow.dsl with sdBits := 0, sdValid := s.get DSL_STATUS_frame == 2 } } ∧ exec (.berWindowEnd false) s = .next { s.sfWindow with dsl := { s.sfWindow.dsl with sfBits := 0, sfUncor := 0, sfValid := s.get DSL_STATUS_frame == 2 } })

/-- Fragments, key epochs and flow entries of the downstream line: each command completes, with the next state that its clause
gives (R90, R94, R99, R101, R103, R113, R542). -/
def Obligations.DownstreamFlowsComplete : Prop :=
  (∀ (d v : Nat) (s : State), s.aligned = true → s.isWing = false → s.dsl.ended = false → s.dsl.data ≠ [] → s.dsl.pos.or s.fragStart = some d → d + 8 ≤ 145152 → hecDecode (beAt s.dsl.data d 8) = some (v, false) → exec (.fragmentRx) s = .next (s.fragmentAt d v)) ∧
  (∀ (flow : Fin 1024) (x : Flow) (s : State), s.flow flow.val = some x → x.sdu.isSome = true → x.broken = false → 16 ≤ (s.dsl.count + 2 ^ 51 - x.first) % 2 ^ 51 → exec (.sduTimeout flow) s = .next (((s.dropPartial x).sat (DSL_CNT_count 12)).setFlow flow.val none)) ∧
  (∀ (msg : List Byte) (s : State), s.inInbox msg 0x04 = true → exec (.keyEpoch msg) s = .next ((s.tookMsg msg).keyEpoch msg)) ∧
  (∀ (pair : Fin 32) (f p : Nat) (s : State), (s.pair pair.val).pending = some (f, p) → f ≤ s.tick.fc → exec (.keyEpochSwitch pair) s = .next (s.switchParity pair.val p f)) ∧
  (∀ (pair : Fin 32) (f p : Nat) (s : State), (s.pair pair.val).old = some (p, f) → f + 16 ≤ s.tick.fc → s.pairInUse pair.val = false → ∃ t, exec (.keySlotRetire pair) s = .next t ∧ (t.pair pair.val).old = none ∧ t.cph.keys = (s.emptySlot (2 * pair.val + p)).cph.keys) ∧
  (∀ (pair : Fin 32) (p : Nat) (s : State), (s.pair pair.val).implicit = some p → exec (.keyImplicit pair) s = .next ((s.switchParity pair.val p (s.tick.fc / 8192 * 8192)).sat (DSL_CNT_count 18))) ∧
  (∀ (n : Fin 1024) (data : Word) (s : State), bits data.toNat 8 7 ≠ 3 → fidTaken (fidAfter (fun i => s.word (0x41000 + 4 * i)) s.dsl.fidWrites) n.val (data &&& 0xFFFFFF80) = false → exec (.dslFidWrite n data) s = .next ({ s with dsl := { s.dsl with fidWrites := s.dsl.fidWrites ++ [(n.val, data &&& 0xFFFFFF80)] } })) ∧
  (∀ (s : State), exec (.fidChangeApply) s = .next (((s.dsl.ufidWrites).foldl (fun (t : State) p => t.setWord (0x61000 + 4 * p.1) p.2) (s.dsl.fidWrites.foldl (fun (t : State) p => t.applyFid p.1 p.2) { s with dsl := { s.dsl with fidWrites := [], ufidWrites := [] } })).fillLines)) ∧
  (∀ (r : LimRec) (s : State), s.flt.limited = [r] → r.log = 16 → r.code = 0x030B → exec (.multiframeEnd) s = .next ({ s with flt := { s.flt with limited := [] } }.logDevN 0x030B r.niche r.count r.data))

/-- The adaptive loops, their envelopes, holds and manual outputs: each command completes, with the next state that its clause
gives (R107, R108, R110). -/
def Obligations.LoopsComplete : Prop :=
  (∀ (s : State), s.dsl.rose + 8 < s.dsl.fell → exec (.thresholdLoopStep) s = .next ({ s.loopStep 0 1 s.lineDown with dsl := { (s.loopStep 0 1 s.lineDown).dsl with rose := 0, fell := 0 } })) ∧
  (∀ (loop : Fin 7) (data : Word) (s : State), (loop.val = 6 → s.fuse.is7401 = false) → (loopDesc loop.val).value (bits data.toNat (loopDesc loop.val).lo.hi (loopDesc loop.val).lo.lo) ≤ (loopDesc loop.val).value (bits data.toNat (loopDesc loop.val).hi.hi (loopDesc loop.val).hi.lo) → ∃ t, exec (.loopEnvWrite loop data) s = .next t ∧ t.loopLo (loopDesc loop.val) = (loopDesc loop.val).value (bits data.toNat (loopDesc loop.val).lo.hi (loopDesc loop.val).lo.lo) ∧ t.loopHi (loopDesc loop.val) = (loopDesc loop.val).value (bits data.toNat (loopDesc loop.val).hi.hi (loopDesc loop.val).hi.lo)) ∧
  (∀ (loop : Fin 7) (data : Word) (s : State), (loop.val = 6 → s.fuse.is7401 = false) → s.loopHeld (loopDesc loop.val) = true → s.loopLo (loopDesc loop.val) ≤ (loopDesc loop.val).value (bits data.toNat (loopDesc loop.val).man.hi (loopDesc loop.val).man.lo) → (loopDesc loop.val).value (bits data.toNat (loopDesc loop.val).man.hi (loopDesc loop.val).man.lo) ≤ s.loopHi (loopDesc loop.val) → exec (.loopManWrite loop data) s = .next ((s.put (loopDesc loop.val).man (bits data.toNat (loopDesc loop.val).man.hi (loopDesc loop.val).man.lo)).setOut loop.val (loopDesc loop.val) ((loopDesc loop.val).value (bits data.toNat (loopDesc loop.val).man.hi (loopDesc loop.val).man.lo)))) ∧
  (∀ (loop : Fin 7) (hold : Bool) (s : State), (loop.val = 6 → s.fuse.is7401 = false) → exec (.loopHoldWrite loop hold) s = .next (if hold then s.mark (loopDesc loop.val).hold (loopDesc loop.val).holdBit else s.unmark (loopDesc loop.val).hold (loopDesc loop.val).holdBit)) ∧
  (∀ (hold : Bool) (data : Word) (s : State), s.fuse.is7401 = true → exec (.loopEnvWrite 6 data) s = .next (s.logDev 0x0002 0xF (fdata 0 0 (loopDesc 6).hi.addr)) ∧ exec (.loopManWrite 6 data) s = .next (s.logDev 0x0002 0xF (fdata 0 0 (loopDesc 6).man.addr)) ∧ exec (.loopHoldWrite 6 hold) s = .next (s.logDev 0x0002 0xF (fdata 0 0 (loopDesc 6).hold.addr)))

/-- The schedule, the lock test, the cut, the start and the end of a burst: each command completes, with the next state that its
clause gives (R33, R139, R122, R115, R136, R140, R106, R113). -/
def Obligations.BurstsComplete : Prop :=
  (∀ (cycles waited : Nat) (s : State), (s.govern s.tick.fc).get TICK_STATUS_state = 1 → exec (.phaseGrant cycles waited) s = .next ((s.govern s.tick.fc).schedule.phaseUsedAfter 2 cycles waited)) ∧
  (∀ (b : Burst) (id : Nat) (s : State), s.burst id = some b → b.locked = false → (s.guard b).isNone = true → s.on USL_STATUS_pll_lock = true → s.get USL_STATUS_colour = b.colour → exec (.pllLockTest id) s = .next (s.modBurst b.id (fun x => { x with locked := true }))) ∧
  (∀ (b : Burst) (id : Nat) (s : State), s.burst id = some b → b.locked = true → b.content = none → (s.guard b).isNone = true → s.shifted b = false → s.dying = false → exec (.burstCut id) s = .next (let q := (s.cutMsg b).1.cutGrants (s.cutMsg b).2 false; q.1.modBurst b.id (fun _ => q.2))) ∧
  (∀ (b : Burst) (id : Nat) (s : State), s.burst id = some b → b.content.isSome = true → b.running = false → (s.guard b).isNone = true → s.shifted b = false → b.announce = none → b.held = none → ∃ t, exec (.burstStart id) s = .next t ∧ t.get USL_STATUS_laser = 3 ∧ t.usl.bseq = s.usl.bseq + 1) ∧
  (∀ (b : Burst) (id : Nat) (s : State), s.burst id = some b → b.running = true → ∃ t, exec (.burstEnd id) s = .next t ∧ Emit.burst b.colour b.frame b.start b.lead (scramble b.line) ∈ t.sent) ∧
  (∀ (s : State), s.usl.relock.isSome = true → ∃ t, exec (.pllRelockDone) s = .next t ∧ t.on USL_STATUS_pll_lock = true ∧ t.usl.relock = none) ∧
  (∀ (unlocked : Bool) (s : State), bit (s.get DSL_DEFECT_raw) 1 = true → exec (.lolRaw unlocked) s = .next (if unlocked then (s.setRaw 1 true).setFrame 0 else (s.setRaw 1 false).startRelock)) ∧
  (∀ (n : Fin 1024) (data : Word) (s : State), fidTaken (fidAfter (fun i => s.word (0x61000 + 4 * i)) s.dsl.ufidWrites) n.val data = false → classTaken (fidAfter (fun i => s.word (0x61000 + 4 * i)) s.dsl.ufidWrites) s.namedFlow n.val data = false → exec (.uslFidWrite n data) s = .next ({ s with dsl := { s.dsl with ufidWrites := s.dsl.ufidWrites ++ [(n.val, data)] } }))

/-- Standing grants: an accepted STANDING_GRANT waits for its frame, takes effect in it, and a write that ends or re-aids an
allocation removes what named it; each command completes, with the next state that its clause gives (R131, R132, R134). -/
def Obligations.StandingGrantsComplete : Prop :=
  (∀ (msg : List Byte) (s : State), s.inInbox msg 3 = true → (s.tookMsg msg).standSame msg = false → (s.tookMsg msg).standRefused msg = false → exec (.standingGrant msg) s = .next (((s.tookMsg msg).setChange (byteAt msg 4) (some ⟨beAt msg 14 7, standBody msg⟩)).ackMsg msg 0 0)) ∧
  (∀ (index : Fin 8) (c : StandChange) (s : State), s.usl.changes.getD index.val none = some c → c.frame ≤ s.tick.fc → exec (.standingGrantApply index) s = .next ((((s.setStanding index.val c.body).setChange index.val none).syncBound).upBlocked)) ∧
  (∀ (index : Fin 8) (s : State), s.usl.removals.contains (index.val, true) = true → s.usl.removals.contains (index.val, false) = false → exec (.standingRemoveOnAlloc index) s = .next (((({ s with usl := { s.usl with removals := s.usl.removals.filter (fun k => k.1 != index.val) } }.setStanding index.val none)).syncBound).logDev 0x0404 0xF 0)) ∧
  (∀ (index : Fin 8) (s : State), s.usl.removals.contains (index.val, true) = false → s.usl.removals.contains (index.val, false) = true → exec (.standingRemoveOnAlloc index) s = .next (((({ s with usl := { s.usl with removals := s.usl.removals.filter (fun k => k.1 != index.val) } }.setChange index.val none)).syncBound).logDev 0x0404 0xF 0))

/-- The rogue guard, the APD and laser loops and the laser's calibration: each command completes, with the next state that its
clause gives (R144, R107, R142, R143, R149). -/
def Obligations.RogueGuardAndLaserLoopsComplete : Prop :=
  (∀ (s : State), bit (s.get USL_SAFE_cause) 0 = false → ∃ t, exec (.rogueDetect) s = .next t ∧ t.usl.trips.head? = some s.clk ∧ bit (t.get USL_SAFE_cause) 0 = true) ∧
  (∀ (dark : Bool) (s : State), exec (.uslSafeClr dark) s = .next ((if dark && !s.on USL_SAFE_rogue_latched then s.setSafe 0 false else s))) ∧
  (∀ (s : State), exec (.apdLoopStep) s = .next ((s.loopStep 1 (sign (s.apdTarget - s.loopOut (loopDesc 1))) false).tookFree)) ∧
  (∀ (loop : Fin 4) (reading : Nat) (s : State), s.on GLB_SERVICE_cart = false → exec (.laserLoopStep loop reading) s = .next (s.loopStep (2 + loop.val) (sign (((if loop.val % 2 = 0 then s.calU (60 + 2 * (loop.val / 2)) 2 else s.calU 64 2) : Int) - reading)) false)) ∧
  (∀ (loop : Fin 4) (reading : Nat) (s : State), loop.val % 2 = 1 → exec (.laserLoopStep loop reading) s = .next (s.loopStep (2 + loop.val) (sign ((s.calU 64 2 : Int) - reading)) false)) ∧
  (∀ (colour : Fin 2) (s : State), s.noGrant = true → s.usl.apcEpoch.getD colour.val none ≠ some (s.tick.fc / 8192) → ∃ t dark slope, exec (.apcCalibration colour) s = .next t ∧ t.usl.apc = s.usl.apc.set colour.val (some (dark, slope)) ∧ t.usl.apcEpoch = s.usl.apcEpoch.set colour.val (some (s.tick.fc / 8192)) ∧ t.usl.apcSince = s.usl.apcSince.set colour.val s.clk ∧ t.usl.apcLogged = s.usl.apcLogged.set colour.val false ∧ t.regs = s.regs) ∧
  (∀ (colour : Fin 2) (s : State), s.since (s.usl.apcSince.getD colour.val 0) (60 * sec) = true → s.usl.apcLogged.getD colour.val true = false → exec (.apcStarved colour) s = .next ({ s with usl := { s.usl with apcLogged := s.usl.apcLogged.set colour.val true } }.logDev 0x040A 0xF 0))

/-- Phase ACT, the terminal number, ranging and the silence messages: each command completes, with the next state that its clause
gives (R152, R160, R164, R168, R166, R151). -/
def Obligations.ActivationComplete : Prop :=
  (∀ (cycles waited released : Nat) (s : State), s.isWing = false → exec (.phaseAct cycles waited released) s = .next ((s.hearAll released).useWindows.actVerdict.actClocks.phaseUsedAfter 3 cycles waited)) ∧
  (∀ (msg : List Byte) (s : State), s.inInbox msg 1 = true → byteAt msg 0 = 0xFE → beAt msg 4 8 = s.fuse.serial.toNat → byteAt msg 12 ≤ 127 → s.get ACT_STATUS_state = 2 → s.judgedState = 2 → s.on ACT_STATUS_tn_valid = false → exec (.assignTn msg) s = .next (((s.tookMsg msg).adoptTn (byteAt msg 12)).ackMsg msg 0 0)) ∧
  (∀ (msg : List Byte) (s : State), s.inInbox msg 2 = true → byteAt msg 0 ≤ 0x7F → rangeRefused (s.tookMsg msg) msg = false → s.judgedState = 2 → bit (byteAt msg 5) 1 = false → exec (.rangeSet msg) s = .next ((((s.tookMsg msg).put (ACT_RTT_rtt (byteAt msg 5 % 2)) (beAt msg 10 4)).sat (ACT_CNT_count 3)).ackMsg msg 0 0)) ∧
  (∀ (msg : List Byte) (s : State), s.inInbox msg 2 = true → byteAt msg 0 ≤ 0x7F → rangeRefused (s.tookMsg msg) msg = false → s.judgedState = 2 → s.get ACT_STATUS_state = 2 → bit (byteAt msg 5) 1 = true → ∃ t u, exec (.rangeSet msg) s = .next t ∧ t = (State.ackMsg (State.enterRanged u) msg 0 0).syncUp ∧ u.get USL_EQD_eqd = beAt msg 6 4 ∧ u.get (ACT_RTT_rtt (byteAt msg 5 % 2)) = beAt msg 10 4 ∧ u.usl.later = s.usl.later ++ [(s.tick.fc + 2, ⟨beAt msg 6 4, byteAt msg 14, byteAt msg 15⟩)] ∧ u.usl.eqdSet = true) ∧
  (∀ (msg : List Byte) (s : State), s.silenceDue msg 0 = true → s.get ACT_STATUS_state = 5 → s.judgedState = 5 → exec (.silenceRelease msg) s = .next ((s.tookSilence msg).unsilence.ackMsg msg 0 0)) ∧
  (∀ (msg : List Byte) (s : State), s.silenceDue msg 1 = true → s.get ACT_STATUS_state = 4 → s.judgedState = 4 → beAt msg 6 2 ≠ 0 → ∃ t, exec (.silenceSilence msg) s = .next t ∧ t.on ACT_SILENCE_silenced = true ∧ t.get ACT_SILENCE_remain = beAt msg 6 2 % 65536 ∧ t.act.t4 = some (s.clk + beAt msg 6 2 * sec)) ∧
  (∀ (msg : List Byte) (s : State), s.silenceDue msg 2 = true → s.get ACT_STATUS_state = 4 → s.judgedState = 4 → exec (.silenceQuarantine msg) s = .next (({ s.tookSilence msg with act := { (s.tookSilence msg).act with prior := 4 } }.setAct 5).logDev 0x0508 0xF 0)) ∧
  (∀ (msg : List Byte) (s : State), s.silenceDue msg 3 = true → s.get ACT_STATUS_state = 4 → s.judgedState = 4 → exec (.silenceDeregister msg) s = .next ((s.tookSilence msg).setAct 1)) ∧
  (∀ (data : Word) (s : State), bit data.toNat 0 = false → exec (.silenceReleaseWrite data) s = .next (s.unsilence))

/-- The timers of activation, held messages and key reports: each command completes, with the next state that its clause gives
(R156, R157, R173, R167, R168, R171). -/
def Obligations.ActivationTimersComplete : Prop :=
  (∀ (msg : List Byte) (h : HeldMsg) (s : State), s.inInbox msg 0x0B = true → (s.tookMsg msg).heldMsg (byteAt msg 4) (byteAt msg 5) = some h → h.msg.type ≠ 0x83 → exec (.ackDownstream msg) s = .next ((s.tookMsg msg).dropHeld h.msg.type h.msg.seq)) ∧
  (∀ (s : State), s.due s.act.t1 = true → exec (.t1Expiry) s = .next ((s.logDev 0x0502 0xF 0).setAct 1)) ∧
  (∀ (s : State), s.due s.act.t2 = true → exec (.t2Expiry) s = .next ((s.logDev 0x0503 0xF 0).setAct 1)) ∧
  (∀ (s : State), s.due s.act.t3 = true → exec (.t3Expiry) s = .next ((s.logDev 0x0504 0xF 0).setAct (if s.aligned then 1 else 0))) ∧
  (∀ (s : State), s.due s.act.t4 = true → exec (.t4Expiry) s = .next (s.unsilence)) ∧
  (∀ (type seq : Byte) (h : HeldMsg) (s : State), s.heldMsg type.toNat seq.toNat = some h → (0 < h.sends ∧ h.sends < 8) → h.dormant = false → h.last + 16 ≤ s.tick.fc → s.act.queue.contains h.msg = false → s.get PWR_STATUS_mode ≠ 2 → exec (.upstreamMsgResend type seq) s = .next ({ s with act := { s.act with queue := s.act.queue ++ [h.msg] } }.sat (ACT_CNT_count 6))) ∧
  (∀ (seq : Byte) (h : HeldMsg) (s : State), s.heldMsg 0x83 seq.toNat = some h → h.dormant = true → h.last / 8192 < s.tick.fc / 8192 → ∃ t, exec (.keyReportReseries seq) s = .next t ∧ t.act.queue = s.act.queue ++ [h.msg] ∧ t.act.held = s.act.held.map (fun (x : HeldMsg) => if x.msg = h.msg then { x with dormant := false, sends := 0 } else x))

/-- Link training, partner loss and the binding of the Pendant link: each command completes, with the next state that its clause
gives (R183, R190, R185, R186, R189, R208). -/
def Obligations.PendantLinkComplete : Prop :=
  (∀ (s : State), s.get PND_STATUS_link = 0 → s.on PND_CTRL_link_en = true → s.domainOn 37 = true → s.pnd.since ≤ s.clk → exec (.linkTrainStart) s = .next ({ s.put PND_STATUS_link 1 with pnd := { s.pnd with since := s.clk, markers := 0, marker := false, missing := 0, stopped := false } })) ∧
  (∀ (s : State), s.get PND_STATUS_link = 1 → s.since s.pnd.since (100 * ms) = true → exec (.linkTrainTimeout) s = .next ({ s.put PND_STATUS_link 0 with pnd := { s.pnd with since := s.clk + 100 * ms } })) ∧
  (∀ (lost : Bool) (s : State), s.get PND_STATUS_link ≠ 0 → ((s.linkUp = true ∧ (lost = true ∨ 4 ≤ s.pnd.missing)) ∨ s.on PND_CTRL_link_en = false ∨ s.domainOn 37 = false) → exec (.linkDown lost) s = .next (s.linkDown)) ∧
  (∀ (line : List Byte) (spaced : Bool) (s : State), s.get PND_STATUS_link ≠ 0 → bits (beAt (linkOctets line) 0 8) 63 48 = 0x4BA5 → exec (.linkMarkerBlock line spaced) s = .next (s.withVerdict (fun s => { s with pnd := { s.pnd with stopped := false, marker := true, missing := 0, peerTick := bits (beAt (linkOctets line) 0 8) 47 46, markers := if spaced then s.pnd.markers + 1 else 1 }, dsl := { s.dsl with mark := s.dsl.mark || s.isWing } }))) ∧
  (∀ (msg : List Byte) (s : State), s.inInbox msg 0x09 = true → byteAt msg 4 = 1 → (s.tookMsg msg).bindingNow ≠ some (bindBody msg) → (s.tookMsg msg).bindCode msg = none → exec (.pendantBindSpan msg) s = .next (State.ackMsg { s.tookMsg msg with pnd := { (s.tookMsg msg).pnd with pend := sortBy (fun x y => decide (x.1 ≤ y.1)) ((s.tookMsg msg).pnd.pend ++ [(bindFrame msg, bindBody msg)]) } } msg 0 0)) ∧
  (∀ (msg : List Byte) (s : State), s.inInbox msg 0x09 = true → byteAt msg 4 = 2 → (s.tookMsg msg).bindingNow ≠ some (bindBody msg) → (s.tookMsg msg).bindCode msg = none → exec (.pendantBindGuard msg) s = .next (State.ackMsg { s.tookMsg msg with pnd := { (s.tookMsg msg).pnd with pend := sortBy (fun x y => decide (x.1 ≤ y.1)) ((s.tookMsg msg).pnd.pend ++ [(bindFrame msg, bindBody msg)]) } } msg 0 0)) ∧
  (∀ (msg : List Byte) (s : State), s.inInbox msg 0x09 = true → byteAt msg 4 = 0 → (s.tookMsg msg).bindingNow.isSome = true → (s.tookMsg msg).bindCode msg = none → exec (.pendantUnbind msg) s = .next (State.ackMsg { s.tookMsg msg with pnd := { (s.tookMsg msg).pnd with pend := sortBy (fun x y => decide (x.1 ≤ y.1)) ((s.tookMsg msg).pnd.pend ++ [(bindFrame msg, bindBody msg)]) } } msg 0 0)) ∧
  (∀ (f : Nat) (b : BindBody) (s : State), s.pnd.pend = [(f, b)] → f ≤ s.tick.fc → b.op = 1 → s.on PND_STATUS_bound = false → exec (.pendantBindApply) s = .next ({ s with pnd := { s.pnd with pend := [] } }.bind 1 0 b.partner b.pairId)) ∧
  (∀ (s : State), exec (.pndCmdUnbind) s = .next ({ s with pnd := { s.pnd with unbind := s.on PND_STATUS_bound } })) ∧
  (∀ (n : Fin 256) (data : Word) (s : State), s.gflowBad n.val (data &&& 0xE7FF03FF#32).toNat = false → exec (.pndGflowWrite n data) s = .next ({ s with pnd := { s.pnd with writes := s.pnd.writes ++ [(0xA1000 + 4 * n.val, data &&& 0xE7FF03FF#32)] } }))

/-- The records that arrive on the Pendant link: each command completes, with the next state that its clause gives (R188, R207,
R206, R193, R198, R201, R194, R195, R303, R531). -/
def Obligations.PendantRecordsComplete : Prop :=
  (∀ (record : List Byte) (a : Nat) (b : List Byte) (s : State), (s.readRecord record 1).1 = some (a, b) → exec (.stateRecord record) s = .next (s.withVerdict (fun t => t.takePeer (readPeer b)))) ∧
  (∀ (record : List Byte) (a : Nat) (b : List Byte) (s : State), (s.readRecord record 2).1 = some (a, b) → exec (.consentReq record) s = .next (s.sendRecord 3 a (let r := (s.localRefusers.map (fun (x : Nat × Nat) => x.2)).headD 0; beBytes 1 (bitNat (r != 0)) ++ beBytes 1 r ++ [0, 0]))) ∧
  (∀ (record : List Byte) (a : Nat) (b : List Byte) (q : ConsentReq) (s : State), (s.readRecord record 3).1 = some (a, b) → s.pnd.req = some q → q.number = a → q.answer = none → byteAt b 0 = 0 → exec (.consentReply record) s = .next ({ s with pnd := { s.pnd with req := some { q with answer := some (true, byteAt b 1) } } })) ∧
  (∀ (q : ConsentReq) (s : State), s.pnd.req = some q → q.answer = none → q.tick + 8 ≤ s.tick.edges → exec (.consentTimeout) s = .next (({ s with pnd := { s.pnd with req := some { q with answer := some (false, 0) } } }.pndCnt 13).logDev 0x0608 0xF 0)) ∧
  (∀ (record : List Byte) (a : Nat) (b : List Byte) (s : State), (s.readRecord record 5).1 = some (a, b) → s.isWing = true → s.pairedAs 1 = true → exec (.todRecord record) s = .next ({ s.acceptTod (todBody (zeros 4 ++ b)) with pnd := { s.pnd with todSeen := true } })) ∧
  (∀ (record : List Byte) (a : Nat) (b : List Byte) (s : State), (s.readRecord record 0x10).1 = some (a, b) → s.on GLB_SERVICE_up_ok = true → s.pairedAs 2 = true → s.on (PND_GFLOW_valid (a % 256)) = true → s.on (PND_GFLOW_dir (a % 256)) = true → exec (.dupUpRecord record) s = .next ((s.pndCnt 3).admitSdu { id := 0, owner := (s.qidOwner (s.get (PND_GFLOW_qid (a % 256)))).getD 0, data := b, dest := some (s.get (PND_GFLOW_qid (a % 256))) })) ∧
  (∀ (record : List Byte) (a : Nat) (b : List Byte) (s : State), (s.readRecord record 0x11).1 = some (a, b) → s.pairedAs 2 = true → s.on (PND_GFLOW_valid (a % 256)) = true → s.on (PND_GFLOW_dir (a % 256)) = false → s.on (PND_GFLOW_egress (a % 256)) = true → s.on (DSL_FID_valid (s.get (PND_GFLOW_flow (a % 256)))) = true → tagGood (a % 256) b = true → exec (.dupDownRecord record) s = .next ((s.fromRecord b).2.forward (s.fromRecord b).1 (.copy (a % 256) (s.get (PND_GFLOW_flow (a % 256)))))) ∧
  (∀ (record : List Byte) (a q : Nat) (b : List Byte) (s : State), (s.readRecord record 0x12).1 = some (a, b) → s.pairedAs 1 = true → s.on PND_STATUS_role = false → s.on (USL_ALLOC_valid (bits a 13 8)) = true → s.allocBase (bits a 13 8) = some q → exec (.spanUpRecord record) s = .next ((s.pndCnt 11).admitSdu { id := 0, owner := (s.qidOwner (q + a % 8)).getD 0, data := b, dest := some (q + a % 8) })) ∧
  (∀ (record : List Byte) (a : Nat) (b : List Byte) (s : State), (s.readRecord record 0x13).1 = some (a, b) → s.isWing = true → s.pairedAs 1 = true → s.on (DSL_FID_valid (a % 1024)) = true → exec (.spanDownRecord record) s = .next (((s.pndCnt 12).fromRecord b).2.forward ((s.pndCnt 12).fromRecord b).1 (.dest (a % 1024)))) ∧
  (∀ (record : List Byte) (a : Nat) (b : List Byte) (s : State), (s.readRecord record 0x14).1 = some (a, b) → s.pairedAs 2 = true → bit a 15 = true → exec (.memberRecord record) s = .next ((s.membersOn true (a % 64)).foldl (fun (t : State) m => t.acceptMember m b) s)) ∧
  (∀ (record : List Byte) (a : Nat) (b : List Byte) (s : State), (s.readRecord record 4).1 = some (a, b) → byteAt b 0 = 2 → exec (.castRecord record) s = .next ((s.castBlock (byteAt b 1) (beAt b 4 4) (b.drop 8)).1))

/-- Grants that waited, the scrub engine, withdrawn cells, flushes and the Caliper's acknowledgement: each command completes,
with the next state that its clause gives (R215, R218, R213, R237, R479, R226, R235, R577). -/
def Obligations.PacketMemoryComplete : Prop :=
  (∀ (id : Nat) (w : CellWait) (s : State), s.waitOf id = some w → s.since w.since (4 * us + 1) = false → exec (.cellWaitGrant id) s = .next ((s.grantCells id w).txDone id (s.sduLen id))) ∧
  (∀ (id : Nat) (w : CellWait) (s : State), s.waitOf id = some w → s.since w.since (4 * us) = true → exec (.cellWaitTimeout id) s = .next ((s.noCell id).txDone id (s.sduLen id))) ∧
  (∀ (cell : Fin 393216) (s : State), ∃ t, exec (.scrubComplete cell) s = .next t ∧ t.cel.scrub.all (fun r => !(decide (r.first ≤ cell.val) && decide (cell.val < r.first + r.count))) = true) ∧
  (∀ (cell : Fin 393216) (s : State), s.cel.lost.contains cell.val = false → exec (.descEccError cell) s = .next ((let t := s.each (s.cel.sdus.filter (fun d => d.cells.contains cell.val)) (fun d t => if d.queue.isSome then t.dropQueued d.id else t.dropNew d.id); State.logDev { t with cel := { t.cel with scrub := t.cel.scrub.flatMap (fun (r : ScrubRun) => r.without cell.val), lost := t.cel.lost ++ [cell.val] } } 0x0702 0xF (fdata 0 0 cell.val)))) ∧
  (∀ (q : Fin 4) (s : State), (s.quad q.val).draining = true → (s.quad q.val).parked = false → (List.range' (98304 * q.val) 98304).all s.isFree = true → exec (.quadrantPark q) s = .next ({ s with cel := { s.cel with quads := s.cel.quads.set q.val ⟨true, true⟩ } })) ∧
  (∀ (n : Fin 16) (s : State), (s.nreset n.val).active = true → exec (.nicheQueueFlush n) s = .next (((s.each (s.cel.sdus.filter (fun d => match d.queue with | some q => s.qidOwner q == some n.val | none => false)) (fun d t => (t.ncnt n.val 6).dropQueued d.id)).dropMesh (fun x => x.niche == n.val) (fun _ t => t.ncnt n.val 6)).modNreset n.val (fun (r : NicheReset) => { r with flushed := true }))) ∧
  (∀ (n : Fin 16) (s : State), (s.nreset n.val).active = true → s.since (s.nreset n.val).at_ (2 * ms) = true → exec (.nicheResetTxAbort n) s = .next ((List.range 6).foldl (fun (t : State) p => if t.ethOwner p == some n.val && ((t.ethPort p).tx.toList ++ (t.ethPort p).again.toList).any (fun f => f.sdu.isSome) then ((t.abortTx p).ncnt n.val 6).logDev 0x0706 n.val (fdata n.val 0 0) else t) s)) ∧
  (∀ (data : Word) (s : State), bit data.toNat 0 = true → exec (.calAckWrite data) s = .next ({ s with cel := { s.cel with acked := true } })) ∧
  (∀ (who : Agent) (a : Fin 64) (count : Fin 3) (s : State), (∀ n, agentNiche who = some n → s.allocOwner a.val = some n) → exec (.celCountLoRead who a count) s = .next ((s.latchHi (agentId who) (celCountAddr a.val count.val + 4) (BitVec.ofNat 32 (s.abytes a.val count.val / 2 ^ 32))).answer (agentId who) (BitVec.ofNat 32 (s.abytes a.val count.val))))

/-- The Ethernet ports: reception, egress, half duplex, link, shapers and wake patterns: each command completes, with the next
state that its clause gives (R243, R248, R247, R257, R253, R240, R251, R259, R577). -/
def Obligations.EthernetComplete : Prop :=
  (∀ (port : Fin 6) (frame : List Byte) (ago : Nat) (s : State), s.on (ETH_STATUS_link port.val) = true → s.flt.fatal = false → s.mode ≠ 3 → exec (.ethFrameRx port frame ago) s = .next (s.frameRx port.val frame ago)) ∧
  (∀ (port : Fin 6) (t : Nat) (s : State), (s.ethPort port.val).pause = some t → t ≤ s.clk → exec (.pauseExpiry port) s = .next ((s.modEth port.val (fun x => { x with pause := none })).putB (ETH_STATUS_paused port.val) false)) ∧
  (∀ (port : Fin 6) (clear : Option Nat) (defer : Nat) (s : State), (s.ethGroup port.val).isSome = true → s.ethClocked port.val = true → s.flt.fatal = false → s.mode ≠ 3 → s.mayStart port.val = true → s.mediumFree port.val clear = true → (s.ethPort port.val).ptp = [] → exec (.ethTxStart port clear defer) s = .next (State.startTx s.cel.sdus.length port.val defer s)) ∧
  (∀ (port : Fin 6) (clear : Option Nat) (defer : Nat) (s : State), s.ethClocked port.val = true → s.flt.fatal = false → s.mode ≠ 3 → s.mayStart port.val = true → s.mediumFree port.val clear = true → (s.ethPort port.val).ptp ≠ [] → exec (.ethTxStart port clear defer) s = .next (s.startPtp port.val)) ∧
  (∀ (port : Fin 6) (ago id : Nat) (x : EthTx) (s : State), (s.ethPort port.val).tx = some x → x.sdu = some id → s.txOver port.val x = true → ∃ t, exec (.ethTxComplete port ago) s = .next t ∧ Emit.ethFrame port.val x.bytes ∈ t.sent) ∧
  (∀ (port : Fin 6) (ago : Nat) (x : EthTx) (s : State), (s.ethPort port.val).tx = some x → x.sdu = none → s.txOver port.val x = true → ∃ t, exec (.ethTxComplete port ago) s = .next t ∧ Emit.ptp port.val x.bytes ∈ t.sent) ∧
  (∀ (port : Fin 6) (after : Nat) (x : EthTx) (s : State), (s.ethPort port.val).tx = some x → s.on (ETH_STATUS_duplex port.val) = false → after ≤ 512 → x.collisions + 1 < 16 → ∃ t, exec (.ethCollision port after) s = .next t ∧ Emit.ethJam port.val after ∈ t.sent) ∧
  (∀ (port : Fin 6) (clear : Option Nat) (x : EthTx) (s : State), (s.ethPort port.val).again = some x → x.at_ ≤ s.clk → s.mediumFree port.val clear = true → exec (.ethBackoffExpiry port clear) s = .next ((s.settlePort port.val).modEth port.val (fun y => { y with again := none, tx := some { x with at_ := (s.settlePort port.val).clk } }))) ∧
  (∀ (port : Fin 6) (report : Option (Fin 4 × Bool)) (s : State), exec (.ethLinkChange port report) s = .next ((s.modEth port.val (fun x => { x with iface := report.map (fun r => (r.1.val, r.2)) })).syncLink port.val)) ∧
  (∀ (port : Fin 6) (reg : Fin 9) (data : Word) (s : State), s.ethMux port.val ≠ 0 → reg.val ≠ 8 → bits data.toNat 23 0 ≤ 10000000 → (s.ethPend port.val (0x100000 + 0x4000 * port.val + (0x20 + 4 * reg.val)) (BitVec.ofNat 32 (bits data.toNat 23 0))).idleSum port.val ≤ s.portRate port.val → exec (.ethCbsWrite port reg data) s = .next (s.ethPend port.val (0x100000 + 0x4000 * port.val + (0x20 + 4 * reg.val)) (BitVec.ofNat 32 (bits data.toNat 23 0)))) ∧
  (∀ (port : Fin 6) (data : Word) (s : State), s.ethMux port.val ≠ 0 → (onesOf 8 (bits data.toNat 7 0)).any ((s.put (ETH_WAKE_CTRL_pat_en port.val) (bits data.toNat 7 0)).wakeBad port.val) = false → exec (.ethWakeEnable port data) s = .next ((s.put (ETH_WAKE_CTRL_pat_en port.val) (bits data.toNat 7 0)).putB (ETH_WAKE_CTRL_en port.val) (bit data.toNat 8))) ∧
  (∀ (who : Agent) (port : Fin 6) (sent : Bool) (s : State), (∀ n, agentNiche who = some n → s.ethOwner port.val = some n) → exec (.ethBytesLoRead who port sent) s = .next ((let n := if sent then (s.ethPort port.val).tx48 else (s.ethPort port.val).rx48; (s.latchHi (agentId who) (0x100000 + 0x4000 * port.val + 0x200 + 4 * (if sent then 14 else 2)) (BitVec.ofNat 32 (n / 2 ^ 32))).answer (agentId who) (BitVec.ofNat 32 n))))

/-- Register accesses by the PF, the niches and the supervisor, and what leaves the owner check: each command completes, with the
next state that its clause gives (R7, R8, R3, R13, R574, R576, R222, R573). -/
def Obligations.RegisterAccessComplete : Prop :=
  (∀ (addr : BitVec 26) (data : Word) (x : Ambient) (s : State), addr.toNat % 4 = 0 → addr.toNat < 0x1000000 → s.flt.fatal = false → s.flt.phase ≠ .held → assigned addr.toNat = true → absentBlock addr.toNat = false → s.blockOff addr.toNat = false → exec (.registerWrite .pf addr data x) s = .next (s.writeBlock .pf x addr.toNat data)) ∧
  (∀ (n : Fin 16) (addr : BitVec 26) (data : Word) (x : Ambient) (s : State), addr.toNat < 0x40000 → addr.toNat % 4 = 0 → exec (.registerWrite (.vf n) addr data x) s = .next (s.windowWrite n x addr.toNat data)) ∧
  (∀ (addr : BitVec 26) (data : Word) (x : Ambient) (s : State), addr.toNat % 4 = 0 → addr.toNat ≠ SUP_PERMIT_class.addr → s.mbxReady = true → s.marked SUP_PERMIT_class 1 = true → exec (.registerWrite .sup addr data x) s = .next (s.writeReg .sup x addr.toNat data)) ∧
  (∀ (addr : BitVec 26) (write : Bool) (s : State), s.flt.fatal = false → exec (.narrowAccess .pf addr write) s = .next (((s.limDev 0x0004 0xF (fdata 0 0 addr.toNat)).when (!write) (fun t => t.answer 0 0)))) ∧
  (∀ (n : Fin 16) (addr : BitVec 26) (write : Bool) (s : State), s.vfOpen n.val = true → exec (.narrowAccess (.vf n) addr write) s = .next (((s.limNiche n.val 0x0004 (fdata 0 0 addr.toNat)).when (!write) (fun t => t.answer (1 + n.val) 0)))) ∧
  (∀ (addr : BitVec 26) (s : State), s.fuse.is7401 = true → absentBlock addr.toNat = true → assigned addr.toNat = true → s.flt.fatal = false → exec (.absentBlockWrite addr) s = .next (s.logDev 0x0002 0xF (fdata 0 0 addr.toNat))) ∧
  (∀ (n : Fin 16) (off : BitVec 18) (write : Bool) (s : State), s.vfOpen n.val = true → within 0x3E000 0x3E440 off.toNat = false → within 0x3F000 0x3F00C off.toNat = false → s.windowAt n.val off.toNat = none → exec (.vfUnmappedAccess n off write) s = .next (let t := s.logNiche n.val 0x0002 (fdata 0 0 off.toNat); if write then t else t.answer (1 + n.val) 0)) ∧
  (∀ (addr : BitVec 26) (write : Bool) (s : State), addr.toNat < 0x1000000 → assigned addr.toNat = false → s.flt.fatal = false → exec (.pfUnmappedAccess addr write) s = .next (((s.limDev 0x0002 0xF (fdata 0 0 addr.toNat)).when (!write) (fun t => t.answer 0 0)))) ∧
  (∀ (n : Fin 16) (off : BitVec 18) (a : Nat) (s : State), s.vfOpen n.val = true → s.windowAt n.val off.toNat = some (a, false) → exec (.crossNicheAccess n off) s = .next (s.deny n.val (1 + n.val) a)) ∧
  (∀ (d : DeniedReq) (rest : List DeniedReq) (s : State), s.cel.denied = d :: rest → s.since d.arrived 64 = true → exec (.deniedCompletion) s = .next ((State.countDenied { s with cel := { s.cel with denied := rest } } d.niche d.target).send (.completion d.source 1 0))) ∧
  (∀ (s : State), s.flt.fatal = false → exec (.glbTempRead) s = .next ((s.put GLB_TEMP_peak 0x8000).answer 0 (s.word 0x18)))

/-- Armature staging, checks, acceptance and re-carving: each command completes, with the next state that its clause gives (R59,
R61, R64, R583, R62, R66, R70). -/
def Obligations.ArmatureComplete : Prop :=
  (∀ (s : State), s.armBusy .check = false → exec (.armCheck) s = .next ({ (s.putB ARM_STATUS_busy true).put ARM_STATUS_last_cmd 1 with arm := { s.arm with job := some ⟨.check, false⟩ } })) ∧
  (∀ (s : State), s.armBusy .accept = false → s.on GLB_SERVICE_arm = false → ∃ t, exec (.armAccept) s = .next t ∧ t.arm.job = some (⟨.accept, false⟩ : ArmJob) ∧ t.get ARM_STATUS_state = 1) ∧
  (∀ (s : State), s.armBusy .recarve = false → ∃ t, exec (.armRecarve) s = .next t ∧ t.arm.job = some (⟨.recarve, false⟩ : ArmJob) ∧ t.on ARM_STATUS_busy = true ∧ t.get ARM_STATUS_last_cmd = 3) ∧
  (∀ (s : State), exec (.armCmdMultiBit) s = .next (((s.put ARM_STATUS_code 0x0103).logDev 0x0103 0xF 0).raisePf 0)) ∧
  (∀ (j : ArmJob) (s : State), s.arm.job = some j → j.compare = false → exec (.armChecksDone) s = .next (s.armReport j.cmd (s.armResult j.cmd))) ∧
  (∀ (j : ArmJob) (s : State), s.arm.job = some j → j.compare = true → s.badSource = true → exec (.armDigestCompareDone) s = .next ((s.armIdle.put ARM_FAIL_OFF_offset 0).armRefuse 0x0118)) ∧
  (∀ (j : ArmJob) (s : State), s.arm.job = some j → j.compare = true → beAt (s.staged 32) 12 4 ≤ 262144 → sha384 (s.armIdle.staged (beAt (s.staged 32) 12 4)) = s.armIdle.armDigest → s.armIdle.badSource = false → exec (.armDigestCompareDone) s = .next ((s.armIdle.put ARM_STATUS_code 0).put ARM_FAIL_OFF_offset 0xFFFFFFFF)) ∧
  (∀ (a : ReadyImage) (s : State), s.arm.ready = some a → exec (.armatureAcceptance) s = .next (s.acceptImage a)) ∧
  (∀ (c : ReadyCarve) (s : State), s.arm.carve = some c → c.requested = true → s.closed c.niche = true → s.scrubbed c.niche = true → exec (.recarveApply) s = .next (s.applyCarve c)) ∧
  (∀ (data : Word) (s : State), s.on ARM_STATUS_busy = false → s.on ARM_LOAD_ADDR_end = false → exec (.armLoadDataWrite data) s = .next (if s.get ARM_LOAD_ADDR_word = 0xFFFF then (s.stage 0xFFFF data).putB ARM_LOAD_ADDR_end true else (s.stage (s.get ARM_LOAD_ADDR_word) data).put ARM_LOAD_ADDR_word (s.get ARM_LOAD_ADDR_word + 1))) ∧
  (∀ (data : Word) (s : State), s.on ARM_STATUS_busy = false → exec (.armLoadAddrWrite data) s = .next ((s.put ARM_LOAD_ADDR_word (bits data.toNat 17 2)).putB ARM_LOAD_ADDR_end false))

/-- Lookups and table updates of the classifier: each command completes, with the next state that its clause gives (R270, R275,
R267, R274, R277, R278, R279). -/
def Obligations.ClassifierComplete : Prop :=
  (∀ (id : Nat) (ecc : Option (Fin 6 × BitVec 20)) (d : Sdu) (k : List Byte) (s : State), s.sdu id = some d → s.cls.waiting.contains id = true → s.written id = true → s.closed d.owner = false → ((s.endWaiting id).startLookup id d).profileOwned (((s.endWaiting id).startLookup id d).clsOwner d) (((s.endWaiting id).startLookup id d).profileOf d) = true → ((s.endWaiting id).startLookup id d).keyOf d (((s.endWaiting id).startLookup id d).profileOf d) = .ok k → exec (.classifySdu id ecc) s = .next (let t := (s.endWaiting id).startLookup id d; t.chained (t.clsOwner d) (t.profileOf d) id k ecc)) ∧
  (∀ (o : Fin 17) (s : State), s.updOutside o.val = false → s.updBad o.val = false → exec (.clsUpdWrite o) s = .next (s.updStart o.val ⟨1, s.updTable o.val, s.updIndex o.val, (s.updData o.val).take (if s.updTable o.val = 2 then 16 else 64)⟩)) ∧
  (∀ (o : Fin 17) (s : State), s.updOutside o.val = false → exec (.clsUpdRead o) s = .next (s.updStart o.val ⟨2, s.updTable o.val, s.updIndex o.val, []⟩)) ∧
  (∀ (o : Fin 17) (s : State), s.updOutside o.val = false → s.updTable o.val ≠ 2 → exec (.clsUpdHash o) s = .next (s.updStart o.val ⟨3, s.updTable o.val, 0, (s.updData o.val).take 32⟩)) ∧
  (∀ (o : Fin 17) (s : State), s.updOutside o.val = false → exec (.clsUpdInvalidate o) s = .next (s.updStart o.val ⟨4, s.updTable o.val, s.updIndex o.val, zeros (if s.updTable o.val = 2 then 16 else 64)⟩)) ∧
  (∀ (o : Fin 17) (j : ClsJob) (s : State), s.clsJob o.val = some j → j.op = 1 → exec (.clsUpdComplete o) s = .next ((s.setSram ((s.clsArea o.val j.table).1 + (s.clsArea o.val j.table).2.2 * j.index) j.data).updEnd o.val)) ∧
  (∀ (offset : BitVec 24) (s : State), exec (.tableWindowWrite offset) s = .next (s.logDev 0x0902 0xF 0)) ∧
  (∀ (o : Fin 17) (data : Word) (s : State), ∃ t, exec (.clsTreeSelWrite o data) s = .next t ∧ t.get (CLS_TREE_SEL_sel o.val) = bits data.toNat 3 0 ∧ t.cls.sel = s.cls.sel ∧ ∀ k : Fin 4, bit (t.get (CLS_TREE_SEL_retiring o.val)) k.val = (bit (s.get (CLS_TREE_SEL_retiring o.val)) k.val || (bit (s.selOf o.val) k.val != bit data.toNat k.val)) ∧ (bit (s.selOf o.val) k.val ≠ bit data.toNat k.val → (4 * o.val + k.val, s.tick.edges) ∈ t.cls.wrote)) ∧
  (∀ (o : Fin 17) (s : State), ∃ t, exec (.treeSwitch o) s = .next t ∧ ∀ k : Fin 4, bit (t.selOf o.val) k.val = if s.treeAged 1 o.val k.val then bit (s.get (CLS_TREE_SEL_sel o.val)) k.val else bit (s.selOf o.val) k.val) ∧
  (∀ (o : Fin 17) (s : State), ∃ t, exec (.treeRetire o) s = .next t ∧ t.cls.sel = s.cls.sel ∧ ∀ k : Fin 4, bit (t.get (CLS_TREE_SEL_retiring o.val)) k.val = (bit (s.get (CLS_TREE_SEL_retiring o.val)) k.val && !s.treeAged 2 o.val k.val)) ∧
  (∀ (s : State), exec (.profileApply) s = .next ((State.writeWords { s with cls := { s.cls with shadow := [] } } (ofNoProfile s.cls.shadow)).each (List.range 32) (fun p t => t.applyProfile s.cls.shadow p))) ∧
  (∀ (o : Fin 17) (data : Word) (s : State), s.on (CLS_UPD_STATUS_busy o.val) = false → bits data.toNat 11 0 + bits data.toNat 23 12 ≤ s.clsBlocks o.val → exec (.clsNtabWrite o data) s = .next (((s.put (CLS_NTAB_hash_a o.val) (bits data.toNat 11 0)).put (CLS_NTAB_hash_b o.val) (bits data.toNat 23 12)).updStart o.val ⟨5, 0, 0, []⟩)) ∧
  (∀ (o : Fin 17) (s : State), s.clearing o.val = true → exec (.ntabClearDone o) s = .next ((s.zeroTables o.val).updEnd o.val))

/-- TDM ports, members, seconds and configuration: each command completes, with the next state that its clause gives (R295, R290,
R285, R298, R300, R289, R292, R294). -/
def Obligations.TdmComplete : Prop :=
  (∀ (cycles : Nat) (s : State), exec (.phaseTdm cycles) s = .next (let t := (s.each (List.range 12) (fun c u => u.judgeCircuit c)).upBlocked; (t.each ((List.range 12).filter t.framed) (fun p u => (u.lineTick p).portTick p)).phaseUsed 4 cycles)) ∧
  (∀ (trib : Fin 12) (frame : List Byte) (smf : Option Bool) (s : State), s.framed trib.val = true → exec (.tdmRxFrame trib frame smf) s = .next (s.tdmReceive trib.val frame smf)) ∧
  (∀ (trib : Fin 12) (s : State), s.framed trib.val = true → exec (.tdmTxFrame trib) s = .next (s.tdmTransmit trib.val)) ∧
  (∀ (trib : Fin 12) (raw : BitVec 6) (s : State), s.framed trib.val = true → exec (.tdmDefectChange trib raw) s = .next (s.defectChange trib.val raw)) ∧
  (∀ (id : Nat) (r : ReadySdu) (d : Sdu) (s : State), s.dsl.ready.find? (fun x => x.sdu == id) = some r → s.sdu id = some d → s.membersOn false r.flow ≠ [] → exec (.memberSduAccept id) s = .next ((State.each { s with dsl := { s.dsl with ready := s.dsl.ready.erase r } } (s.membersOn false r.flow) (fun m u => u.toMember m d.data)).release id)) ∧
  (∀ (m : Fin 48) (l : Nat) (s : State), s.on (TDM_MEM_CFG_valid m.val) = true → s.on (TDM_MEM_STATUS_up m.val) = true → (s.mem m.val).last = some l → l + 2 * (s.mem m.val).k + 8 ≤ s.tick.edges → exec (.memberDown m) s = .next (((s.memberUp m.val false).setMem m.val { s.mem m.val with runFrom := none }).judgeCircuit (s.get (TDM_MEM_CFG_circuit m.val)))) ∧
  (∀ (blocks : List Nat) (s : State), s.tick.fc % 8000 = 0 → s.tdm.second ≠ some s.tick.edges → exec (.pmSecondEnd blocks) s = .next (s.endSecond blocks)) ∧
  (∀ (c : Fin 12) (data : Word) (s : State), s.cirRefused c.val (data &&& 0x8F1FFFFF#32) = false → s.tdmLimit (0x180800 + 0x10 * c.val) (data &&& 0x8F1FFFFF#32) = false → exec (.tdmCirWrite c data) s = .next (s.tdmQueue (0x180800 + 0x10 * c.val) (data &&& 0x8F1FFFFF#32))) ∧
  (∀ (m : Fin 48) (data : Word) (s : State), (fieldOf (data &&& 0xFFEFFFFF#32) (TDM_MEM_CFG_valid 0) == 1 && s.memRefused m.val (data &&& 0xFFEFFFFF#32)) = false → s.tdmLimit (0x181000 + 0x40 * m.val) (data &&& 0xFFEFFFFF#32) = false → exec (.tdmMemWrite m data) s = .next (s.tdmQueue (0x181000 + 0x40 * m.val) (data &&& 0xFFEFFFFF#32))) ∧
  (∀ (c : Fin 12) (w : Word) (s : State), s.tdm.writes = [(0x180800 + 0x10 * c.val, w)] → ∃ t, exec (.tdmConfigApply) s = .next t ∧ t.tdm.writes = [] ∧ t.word (0x180800 + 0x10 * c.val) = w)

/-- Views, time of day, servos, PTP and the calendar: each command completes, with the next state that its clause gives (R317,
R176, R311, R312, R314, R315, R334, R320, R321, R322, R335). -/
def Obligations.TimeComplete : Prop :=
  (∀ (cycles : Nat) (s : State), exec (.phaseTime cycles) s = .next (s.timeTick.phaseUsed 5 cycles)) ∧
  (∀ (r : TwinResult) (s : State), s.act.twin = some r → exec (.twinColourApply) s = .next (s.applyTwin r)) ∧
  (∀ (who : Agent) (view : Fin 4) (s : State), s.mayWriteView who view.val = true → s.get (TIM_VIEW_OFS_NS_ons view.val) < 1000000000 → exec (.viewOffsetCmd who view) s = .next (s.addViewJob { viewJobFor view.val with ofs := some (s.get (TIM_VIEW_OFS_SHI_os view.val) * 2 ^ 32 + s.get (TIM_VIEW_OFS_SLO_os view.val), s.get (TIM_VIEW_OFS_NS_ons view.val), s.get (TIM_VIEW_OFS_FRAC_ofrac view.val)) })) ∧
  (∀ (who : Agent) (view : Fin 4) (s : State), s.mayWriteView who view.val = true → exec (.viewRateCmd who view) s = .next (s.addViewJob { viewJobFor view.val with rate := some (toSigned 40 (s.get (TIM_VIEW_RATE_HI_r view.val) * 2 ^ 32 + s.get (TIM_VIEW_RATE_LO_r view.val))) })) ∧
  (∀ (who : Agent) (view : Fin 4) (s : State), s.mayWriteView who view.val = true → exec (.viewStepCmd who view) s = .next (s.addViewJob { viewJobFor view.val with step := toSigned 48 (s.get (TIM_VIEW_STEP_HI_step view.val) * 2 ^ 32 + s.get (TIM_VIEW_STEP_LO_step view.val)) * 65536 })) ∧
  (∀ (s : State), ∃ t, exec (.timSnap) s = .next t ∧ t.get TIM_SNAP_TB_LO_ns = s.tb % 2 ^ 32 ∧ t.get TIM_SNAP_TB_HI_ns = s.tb / 2 ^ 32 % 2 ^ 32 ∧ t.get TIM_SNAP_TB_FRAC_frac = 0 ∧ ∀ v : Fin 4, t.get (TIM_SNAP_SLO_s v.val) = (s.readView v.val (s.stampAt 0)).1 % 2 ^ 32) ∧
  (∀ (msg : List Byte) (s : State), s.inInbox msg 0x05 = true → (s.tookMsg msg).todRefused (todBody msg) = false → exec (.timeOfDay msg) s = .next (let t := (s.tookMsg msg).takeTod msg; { t with pnd := { t.pnd with tod := some ((msg.drop 4).take 40), todOwed := true } })) ∧
  (∀ (x : TodBody) (tick : Nat) (s : State), s.tim.todNext = some (x, tick) → tick < s.tick.edges → ∃ t, exec (.todApply) s = .next t ∧ t.tim.tod = some x ∧ t.tim.todNext = none ∧ t.on TIM_LINE_UTC_leap61 = x.leap61 ∧ t.on TIM_LINE_UTC_leap59 = x.leap59) ∧
  (∀ (x : TodBody) (s : State), s.tim.tod = some x → ((x.leap61 = true ∨ x.leap59 = true)) → x.leapTai ≤ (s.readView 0 (s.stampAt 0)).1 → exec (.leapAdopt) s = .next ({ s with tim := { s.tim with utcNow := (todOffset x (s.readView 0 (s.stampAt 0)).1).1 } })) ∧
  (∀ (servo : Fin 2) (s : State), s.servoInterval servo.val ≤ (s.servo servo.val).ticks → exec (.servoUpdate servo) s = .next (s.endInterval servo.val)) ∧
  (∀ (port : Fin 6) (frame : List Byte) (state : Fin 16) (offset : Option Int) (s : State), s.ptpTakes port.val frame = true → exec (.ptpFrameRx port frame state offset) s = .next (s.takePtp port.val state.val offset)) ∧
  (∀ (port : Fin 6) (body : List Byte) (s : State), s.ptpPort port.val = true → s.ptpSends (ptpType body) = true → s.on (ETH_STATUS_link port.val) = true → exec (.ptpMsgSend port body) s = .next (let t := s.tookFree.tookFree.modEth port.val (fun x => { x with ptp := x.ptp ++ [s.ptpBytes body] }); if t.mayStart port.val && t.on (ETH_STATUS_duplex port.val) then t.startPtp port.val else t)) ∧
  (∀ (who : Agent) (target : Fin 4) (w : Int) (s : State), s.calNamed = some (some w) → s.get TIM_CAL_WNS_ns < 1000000000 → ((target.val = 0 ∨ s.mayWriteView who target.val = true)) → exec (.timCalGo who target) s = .next (let t := (s.put TIM_CAL_TAI_LO_tai (w % 2 ^ 48).toNat).put TIM_CAL_TAI_HI_tai ((w % 2 ^ 48).toNat / 2 ^ 32); if target.val = 0 then t else t.addViewJob { viewJobFor target.val with aim := some ((w % 2 ^ 48).toNat, s.get TIM_CAL_WNS_ns) }))

/-- Stamp queues, TIN and TOUT: each command completes, with the next state that its clause gives (R325, R326, R327, R328, R329,
R330). -/
def Obligations.PortBComplete : Prop :=
  (∀ (who : Agent) (port : Fin 6) (s : State), (∀ n, agentNiche who = some n → s.ethOwner port.val = some n) → exec (.tsqE0Read who port) s = .next ((s.readTsq (agentId who) port.val).1.answer (agentId who) (s.readTsq (agentId who) port.val).2)) ∧
  (∀ (tin : Fin 4) (rise : Bool) (held : Nat) (frac : Fin 16) (s : State), s.tinOn tin.val = true → (s.on (if rise then TIM_TIN_CFG_rise tin.val else TIM_TIN_CFG_fall tin.val) = true) → s.get (TIM_TIN_CFG_filt tin.val) * 8 ≤ held → (s.tin tin.val).last = none → exec (.tinEdge tin rise held frac) s = .next (let r := s.pushStamp (s.tinDesc tin.val) (s.tin tin.val).fifo (s.tin tin.val).seq (s.stampAt frac.val) rise 0; (r.1.setTin tin.val ⟨r.2, ((s.tin tin.val).seq + 1) % 65536, some (s.stampAt frac.val)⟩).when (s.domainOn 26) (fun u => u.wakeEvent 4))) ∧
  (∀ (who : Agent) (tin : Fin 4) (s : State), (∀ n, agentNiche who = some n → s.tinOwner tin.val = some n) → exec (.tinE0Read who tin) s = .next ((s.readTin (agentId who) tin.val).1.answer (agentId who) (s.readTin (agentId who) tin.val).2)) ∧
  (∀ (who : Agent) (k : Fin 4) (s : State), (∀ n, agentNiche who = some n → s.toutOwner k.val = some n) → exec (.toutArm who k) s = .next (s.setTout k.val { s.toutAt k.val with asked := some ({ mode := s.get (TIM_TOUT_CFG_mode k.val), view := s.get (TIM_TOUT_CFG_view k.val), level := s.on (TIM_TOUT_CFG_level k.val), pol := s.on (TIM_TOUT_CFG_pol k.val), s := s.get (TIM_TOUT_TGT_SHI_target k.val) * 2 ^ 32 + s.get (TIM_TOUT_TGT_SLO_target k.val), ns := s.get (TIM_TOUT_TGT_NS_target k.val), period := s.get (TIM_TOUT_PER_HI_period k.val) * 2 ^ 32 + s.get (TIM_TOUT_PER_LO_period k.val), width := s.get (TIM_TOUT_WIDTH_width k.val), niche := agentNiche who }, s.tick.edges) })) ∧
  (∀ (k : Fin 4) (s : State), exec (.toutDisarm k) s = .next ((s.setTout k.val { s.toutAt k.val with armed := none, asked := none, fall := none, last := none }).drive k.val (s.on (TIM_TOUT_CFG_pol k.val)))) ∧
  (∀ (k : Fin 4) (x : Sched) (s : State), (s.toutAt k.val).armed = some x → 0 ≤ s.dNow x.view x.s x.ns → exec (.toutFire k) s = .next (s.fire k.val x false)) ∧
  (∀ (k : Fin 4) (g : Nat × Nat × Nat) (s : State), (s.toutAt k.val).fall = some g → 0 ≤ s.dNow g.1 g.2.1 g.2.2 → exec (.toutPulseEnd k) s = .next ((s.setTout k.val { s.toutAt k.val with fall := none }).drive k.val (s.on (TIM_TOUT_CFG_pol k.val))))

/-- The field mesh: each command completes, with the next state that its clause gives (R350, R345, R347, R353, R344, R352, R359,
R363, R351, R357, R358, R342, R577). -/
def Obligations.MeshComplete : Prop :=
  (∀ (cycles : Nat) (s : State), exec (.phaseMesh cycles) s = .next (s.meshTick.phaseUsed 7 cycles)) ∧
  (∀ (s : State), s.fuse.is7401 = false → s.on MSH_CTRL_run = false → s.asnReuse = false → 10000 ≤ s.get MSH_TS_slot → s.get MSH_TS_slot ≤ 50000 → 64 ≤ s.maxPsdu → (List.range (s.get MSH_HOP_CTRL_len)).all (fun k => decide (s.hopEntry k < s.phy.channels)) = true → exec (.meshRun) s = .next ({ s.putB MSH_CTRL_run true with msh := { s.msh with starting := true } })) ∧
  (∀ (s : State), ∃ t, exec (.meshStop) s = .next t ∧ t.on MSH_CTRL_run = false ∧ t.on MSH_STATUS_running = false ∧ t.msh.t0 = none ∧ t.msh.air = none ∧ t.msh.listen = none) ∧
  (∀ (locked busy : Bool) (t0 : Nat) (s : State), s.msh.t0 = some t0 → s.slotAt t0 ≤ s.stampAt 15 → exec (.meshSlotStart locked busy) s = .next (s.meshSlot (s.slotAt t0) locked busy)) ∧
  (∀ (a : MeshAir) (x : MeshTx) (s : State), s.msh.air = some a → a.indirect = true → s.msh.store = [] → s.msh.ind = [x] → x.sdu = a.sdu → s.get MSH_BACKOFF_retries ≤ x.tries → exec (.meshAckTimeout) s = .next (State.meshGone (State.mshCnt { (s.mshCnt 2).sat (MSH_CHCNT_noack a.channel) with msh := { s.msh with air := none, pending := none } } 3) x.sdu)) ∧
  (∀ (a : MeshAir) (x : MeshTx) (s : State), s.msh.air = some a → a.indirect = false → s.msh.store = [x] → x.sdu = a.sdu → s.get MSH_BACKOFF_retries ≤ x.tries → exec (.meshAckTimeout) s = .next (State.meshGone (State.mshCnt { (s.mshCnt 2).sat (MSH_CHCNT_noack a.channel) with msh := { s.msh with air := none } } 3) x.sdu)) ∧
  (∀ (frame : RadioFrame) (l : MeshListen) (s : State), frame.kind ≠ 0 → s.msh.listen = some l → l.shared = true → frame.late.natAbs * 1000000 ≤ s.get MSH_GUARD_base * 1000000000 → exec (.meshFrameRx frame) s = .next (s.meshReceive frame l)) ∧
  (∀ (q : Nat) (d : Sdu) (s : State), s.msh.t0 ≠ none → s.msh.store.length < 256 → s.nextMeshQid = some q → s.headOf q = some d → exec (.meshDequeue) s = .next (s.meshTake q d)) ∧
  (∀ (s : State), exec (.indirectExpire) s = .next ((s.setInd (s.msh.ind.filter (fun x => !(s.meshOld x && !x.due)))).each (s.msh.ind.filter (fun x => s.meshOld x && !x.due)) (fun x t => (t.mshCnt 11).release x.sdu))) ∧
  (∀ (s : State), exec (.meshStoreExpire) s = .next (State.each { s with msh := { s.msh with store := s.msh.store.filter (fun x => !s.meshOld x) } } (s.msh.store.filter s.meshOld) (fun x t => (t.mshCnt 11).release x.sdu))) ∧
  (∀ (s : State), exec (.seenExpire) s = .next ({ s with msh := { s.msh with seen := s.msh.seen.filter (fun x => !s.since x.at_ (s.get MSH_FLOOD_hold * sec)) } })) ∧
  (∀ (n : Fin 512) (s : State), s.silent n.val = true → exec (.nodeLost n) s = .next (s.loseNode n.val)) ∧
  (∀ (s : State), s.msh.idle = true → s.msh.calDue ≠ none → ∃ t, exec (.radioCalibration) s = .next t ∧ t.on MSH_STATUS_cal_due = false ∧ t.msh.calDue = none ∧ t.msh.calAt = s.clk ∧ t.msh.calTemp = s.getS GLB_TEMP_temp ∧ t.get (MSH_CNT_count 19) = min (s.get (MSH_CNT_count 19) + 1) (2 ^ 32 - 1)) ∧
  (∀ (at_ : Nat) (s : State), s.msh.calDue = some at_ → s.since at_ (60 * sec) = true → s.msh.starved = false → exec (.calStarved) s = .next { s.mshLog 0x0C08 0 with msh := { s.msh with starved := true } }) ∧
  (∀ (energies : List Int) (s : State), energies.length = 64 → exec (.ccaLoopStep energies) s = .next (s.loopStep 6 (median2 energies + 2 * (s.get MSH_CCA_CTRL_margin : Int) - 2 * s.loopOut (loopDesc 6)).sign false)) ∧
  (∀ (n : Fin 512) (data : Word) (s : State), s.fuse.is7401 = false → s.nodeOver n.val data = false → exec (.mshNodeWrite n 0 data) s = .next (s.setWord (0x204000 + 16 * n.val) (data &&& 0xE0F0FFFF#32))) ∧
  (∀ (n : Fin 512) (reg : Fin 4) (data : Word) (s : State), s.fuse.is7401 = false → (reg.val = 1 ∨ reg.val = 2) → exec (.mshNodeWrite n reg data) s = .next (s.setWord (0x204000 + 16 * n.val + 4 * reg.val) data)) ∧
  (∀ (n : Fin 512) (data : Word) (s : State), s.fuse.is7401 = false → exec (.mshNodeWrite n 3 data) s = .next (s)) ∧
  (∀ (n : Fin 512) (reg : Fin 4) (data : Word) (s : State), s.fuse.is7401 = true → exec (.mshNodeWrite n reg data) s = .next (s.logDev 0x0002 0xF (fdata 0 0 (0x204000 + 16 * n.val + 4 * reg.val)))) ∧
  (∀ (who : Agent) (s : State), exec (.mshAsnLoRead who) s = .next ((s.latchHi (agentId who) 0x200034 (s.word 0x200034)).answer (agentId who) (s.word 0x200030)))

/-- Field port A: configuration, conversions, loops and custom tables: each command completes, with the next state that its
clause gives (R375, R372, R371, R383, R384, R380, R381, R382, R387). -/
def Obligations.PortAComplete : Prop :=
  (∀ (cycles : Nat) (s : State), exec (.phaseFio cycles) s = .next ((State.each { s with fio := { s.fio with done := [] } } s.fio.done (fun x t => t.handSample x)).phaseUsed 8 cycles)) ∧
  (∀ (c : Nat) (s : State), s.dieRuns = true → s.fio.cur = none → s.device.isSome = true → s.nextChannel s.fio.last = some c → ∃ t, exec (.ainSettleStart) s = .next t ∧ t.fio.cur = some c ∧ t.fio.last = c ∧ t.regs = s.regs ∧ t.fio.exc = [s.word 0x240200, s.word 0x240204, s.word 0x240208]) ∧
  (∀ (raw : BitVec 24) (cmLo cmHi inner : Int) (c : Nat) (s : State), s.dieRuns = true → s.fio.cur = some c → exec (.ainConversionEnd raw cmLo cmHi inner) s = .next (s.endConversion c raw.toInt cmLo cmHi inner)) ∧
  (∀ (who : Agent) (n : Fin 8) (s : State), (∀ m, agentNiche who = some m → s.ainOwner n.val = some m) → exec (.ainValRead who n) s = .next ((s.putB (FIO_AIN_STAT_new n.val) false).answer (agentId who) (s.word (0x240110 + 0x20 * n.val)))) ∧
  (∀ (n : Fin 8) (data : Word) (s : State), s.fuse.is7401 = false → s.on FIO_STATUS_link = true → s.ainBad n.val data = false → s.energyBad n.val data [s.word 0x240200, s.word 0x240204, s.word 0x240208] = false → exec (.fioEnergyCfgWrite ⟨n.val, by omega⟩ data) s = .next (s.setWord (0x240100 + 0x20 * n.val) data)) ∧
  (∀ (k : Fin 2) (data : Word) (s : State), s.fuse.is7401 = false → s.on FIO_STATUS_link = true → 1 ≤ wfield (data &&& 0x7F#32) (FIO_EXC_CFG_cur 0) → wfield (data &&& 0x7F#32) (FIO_EXC_CFG_cur 0) ≤ 100 → (List.range 8).find? (fun n => s.energyBad n (s.word (0x240100 + 0x20 * n)) ([s.word 0x240200, s.word 0x240204, s.word 0x240208].set k.val (data &&& 0x7F#32))) = none → exec (.fioEnergyCfgWrite ⟨8 + k.val, by omega⟩ data) s = .next (s.setWord (0x240200 + 4 * k.val) (data &&& 0x7F#32))) ∧
  (∀ (data : Word) (s : State), s.fuse.is7401 = false → s.on FIO_STATUS_link = true → 5 ≤ wfield (data &&& 0x01FF003F#32) FIO_BRG_CFG_volt → wfield (data &&& 0x01FF003F#32) FIO_BRG_CFG_volt ≤ 59 → 1 ≤ wfield (data &&& 0x01FF003F#32) FIO_BRG_CFG_ilim → wfield (data &&& 0x01FF003F#32) FIO_BRG_CFG_ilim ≤ 480 → (List.range 8).find? (fun n => s.energyBad n (s.word (0x240100 + 0x20 * n)) ([s.word 0x240200, s.word 0x240204, s.word 0x240208].set 2 (data &&& 0x01FF003F#32))) = none → exec (.fioEnergyCfgWrite 10 data) s = .next (s.setWord 0x240208 (data &&& 0x01FF003F#32))) ∧
  (∀ (j : Fin 2) (data : Word) (s : State), s.fuse.is7401 = false → s.on FIO_STATUS_link = true → s.on (FIO_LOOP_CFG_txm j.val) = false → 3600 ≤ bits data.toNat 14 0 → bits data.toNat 14 0 ≤ 21000 → exec (.loopSetWrite j data) s = .next ((s.put (FIO_LOOP_SET_ua j.val) (bits data.toNat 14 0)).sink j.val (bits data.toNat 14 0))) ∧
  (∀ (who : Agent) (j : Fin 2) (data : Word) (s : State), s.fuse.is7401 = false → s.on FIO_STATUS_link = true → wfield (data &&& 0xFFFC0000#32) (FIO_LOOP_CFG_txm 0) ≠ 1 → s.on (FIO_LOOP_CFG_txm j.val) = false → exec (.loopTxmWrite who j data) s = .next ((s.setWord (0x240300 + 0x20 * j.val) (data &&& 0xFFFC0000#32)).setLoop j.val { s.loopAt j.val with run := 0 })) ∧
  (∀ (who : Agent) (j : Fin 2) (data : Word) (s : State), s.fuse.is7401 = false → s.on FIO_STATUS_link = true → wfield (data &&& 0xFFFC0000#32) (FIO_LOOP_CFG_txm 0) = 1 → s.ainOwner (wfield (data &&& 0xFFFC0000#32) (FIO_LOOP_CFG_src 0)) = s.loopOwner j.val → (s.ownerWith (fun x => bit x.txm j.val)).isSome = true → s.get (FIO_LOOP_LO_v j.val) ≠ s.get (FIO_LOOP_HI_v j.val) → exec (.loopTxmWrite who j data) s = .next ((s.setWord (0x240300 + 0x20 * j.val) (data &&& 0xFFFC0000#32)).setLoop j.val { s.loopAt j.val with run := 0 })) ∧
  (∀ (s : State), s.fuse.is7401 = false → s.on FIO_STATUS_link = true → 2 ≤ bits (s.tabWord (s.get FIO_CTAB_SEL_table) 0).toNat 5 0 → bits (s.tabWord (s.get FIO_CTAB_SEL_table) 0).toNat 5 0 ≤ 32 → (((s.shadowTab (s.get FIO_CTAB_SEL_table)).points.zip ((s.shadowTab (s.get FIO_CTAB_SEL_table)).points.drop 1)).all (fun p => decide (p.1.1 < p.2.1))) = true → (s.shadowTab (s.get FIO_CTAB_SEL_table)).kind ≠ 2 → exec (.ctabCommit) s = .next ({ s with fio := { s.fio with commit := s.fio.commit ++ [(s.get FIO_CTAB_SEL_table, s.shadowTab (s.get FIO_CTAB_SEL_table))] } })) ∧
  (∀ (s : State), exec (.ctabActivate) s = .next ({ s with fio := { s.fio with commit := [], tabs := s.fio.commit.foldl (fun (a : List CurveTab) x => a.set x.1 x.2) s.fio.tabs } })) ∧
  (∀ (j : Fin 2) (above : Bool) (s : State), s.dieRuns = true → exec (.loopOverrange j above) s = .next ((s.putB (FIO_LOOP_STAT_overrange j.val) above).when (above && !s.on (FIO_LOOP_STAT_overrange j.val)) (fun t => t.fieldLog (t.loopOwner j.val) 0x0D03 (fdata j.val 0 0)))) ∧
  (∀ (j : Fin 2) (meas : BitVec 16) (s : State), s.dieRuns = true → s.on (FIO_LOOP_STAT_open j.val) = false → meas.toNat + 1000 < (s.loopAt j.val).ua → exec (.loopOpen j meas) s = .next (((s.put (FIO_LOOP_STAT_i_meas j.val) meas.toNat).putB (FIO_LOOP_STAT_open j.val) true).fieldLog (((s.put (FIO_LOOP_STAT_i_meas j.val) meas.toNat).putB (FIO_LOOP_STAT_open j.val) true).loopOwner j.val) 0x0D04 (fdata j.val 0 0))) ∧
  (∀ (j : Fin 2) (at_ : Nat) (s : State), (s.loopAt j.val).stale = some at_ → s.since at_ (200 * ms) = true → exec (.loopRefreshTimeout j) s = .next ((s.tookFree.setLoop j.val { s.loopAt j.val with ua := s.free % 3601 }).send (.loop j.val (s.free % 3601)))) ∧
  (∀ (s : State), s.fuse.is7401 = false → s.on FIO_STATUS_link = true → exec (.fioDieLost) s = .next ((let t := (s.putB FIO_STATUS_link false).loopsStale; State.dieDiscard { t with fio := { t.fio with cur := none } }))) ∧
  (∀ (s : State), s.fuse.is7401 = false → s.domainOn 29 = true → s.domainOn 30 = true → ∃ t, exec (.fioDieLinkUp) s = .next t ∧ t.on FIO_STATUS_link = true ∧ t.fio.dieLogged = false ∧ (∀ j : Fin 2, (t.loopAt j.val).stale = none))

/-- Field port B: binary inputs and outputs: each command completes, with the next state that its clause gives (R388, R390, R391,
R392, R393, R394). -/
def Obligations.PortBPointsComplete : Prop :=
  (∀ (i : Fin 8) (mv : Nat) (frac : Fin 16) (l : Bool) (s : State), s.dinReads = true → s.dinSide i.val mv = some l → (s.din i.val).level = some (!l) → (s.din i.val).run = none → exec (.dinCrossing i mv frac) s = .next ((s.setDinLevel i.val (bitNat l)).setDin i.val { s.din i.val with run := some (l, s.stampAt frac.val, s.clk) })) ∧
  (∀ (i : Fin 8) (l : Bool) (stamp at_ : Nat) (s : State), (s.din i.val).run = some (l, stamp, at_) → s.since at_ (s.get (TIM_DIN_CFG_filt i.val) * 100 * us) = true → exec (.dinEvent i) s = .next (s.settleDin i.val l stamp at_)) ∧
  (∀ (i : Fin 8) (s : State), (s.din i.val).chatter = true → s.since (s.din i.val).lastEdge sec = true → exec (.chatterEnd i) s = .next ((s.setDin i.val { s.din i.val with chatter := false, edges := [] }).dinEvent i.val ((s.din i.val).level == some true) (s.stampAt 0) true)) ∧
  (∀ (i : Fin 8) (data : Word) (mv : Nat) (s : State), 50 ≤ wfield data (TIM_DIN_CFG_thr 0) → wfield data (TIM_DIN_CFG_thr 0) ≤ 1500 → wfield data (TIM_DIN_CFG_hys 0) ≤ 250 → exec (.dinCfgWrite i data mv) s = .next ((s.setWord (0x1C0A00 + 0x20 * i.val) data).dinEvaluate i.val mv)) ∧
  (∀ (who : Agent) (i : Fin 8) (s : State), (∀ n, agentNiche who = some n → s.dinOwner i.val = some n) → exec (.dinE0Read who i) s = .next ((s.readDin (agentId who) i.val).1.answer (agentId who) (s.readDin (agentId who) i.val).2)) ∧
  (∀ (mv : Nat) (s : State), s.domainOn 26 = true → mv < s.get TIM_FPB_CFG_dip_thr → exec (.wettingDip mv) s = .next ((let t := { s.putB TIM_FPB_STAT_dip true with fio := { s.fio with recovered := none } }; if s.on TIM_FPB_STAT_dip then t else t.fieldLog none 0x0B0B 0))) ∧
  (∀ (at_ : Nat) (s : State), s.on TIM_FPB_STAT_dip = true → s.fio.recovered = some at_ → s.since at_ (10 * ms) = true → exec (.wettingDipEnd) s = .next ({ s.putB TIM_FPB_STAT_dip false with fio := { s.fio with recovered := none } })) ∧
  (∀ (k : Fin 4) (s : State), s.doutLatched k.val = false → s.on (TIM_DOUT_STAT_driven k.val) = false → (s.dout k.val).retry = none → s.doutMay = true → ∃ t, exec (.doutCmd k true) s = .next t ∧ t.on (TIM_DOUT_CMD_on k.val) = true ∧ t.on (TIM_DOUT_STAT_driven k.val) = true) ∧
  (∀ (k : Fin 4) (s : State), exec (.doutCmd k false) s = .next (((((s.putB (TIM_DOUT_CMD_on k.val) false).putB (TIM_DOUT_STAT_limiting k.val) false).setDout k.val ⟨none, none⟩).switchDout k.val false))) ∧
  (∀ (k : Fin 4) (s : State), exec (.doutClear k) s = .next (((s.putB (TIM_DOUT_STAT_short k.val) false).putB (TIM_DOUT_STAT_contention k.val) false).put (TIM_DOUT_STAT_tries k.val) 0)) ∧
  (∀ (k : Fin 4) (s : State), s.on (TIM_DOUT_STAT_driven k.val) = true → exec (.doutShort k) s = .next (s.shorted k.val)) ∧
  (∀ (k : Fin 4) (at_ : Nat) (s : State), (s.dout k.val).retry = some at_ → at_ ≤ s.clk → s.doutMay = true → exec (.doutRetry k) s = .next ((s.setDout k.val ⟨none, some s.clk⟩).switchDout k.val true)) ∧
  (∀ (k : Fin 4) (at_ : Nat) (s : State), (s.dout k.val).trying = some at_ → s.since at_ (100 * ms) = true → s.on (TIM_DOUT_STAT_driven k.val) = true → exec (.doutRetrySuccess k) s = .next (((s.put (TIM_DOUT_STAT_tries k.val) 0).putB (TIM_DOUT_STAT_limiting k.val) false).setDout k.val ⟨none, none⟩)) ∧
  (∀ (k : Fin 4) (low : BitVec 4) (s : State), s.on (TIM_DOUT_CMD_on k.val) = false → s.on (TIM_DOUT_STAT_driven k.val) = false → s.domainOn 26 = true → (List.range 4).all (fun m => m == k.val || !s.on (TIM_DOUT_STAT_driven m)) = true → exec (.doutExtdrv k low) s = .next ((let t := (s.putB (TIM_DOUT_STAT_readback k.val) true).putB (TIM_DOUT_STAT_extdrv k.val) true; t.fieldLog (s.doutOwner k.val) 0x0B0D (fdata k.val 0 0)))) ∧
  (∀ (k : Fin 4) (s : State), s.on (TIM_DOUT_STAT_driven k.val) = false → exec (.doutExtdrvClear k) s = .next ((s.putB (TIM_DOUT_STAT_readback k.val) false).putB (TIM_DOUT_STAT_extdrv k.val) false))

/-- Key slots, the line enrolment secret, alarms and the random source: each command completes, with the next state that its
clause gives (R407, R409, R406, R410, R411, R413, R414, R412). -/
def Obligations.KeyStoreComplete : Prop :=
  (∀ (o : Fin 17) (slot : Fin 256) (s : State), s.slotRefusal o.val slot.val = none → s.keyIn slot.val = none → exec (.cphPlainLoad o slot) s = .next (s.startKey ⟨o.val, 1, slot.val, some (s.loadData o.val (s.keyLen slot.val))⟩)) ∧
  (∀ (o : Fin 17) (slot wslot : Fin 256) (wk : List Byte) (s : State), s.slotRefusal o.val slot.val = none → s.slotOf wslot.val o.val = true → s.keyIn wslot.val = some wk → s.keyIn slot.val = none → s.on (CPH_SLOT_CFG_wrap wslot.val) = true → exec (.cphUnwrapLoad o slot wslot) s = .next (s.startKey ⟨o.val, 2, slot.val, keyUnwrap wk (s.loadData o.val (s.keyLen slot.val + 8))⟩)) ∧
  (∀ (o : Fin 17) (slot : Fin 256) (s : State), s.slotRefusal o.val slot.val = none → s.keyIn slot.val ≠ none → exec (.cphZero o slot) s = .next ((s.emptySlot slot.val).startKey ⟨o.val, 3, slot.val, none⟩)) ∧
  (∀ (o : Fin 17) (j : KeyJob) (key : List Byte) (s : State), s.cph.jobs.find? (fun x => x.owner == o.val) = some j → j.op ≠ 3 → s.on CPH_STATUS_lockout = false → j.key = some key → exec (.keyLoadComplete o) s = .next ((((s.fillSlot j.slot key).sat (CPH_CNT_count 7)).sat (CPH_NCNT_count o.val 4)).endKey o.val 0)) ∧
  (∀ (o : Fin 17) (slot : Fin 256) (data : Word) (s : State), s.slotOf slot.val o.val = true → 96 ≤ slot.val → s.keyIn slot.val = none → exec (.cphSlotCfgWrite o slot data) s = .next (s.setWord (CPH_SLOT_CFG_klen slot.val).addr ((s.word (CPH_SLOT_CFG_klen slot.val).addr &&& ~~~(BitVec.ofNat 32 slotAttrs)) ||| BitVec.ofNat 32 (data.toNat &&& slotAttrs)))) ∧
  (∀ (s : State), exec (.secretEnrolCmd) s = .next (if s.enrolOk s.secretData (s.get CPH_SECRET_KCV_kcv) then s.clearSecretData.enrol s.secretData (s.get CPH_SECRET_KCV_kcv) else s.clearSecretData.logDev 0x0E0C 0xF 0)) ∧
  (∀ (s : State), s.secretInUse = false → exec (.secretClearCmd) s = .next (s.clearSecret)) ∧
  (∀ (s : State), exec (.cphEraseCmd) s = .next (s.cipherAlarm 5)) ∧
  (∀ (source : Fin 5) (s : State), exec (.cipherAlarm source) s = .next (s.cipherAlarm source.val)) ∧
  (∀ (s : State), s.cph.erased = true → s.on CPH_STATUS_lockout = false → exec (.alarmRecovery) s = .next (s.recoverKeys)) ∧
  (∀ (s : State), ∃ t, exec (.rngHealthFail) s = .next t ∧ t.on CPH_STATUS_rng_ok = false ∧ t.cph.healthy = false ∧ t.flt.devLog.next = (s.flt.devLog.next + 1) % 2 ^ 32) ∧
  (∀ (s : State), s.cph.erased = true → s.cph.seeded = true → exec (.rngHealthPass) s = .next (State.putB { s with cph := { s.cph with healthy := true } } CPH_STATUS_rng_ok true))

/-- Lookaside operations: each command completes, with the next state that its clause gives (R418, R419, R402). -/
def Obligations.LookasideComplete : Prop :=
  (∀ (o : Fin 17) (desc : List Byte) (s : State), s.laRuns o.val = true → s.ringPosted (s.laRing o.val).1 (s.laRing o.val).2 ≠ 0 → exec (.laRequestFetch o desc) s = .next (s.fetchLa o.val desc)) ∧
  (∀ (o : Fin 17) (j : LaJob) (s : State), s.cph.la.find? (fun x => x.owner == o.val && x.status != 0 && !x.done && s.since x.fetched 4096) = some j → j.status = 1 → o.val < 16 → exec (.laRefusalComplete o) s = .next (s.finishLa j 1 0)) ∧
  (∀ (o : Fin 17) (j : LaJob) (s : State), s.cph.la.find? (fun x => x.owner == o.val && x.status != 0 && !x.done && s.since x.fetched 4096) = some j → j.status ≠ 1 → exec (.laRefusalComplete o) s = .next (let t := s.finishLa j j.status 0; ((t.laCount o.val 1).sat (CPH_CNT_count 5)).cphLog o.val j.status (t.slotData o.val (laSlot j.desc)))) ∧
  (∀ (o : Fin 17) (index : Word) (src aad tag : List Byte) (j : LaJob) (s : State), s.cph.la.find? (fun x => x.owner == o.val && x.index == index.toNat && x.status == 0 && !x.done) = some j → ((s.on CPH_CTRL_partition = false ∨ j.rounds = 0)) → exec (.laComplete o index src aad tag false) s = .next (s.endLa o.val j (laResult j.desc j.key (fitBytes (laText j.desc) src) (fitBytes (laAad j.desc) aad) tag))) ∧
  (∀ (o : Fin 17) (index : Word) (src aad tag : List Byte) (j : LaJob) (s : State), s.cph.la.find? (fun x => x.owner == o.val && x.index == index.toNat && x.status == 0 && !x.done) = some j → ((s.on CPH_CTRL_partition = false ∨ j.rounds = 0)) → exec (.laComplete o index src aad tag true) s = .next ((((s.finishLa j 0x0E0B 0).laCount o.val 7).cphLog o.val 0x0E0B (fdata (laSlot j.desc) 0 0)))) ∧
  (∀ (k : Fin 8) (s : State), s.on CPH_CTRL_partition = true → exec (.microslotStart k) s = .next ((s.put TICK_STATUS_microslot k.val).renewPortions))

/-- Host rings, interrupts and function resets: each command completes, with the next state that its clause gives (R429, R431,
R433, R434, R436, R421, R428, R550, R437). -/
def Obligations.HostInterfaceComplete : Prop :=
  (∀ (who : Agent) (niche : Fin 16) (ring : Fin 64) (data : Word) (s : State), bit data.toNat 31 = true → s.closed niche.val = false → s.ringWriter who niche.val = true → s.on (HIF_RING_CFG_en niche.val ring.val) = false → ringFault data (s.get (HIF_RING_DBASE_LO_addr niche.val ring.val)) (s.get (HIF_RING_CBASE_LO_addr niche.val ring.val)) (s.get (HIF_RING_WB_LO_addr niche.val ring.val)) = false → exec (.ringEnable who niche ring data) s = .next ((((((s.setWord (ringBase niche.val ring.val) (data &&& 0xE0F000FF)).put (HIF_RING_PROD_index niche.val ring.val) 0).put (HIF_RING_CONS_index niche.val ring.val) 0).put (HIF_RING_CPROD_index niche.val ring.val) 0).putB (HIF_RING_STATUS_err niche.val ring.val) false).setRing niche.val ring.val ⟨0, none⟩)) ∧
  (∀ (who : Agent) (niche : Fin 16) (ring : Fin 64) (data : Word) (s : State), bit data.toNat 31 = false → s.closed niche.val = false → s.ringWriter who niche.val = true → exec (.ringDisable who niche ring data) s = .next (s.setWord (ringBase niche.val ring.val) (data &&& 0xE0F000FF))) ∧
  (∀ (who : Agent) (niche : Fin 16) (ring : Fin 64) (p : Word) (s : State), s.closed niche.val = false → s.ringWriter who niche.val = true → s.on (HIF_RING_CFG_en niche.val ring.val) = true → doorbellUse p.toNat (s.get (HIF_RING_PROD_index niche.val ring.val)) (s.get (HIF_RING_CONS_index niche.val ring.val)) (s.ringSize niche.val ring.val) = .take → exec (.ringDoorbell who niche ring p) s = .next (s.put (HIF_RING_PROD_index niche.val ring.val) p.toNat)) ∧
  (∀ (niche : Fin 16) (ring : Fin 64) (addrs : List (BitVec 64)) (d : Sdu) (k size : Nat) (s : State), s.rxReady niche.val ring.val = some (d, k, size) → exec (.rxSduDeliver niche ring addrs) s = .next (s.deliverRx niche.val ring.val d k size addrs)) ∧
  (∀ (niche : Fin 16) (ring : Fin 64) (chain : List (List Byte)) (data : Option (List Byte)) (s : State), s.txMay niche.val ring.val chain.length = true → exec (.txSduFetch niche ring chain data) s = .next (s.fetchTx niche.val ring.val chain data)) ∧
  (∀ (niche : Fin 16) (ring : Fin 64) (at_ : Nat) (s : State), (s.ring niche.val ring.val).firstAt = some at_ → s.since at_ (s.get (HIF_RING_ITR_holdoff niche.val ring.val) * us) = true → exec (.ringHoldoffExpiry niche ring) s = .next (s.signalRing niche.val ring.val)) ∧
  (∀ (niche : Fin 16) (ring : Fin 64) (what : DmaFailure) (s : State), s.on (HIF_RING_CFG_en niche.val ring.val) = true → s.on (HIF_RING_STATUS_err niche.val ring.val) = false → s.closed niche.val = false → exec (.dmaError niche ring what) s = .next (((if what = .dataWrite then s.rxAbort niche.val ring.val else s).ringError niche.val ring.val))) ∧
  (∀ (fn : Fin 17) (rx : List (Fin 16 × Fin 64)) (tx : List (Fin 16 × Fin 64 × Fin 17)) (s : State), exec (.busMasterDisable fn rx tx) s = .next ((let t := s.each (rx.filter (fun x => s.servedBy x.1.val == some fn.val)) (fun x t => t.rxAbort x.1.val x.2.val); let t := t.each (tx.filter (fun x => s.servedBy x.1.val == some fn.val)) (fun x t => if t.ringRuns x.1.val x.2.1.val 2 then t.consume x.1.val x.2.1.val (min x.2.2.val (t.ringPosted x.1.val x.2.1.val)) else t); t.modFn fn.val (fun f => { f with bme := false })))) ∧
  (∀ (cfg : HostConfig) (s : State), s.flt.phase ≠ .held → exec (.busMasterEnable 0 cfg) s = .next ((((((((s.putB HIF_STATUS_link true).putB HIF_STATUS_perst false).put HIF_STATUS_width cfg.width.val).put HIF_STATUS_speed cfg.speed.val).put HIF_STATUS_num_vfs cfg.vfs.val).putB HIF_STATUS_vf_enable (cfg.vfs.val != 0)).modFn 0 (fun f => { f with bme := true })).sendPending 0)) ∧
  (∀ (fn : Fin 17) (cfg : HostConfig) (s : State), s.flt.phase ≠ .held → fn.val ≠ 0 → fn.val ≤ s.get HIF_STATUS_num_vfs → exec (.busMasterEnable fn cfg) s = .next (((((((s.putB HIF_STATUS_link true).putB HIF_STATUS_perst false).put HIF_STATUS_width cfg.width.val).put HIF_STATUS_speed cfg.speed.val).modFn fn.val (fun f => { f with bme := true })).sendPending fn.val))) ∧
  (∀ (fn : Fin 17) (s : State), exec (.msixUnmask fn none) s = .next ((s.modFn fn.val (fun x => { x with msix := true, mask := false })).sendPending fn.val)) ∧
  (∀ (fn : Fin 17) (v : Fin 68) (s : State), exec (.msixUnmask fn (some v)) s = .next (((s.putMsix fn.val (16 * v.val + 12) (BitVec.ofNat 32 (clrBit (s.msixWord fn.val (16 * v.val + 12)).toNat 0))).sendPending fn.val))) ∧
  (∀ (v : Fin 16) (s : State), s.on HIF_STATUS_vf_enable = true → v.val + 1 ≤ s.get HIF_STATUS_num_vfs → exec (.vfFlr v) s = .next ((let t := ((((s.logDev 0x0F06 v.val 0).raisePf 0).requestReset v.val 1).resetFn (v.val + 1)).resetRings v.val; if (t.nreset v.val).active then { t with hif := { t.hif with flr := (v.val + 1) :: t.hif.flr.filter (fun x => x != v.val + 1) } } else t))) ∧
  (∀ (kind : PfReset) (s : State), ∃ t, exec (.pfSideReset kind) s = .next t ∧ t.on HIF_STATUS_vf_enable = false ∧ t.get HIF_STATUS_num_vfs = 0)

/-- Words of the supervisor port and of the mailboxes: each command completes, with the next state that its clause gives (R440,
R442, R443, R445, R450, R449). -/
def Obligations.MailboxWordsComplete : Prop :=
  (∀ (s : State), s.domainOn 32 = true → s.sup.selected = false → exec (.supCsFall) s = .next (State.wakeEvent (State.supLoad { s with sup := { s.sup with selected := true, cutRest := false, marks := s.sup.marks ++ [0] } }) 6)) ∧
  (∀ (word : Word) (s : State), s.domainOn 32 = true → s.sup.selected = true → s.supTransmit.mbxReady = true → s.supTransmit.on SUP_CTRL_en = true → s.supTransmit.sup.cutRest = false → s.supTransmit.sup.port.rx.length < 256 → exec (.supWordEdge word) s = .next ((let t := (s.supTransmit.setMbx .sup { s.supTransmit.sup.port with rx := s.supTransmit.sup.port.rx ++ [word] }).sat (SUP_CNT_count 0); State.supLoad { t with sup := { t.sup with marks := pushMark t.sup.marks } }))) ∧
  (∀ (partialWord : Bool) (s : State), s.sup.selected = true → exec (.supCsRise partialWord) s = .next ((let t := (if partialWord then (s.sat (SUP_CNT_count 2)).limSup .sup 0x1006 else s).cutPeriod; { t with sup := { t.sup with selected := false, cutRest := false } }))) ∧
  (∀ (who : Agent) (box : Option (Fin 16)) (word : Word) (s : State), reachesBox who box = true → s.mbxReady = true → (s.mbx (boxAgent box)).discard = false → (s.mbx (boxAgent box)).skip = 0 → (s.mbx (boxAgent box)).rx.length < 128 → exec (.supPfTxWrite who box word) s = .next (s.setMbx (boxAgent box) { s.mbx (boxAgent box) with rx := (s.mbx (boxAgent box)).rx ++ [word] })) ∧
  (∀ (who : Agent) (box : Option (Fin 16)) (w : Word) (rest : List Word) (s : State), reachesBox who box = true → (s.mbx (boxAgent box)).tx = w :: rest → exec (.supPfRxRead who box) s = .next ((s.setMbx (boxAgent box) { s.mbx (boxAgent box) with tx := rest }).answer (agentId who) w)) ∧
  (∀ (who : Agent) (box : Option (Fin 16)) (s : State), reachesBox who box = true → exec (.mbxFlush who box) s = .next (s.setMbx (boxAgent box) { s.mbx (boxAgent box) with discard := false })) ∧
  (∀ (src : Agent) (h : Word) (rest : List Word) (s : State), s.mbxReady = true → s.front src = h :: rest → bit h.toNat 31 = true → exec (.mbxFrameBad src) s = .next (((s.sat (SUP_CNT_count 5)).limSup src 0x1002).dropRest src))

/-- Requests that a mailbox executes: each command completes, with the next state that its clause gives (R453, R454, R585, R455). -/
def Obligations.MailboxRequestsComplete : Prop :=
  (∀ (src : Agent) (r : Req) (s : State), s.serves src r → r.type = 1 → exec (.mbxEcho src) s = .next ((s.tookReq src r).respond src r true 0 r.payload)) ∧
  (∀ (src : Agent) (r : Req) (s : State), s.serves src r → r.type = 2 → r.addrOk = true → (readAll (agentId src) r.addrs (s.tookReq src r)).1.flt.phase ≠ .held → exec (.mbxRegRead src) s = .next ((readAll (agentId src) r.addrs (s.tookReq src r)).1.respond src r true 0 (readAll (agentId src) r.addrs (s.tookReq src r)).2)) ∧
  (∀ (src : Agent) (x : Ambient) (r : Req) (s : State), s.serves src r → r.type = 3 → r.addrOk = true → (writeAll src x (r.word 0) (r.payload.drop 1) (s.tookReq src r)).flt.phase ≠ .held → exec (.mbxRegWrite src x) s = .next ((writeAll src x (r.word 0) (r.payload.drop 1) (s.tookReq src r)).respond src r true 0 [])) ∧
  (∀ (src : Agent) (r : Req) (s : State), s.serves src r → r.type = 4 → exec (.mbxStatus src) s = .next ((s.tookReq src r).respond src r true 0 ([0xC, 0, 4, ARM_STATUS_state.addr, TICK_STATUS_state.addr].map (s.tookReq src r).shown))) ∧
  (∀ (src : Agent) (r : Req) (s : State), s.serves src r → r.type = 5 → (s.tookReq src r).arm.trust.getD (bits (r.word 0) 1 0) ⟨none, false⟩ = ⟨none, false⟩ → exec (.mbxTrustEnrol src) s = .next (((s.tookReq src r).setTrust (bits (r.word 0) 1 0) ⟨some (wordBytes (r.payload.drop 1)), false⟩).respond src r true 0 [])) ∧
  (∀ (src : Agent) (r : Req) (s : State), s.serves src r → r.type = 6 → exec (.mbxTrustRevoke src) s = .next (((s.tookReq src r).setTrust (bits (r.word 0) 1 0) { (s.tookReq src r).arm.trust.getD (bits (r.word 0) 1 0) ⟨none, false⟩ with revoked := true }).respond src r true 0 [])) ∧
  (∀ (src : Agent) (r : Req) (s : State), s.serves src r → r.type = 7 → exec (.mbxSecretEnrol src) s = .next (if (s.tookReq src r).enrolOk (wordBytes (r.payload.take 8)) (bits (r.word 8) 23 0) then ((s.tookReq src r).enrol (wordBytes (r.payload.take 8)) (bits (r.word 8) 23 0)).respond src r true 0 [] else ((s.tookReq src r).logDev 0x0E0C 0xF 0).respond src r true 0x0E0C [])) ∧
  (∀ (src : Agent) (r : Req) (s : State), s.serves src r → r.type = 8 → (s.tookReq src r).secretInUse = false → exec (.mbxSecretClear src) s = .next ((s.tookReq src r).clearSecret.respond src r true 0 [])) ∧
  (∀ (src : Agent) (r : Req) (s : State), s.serves src r → r.type = 11 → bits (r.word 0) 1 0 = 1 → (s.tookReq src r).exists_ r.niche = true → ((s.tookReq src r).requestReset r.niche 4).flt.phase ≠ .held → exec (.mbxNicheReset src) s = .next (((s.tookReq src r).requestReset r.niche 4).respond src r true 0 [])) ∧
  (∀ (src : Agent) (r : Req) (s : State), s.serves src r → r.type = 11 → bits (r.word 0) 1 0 = 2 → exec (.mbxDeviceReset src) s = .next (State.respond { s.tookReq src r with sup := { (s.tookReq src r).sup with resetAt := some (agentId src, (s.tookReq src r).clk + 10 * ms) } } src r true 0 [])) ∧
  (∀ (k at_ : Nat) (s : State), s.sup.resetAt = some (k, at_) → ((s.unread k = 0 ∨ at_ ≤ s.clk)) → exec (.mbxResetDeferred) s = .next (s.warmReset 10))

/-- Cast: staging, verification and arming: each command completes, with the next state that its clause gives (R519, R518, R521,
R522, R524, R533, R525, R526, R529, R528). -/
def Obligations.CastCommandsComplete : Prop :=
  (∀ (src : Agent) (r : Req) (s : State), s.serves src r → r.type = 9 → ((s.tookReq src r).castBlock (bits (r.word 0) 31 24) (r.word 1) (wordBytes (r.payload.drop 2))).1.flt.phase ≠ .held → exec (.castBlock src) s = .next ((let x := (s.tookReq src r).castBlock (bits (r.word 0) 31 24) (r.word 1) (wordBytes (r.payload.drop 2)); x.1.respond src r true x.2 [BitVec.ofNat 32 (x.1.progress (bits (r.word 0) 31 24))]))) ∧
  (∀ (src : Agent) (r : Req) (s : State), s.serves src r → r.type = 10 → bits (r.word 0) 7 0 = 1 → (s.tookReq src r).cast ∈ [0, 1, 2, 6] → r.word 1 ≤ 4096 → (s.tookReq src r).stageFault [(s.tookReq src r).stagingBank * 4096 + 8, (s.tookReq src r).stagingBank * 4096 + 9] true = 0 → exec (.castBegin src) s = .next ((let t := s.tookReq src r; let b := t.stagingBank * 4096; let u := ((t.dropSession).stageErase (b + 8)).stageErase (b + 9); let v := State.setCast { u with cst := { u.cst with length := r.word 1 } } 1; v.respond src r true 0 v.castWords))) ∧
  (∀ (src : Agent) (r : Req) (s : State), s.serves src r → r.type = 10 → bits (r.word 0) 7 0 = 2 → (((s.tookReq src r).cast = 1 ∨ (s.tookReq src r).cast = 2)) → exec (.castAbandon src) s = .next ((let v := (s.tookReq src r).dropSession.setCast 0; v.respond src r true 0 v.castWords))) ∧
  (∀ (src : Agent) (r : Req) (s : State), s.serves src r → r.type = 10 → bits (r.word 0) 7 0 = 3 → (s.tookReq src r).cast = 1 → (s.tookReq src r).allComplete = true → exec (.castVerify src) s = .next ((let t := s.tookReq src r; let v := { t with cst := { t.cst with verifying := true } }; v.respond src r true 0 v.castWords))) ∧
  (∀ (s : State), s.cst.verifying = true → s.cast = 1 → exec (.castVerifyDone) s = .next ((let t := { s with cst := { s.cst with verifying := false } }; if (t.setFault false).1 = 0 then t.setCast 2 else t.castLog (t.setFault false).1 (fdata 0 0 (t.setFault false).2)))) ∧
  (∀ (src : Agent) (r : Req) (sec : Option Nat) (s : State), s.serves src r → r.type = 10 → bits (r.word 0) 7 0 = 4 → (((s.tookReq src r).cast = 2 ∨ (s.tookReq src r).cast = 3)) → (s.tookReq src r).on CST_STATUS_pair = false → (s.tookReq src r).armSecond r = .ok sec → ((s.tookReq src r).armWith sec).1.flt.phase ≠ .held → exec (.castArm src) s = .next ((let x := (s.tookReq src r).armWith sec; x.1.respond src r true x.2 x.1.castWords))) ∧
  (∀ (sec : Option Nat) (s : State), s.cst.arming = some sec → exec (.castCommitDurable) s = .next ((let t := s.setUnit s.commitAddr s.commitRecord; ((State.castCnt { t with cst := { t.cst with arming := none } } 2).setSecond sec).setCast 3))) ∧
  (∀ (src : Agent) (r : Req) (s : State), s.serves src r → r.type = 10 → bits (r.word 0) 7 0 = 5 → (s.tookReq src r).cast = 3 → (s.tookReq src r).stageFault [(s.tookReq src r).stagingBank * 4096 + 9] true = 0 → exec (.castDisarm src) s = .next ((let v := (s.tookReq src r).disarm; v.respond src r true 0 v.castWords))) ∧
  (∀ (src : Agent) (r : Req) (s : State), s.serves src r → r.type = 10 → bits (r.word 0) 7 0 = 6 → exec (.castQuery src) s = .next ((s.tookReq src r).respond src r true 0 (s.tookReq src r).castWords)) ∧
  (∀ (msg : List Byte) (s : State), s.inInbox msg 6 = true → byteAt msg 4 = 1 → (s.tookMsg msg).castMatches msg = true → (s.tookMsg msg).cst.second ≠ some (beAt msg 5 6) → (s.tookMsg msg).late (beAt msg 5 6) = false → exec (.castAtSchedule msg) s = .next ((let t := s.tookMsg msg; (State.setSecond { t with cst := { t.cst with postponed := false } } (some (beAt msg 5 6))).castReport 0))) ∧
  (∀ (msg : List Byte) (s : State), s.inInbox msg 6 = true → byteAt msg 4 = 0 → (s.tookMsg msg).castMatches msg = true → (s.tookMsg msg).stageFault [(s.tookMsg msg).stagingBank * 4096 + 9] true = 0 → exec (.castAtCancel msg) s = .next ((s.tookMsg msg).disarm)) ∧
  (∀ (s : State), s.cast = 3 → s.cst.freezing = false → s.freezeDue = true → s.powerFails = false → s.pairFreezes = true → s.commitValid s.stagingBank = true → exec (.castFreeze) s = .next ({ s with cst := { s.cst with freezing := true } })) ∧
  (∀ (s : State), s.cst.freezing = true → exec (.castSelectorDurable) s = .next ((let t := s.select s.stagingBank true 0; ((State.castCnt { t with cst := { t.cst with freezing := false } } 3).castLog 0x1412 0).warmReset 7))) ∧
  (∀ (s : State), s.cast = 4 → s.settleTicks ≤ s.cst.settle → s.trialGood = true → s.peerSettles = true → exec (.castSettle) s = .next ((let t := (s.select s.activeBank false 0).raiseFloor; let u := { t with cst := { t.cst with trial := false } }; (u.put CST_STATUS_attempts 0).setCast 5))) ∧
  (∀ (s : State), s.cast = 4 → s.cst.started = false → exec (.castFailedStart 1) s = .next (s.failStart)) ∧
  (∀ (s : State), s.cast = 4 → s.on GLB_SERVICE_arm = false → exec (.castFailedStart 2) s = .next (s.failStart)) ∧
  (∀ (s : State), s.cast = 4 → s.settleTicks ≤ s.cst.deaf → exec (.castFailedStart 3) s = .next (s.failStart)) ∧
  (∀ (s : State), s.cast = 4 → s.settleTicks ≤ s.cst.settle → (s.trialGood && s.peerSettles) = false → exec (.castFailedStart 0) s = .next (s.failStart))

/-- The optical cartridge and its two-wire bus: each command completes, with the next state that its clause gives (R466, R469,
R463, R465, R462, R473, R475, R461). -/
def Obligations.CartridgeComplete : Prop :=
  (∀ (s : State), exec (.cartRemoved) s = .next ((s.putB CRT_STATUS_present false).cartGone)) ∧
  (∀ (identity patina : List Byte) (inserted : Bool) (s : State), s.on GLB_SERVICE_cart = false → s.on CRT_STATUS_stuck = false → exec (.cartAcceptance identity patina inserted) s = .next ((let t := s.putB CRT_STATUS_present true; (t.cartRefusal identity patina).elim (t.acceptCart identity patina inserted) (fun c => (t.crtLog c 0).sat (CRT_CNT_count 4))))) ∧
  (∀ (failed : Bool) (sda : List Bool) (i : Nat) (s : State), (sda.take 9).findIdx? id = some i → exec (.busRecovery failed sda) s = .next (let t := if failed then { s.sat (CRT_CNT_count 0) with crt := { s.crt with fails := s.crt.fails + 1 } } else s; let u := ((t.sat (CRT_CNT_count 1)).send (.scl (i + 1))).busFree; if 3 ≤ t.crt.fails then u.cartGone else u)) ∧
  (∀ (failed : Bool) (sda : List Bool) (s : State), (sda.take 9).findIdx? id = none → exec (.busRecovery failed sda) s = .next (let t := if failed then { s.sat (CRT_CNT_count 0) with crt := { s.crt with fails := s.crt.fails + 1 } } else s; ((t.sat (CRT_CNT_count 1)).send (.scl 9)).busStuck)) ∧
  (∀ (sda : List Bool) (i : Nat) (s : State), s.on CRT_STATUS_stuck = true → (sda.take 9).findIdx? id = some i → exec (.busStuckRetry sda) s = .next ((s.sat (CRT_CNT_count 1)).send (.scl (i + 1))).busFree) ∧
  (∀ (sda : List Bool) (s : State), s.on CRT_STATUS_stuck = true → (sda.take 9).findIdx? id = none → exec (.busStuckRetry sda) s = .next ((s.sat (CRT_CNT_count 1)).send (.scl 9))) ∧
  (∀ (temp : BitVec 16) (s : State), exec (.cartTempPoll (some temp)) s = .next ({ s.put CRT_TEMP_temp temp.toNat with crt := { s.crt with fails := 0, wear := { s.crt.wear with tMax := max s.crt.wear.tMax (toSigned 16 temp.toNat) } } })) ∧
  (∀ (s : State), exec (.cartTempPoll none) s = .next (s)) ∧
  (∀ (s : State), s.on GLB_SERVICE_cart = true → ((s.since s.crt.lastPatina (3600 * sec) = true ∨ s.on USL_STATUS_dg = true)) → exec (.patinaWrite true) s = .next ((s.writePatina (s.since s.crt.lastPatina (3600 * sec))).showWear)) ∧
  (∀ (s : State), exec (.patinaWrite false) s = .next (s)) ∧
  (∀ (msg : List Byte) (s : State), s.inInbox msg 0x0A = true → exec (.requestPatina msg) s = .next ((s.tookMsg msg).patinaReport 0)) ∧
  (∀ (data : Word) (s : State), ((bits data.toNat 23 16 = 0x50 ∨ bits data.toNat 23 16 = 0x51)) → exec (.crtRawGo data) s = .next ({ ((s.put CRT_RAW_addr (bits data.toNat 23 16)).put CRT_RAW_offset (bits data.toNat 15 0)).put CRT_RAW_DATA_done 0 with crt := { s.crt with raw := some (bits data.toNat 23 16, bits data.toNat 15 0) } })) ∧
  (∀ (byte : Byte) (s : State), s.crt.raw ≠ none → exec (.crtRawDone byte) s = .next ({ (s.put CRT_RAW_DATA_data byte.toNat).putB CRT_RAW_DATA_done true with crt := { s.crt with raw := none, fails := 0 } }))

/-- Power mode requests, entries and exits: each command completes, with the next state that its clause gives (R481, R483, R490,
R489, R478, R488). -/
def Obligations.PowerEntriesComplete : Prop :=
  (∀ (cycles : Nat) (s : State), exec (.phasePwr cycles) s = .next ((s.phaseUsed 9 cycles).pwrPoll)) ∧
  (∀ (target : Fin 8) (s : State), s.pwr.entry = none → s.pwr.rise = none → s.pwr.exit_ = none → s.mode < target.val → target.val < 5 → target.val ≠ 2 → exec (.powerModeRequest target) s = .next ((s.put PWR_LAST_target target.val).askEntry target.val)) ∧
  (∀ (e : PwrEntry) (s : State), s.pwr.entry = some e → e.stage = .consent → e.asked < s.tick.edges → s.awaitsPartner = false → s.refusers.1 = [] → exec (.powerDecision) s = .next (s.beginEntry e)) ∧
  (∀ (e : PwrEntry) (s : State), s.pwr.entry = some e → e.stage = .notice → e.decided + s.get PWR_CTRL_notice ≤ s.tick.edges → 3 ≤ e.target → exec (.entryNicheResets) s = .next ((State.each { s with pwr := { s.pwr with entry := some { e with stage := .resets, held := domainSet ((List.range 16).filter s.exists_), last := s.tick.edges } } } ((List.range 16).filter s.exists_) (fun n t => t.requestHeld n 8 .sleep)).setAct 0)) ∧
  (∀ (e : PwrEntry) (k i : Nat) (s : State), s.pwr.entry = some e → s.groupNext e = some k → s.nextOff e.target k = some i → exec (.domainGroupOff) s = .next (State.endGroups { s.groupOff e.target i with pwr := { (s.groupOff e.target i).pwr with entry := some { e with stage := .groups (i + 1), last := s.tick.edges } } } { e with stage := .groups (i + 1), last := s.tick.edges })) ∧
  (∀ (rose : Bool) (e : PwrEntry) (s : State), s.pwr.entry = some e → e.stage = .window → s.since e.at_ 91552 = true → exec (.wakeLossWindow rose) s = .next ((let t := s.finishEntry e; if t.pwr.wakeLow && t.marked PWR_WAKE_EN_src 0 then t.wakeEvent 0 else if rose && t.pwr.mains then t.wakeEvent 1 else t))) ∧
  (∀ (m : Nat) (s : State), s.pwr.exit_ = some m → s.pwr.entry = none → s.mode = 2 → exec (.powerExit) s = .next (((s.setLp false).pwrCnt 25).startRise m false)) ∧
  (∀ (r : PwrRise) (s : State), s.pwr.rise = some r → r.at_ ≤ s.clk → exec (.domainGroupOn) s = .next (s.riseStep r)) ∧
  (∀ (low : Bool) (s : State), exec (.wakeNAssert low) s = .next ((let t : State := { s with pwr := { s.pwr with wakeLow := low } }; if low && !s.pwr.wakeLow then t.wakeEvent 0 else t))) ∧
  (∀ (at_ : Nat) (s : State), s.pwr.alarm = some at_ → at_ ≤ s.clk → exec (.plinthAlarm) s = .next (State.wakeEvent { s with pwr := { s.pwr with alarm := none } } 2)) ∧
  (∀ (m : Fin 4) (hi : Bool) (data : Word) (s : State), (s.maskBad m.val ((if hi then data.toNat % 2 ^ 24 * 2 ^ 32 + s.pwrMask m.val % 2 ^ 32 else s.pwrMask m.val / 2 ^ 32 * 2 ^ 32 + data.toNat) &&& s.optionalSet m.val) = false) → exec (.pwrMaskWrite m hi data) s = .next ((let mask := ((if hi then data.toNat % 2 ^ 24 * 2 ^ 32 + s.pwrMask m.val % 2 ^ 32 else s.pwrMask m.val / 2 ^ 32 * 2 ^ 32 + data.toNat) &&& s.optionalSet m.val); let t := (s.put (PWR_MASK_LO_mask m.val) mask).put (PWR_MASK_HI_mask m.val) (mask / 2 ^ 32); if m.val = t.mode ∧ t.pwr.entry = none ∧ t.pwr.rise = none ∧ t.pwr.exit_ = none then t.refreshMode else t))) ∧
  (∀ (s : State), s.mode = 2 → s.pwr.allow.all (fun t => decide (t ≤ s.clk + ms)) = true → exec (.watchExit) s = .next (s.leaveFor s.pwr.watchFrom))

/-- Mains, plinth supply, dying gasp, outages and sleep allowances: each command completes, with the next state that its clause
gives (R499, R495, R148, R496, R498, R486). -/
def Obligations.SupplyComplete : Prop :=
  (∀ (s : State), s.pwr.mains = false → s.pwr.gasp = none → exec (.mainsOkRise) s = .next (State.wakeEvent { s with pwr := { s.pwr with mains := true, mainsAt := s.clk } } 1)) ∧
  (∀ (s : State), s.pwr.mains = true → exec (.mainsOkFall) s = .next ({ s with pwr := { s.pwr with mains := false, mainsAt := s.clk } })) ∧
  (∀ (s : State), s.pwr.mains = false → s.since s.pwr.mainsAt (s.get PWR_OUTAGE_CFG_filt * ms) = true → s.on PWR_OUTAGE_CFG_battery = true → s.pwr.outage = none → exec (.mainsLossFiltered) s = .next (s.beginOutage)) ∧
  (∀ (s : State), s.pwr.supplyLow = false → exec (.plinthSupplyLow) s = .next (State.detectGasp { s with pwr := { s.pwr with supplyLow := true } } 2)) ∧
  (∀ (at_ : Nat) (s : State), s.pwr.gasp = some (2, at_) → exec (.plinthSupplyRecovery) s = .next ((State.endGasp { s with pwr := { s.pwr with supplyLow := false } }).resumeCast)) ∧
  (∀ (s : State), exec (.pwrGaspCmd) s = .next (s.detectGasp 3)) ∧
  (∀ (s : State), s.pwr.gasp ≠ none → exec (.pwrGaspClr) s = .next (s.endGasp.resumeCast)) ∧
  (∀ (at_ : Nat) (s : State), s.pwr.gasp = some (2, at_) → s.since at_ (s.get PWR_GASP_act * ms) = true → s.pwr.supplyLow = true → exec (.gaspAct) s = .next (s.forceEntry 4)) ∧
  (∀ (s : State), s.shedding = true → s.pwr.step ≤ s.clk + sec → (s.nextShed.filter (fun n => !bit s.pwr.warned n)) ≠ [] → exec (.shedWarning) s = .next ((let l := s.nextShed.filter (fun n => !bit s.pwr.warned n); let t := s.pwrEvents (domainSet l) 3; { t with pwr := { t.pwr with warned := t.pwr.warned ||| domainSet l } }))) ∧
  (∀ (s : State), s.shedding = true → s.pwr.step ≤ s.clk → s.nextShed ≠ [] → exec (.shedStep) s = .next (s.shed s.nextShed)) ∧
  (∀ (s : State), s.pwr.outage ≠ none → s.pwr.mains = true → s.since s.pwr.mainsAt (s.get PWR_OUTAGE_CFG_filt * ms + s.get PWR_OUTAGE_CFG_restore * sec) = true → exec (.outageEnd) s = .next (s.endOutage.resumeCast)) ∧
  (∀ (msg : List Byte) (s : State), s.inInbox msg 8 = true → byteAt msg 4 = 1 → 10 ≤ beAt msg 5 2 → beAt msg 5 2 ≤ 10000 → (s.tookMsg msg).get ACT_STATUS_state = 4 → (s.tookMsg msg).anyStanding = false → exec (.sleepAllow msg) s = .next ((let t := (s.tookMsg msg).putB PWR_STATUS_allow true; State.ackMsg { t with pwr := { t.pwr with allow := some (t.clk + beAt msg 5 2 * ms) } } msg 0 0))) ∧
  (∀ (msg : List Byte) (s : State), s.inInbox msg 8 = true → byteAt msg 4 = 0 → exec (.sleepWithdraw msg) s = .next (((s.tookMsg msg).endAllow).ackMsg msg 0 0)) ∧
  (∀ (at_ : Nat) (s : State), s.pwr.allow = some at_ → at_ ≤ s.clk → exec (.sleepAllowanceEnd) s = .next (s.endAllow))

/-- The flash controller: each command completes, with the next state that its clause gives (R506, R507, R510, R511, R508, R509). -/
def Obligations.FlashComplete : Prop :=
  (∀ (port : Fin 3) (s : State), s.flashRefusal port.val false (s.get (FLC_PORT_ADDR_addr port.val)) ((List.range 8).flatMap (fun w => beBytes 4 (s.get (FLC_PORT_DATA_data port.val w)))) = none → s.unit (s.get (FLC_PORT_ADDR_addr port.val)) ≠ (List.range 8).flatMap (fun w => beBytes 4 (s.get (FLC_PORT_DATA_data port.val w))) → exec (.flashProgramCmd port) s = .next (s.flashStart ⟨port.val, false, s.get (FLC_PORT_ADDR_addr port.val), (List.range 8).flatMap (fun w => beBytes 4 (s.get (FLC_PORT_DATA_data port.val w))), s.clk, s.clk, 0, false⟩)) ∧
  (∀ (port : Fin 3) (s : State), s.flashRefusal port.val true (s.get (FLC_PORT_ADDR_addr port.val)) [] = none → exec (.flashEraseCmd port) s = .next ((s.markSector 1 (sectorOf (s.get (FLC_PORT_ADDR_addr port.val)))).flashStart ⟨port.val, true, s.get (FLC_PORT_ADDR_addr port.val), [], s.clk, s.clk, 0, false⟩)) ∧
  (∀ (o : FlashOp) (s : State), s.flc.susp = none → s.flc.active = some o → o.erase = true → ∃ t, exec (.flashSuspendCmd) s = .next t ∧ t.flc.active = none ∧ t.flc.susp = some { o with ran := o.ran + (s.clk - o.at_) } ∧ t.flc.held = true) ∧
  (∀ (o : FlashOp) (s : State), s.flc.held = true → s.flc.susp = some o → s.flashActive = false → exec (.flashResumeCmd) s = .next ({ s with flc := { s.flc with active := some { o with at_ := s.clk }, susp := none, held := false } })) ∧
  (∀ (o : FlashOp) (s : State), s.flc.active = some o → o.erase = false → exec (.flashProgramDone true) s = .next ((((State.setUnit { s with flc := { s.flc with active := none } } o.addr o.data).flashEnd o.port 0).sat (FLC_CNT_count 0)))) ∧
  (∀ (o : FlashOp) (s : State), s.flc.active = some o → o.erase = false → exec (.flashProgramDone false) s = .next ((let t : State := { s with flc := { s.flc with active := none } }; ((((t.setUnit o.addr (t.freeBytes 32)).tookFree.flashEnd o.port 0x130C).sat (FLC_CNT_count 7)).flcLog 0x130C o.port o.addr)))) ∧
  (∀ (o : FlashOp) (s : State), s.flc.active = some o → o.erase = true → exec (.flashEraseDone true) s = .next (((((State.eraseSector { s with flc := { s.flc with active := none } } (sectorOf o.addr)).markSector 2 (sectorOf o.addr)).flashEnd o.port 0).sat (FLC_CNT_count 2)))) ∧
  (∀ (o : FlashOp) (s : State), s.flc.active = some o → o.erase = true → exec (.flashEraseDone false) s = .next ((((State.flashEnd { s with flc := { s.flc with active := none, torn := s.flc.torn ++ [sectorOf o.addr] } } o.port 0x130C).sat (FLC_CNT_count 7)).flcLog 0x130C o.port o.addr))) ∧
  (∀ (master : Fin 3) (addr : BitVec 25) (ecc : Fin 3) (stall : Nat) (s : State), exec (.flashWindowRead master addr ecc stall) s = .next (((s.flashRead master.val addr.toNat ecc.val stall).when (master.val == 2) (fun t => t.send (.completion 0 0 (t.flashWord addr.toNat)))).tookFree)) ∧
  (∀ (s : State), s.flc.held = false → s.since s.flc.lastRead (s.get FLC_CFG_idle * us) = true → exec (.eraseAutoResume) s = .next (s.resumeErase)) ∧
  (∀ (o : FlashOp) (s : State), s.flc.active = some o → o.late s.clk true = true → exec (.eraseSlow) s = .next (State.flcLog { s with flc := { s.flc with active := some { o with slow := true } } } 0x130A o.port o.addr))

/-- Resets, boot, the watchdog and the acknowledgement of fault records: each command completes, with the next state that its
clause gives (R514, R550, R537, R536, R560, R535, R541, R585, R545, R493). -/
def Obligations.ResetsComplete : Prop :=
  (∀ (s : State), s.flt.phase = .boot → s.flt.fatal = false → exec (.bootRom) s = .next (s.bootRules.1.bootPicked s.bootRules.2)) ∧
  (∀ (s : State), s.flt.phase = .bringUp → s.flt.fatal = false → s.on FLC_BOOT_state = true → exec (.bringUpComplete) s = .next (s.goUp)) ∧
  (∀ (lost : Bool) (s : State), exec (.coldReset lost) s = .next ((let t := if lost then { s with flt := { s.flt with bootCount := 0, borLoad := false, borSupply := false, borDue := false } } else s; t.coldReset (if t.flt.borSupply then 2 else if t.flt.borLoad then 1 else 0)))) ∧
  (∀ (strap : Bool) (s : State), s.flt.rstLow = false → exec (.rstNAssert true strap) s = .next (State.warmReset { s with flt := { s.flt with rstLow := true } } 3)) ∧
  (∀ (strap : Bool) (s : State), exec (.rstNAssert false strap) s = .next ((let t := if s.flt.strapDue then { s with sup := { s.sup with mode := strap } } else s; { t with flt := { t.flt with rstLow := false, strapDue := false } }))) ∧
  (∀ (s : State), s.flt.testEn = false → exec (.testEnAssert true) s = .next (State.warmReset { s with flt := { s.flt with testEn := true } } 13)) ∧
  (∀ (s : State), exec (.testEnAssert false) s = .next ({ s with flt := { s.flt with testEn := false } })) ∧
  (∀ (s : State), s.flt.phase = .held → s.since s.flt.resetAt (10 * us) = true → s.flt.rstLow = false → s.flt.testEn = false → exec (.warmResetRelease) s = .next (State.kick { s with flt := { s.flt with phase := .boot } })) ∧
  (∀ (s : State), exec (.mramEcc) s = .next ((s.logDev 0x1506 0xF 0).faultReset 12)) ∧
  (∀ (data : Word) (s : State), exec (.watchdogKick data) s = .next ((if data = 0xA5 then s.kick else s))) ∧
  (∀ (s : State), s.watched = true → s.since s.flt.wdogAt (s.flt.wdogMs * ms) = true → exec (.watchdogExpiry) s = .next ((s.logDev 0x1505 0xF 0).faultReset 4)) ∧
  (∀ (s : State), exec (.fltCmdWarm) s = .next (s.warmReset 10)) ∧
  (∀ (n : Fin 16) (s : State), s.exists_ n.val = true → exec (.fltNcmdReset n) s = .next (s.requestReset n.val 5)) ∧
  (∀ (data : Word) (s : State), exec (.fltLogAck 16 data) s = .next ({ s with flt := { s.flt with devLog := s.flt.devLog.ack data.toNat } })) ∧
  (∀ (n : Fin 16) (data : Word) (s : State), exec (.fltLogAck ⟨n.val, by omega⟩ data) s = .next ({ s with flt := { s.flt with nicheLogs := s.flt.nicheLogs.modify n.val (fun l => l.ack data.toNat) } })) ∧
  (∀ (s : State), exec (.plinthBrownout false) s = .next ((State.coldReset { s with flt := { s.flt with borSupply := true, borDue := true } } 2))) ∧
  (∀ (s : State), s.on PWR_PLN_STATUS_lp = true → exec (.plinthBrownout true) s = .next ((State.coldReset { s with flt := { s.flt with borLoad := true, borDue := true } } 1)))

/-- Niche resets, block resets and the monitors of rails: each command completes, with the next state that its clause gives
(R227, R546, R549, R563, R562). -/
def Obligations.BlockAndNicheResetsComplete : Prop :=
  (∀ (n : Fin 16) (s : State), (s.nreset n.val).active = true → (s.nreset n.val).tick < s.tick.edges → s.scrubbed n.val = true → exec (.nicheResetComplete n) s = .next (s.endNicheReset n.val)) ∧
  (∀ (n : Fin 16) (s : State), (s.nreset n.val).active = true → (s.nreset n.val).slow = false → s.since (s.nreset n.val).at_ (4 * ms) = true → exec (.nresetSlow n) s = .next (((s.modNreset n.val (fun r => { r with slow := true })).logDev 0x1504 n.val (fdata n.val 0 0)).faultReset 9)) ∧
  (∀ (data : Word) (s : State), exec (.fltBlkRstWrite data) s = .next (s.each (onesOf 11 data.toNat) (fun b t => t.blockAsk b))) ∧
  (∀ (s : State), exec (.blockResetApply) s = .next (State.each { s with flt := { s.flt with blkActive := s.flt.blkActive ||| s.flt.blkPending, blkPending := 0 } } (onesOf 11 s.flt.blkPending.toNat) (fun b t => t.blockReset b))) ∧
  (∀ (b : Fin 11) (s : State), bit s.flt.blkActive.toNat b.val = true → exec (.blockResetDone b) s = .next (State.logDev { s with flt := { s.flt with blkActive := s.flt.blkActive &&& ~~~(BitVec.ofNat 11 (2 ^ b.val)) } } 0x1509 0xF 0)) ∧
  (∀ (rail : Fin 10) (out : Bool) (s : State), exec (.railExcursion rail out) s = .next ((if out then ((s.unmark GLB_RAIL_within rail.val).mark GLB_RAIL_sticky rail.val).raisePf 0 else s.mark GLB_RAIL_within rail.val))) ∧
  (∀ (b : Fin 5) (v33 hiz : Bool) (s : State), s.get (bankClass b.val) = 0 → exec (.bankRailClassify b v33 hiz) s = .next ((s.mark GLB_RAIL_within (4 + b.val)).put (bankClass b.val) (if v33 then 2 else 1)))

/-- The MSH block refuses entry to a power mode while any indirect entry is held (R362). -/
def Obligations.HeldIndirectEntryRefusesPowerEntry : Prop :=
  ∀ (e : PwrEntry) (s : State), s.pwr.entry = some e → e.stage = .consent → e.asked < s.tick.edges → s.awaitsPartner = false →
    s.msh.ind ≠ [] → (4, 0x0C) ∈ s.refusers.1 ∧ ∃ t, exec .powerDecision s = .next t ∧ t.pwr.entry = none ∧
      t.get PWR_LAST_outcome = 2 ∧ bit (t.get PWR_REFUSE_MAP_blocks) 4 = true ∧ t.mode = s.mode
end

