-- ==== Sys2Proof/Laws/Store.lean ====
section
/-!
SUPPORT. Laws of the sparse stores: a read after a write, and that every store operation keeps the canonical form.
-/

namespace Sys2Proof.Machine

open Sys2Proof

variable {α : Type}

theorem storeGet_nil (d : Nat → α) (k : Nat) : storeGet d [] k = d k := rfl

theorem storeGet_cons (d : Nat → α) (p : Nat × α) (m : List (Nat × α)) (k : Nat) :
    storeGet d (p :: m) k = if p.1 = k then p.2 else storeGet d m k := by
  unfold storeGet
  by_cases h : p.1 = k <;> simp [h]

theorem storeGet_erase_ne (d : Nat → α) (m : List (Nat × α)) {k j : Nat} (h : j ≠ k) :
    storeGet d (storeErase m k) j = storeGet d m j := by
  induction m with
  | nil => rfl
  | cons p m ih =>
    unfold storeErase at ih ⊢
    by_cases hp : p.1 = k
    · have : p.1 ≠ j := fun e => h (e.symm.trans hp)
      simp [hp, storeGet_cons, ih, Ne.symm h]
    · rw [List.filter_cons_of_pos (by simpa using hp), storeGet_cons, storeGet_cons, ih]

theorem storeGet_erase_self (d : Nat → α) (m : List (Nat × α)) (k : Nat) : storeGet d (storeErase m k) k = d k := by
  induction m with
  | nil => rfl
  | cons p m ih =>
    unfold storeErase at ih ⊢
    by_cases hp : p.1 = k <;> simp [hp, storeGet_cons, ih]

theorem storeGet_insert (d : Nat → α) (m : List (Nat × α)) (k : Nat) (v : α) (j : Nat) (hk : ∀ p ∈ m, p.1 ≠ k) :
    storeGet d (storeInsert k v m) j = if k = j then v else storeGet d m j := by
  induction m with
  | nil => simp [storeInsert, storeGet_cons, storeGet_nil]
  | cons p m ih =>
    have hm : ∀ q ∈ m, q.1 ≠ k := fun q hq => hk q (List.mem_cons_of_mem _ hq)
    have hp : p.1 ≠ k := hk p List.mem_cons_self
    unfold storeInsert
    split
    · simp [storeGet_cons]
    · rw [storeGet_cons, storeGet_cons, ih hm]
      by_cases e : p.1 = j
      · have : k ≠ j := fun e' => hp (e.trans e'.symm)
        simp [e, this]
      · simp [e]

theorem mem_erase {m : List (Nat × α)} {k : Nat} {p : Nat × α} (h : p ∈ storeErase m k) : p.1 ≠ k := by
  unfold storeErase at h
  simpa using (List.mem_filter.mp h).2

theorem mem_insert {m : List (Nat × α)} {k : Nat} {v : α} {q : Nat × α} (h : q ∈ storeInsert k v m) : q = (k, v) ∨ q ∈ m := by
  induction m with
  | nil => simpa [storeInsert] using h
  | cons p m ih =>
    unfold storeInsert at h
    split at h
    · simpa using h
    · rcases List.mem_cons.mp h with rfl | h
      · exact .inr List.mem_cons_self
      · rcases ih h with h | h
        · exact .inl h
        · exact .inr (List.mem_cons_of_mem _ h)

variable [DecidableEq α]

/-- A read of the key that was written gives the value written. -/
theorem storeGet_set_self (d : Nat → α) (m : List (Nat × α)) (k : Nat) (v : α) : storeGet d (storeSet d m k v) k = v := by
  unfold storeSet
  split
  · rename_i h
    rw [storeGet_erase_self, h]
  · rw [storeGet_insert d _ k v k (fun p hp => mem_erase hp)]
    simp

/-- A write leaves every other key alone. -/
theorem storeGet_set_ne (d : Nat → α) (m : List (Nat × α)) {k j : Nat} (v : α) (h : j ≠ k) :
    storeGet d (storeSet d m k v) j = storeGet d m j := by
  unfold storeSet
  split
  · exact storeGet_erase_ne d m h
  · rw [storeGet_insert d _ k v j (fun p hp => mem_erase hp), storeGet_erase_ne d m h]
    simp [Ne.symm h]

theorem storeWf_cons {d : Nat → α} {p : Nat × α} {m : List (Nat × α)} :
    storeWf d (p :: m) = true ↔ p.2 ≠ d p.1 ∧ (∀ q ∈ m, p.1 < q.1) ∧ storeWf d m = true := by
  simp [storeWf, and_assoc]

theorem storeWf_filter {d : Nat → α} {m : List (Nat × α)} (h : storeWf d m = true) (p : Nat × α → Bool) :
    storeWf d (m.filter p) = true := by
  induction m with
  | nil => rfl
  | cons a m ih =>
    obtain ⟨h1, h2, h3⟩ := storeWf_cons.mp h
    by_cases hp : p a
    · rw [List.filter_cons_of_pos hp]
      exact storeWf_cons.mpr ⟨h1, fun q hq => h2 q (List.mem_of_mem_filter hq), ih h3⟩
    · rw [List.filter_cons_of_neg hp]
      exact ih h3

theorem storeWf_insert {d : Nat → α} {m : List (Nat × α)} (h : storeWf d m = true) {k : Nat} {v : α} (hv : v ≠ d k)
    (hk : ∀ p ∈ m, p.1 ≠ k) : storeWf d (storeInsert k v m) = true := by
  induction m with
  | nil => exact storeWf_cons.mpr ⟨hv, by simp, rfl⟩
  | cons p m ih =>
    obtain ⟨h1, h2, h3⟩ := storeWf_cons.mp h
    have hm : ∀ q ∈ m, q.1 ≠ k := fun q hq => hk q (List.mem_cons_of_mem _ hq)
    have hp : p.1 ≠ k := hk p List.mem_cons_self
    unfold storeInsert
    split
    · rename_i hlt
      refine storeWf_cons.mpr ⟨hv, fun q hq => ?_, h⟩
      rcases List.mem_cons.mp hq with rfl | hq
      · exact hlt
      · exact lt_trans hlt (h2 q hq)
    · rename_i hlt
      refine storeWf_cons.mpr ⟨h1, fun q hq => ?_, ih h3 hm⟩
      rcases mem_insert hq with rfl | hq
      · show p.1 < k
        omega
      · exact h2 q hq

/-- A write keeps the canonical form. -/
theorem storeWf_set {d : Nat → α} {m : List (Nat × α)} (h : storeWf d m = true) (k : Nat) (v : α) :
    storeWf d (storeSet d m k v) = true := by
  unfold storeSet
  split
  · exact storeWf_filter h _
  · rename_i hv
    exact storeWf_insert (storeWf_filter h _) hv (fun p hp => mem_erase hp)

end Sys2Proof.Machine
end

