-- ==== Sys2Proof/Laws/Keeps.lean ====
section
/-!
SUPPORT. How Keeps passes through the forms that the meanings are written in; the files KeepsX.lean carry it through every
operation and every meaning, one lemma each.
-/

namespace Sys2Proof.Machine

open Sys2Proof

/-- Every next state of an outcome keeps what s0 has. -/
def KeepsO (s0 : State) (o : Host.Outcome State Fault Refusal) : Prop := ∀ t, o = .next t → Keeps s0 t

theorem anchored_of_eq {a b : ArmState} (ht : b.trust = a.trust) (hl : a.floor ≤ b.floor) : Anchored a b :=
  ⟨hl, fun k d h => by rw [ht]; exact h, fun k h => by rw [ht]; exact h⟩

theorem anchored_refl (a : ArmState) : Anchored a a := anchored_of_eq rfl (Nat.le_refl _)

theorem anchored_trans {a b c : ArmState} (h : Anchored a b) (h' : Anchored b c) : Anchored a c :=
  ⟨h.floor.trans h'.floor, fun k d e => h'.enrolled k d (h.enrolled k d e), fun k e => h'.revoked k (h.revoked k e)⟩

theorem keeps_refl (s : State) : Keeps s s := ⟨rfl, rfl, rfl, List.suffix_rfl, anchored_refl _, id⟩

theorem keeps_trans {s0 s t : State} (h : Keeps s0 s) (h' : Keeps s t) : Keeps s0 t :=
  ⟨h'.pending.trans h.pending, h'.fuse.trans h.fuse, h'.clk.trans h.clk, h.sent.trans h'.sent, anchored_trans h.anchored h'.anchored, fun c => h'.canonical (h.canonical c)⟩

/-- A record update of a field that Keeps does not speak of. -/
theorem keeps_upd {s0 t u : State} (hp : u.pending = t.pending) (hf : u.fuse = t.fuse) (hc : u.clk = t.clk)
    (hs : u.sent = t.sent) (hr : u.regs = t.regs) (ht : u.hif.table = t.hif.table) (ha : u.arm.trust = t.arm.trust)
    (hl : t.arm.floor ≤ u.arm.floor) (h : Keeps s0 t) : Keeps s0 u :=
  ⟨hp.trans h.pending, hf.trans h.fuse, hc.trans h.clk, hs ▸ h.sent, anchored_trans h.anchored (anchored_of_eq ha hl), fun c => by
    have := h.canonical c
    unfold State.canonical at this ⊢
    rw [hr, ht]
    exact this⟩

/-- A record update of fields that Keeps does not speak of. -/
theorem keeps_mk {s0 t : State} {freeCount' : Nat} {latch' : List (Nat × Word)} {flt' : FltState} {tick' : TickState} {nres' : List NicheReset} {cel' : CelState} {hif' : HifState} {sup' : SupState} {arm' : ArmState} {dsl' : DslState} {usl' : UslState} {act' : ActState} {cph' : CphState} {crt' : CrtState} {flc' : FlcState} {cst' : CstState} {pwr' : PwrState} {cls' : ClsState} {eth' : EthState} {pnd' : PndState} {tim' : TimState} {tdm' : TdmState} {msh' : MshState} {fio' : FioState}
    (h : Keeps s0 t) (ht : hif'.table = t.hif.table) (ha : arm'.trust = t.arm.trust) (hl : arm'.floor = t.arm.floor) :
    Keeps s0 (State.mk t.pending t.regs t.fuse t.clk freeCount' t.sent latch' flt' tick' nres' cel' hif' sup' arm' dsl' usl' act' cph' crt' flc' cst' pwr' cls' eth' pnd' tim' tdm' msh' fio') :=
  keeps_upd (t := t) rfl rfl rfl rfl rfl ht ha (Nat.le_of_eq hl.symm) h

/-- A record update of the register file that keeps the canonical form. -/
theorem keeps_regs {s0 t u : State} (hp : u.pending = t.pending) (hf : u.fuse = t.fuse) (hc : u.clk = t.clk)
    (hs : u.sent = t.sent) (ht : u.hif.table = t.hif.table) (ha : u.arm = t.arm)
    (hr : storeWf resetWord t.regs = true → storeWf resetWord u.regs = true) (h : Keeps s0 t) : Keeps s0 u :=
  ⟨hp.trans h.pending, hf.trans h.fuse, hc.trans h.clk, hs ▸ h.sent, ha ▸ h.anchored, fun c => by
    have := h.canonical c
    unfold State.canonical at this ⊢
    rw [ht]
    exact ⟨hr this.1, this.2⟩⟩

/-- A record update of the MSI-X tables that keeps the canonical form. -/
theorem keeps_table {s0 t u : State} (hp : u.pending = t.pending) (hf : u.fuse = t.fuse) (hc : u.clk = t.clk)
    (hs : u.sent = t.sent) (hr : u.regs = t.regs) (ha : u.arm = t.arm)
    (ht : storeWf msixReset t.hif.table = true → storeWf msixReset u.hif.table = true) (h : Keeps s0 t) : Keeps s0 u :=
  ⟨hp.trans h.pending, hf.trans h.fuse, hc.trans h.clk, hs ▸ h.sent, ha ▸ h.anchored, fun c => by
    have := h.canonical c
    unfold State.canonical at this ⊢
    rw [hr]
    exact ⟨this.1, ht this.2⟩⟩

theorem keeps_ite {s0 a b : State} {c : Prop} [Decidable c] (ha : Keeps s0 a) (hb : Keeps s0 b) :
    Keeps s0 (if c then a else b) := by
  split <;> assumption

theorem keeps_ite_fst {s0 : State} {α : Type} {c : Prop} [Decidable c] {p q : State × α} (hp : Keeps s0 p.1)
    (hq : Keeps s0 q.1) : Keeps s0 (if c then p else q).1 := by
  split <;> assumption

theorem keeps_ite_snd {s0 : State} {α : Type} {c : Prop} [Decidable c] {p q : α × State} (hp : Keeps s0 p.2)
    (hq : Keeps s0 q.2) : Keeps s0 (if c then p else q).2 := by
  split <;> assumption

theorem keeps_use {s0 : State} (x : State) {g : Prop} (h : Keeps s0 x) (f : Keeps s0 x → g) : g := f h

theorem keeps_fst {s0 : State} {α : Type} {p : State × α} {a : State} {b : α} (e : p = (a, b)) (h : Keeps s0 p.1) :
    Keeps s0 a := by
  subst e; exact h

theorem keeps_snd {s0 : State} {α : Type} {p : α × State} {a : α} {b : State} (e : p = (a, b)) (h : Keeps s0 p.2) :
    Keeps s0 b := by
  subst e; exact h

theorem keeps_foldl {s0 s : State} {α : Type} {f : State → α → State} (h : Keeps s0 s)
    (hf : ∀ t, Keeps s0 t → ∀ x, Keeps s0 (f t x)) (l : List α) : Keeps s0 (l.foldl f s) := by
  induction l generalizing s with
  | nil => exact h
  | cons a l ih => exact ih (hf s h a)

theorem keeps_foldl_fst {s0 : State} {α β : Type} {f : State × β → α → State × β} {p : State × β} (h : Keeps s0 p.1)
    (hf : ∀ q, Keeps s0 (Prod.fst q) → ∀ x, Keeps s0 (f q x).1) (l : List α) : Keeps s0 (l.foldl f p).1 := by
  induction l generalizing p with
  | nil => exact h
  | cons a l ih => exact ih (hf p h a)

theorem keeps_foldl_snd {s0 : State} {α β : Type} {f : β × State → α → β × State} {p : β × State} (h : Keeps s0 p.2)
    (hf : ∀ q, Keeps s0 (Prod.snd q) → ∀ x, Keeps s0 (f q x).2) (l : List α) : Keeps s0 (l.foldl f p).2 := by
  induction l generalizing p with
  | nil => exact h
  | cons a l ih => exact ih (hf p h a)

theorem State.each_keeps {s0 s : State} {α : Type} {f : α → State → State} (h : Keeps s0 s)
    (hf : ∀ t, Keeps s0 t → ∀ x, Keeps s0 (f x t)) (l : List α) : Keeps s0 (s.each l f) :=
  keeps_foldl h hf l

theorem State.when_keeps {s0 s : State} {f : State → State} (h : Keeps s0 s) (hf : ∀ t, Keeps s0 t → Keeps s0 (f t)) (c : Bool) :
    Keeps s0 (s.when c f) := by
  unfold State.when
  exact keeps_ite (hf s h) h

theorem keepsO_next {s0 t : State} (h : Keeps s0 t) : KeepsO s0 (.next t) := by
  intro u e
  cases e
  exact h

theorem keepsO_ite {s0 : State} {c : Prop} [Decidable c] {a b : Host.Outcome State Fault Refusal} (ha : KeepsO s0 a)
    (hb : KeepsO s0 b) : KeepsO s0 (if c then a else b) := by
  split <;> assumption

theorem State.setWord_keeps {s0 s : State} (h : Keeps s0 s) (a : Nat) (w : Word) : Keeps s0 (s.setWord a w) :=
  keeps_regs (t := s) (u := s.setWord a w) rfl rfl rfl rfl rfl rfl (fun c => storeWf_set (m := s.regs) c a w) h

theorem State.send_keeps {s0 s : State} (h : Keeps s0 s) (e : Emit) : Keeps s0 (s.send e) :=
  ⟨h.pending, h.fuse, h.clk, h.sent.trans (List.suffix_cons e s.sent), h.anchored, h.canonical⟩

end Sys2Proof.Machine
end

