-- ==== Sys2Proof/Laws/KeepsOps.lean ====
section
/-!
SUPPORT. What Ops.lean leaves untouched (Keeps), operation by operation.
-/

namespace Sys2Proof.Machine

open Sys2Proof

theorem State.put_keeps {s0 s : State} (h : Keeps s0 s) (f : Field) (v : ℕ) :
    Keeps s0 (State.put s f v) := by
  unfold State.put
  refine State.setWord_keeps ?_ _ _
  assumption

theorem State.putS_keeps {s0 s : State} (h : Keeps s0 s) (f : Field) (v : ℤ) :
    Keeps s0 (State.putS s f v) := by
  unfold State.putS
  refine State.put_keeps ?_ _ _
  assumption

theorem State.putB_keeps {s0 s : State} (h : Keeps s0 s) (f : Field) (b : Bool) :
    Keeps s0 (State.putB s f b) := by
  unfold State.putB
  refine State.put_keeps ?_ _ _
  assumption

theorem State.satBy_keeps {s0 s : State} (h : Keeps s0 s) (f : Field) (n : ℕ) :
    Keeps s0 (State.satBy s f n) := by
  unfold State.satBy
  refine State.put_keeps ?_ _ _
  assumption

theorem State.sat_keeps {s0 s : State} (h : Keeps s0 s) (f : Field) :
    Keeps s0 (State.sat s f) := by
  unfold State.sat
  refine State.satBy_keeps ?_ _ _
  assumption

theorem State.wrap_keeps {s0 s : State} (h : Keeps s0 s) (f : Field) :
    Keeps s0 (State.wrap s f) := by
  unfold State.wrap
  refine State.put_keeps ?_ _ _
  assumption

theorem State.mark_keeps {s0 s : State} (h : Keeps s0 s) (f : Field) (i : ℕ) :
    Keeps s0 (State.mark s f i) := by
  unfold State.mark
  refine State.put_keeps ?_ _ _
  assumption

theorem State.unmark_keeps {s0 s : State} (h : Keeps s0 s) (f : Field) (i : ℕ) :
    Keeps s0 (State.unmark s f i) := by
  unfold State.unmark
  refine State.put_keeps ?_ _ _
  assumption

theorem State.tookFree_keeps {s0 s : State} (h : Keeps s0 s) :
    Keeps s0 (State.tookFree s) := by
  unfold State.tookFree
  refine keeps_mk ?_ rfl rfl rfl
  assumption

theorem State.modFn_keeps {s0 s : State} (h : Keeps s0 s) (f : ℕ) (g : FnState → FnState) :
    Keeps s0 (State.modFn s f g) := by
  unfold State.modFn
  refine keeps_mk ?_ rfl rfl rfl
  assumption

theorem State.putMsix_keeps {s0 s : State} (h : Keeps s0 s) (f off : Nat) (w : Word) : Keeps s0 (s.putMsix f off w) :=
  keeps_table (t := s) (u := s.putMsix f off w) rfl rfl rfl rfl rfl rfl (fun c => storeWf_set (m := s.hif.table) c _ _) h

theorem State.sendNotice_keeps {s0 s : State} (h : Keeps s0 s) :
    Keeps s0 (State.sendNotice s) := by
  unfold State.sendNotice
  refine keeps_ite ?_ ?_
  · assumption
  · extract_lets +onlyGivenNames v1
    clear_value v1
    extract_lets +onlyGivenNames v2
    clear_value v2
    refine keeps_mk ?_ rfl rfl rfl
    assumption

theorem State.raiseFn_keeps {s0 s : State} (h : Keeps s0 s) (f : ℕ) (v : ℕ) :
    Keeps s0 (State.raiseFn s f v) := by
  unfold State.raiseFn
  refine keeps_ite ?_ ?_
  · refine State.send_keeps ?_ _
    assumption
  · refine State.modFn_keeps ?_ _ _
    assumption

theorem State.raisePf_keeps {s0 s : State} (h : Keeps s0 s) (v : ℕ) :
    Keeps s0 (State.raisePf s v) := by
  unfold State.raisePf
  extract_lets +onlyGivenNames v1
  have h2 : Keeps s0 v1 := by
    dsimp only [v1]
    refine State.raiseFn_keeps ?_ _ _
    assumption
  clear_value v1
  refine keeps_ite ?_ ?_
  · refine State.sendNotice_keeps ?_
    refine keeps_mk ?_ rfl rfl rfl
    assumption
  · assumption

theorem State.raiseNiche_keeps {s0 s : State} (h : Keeps s0 s) (n : ℕ) (v : ℕ) :
    Keeps s0 (State.raiseNiche s n v) := by
  unfold State.raiseNiche
  split
  · refine keeps_ite ?_ ?_
    · refine State.raiseFn_keeps ?_ _ _
      assumption
    · refine keeps_ite ?_ ?_
      · refine State.raiseFn_keeps ?_ _ _
        assumption
      · assumption
  · refine State.raiseFn_keeps ?_ _ _
    assumption
  · assumption

theorem State.raiseFlt_keeps {s0 s : State} (h : Keeps s0 s) (code : ℕ) :
    Keeps s0 (State.raiseFlt s code) := by
  unfold State.raiseFlt
  refine keeps_ite ?_ ?_
  · refine State.raisePf_keeps ?_ _
    assumption
  · refine keeps_ite ?_ ?_
    · refine keeps_ite ?_ ?_
      · refine State.raisePf_keeps ?_ _
        assumption
      · refine keeps_mk ?_ rfl rfl rfl
        assumption
    · assumption

theorem State.logDevN_keeps {s0 s : State} (h : Keeps s0 s) (code : ℕ) (niche : ℕ) (count : ℕ) (data : ℕ) :
    Keeps s0 (State.logDevN s code niche count data) := by
  unfold State.logDevN
  extract_lets +onlyGivenNames v1
  clear_value v1
  extract_lets +onlyGivenNames v2
  have h3 : Keeps s0 v2 := by
    dsimp only [v2]
    refine keeps_mk ?_ rfl rfl rfl
    assumption
  clear_value v2
  refine State.raiseFlt_keeps ?_ _
  refine State.when_keeps ?_ ?_ _
  · assumption
  · intro y4 y5
    refine State.raisePf_keeps ?_ _
    assumption

theorem State.logDev_keeps {s0 s : State} (h : Keeps s0 s) (code : ℕ) (niche : ℕ) (data : ℕ) :
    Keeps s0 (State.logDev s code niche data) := by
  unfold State.logDev
  refine State.logDevN_keeps ?_ _ _ _ _
  assumption

theorem State.logNicheRaw_keeps {s0 s : State} (h : Keeps s0 s) (n : ℕ) (code : ℕ) (count : ℕ) (data : ℕ) (esc : Bool) :
    Keeps s0 (State.logNicheRaw s n code count data esc) := by
  unfold State.logNicheRaw
  extract_lets +onlyGivenNames v1
  clear_value v1
  extract_lets +onlyGivenNames v2
  clear_value v2
  extract_lets +onlyGivenNames v3
  clear_value v3
  extract_lets +onlyGivenNames v4
  have h5 : Keeps s0 v4 := by
    dsimp only [v4]
    refine keeps_mk ?_ rfl rfl rfl
    assumption
  clear_value v4
  refine State.when_keeps ?_ ?_ _
  · assumption
  · intro y6 y7
    refine State.raiseNiche_keeps ?_ _ _
    assumption

theorem State.limitKind_keeps {s0 s : State} (h : Keeps s0 s) (log : Nat) (code : Nat) (niche : Nat) (kind : Nat) (data : Nat) :
    Keeps s0 (State.limitKind s log code niche kind data) := by
  unfold State.limitKind
  extract_lets +onlyGivenNames v1
  clear_value v1
  extract_lets +onlyGivenNames v2
  clear_value v2
  extract_lets +onlyGivenNames v3
  clear_value v3
  refine keeps_mk ?_ rfl rfl rfl
  assumption

theorem State.limit_keeps {s0 s : State} (h : Keeps s0 s) (log : Nat) (code : Nat) (niche : Nat) (data : Nat) :
    Keeps s0 (State.limit s log code niche data) := by
  unfold State.limit
  refine State.limitKind_keeps ?_ _ _ _ _ _
  assumption

theorem State.limDev_keeps {s0 s : State} (h : Keeps s0 s) (code : ℕ) (niche : ℕ) (data : ℕ) :
    Keeps s0 (State.limDev s code niche data) := by
  unfold State.limDev
  refine State.limit_keeps ?_ _ _ _ _
  assumption

theorem State.limNiche_keeps {s0 s : State} (h : Keeps s0 s) (n : ℕ) (code : ℕ) (data : ℕ) :
    Keeps s0 (State.limNiche s n code data) := by
  unfold State.limNiche
  refine State.limit_keeps ?_ _ _ _ _
  assumption

theorem State.modNreset_keeps {s0 s : State} (h : Keeps s0 s) (n : ℕ) (g : NicheReset → NicheReset) :
    Keeps s0 (State.modNreset s n g) := by
  unfold State.modNreset
  refine keeps_mk ?_ rfl rfl rfl
  assumption

end Sys2Proof.Machine
end

