-- ==== Sys2Proof/Laws/KeepsFlcOps.lean ====
section
/-!
SUPPORT. What FlcOps.lean leaves untouched (Keeps), operation by operation.
-/

namespace Sys2Proof.Machine

open Sys2Proof

theorem State.setUnit_keeps {s0 s : State} (h : Keeps s0 s) (a : ℕ) (b : List Byte) :
    Keeps s0 (State.setUnit s a b) := by
  unfold State.setUnit
  refine keeps_mk ?_ rfl rfl rfl
  assumption

theorem State.eraseSector_keeps {s0 s : State} (h : Keeps s0 s) (t : ℕ) :
    Keeps s0 (State.eraseSector s t) := by
  unfold State.eraseSector
  refine keeps_mk ?_ rfl rfl rfl
  assumption

theorem State.putRecords_keeps {s0 s : State} (h : Keeps s0 s) (c : ℕ) (h : ℕ) (i : ℕ) (l : List (ℕ × ℕ)) :
    Keeps s0 (State.putRecords s c h i l) := by
  unfold State.putRecords
  refine keeps_foldl_fst ?_ ?_ _
  · assumption
  · intro y1 y2 y3
    dsimp only
    refine State.setUnit_keeps ?_ _ _
    assumption

theorem State.appendState_keeps {s0 s : State} (h : Keeps s0 s) (c : ℕ) (op : ℕ) (t : ℕ) :
    Keeps s0 (State.appendState s c op t) := by
  unfold State.appendState
  split
  · refine State.putRecords_keeps ?_ _ _ _ _
    refine State.setUnit_keeps ?_ _ _
    assumption
  · split
    · refine State.putRecords_keeps ?_ _ _ _ _
      assumption
    · lift_lets
      intro v1
      clear_value v1
      intro v2
      have h3 : Keeps s0 v2 := by
        dsimp only [v2]
        refine State.setUnit_keeps ?_ _ _
        assumption
      clear_value v2
      intro v4
      have h5 : Keeps s0 v4 := by
        dsimp only [v4]
        refine State.eraseSector_keeps ?_ _
        refine State.putRecords_keeps ?_ _ _ _ _
        assumption
      clear_value v4
      refine State.putRecords_keeps ?_ _ _ _ _
      refine State.eraseSector_keeps ?_ _
      assumption

theorem State.markSector_keeps {s0 s : State} (h : Keeps s0 s) (op : ℕ) (t : ℕ) :
    Keeps s0 (State.markSector s op t) := by
  unfold State.markSector
  refine State.appendState_keeps ?_ _ _ _
  refine State.appendState_keeps ?_ _ _ _
  assumption

theorem State.putSelector_keeps {s0 s : State} (h : Keeps s0 s) (c : ℕ) (r : Selector) :
    Keeps s0 (State.putSelector s c r) := by
  unfold State.putSelector
  lift_lets
  intro v1
  clear_value v1
  split
  · refine State.setUnit_keeps ?_ _ _
    assumption
  · refine State.setUnit_keeps ?_ _ _
    refine State.eraseSector_keeps ?_ _
    assumption

theorem State.select_keeps {s0 s : State} (h : Keeps s0 s) (bank : ℕ) (trial : Bool) (attempts : ℕ) :
    Keeps s0 (State.select s bank trial attempts) := by
  unfold State.select
  lift_lets
  intro v1
  clear_value v1
  refine State.putSelector_keeps ?_ _ _
  refine State.putSelector_keeps ?_ _ _
  assumption

end Sys2Proof.Machine
end

