-- ==== Sys2Proof/Laws/KeepsStops.lean ====
section
/-!
SUPPORT. What Stops.lean leaves untouched (Keeps), operation by operation.
-/

namespace Sys2Proof.Machine

open Sys2Proof

theorem State.setCircuit_keeps {s0 s : State} (h : Keeps s0 s) (c : ℕ) (x : Circuit) :
    Keeps s0 (State.setCircuit s c x) := by
  unfold State.setCircuit
  refine keeps_mk ?_ rfl rfl rfl
  assumption

theorem State.setMem_keeps {s0 s : State} (h : Keeps s0 s) (m : ℕ) (x : Member) :
    Keeps s0 (State.setMem s m x) := by
  unfold State.setMem
  refine keeps_mk ?_ rfl rfl rfl
  assumption

theorem State.dropMembers_keeps {s0 s : State} (h : Keeps s0 s) (m : ℕ) :
    Keeps s0 (State.dropMembers s m) := by
  unfold State.dropMembers
  lift_lets
  intro v1
  clear_value v1
  intro v2
  have h3 : Keeps s0 v2 := by
    dsimp only [v2]
    refine keeps_ite ?_ ?_
    · refine State.satBy_keeps ?_ _ _
      assumption
    · assumption
  clear_value v2
  intro v4
  clear_value v4
  refine keeps_mk ?_ rfl rfl rfl
  assumption

theorem State.unstart_keeps {s0 s : State} (h : Keeps s0 s) (c : ℕ) :
    Keeps s0 (State.unstart s c) := by
  unfold State.unstart
  lift_lets
  intro v1
  clear_value v1
  refine State.setCircuit_keeps ?_ _ _
  refine State.putB_keeps ?_ _ _
  assumption

theorem State.setDout_keeps {s0 s : State} (h : Keeps s0 s) (k : ℕ) (x : DoutState) :
    Keeps s0 (State.setDout s k x) := by
  unfold State.setDout
  refine keeps_mk ?_ rfl rfl rfl
  assumption

theorem State.switchDout_keeps {s0 s : State} (h : Keeps s0 s) (k : ℕ) (b : Bool) :
    Keeps s0 (State.switchDout s k b) := by
  unfold State.switchDout
  refine State.send_keeps ?_ _
  refine State.putB_keeps ?_ _ _
  refine State.putB_keeps ?_ _ _
  assumption

theorem State.doutOff_keeps {s0 s : State} (h : Keeps s0 s) (k : ℕ) :
    Keeps s0 (State.doutOff s k) := by
  unfold State.doutOff
  lift_lets
  intro v1
  have h2 : Keeps s0 v1 := by
    dsimp only [v1]
    refine State.putB_keeps ?_ _ _
    refine State.putB_keeps ?_ _ _
    assumption
  clear_value v1
  intro v3
  clear_value v3
  refine State.when_keeps ?_ ?_ _
  · refine State.setDout_keeps ?_ _ _
    assumption
  · intro y4 y5
    refine State.switchDout_keeps ?_ _ _
    assumption

theorem State.emptyDin_keeps {s0 s : State} (h : Keeps s0 s) (i : ℕ) :
    Keeps s0 (State.emptyDin s i) := by
  unfold State.emptyDin
  lift_lets
  intro v1
  clear_value v1
  intro v2
  have h3 : Keeps s0 v2 := by
    dsimp only [v2]
    refine State.put_keeps ?_ _ _
    refine State.satBy_keeps ?_ _ _
    assumption
  clear_value v2
  intro v4
  clear_value v4
  intro v5
  clear_value v5
  refine keeps_mk ?_ rfl rfl rfl
  assumption

theorem State.stopPoints_keeps {s0 s : State} (h : Keeps s0 s) (n : ℕ) :
    Keeps s0 (State.stopPoints s n) := by
  unfold State.stopPoints
  lift_lets
  intro v1
  have h2 : Keeps s0 v1 := by
    dsimp only [v1]
    refine State.each_keeps ?_ ?_ _
    · assumption
    · intro y3 y4 y5
      refine State.doutOff_keeps ?_ _
      assumption
  clear_value v1
  intro v6
  have h7 : Keeps s0 v6 := by
    dsimp only [v6]
    refine State.each_keeps ?_ ?_ _
    · assumption
    · intro y8 y9 y10
      refine State.emptyDin_keeps ?_ _
      assumption
  clear_value v6
  refine State.each_keeps ?_ ?_ _
  · assumption
  · intro y11 y12 y13
    refine State.unstart_keeps ?_ _
    refine State.each_keeps ?_ ?_ _
    · assumption
    · intro y14 y15 y16
      refine State.dropMembers_keeps ?_ _
      assumption

end Sys2Proof.Machine
end

