-- ==== Sys2Proof/Laws/KeepsResets.lean ====
section
/-!
SUPPORT. What Resets.lean leaves untouched (Keeps), operation by operation.
-/

namespace Sys2Proof.Machine

open Sys2Proof

theorem State.flushDevice_keeps {s0 s : State} (h : Keeps s0 s) :
    Keeps s0 (State.flushDevice s) := by
  unfold State.flushDevice
  lift_lets
  intro v1
  have h2 : Keeps s0 v1 := by
    dsimp only [v1]
    refine keeps_foldl ?_ ?_ _
    · assumption
    · intro y3 y4 y5
      refine State.logDevN_keeps ?_ _ _ _ _
      assumption
  clear_value v1
  intro v6
  clear_value v6
  refine keeps_mk ?_ rfl rfl rfl
  assumption

theorem State.recordCause_keeps {s0 s : State} (h : Keeps s0 s) (cause : ℕ) (boot : ℕ) :
    Keeps s0 (State.recordCause s cause boot) := by
  unfold State.recordCause
  lift_lets
  intro v1
  have h2 : Keeps s0 v1 := by
    dsimp only [v1]
    refine State.each_keeps ?_ ?_ _
    · assumption
    · intro y3 y4 y5
      refine State.put_keeps ?_ _ _
      refine State.put_keeps ?_ _ _
      assumption
  clear_value v1
  intro v6
  have h7 : Keeps s0 v6 := by
    dsimp only [v6]
    refine State.put_keeps ?_ _ _
    refine State.put_keeps ?_ _ _
    assumption
  clear_value v6
  refine State.put_keeps ?_ _ _
  refine State.put_keeps ?_ _ _
  assumption

/-- A change of every word of the register file keeps the canonical form. -/
theorem remapRegs_wf {m : List (Nat × Word)} (h : storeWf resetWord m = true) (f : Nat → Word → Word) :
    storeWf resetWord (remapRegs m f) = true := by
  induction m with
  | nil => rfl
  | cons p m ih =>
    obtain ⟨-, h2, h3⟩ := storeWf_cons.mp h
    unfold remapRegs at ih ⊢
    by_cases hp : f p.1 p.2 = resetWord p.1
    · rw [List.filterMap_cons_none (by simp [hp])]
      exact ih h3
    · rw [List.filterMap_cons_some (b := (p.1, f p.1 p.2)) (by simp [hp])]
      refine storeWf_cons.mpr ⟨hp, fun q hq => ?_, ih h3⟩
      obtain ⟨e, he, hq⟩ := List.mem_filterMap.mp hq
      split at hq
      · cases hq
      · cases hq
        exact h2 e he

theorem survive_keeps {s0 s : State} (h : Keeps s0 s) : Keeps s0 (survive s) :=
  ⟨h.pending, h.fuse, h.clk, h.sent, anchored_trans h.anchored (anchored_of_eq rfl (Nat.le_refl _)),
    fun c => ⟨remapRegs_wf (h.canonical c).1 _, rfl⟩⟩

theorem State.safeFor_keeps {s0 s : State} (h : Keeps s0 s) (cause : Nat) :
    Keeps s0 (State.safeFor s cause) := by
  unfold State.safeFor
  extract_lets +onlyGivenNames v1
  clear_value v1
  extract_lets +onlyGivenNames v2
  have h3 : Keeps s0 v2 := by
    dsimp only [v2]
    refine State.putB_keeps ?_ _ _
    refine State.put_keeps ?_ _ _
    refine State.mark_keeps ?_ _ _
    assumption
  clear_value v2
  refine keeps_ite ?_ ?_
  · refine State.logDev_keeps ?_ _ _ _
    assumption
  · assumption

theorem State.keepRogue_keeps {s0 t : State} (h : Keeps s0 t) (s : State) : Keeps s0 (State.keepRogue t s) := by
  unfold State.keepRogue
  refine keeps_ite ?_ ?_
  · refine State.put_keeps ?_ _ _
    refine State.mark_keeps ?_ _ _
    refine State.putB_keeps ?_ _ _
    assumption
  · assumption

theorem State.warmReset_keeps {s0 s : State} (h : Keeps s0 s) (cause : Nat) :
    Keeps s0 (State.warmReset s cause) := by
  unfold State.warmReset
  extract_lets +onlyGivenNames v1
  have h2 : Keeps s0 v1 := by
    dsimp only [v1]
    refine State.flushDevice_keeps ?_
    assumption
  clear_value v1
  extract_lets +onlyGivenNames v3
  have h4 : Keeps s0 v3 := by
    dsimp only [v3]
    refine keeps_ite ?_ ?_
    · refine State.select_keeps ?_ _ _ _
      assumption
    · assumption
  clear_value v3
  extract_lets +onlyGivenNames v5
  clear_value v5
  extract_lets +onlyGivenNames v6
  have h7 : Keeps s0 v6 := by
    dsimp only [v6]
    refine survive_keeps ?_
    assumption
  clear_value v6
  extract_lets +onlyGivenNames v8
  clear_value v8
  extract_lets +onlyGivenNames v9
  have h10 : Keeps s0 v9 := by
    dsimp only [v9]
    refine keeps_mk ?_ rfl rfl rfl
    assumption
  clear_value v9
  extract_lets +onlyGivenNames v11
  have h12 : Keeps s0 v11 := by
    dsimp only [v11]
    refine State.put_keeps ?_ _ _
    assumption
  clear_value v11
  extract_lets +onlyGivenNames v13
  have h14 : Keeps s0 v13 := by
    dsimp only [v13]
    refine State.keepRogue_keeps ?_ _
    refine keeps_ite ?_ ?_
    · refine State.put_keeps ?_ _ _
      refine State.mark_keeps ?_ _ _
      assumption
    · assumption
  clear_value v13
  refine State.recordCause_keeps ?_ _ _
  assumption

theorem State.coldReset_keeps {s0 s : State} (h : Keeps s0 s) (cause : Nat) : Keeps s0 (s.coldReset cause) := by
  unfold State.coldReset
  extract_lets +onlyGivenNames v1
  refine State.warmReset_keeps ?_ _
  exact keeps_regs (t := v1) rfl rfl rfl rfl rfl rfl (fun c => remapRegs_wf c _) (State.putB_keeps h _ _)

theorem State.raiseFloor_keeps {s0 s : State} (h : Keeps s0 s) : Keeps s0 (State.raiseFloor s) :=
  keeps_upd (t := s) rfl rfl rfl rfl rfl rfl rfl (Nat.le_max_left _ _) h

theorem State.latchFatal_keeps {s0 s : State} (h : Keeps s0 s) (cause : Nat) :
    Keeps s0 (State.latchFatal s cause) := by
  unfold State.latchFatal
  extract_lets +onlyGivenNames v1
  clear_value v1
  extract_lets +onlyGivenNames v2
  have h3 : Keeps s0 v2 := by
    dsimp only [v2]
    refine keeps_mk ?_ rfl rfl rfl
    assumption
  clear_value v2
  extract_lets +onlyGivenNames v4
  have h5 : Keeps s0 v4 := by
    dsimp only [v4]
    refine State.each_keeps ?_ ?_ _
    · refine State.safeFor_keeps ?_ _
      assumption
    · intro y6 y7 y8
      refine State.doutOff_keeps ?_ _
      assumption
  clear_value v4
  extract_lets +onlyGivenNames v9
  clear_value v9
  extract_lets +onlyGivenNames v10
  have h11 : Keeps s0 v10 := by
    dsimp only [v10]
    refine keeps_mk ?_ rfl rfl rfl
    assumption
  clear_value v10
  refine State.logDev_keeps ?_ _ _ _
  assumption

theorem State.faultReset_keeps {s0 s : State} (h : Keeps s0 s) (cause : ℕ) :
    Keeps s0 (State.faultReset s cause) := by
  unfold State.faultReset
  refine keeps_ite ?_ ?_
  · refine keeps_ite ?_ ?_
    · refine State.warmReset_keeps ?_ _
      assumption
    · refine State.latchFatal_keeps ?_ _
      assumption
  · refine State.warmReset_keeps ?_ _
    assumption

theorem State.discardLa_keeps {s0 s : State} (h : Keeps s0 s) (n : ℕ) :
    Keeps s0 (State.discardLa s n) := by
  unfold State.discardLa
  lift_lets
  intro v1
  clear_value v1
  intro v2
  have h3 : Keeps s0 v2 := by
    dsimp only [v2]
    refine State.satBy_keeps ?_ _ _
    refine State.satBy_keeps ?_ _ _
    assumption
  clear_value v2
  intro v4
  clear_value v4
  refine keeps_mk ?_ rfl rfl rfl
  assumption

theorem State.stopFlows_keeps {s0 s : State} (h : Keeps s0 s) (n : Nat) :
    Keeps s0 (State.stopFlows s n) := by
  unfold State.stopFlows
  refine keeps_mk ?_ rfl rfl rfl
  assumption

theorem stopNiche_keeps {s0 s : State} (h : Keeps s0 s) (n : Nat) :
    Keeps s0 (stopNiche s n) := by
  unfold stopNiche
  refine State.stopPoints_keeps ?_ _
  refine State.discardLa_keeps ?_ _
  refine State.stopFlows_keeps ?_ _
  assumption

theorem State.requestReset_keeps {s0 s : State} (h : Keeps s0 s) (n : ℕ) (cause : ℕ) :
    Keeps s0 (State.requestReset s n cause) := by
  unfold State.requestReset
  refine keeps_ite ?_ ?_
  · refine State.logDev_keeps ?_ _ _ _
    assumption
  · lift_lets
    intro v1
    have h2 : Keeps s0 v1 := by
      dsimp only [v1]
      refine State.logDev_keeps ?_ _ _ _
      refine State.logNicheRaw_keeps ?_ _ _ _ _ _
      assumption
    clear_value v1
    intro v3
    have h4 : Keeps s0 v3 := by
      dsimp only [v3]
      refine State.sat_keeps ?_ _
      refine State.put_keeps ?_ _ _
      assumption
    clear_value v3
    intro v5
    have h6 : Keeps s0 v5 := by
      dsimp only [v5]
      refine State.modNreset_keeps ?_ _ _
      assumption
    clear_value v5
    refine keeps_ite ?_ ?_
    · assumption
    · refine stopNiche_keeps ?_ _
      assumption

theorem State.requestHeld_keeps {s0 s : State} (h : Keeps s0 s) (n : ℕ) (cause : ℕ) (h : Hold) :
    Keeps s0 (State.requestHeld s n cause h) := by
  unfold State.requestHeld
  refine keeps_ite ?_ ?_
  · refine State.requestReset_keeps ?_ _ _
    assumption
  · refine State.modNreset_keeps ?_ _ _
    refine State.requestReset_keeps ?_ _ _
    assumption

theorem State.logNicheN_keeps {s0 s : State} (h : Keeps s0 s) (n : ℕ) (code : ℕ) (count : ℕ) (data : ℕ) :
    Keeps s0 (State.logNicheN s n code count data) := by
  unfold State.logNicheN
  refine keeps_ite ?_ ?_
  · refine State.logNicheRaw_keeps ?_ _ _ _ _ _
    assumption
  · refine keeps_ite ?_ ?_
    · lift_lets
      intro v1
      have h2 : Keeps s0 v1 := by
        dsimp only [v1]
        refine State.logNicheRaw_keeps ?_ _ _ _ _ _
        assumption
      clear_value v1
      intro v3
      have h4 : Keeps s0 v3 := by
        dsimp only [v3]
        refine State.logDev_keeps ?_ _ _ _
        refine State.logNicheRaw_keeps ?_ _ _ _ _ _
        assumption
      clear_value v3
      refine State.faultReset_keeps ?_ _
      assumption
    · refine keeps_ite ?_ ?_
      · lift_lets
        intro v5
        have h6 : Keeps s0 v5 := by
          dsimp only [v5]
          refine State.logNicheRaw_keeps ?_ _ _ _ _ _
          assumption
        clear_value v5
        intro v7
        have h8 : Keeps s0 v7 := by
          dsimp only [v7]
          refine State.logDev_keeps ?_ _ _ _
          refine State.logNicheRaw_keeps ?_ _ _ _ _ _
          assumption
        clear_value v7
        refine State.requestReset_keeps ?_ _ _
        assumption
      · refine State.logNicheRaw_keeps ?_ _ _ _ _ _
        assumption

theorem State.logNiche_keeps {s0 s : State} (h : Keeps s0 s) (n : ℕ) (code : ℕ) (data : ℕ) :
    Keeps s0 (State.logNiche s n code data) := by
  unfold State.logNiche
  refine State.logNicheN_keeps ?_ _ _ _ _
  assumption

theorem State.logOwner_keeps {s0 s : State} (h : Keeps s0 s) (o : Option ℕ) (code : ℕ) (data : ℕ) :
    Keeps s0 (State.logOwner s o code data) := by
  unfold State.logOwner
  split
  · refine State.logNiche_keeps ?_ _ _ _
    assumption
  · refine State.logDev_keeps ?_ _ _ _
    assumption

theorem State.limOwner_keeps {s0 s : State} (h : Keeps s0 s) (o : Option ℕ) (code : ℕ) (data : ℕ) :
    Keeps s0 (State.limOwner s o code data) := by
  unfold State.limOwner
  split
  · refine State.limNiche_keeps ?_ _ _ _
    assumption
  · refine State.limDev_keeps ?_ _ _ _
    assumption

theorem State.deny_keeps {s0 s : State} (h : Keeps s0 s) (n : ℕ) (source : ℕ) (target : ℕ) :
    Keeps s0 (State.deny s n source target) := by
  unfold State.deny
  refine keeps_mk ?_ rfl rfl rfl
  assumption

theorem State.countDenied_keeps {s0 s : State} (h : Keeps s0 s) (n : ℕ) (target : ℕ) :
    Keeps s0 (State.countDenied s n target) := by
  unfold State.countDenied
  refine State.limDev_keeps ?_ _ _ _
  refine State.limNiche_keeps ?_ _ _ _
  refine State.sat_keeps ?_ _
  assumption

end Sys2Proof.Machine
end

