-- ==== Sys2Proof/Laws/KeepsFlags.lean ====
section
/-!
SUPPORT. What Flags.lean leaves untouched (Keeps), operation by operation.
-/

namespace Sys2Proof.Machine

open Sys2Proof

theorem State.phaseUsedAfter_keeps {s0 s : State} (h : Keeps s0 s) (p : Nat) (n : Nat) (w : Nat) :
    Keeps s0 (State.phaseUsedAfter s p n w) := by
  unfold State.phaseUsedAfter
  extract_lets +onlyGivenNames v1
  have h2 : Keeps s0 v1 := by
    dsimp only [v1]
    refine State.put_keeps ?_ _ _
    assumption
  clear_value v1
  extract_lets +onlyGivenNames v3
  clear_value v3
  extract_lets +onlyGivenNames v4
  have h5 : Keeps s0 v4 := by
    dsimp only [v4]
    refine keeps_mk ?_ rfl rfl rfl
    assumption
  clear_value v4
  refine keeps_ite ?_ ?_
  · refine State.logDev_keeps ?_ _ _ _
    refine State.mark_keeps ?_ _ _
    refine State.sat_keeps ?_ _
    assumption
  · assumption

theorem State.phaseUsed_keeps {s0 s : State} (h : Keeps s0 s) (p : Nat) (n : Nat) :
    Keeps s0 (State.phaseUsed s p n) := by
  unfold State.phaseUsed
  refine State.phaseUsedAfter_keeps ?_ _ _ _
  assumption

theorem State.lineRaw_keeps {s0 s : State} (h : Keeps s0 s) (raw : ℕ) :
    Keeps s0 (State.lineRaw s raw) := by
  unfold State.lineRaw
  lift_lets
  intro v1
  clear_value v1
  intro v2
  clear_value v2
  intro v3
  have h4 : Keeps s0 v3 := by
    dsimp only [v3]
    refine State.put_keeps ?_ _ _
    refine State.put_keeps ?_ _ _
    assumption
  clear_value v3
  refine State.each_keeps ?_ ?_ _
  · assumption
  · intro y5 y6 y7
    refine State.raisePf_keeps ?_ _
    refine State.logDev_keeps ?_ _ _ _
    refine State.mark_keeps ?_ _ _
    assumption

theorem State.setRaw_keeps {s0 s : State} (h : Keeps s0 s) (i : ℕ) (b : Bool) :
    Keeps s0 (State.setRaw s i b) := by
  unfold State.setRaw
  refine State.lineRaw_keeps ?_ _
  assumption

theorem State.syncUp_keeps {s0 s : State} (h : Keeps s0 s) :
    Keeps s0 (State.syncUp s) := by
  unfold State.syncUp
  refine State.putB_keeps ?_ _ _
  assumption

theorem State.syncLaser_keeps {s0 s : State} (h : Keeps s0 s) :
    Keeps s0 (State.syncLaser s) := by
  unfold State.syncLaser
  refine keeps_ite ?_ ?_
  · refine State.put_keeps ?_ _ _
    assumption
  · refine keeps_ite ?_ ?_
    · refine State.put_keeps ?_ _ _
      assumption
    · assumption

theorem State.endSet_keeps {s0 s : State} (h : Keeps s0 s) :
    Keeps s0 (State.endSet s) := by
  unfold State.endSet
  refine keeps_mk ?_ rfl rfl rfl
  assumption

theorem State.startRelock_keeps {s0 s : State} (h : Keeps s0 s) :
    Keeps s0 (State.startRelock s) := by
  unfold State.startRelock
  lift_lets
  intro v1
  have h2 : Keeps s0 v1 := by
    dsimp only [v1]
    refine State.putB_keeps ?_ _ _
    assumption
  clear_value v1
  intro v3
  clear_value v3
  refine keeps_mk ?_ rfl rfl rfl
  assumption

end Sys2Proof.Machine
end

