-- ==== Sys2Proof/Laws/KeepsCredit.lean ====
section
/-!
SUPPORT. What Credit.lean leaves untouched (Keeps), operation by operation.
-/

namespace Sys2Proof.Machine

open Sys2Proof

theorem State.modEth_keeps {s0 s : State} (h : Keeps s0 s) (p : ℕ) (g : EthPort → EthPort) :
    Keeps s0 (State.modEth s p g) := by
  unfold State.modEth
  refine keeps_mk ?_ rfl rfl rfl
  assumption

theorem State.settlePort_keeps {s0 s : State} (h : Keeps s0 s) (p : ℕ) :
    Keeps s0 (State.settlePort s p) := by
  unfold State.settlePort
  refine State.modEth_keeps ?_ _ _
  assumption

theorem State.settleQid_keeps {s0 s : State} (h : Keeps s0 s) (q : Option ℕ) :
    Keeps s0 (State.settleQid s q) := by
  unfold State.settleQid
  split
  · refine State.settlePort_keeps ?_ _
    assumption
  · assumption

end Sys2Proof.Machine
end

