-- ==== Sys2Proof/Laws/KeepsPwrOps.lean ====
section
/-!
SUPPORT. What PwrOps.lean leaves untouched (Keeps), operation by operation.
-/

namespace Sys2Proof.Machine

open Sys2Proof

theorem State.pwrLog_keeps {s0 s : State} (h : Keeps s0 s) (code : ℕ) (data : ℕ) :
    Keeps s0 (State.pwrLog s code data) := by
  unfold State.pwrLog
  refine State.raisePf_keeps ?_ _
  refine State.logDev_keeps ?_ _ _ _
  assumption

theorem State.pwrCnt_keeps {s0 s : State} (h : Keeps s0 s) (n : ℕ) :
    Keeps s0 (State.pwrCnt s n) := by
  unfold State.pwrCnt
  refine State.sat_keeps ?_ _
  assumption

theorem State.pwrEvent_keeps {s0 s : State} (h : Keeps s0 s) (n : ℕ) (e : ℕ) :
    Keeps s0 (State.pwrEvent s n e) := by
  unfold State.pwrEvent
  refine State.raiseNiche_keeps ?_ _ _
  refine State.put_keeps ?_ _ _
  assumption

theorem State.pwrEvents_keeps {s0 s : State} (h : Keeps s0 s) (mask : ℕ) (e : ℕ) :
    Keeps s0 (State.pwrEvents s mask e) := by
  unfold State.pwrEvents
  refine State.each_keeps ?_ ?_ _
  · assumption
  · intro y1 y2 y3
    refine State.pwrEvent_keeps ?_ _ _
    assumption

theorem State.leaveFor_keeps {s0 s : State} (h : Keeps s0 s) (m : ℕ) :
    Keeps s0 (State.leaveFor s m) := by
  unfold State.leaveFor
  refine keeps_ite ?_ ?_
  · assumption
  · refine keeps_mk ?_ rfl rfl rfl
    assumption

theorem State.leaveWatch_keeps {s0 s : State} (h : Keeps s0 s) :
    Keeps s0 (State.leaveWatch s) := by
  unfold State.leaveWatch
  refine keeps_ite ?_ ?_
  · refine State.leaveFor_keeps ?_ _
    assumption
  · assumption

theorem State.startRise_keeps {s0 s : State} (h : Keeps s0 s) (m : ℕ) (release : Bool) :
    Keeps s0 (State.startRise s m release) := by
  unfold State.startRise
  refine keeps_mk ?_ rfl rfl rfl
  assumption

theorem State.unhold_keeps {s0 s : State} (h : Keeps s0 s) (n : ℕ) (h : Hold) :
    Keeps s0 (State.unhold s n h) := by
  unfold State.unhold
  refine State.modNreset_keeps ?_ _ _
  assumption

theorem State.pwrAbort_keeps {s0 s : State} (h : Keeps s0 s) (refuser : ℕ) (wake : ℕ) :
    Keeps s0 (State.pwrAbort s refuser wake) := by
  unfold State.pwrAbort
  split
  · assumption
  · extract_lets +onlyGivenNames v1
    clear_value v1
    extract_lets +onlyGivenNames v2
    have h3 : Keeps s0 v2 := by
      dsimp only [v2]
      refine keeps_mk ?_ rfl rfl rfl
      assumption
    clear_value v2
    extract_lets +onlyGivenNames v4
    have h5 : Keeps s0 v4 := by
      dsimp only [v4]
      refine State.put_keeps ?_ _ _
      refine State.putB_keeps ?_ _ _
      assumption
    clear_value v4
    extract_lets +onlyGivenNames v6
    have h7 : Keeps s0 v6 := by
      dsimp only [v6]
      refine State.put_keeps ?_ _ _
      refine State.put_keeps ?_ _ _
      refine State.pwrCnt_keeps ?_ _
      assumption
    clear_value v6
    extract_lets +onlyGivenNames v8
    have h9 : Keeps s0 v8 := by
      dsimp only [v8]
      refine State.pwrLog_keeps ?_ _ _
      refine State.put_keeps ?_ _ _
      assumption
    clear_value v8
    refine keeps_ite ?_ ?_
    · assumption
    · extract_lets +onlyGivenNames v10
      have h11 : Keeps s0 v10 := by
        dsimp only [v10]
        refine State.pwrEvents_keeps ?_ _ _
        assumption
      clear_value v10
      extract_lets +onlyGivenNames v12
      have h13 : Keeps s0 v12 := by
        dsimp only [v12]
        refine State.each_keeps ?_ ?_ _
        · assumption
        · intro y14 y15 y16
          refine State.unhold_keeps ?_ _ _
          assumption
      clear_value v12
      refine State.startRise_keeps ?_ _ _
      assumption

theorem State.wakeEvent_keeps {s0 s : State} (h : Keeps s0 s) (b : ℕ) :
    Keeps s0 (State.wakeEvent s b) := by
  unfold State.wakeEvent
  refine keeps_ite ?_ ?_
  · assumption
  · split
    · refine keeps_ite ?_ ?_
      · assumption
      · refine State.pwrAbort_keeps ?_ _ _
        assumption
    · refine keeps_ite ?_ ?_
      · refine State.leaveFor_keeps ?_ _
        refine State.mark_keeps ?_ _ _
        assumption
      · assumption

theorem State.wakeFrom_keeps {s0 s : State} (h : Keeps s0 s) (p : Nat) (w : Nat) :
    Keeps s0 (State.wakeFrom s p w) := by
  unfold State.wakeFrom
  refine State.wakeEvent_keeps ?_ _
  refine keeps_mk ?_ rfl rfl rfl
  assumption

end Sys2Proof.Machine
end

