-- ==== Sys2Proof/Laws/KeepsCelOps.lean ====
section
/-!
SUPPORT. What CelOps.lean leaves untouched (Keeps), operation by operation.
-/

namespace Sys2Proof.Machine

open Sys2Proof

theorem State.modSdu_keeps {s0 s : State} (h : Keeps s0 s) (id : ℕ) (g : Sdu → Sdu) :
    Keeps s0 (State.modSdu s id g) := by
  unfold State.modSdu
  refine keeps_mk ?_ rfl rfl rfl
  assumption

theorem State.ncnt_keeps {s0 s : State} (h : Keeps s0 s) (n : ℕ) (k : ℕ) :
    Keeps s0 (State.ncnt s n k) := by
  unfold State.ncnt
  refine State.sat_keeps ?_ _
  assumption

theorem State.heldHwm_keeps {s0 s : State} (h : Keeps s0 s) (n : ℕ) :
    Keeps s0 (State.heldHwm s n) := by
  unfold State.heldHwm
  refine State.put_keeps ?_ _ _
  assumption

theorem State.addBytes_keeps {s0 s : State} (h : Keeps s0 s) (a : ℕ) (j : ℕ) (n : ℕ) :
    Keeps s0 (State.addBytes s a j n) := by
  unfold State.addBytes
  refine keeps_mk ?_ rfl rfl rfl
  assumption

theorem State.countQid_keeps {s0 s : State} (h : Keeps s0 s) (q : Option ℕ) (j : ℕ) (n : ℕ) :
    Keeps s0 (State.countQid s q j n) := by
  unfold State.countQid
  split
  · refine State.addBytes_keeps ?_ _ _ _
    assumption
  · assumption

theorem State.release_keeps {s0 s : State} (h : Keeps s0 s) (id : ℕ) :
    Keeps s0 (State.release s id) := by
  unfold State.release
  split
  · assumption
  · lift_lets
    intro v1
    have h2 : Keeps s0 v1 := by
      dsimp only [v1]
      refine State.settleQid_keeps ?_ _
      refine State.satBy_keeps ?_ _ _
      assumption
    clear_value v1
    intro v3
    clear_value v3
    refine keeps_mk ?_ rfl rfl rfl
    assumption

theorem State.dropNew_keeps {s0 s : State} (h : Keeps s0 s) (id : ℕ) :
    Keeps s0 (State.dropNew s id) := by
  unfold State.dropNew
  split
  · assumption
  · lift_lets
    intro v1
    clear_value v1
    refine State.release_keeps ?_ _
    refine State.countQid_keeps ?_ _ _ _
    refine State.countQid_keeps ?_ _ _ _
    assumption

theorem State.dropAs_keeps {s0 s : State} (h : Keeps s0 s) (id : ℕ) (k : ℕ) :
    Keeps s0 (State.dropAs s id k) := by
  unfold State.dropAs
  split
  · assumption
  · lift_lets
    intro v1
    have h2 : Keeps s0 v1 := by
      dsimp only [v1]
      refine State.dropNew_keeps ?_ _
      refine State.ncnt_keeps ?_ _ _
      assumption
    clear_value v1
    intro v3
    clear_value v3
    refine keeps_mk ?_ rfl rfl rfl
    assumption

theorem State.dropQueued_keeps {s0 s : State} (h : Keeps s0 s) (id : ℕ) :
    Keeps s0 (State.dropQueued s id) := by
  unfold State.dropQueued
  split
  · assumption
  · refine State.release_keeps ?_ _
    refine State.countQid_keeps ?_ _ _ _
    assumption

theorem State.giveCell_keeps {s0 s : State} (h : Keeps s0 s) (id : ℕ) (c : ℕ) :
    Keeps s0 (State.giveCell s id c) := by
  unfold State.giveCell
  split
  · assumption
  · lift_lets
    intro v1
    have h2 : Keeps s0 v1 := by
      dsimp only [v1]
      refine State.sat_keeps ?_ _
      assumption
    clear_value v1
    intro v3
    have h4 : Keeps s0 v3 := by
      dsimp only [v3]
      refine State.heldHwm_keeps ?_ _
      refine State.modSdu_keeps ?_ _ _
      assumption
    clear_value v3
    intro v5
    clear_value v5
    refine State.tookFree_keeps ?_
    refine keeps_mk ?_ rfl rfl rfl
    assumption

theorem State.writeCells_keeps {s0 s : State} (h : Keeps s0 s) (k id : Nat) : Keeps s0 (State.writeCells k id s) := by
  induction k generalizing s with
  | zero => exact h
  | succ k ih =>
    unfold State.writeCells
    split
    · exact h
    · split
      · exact State.dropAs_keeps h _ _
      · split
        · exact ih (State.giveCell_keeps h _ _)
        · exact keeps_mk h rfl rfl rfl

theorem State.newSdu_keeps {s0 s : State} (h : Keeps s0 s) (d : Sdu) :
    Keeps s0 (State.newSdu s d) := by
  unfold State.newSdu
  refine keeps_mk ?_ rfl rfl rfl
  assumption

theorem State.refuseOn_keeps {s0 s : State} (h : Keeps s0 s) (id : ℕ) (q : ℕ) (reason : ℕ) :
    Keeps s0 (State.refuseOn s id q reason) := by
  unfold State.refuseOn
  lift_lets
  intro v1
  have h2 : Keeps s0 v1 := by
    dsimp only [v1]
    split
    · refine State.dropNew_keeps ?_ _
      refine State.sat_keeps ?_ _
      assumption
    · split
      · refine State.dropNew_keeps ?_ _
        refine State.sat_keeps ?_ _
        assumption
      · refine State.dropNew_keeps ?_ _
        assumption
    · refine State.dropAs_keeps ?_ _ _
      assumption
  clear_value v1
  intro v3
  clear_value v3
  refine keeps_mk ?_ rfl rfl rfl
  assumption

theorem State.handoff_keeps {s0 s : State} (h : Keeps s0 s) (id : ℕ) (n : ℕ) :
    Keeps s0 (State.handoff s id n) := by
  unfold State.handoff
  split
  · assumption
  · refine keeps_ite ?_ ?_
    · assumption
    · lift_lets
      intro v1
      clear_value v1
      split
      · lift_lets
        intro v2
        have h3 : Keeps s0 v2 := by
          dsimp only [v2]
          refine State.dropNew_keeps ?_ _
          refine State.ncnt_keeps ?_ _ _
          assumption
        clear_value v2
        intro v4
        clear_value v4
        refine keeps_mk ?_ rfl rfl rfl
        assumption
      · refine State.heldHwm_keeps ?_ _
        refine State.ncnt_keeps ?_ _ _
        refine State.modSdu_keeps ?_ _ _
        assumption

theorem State.enqueue_keeps {s0 s : State} (h : Keeps s0 s) (id : Nat) (q : Nat) :
    Keeps s0 (State.enqueue s id q) := by
  unfold State.enqueue
  extract_lets +onlyGivenNames v1
  have h2 : Keeps s0 v1 := by
    dsimp only [v1]
    refine State.modSdu_keeps ?_ _ _
    assumption
  clear_value v1
  extract_lets +onlyGivenNames v3
  have h4 : Keeps s0 v3 := by
    dsimp only [v3]
    split
    · refine State.handoff_keeps ?_ _ _
      assumption
    · assumption
  clear_value v3
  split
  · assumption
  · split
    · refine State.refuseOn_keeps ?_ _ _ _
      assumption
    · extract_lets +onlyGivenNames v5
      have h6 : Keeps s0 v5 := by
        dsimp only [v5]
        refine State.when_keeps ?_ ?_ _
        · refine State.settleQid_keeps ?_ _
          refine State.countQid_keeps ?_ _ _ _
          assumption
        · intro y7 y8
          refine State.leaveWatch_keeps ?_
          assumption
      clear_value v5
      refine keeps_mk ?_ rfl rfl rfl
      assumption

theorem State.admitSdu_keeps {s0 s : State} (h : Keeps s0 s) (d : Sdu) :
    Keeps s0 (State.admitSdu s d) := by
  unfold State.admitSdu
  lift_lets
  intro v1
  clear_value v1
  intro v2
  have h3 : Keeps s0 v2 := by
    dsimp only [v2]
    refine State.newSdu_keeps ?_ _
    assumption
  clear_value v2
  intro v4
  have h5 : Keeps s0 v4 := by
    dsimp only [v4]
    refine State.writeCells_keeps ?_ _ _
    assumption
  clear_value v4
  refine keeps_ite ?_ ?_
  · refine State.dropAs_keeps ?_ _ _
    assumption
  · split
    · refine keeps_ite ?_ ?_
      · refine State.enqueue_keeps ?_ _ _
        assumption
      · assumption
    · assumption

theorem State.toClassifier_keeps {s0 s : State} (h : Keeps s0 s) (d : Sdu) :
    Keeps s0 (State.toClassifier s d) := by
  unfold State.toClassifier
  lift_lets
  intro v1
  clear_value v1
  intro v2
  have h3 : Keeps s0 v2 := by
    dsimp only [v2]
    refine State.admitSdu_keeps ?_ _
    assumption
  clear_value v2
  intro v4
  clear_value v4
  refine keeps_ite ?_ ?_
  · refine keeps_mk ?_ rfl rfl rfl
    assumption
  · assumption

theorem State.dequeue_keeps {s0 s : State} (h : Keeps s0 s) (id : ℕ) :
    Keeps s0 (State.dequeue s id) := by
  unfold State.dequeue
  refine State.modSdu_keeps ?_ _ _
  assumption

theorem State.setInd_keeps {s0 s : State} (h : Keeps s0 s) (l : List MeshTx) :
    Keeps s0 (State.setInd s l) := by
  unfold State.setInd
  lift_lets
  intro v1
  have h2 : Keeps s0 v1 := by
    dsimp only [v1]
    refine State.each_keeps ?_ ?_ _
    · assumption
    · intro y3 y4 y5
      refine State.put_keeps ?_ _ _
      assumption
  clear_value v1
  intro v6
  clear_value v6
  refine keeps_mk ?_ rfl rfl rfl
  assumption

theorem State.dropMesh_keeps {s0 s : State} {f : MeshTx → State → State} (h : Keeps s0 s) (hf : ∀ (y0 : MeshTx) (y1 : State), Keeps s0 y1 → Keeps s0 (f y0 y1)) (p : MeshTx → Bool) :
    Keeps s0 (State.dropMesh s p f) := by
  unfold State.dropMesh
  lift_lets
  intro v1
  clear_value v1
  intro v2
  clear_value v2
  intro v3
  have h4 : Keeps s0 v3 := by
    dsimp only [v3]
    refine keeps_mk ?_ rfl rfl rfl
    assumption
  clear_value v3
  refine State.each_keeps ?_ ?_ _
  · refine State.setInd_keeps ?_ _
    assumption
  · intro y5 y6 y7
    refine State.release_keeps ?_ _
    with_reducible (first | assumption | apply_assumption)
    assumption

theorem State.copyTo_keeps {s0 s : State} (h : Keeps s0 s) (id : ℕ) (n : ℕ) (q : ℕ) :
    Keeps s0 (State.copyTo s id n q) := by
  unfold State.copyTo
  split
  · assumption
  · refine State.admitSdu_keeps ?_ _
    assumption

end Sys2Proof.Machine
end

