-- ==== Sys2Proof/Laws/KeepsActOps.lean ====
section
/-!
SUPPORT. What ActOps.lean leaves untouched (Keeps), operation by operation.
-/

namespace Sys2Proof.Machine

open Sys2Proof

theorem State.queueUp_keeps {s0 s : State} (h : Keeps s0 s) (type : ℕ) (body : List Byte) :
    Keeps s0 (State.queueUp s type body) := by
  unfold State.queueUp
  lift_lets
  intro v1
  clear_value v1
  intro v2
  clear_value v2
  refine keeps_mk ?_ rfl rfl rfl
  assumption

theorem State.ackMsg_keeps {s0 s : State} (h : Keeps s0 s) (m : List Byte) (result : Nat) (code : Nat) :
    Keeps s0 (State.ackMsg s m result code) := by
  unfold State.ackMsg
  extract_lets +onlyGivenNames v1
  clear_value v1
  extract_lets +onlyGivenNames v2
  clear_value v2
  extract_lets +onlyGivenNames v3
  clear_value v3
  refine State.each_keeps ?_ ?_ _
  · refine keeps_mk ?_ rfl rfl rfl
    assumption
  · intro y4 y5 y6
    refine State.queueUp_keeps ?_ _ _
    assumption

theorem State.tookMsg_keeps {s0 s : State} (h : Keeps s0 s) (m : List Byte) :
    Keeps s0 (State.tookMsg s m) := by
  unfold State.tookMsg
  refine keeps_mk ?_ rfl rfl rfl
  assumption

theorem State.patinaReport_keeps {s0 s : State} (h : Keeps s0 s) (cause : ℕ) :
    Keeps s0 (State.patinaReport s cause) := by
  unfold State.patinaReport
  refine keeps_ite ?_ ?_
  · refine State.queueUp_keeps ?_ _ _
    assumption
  · refine State.queueUp_keeps ?_ _ _
    assumption

theorem State.setSafe_keeps {s0 s : State} (h : Keeps s0 s) (cause : ℕ) (b : Bool) :
    Keeps s0 (State.setSafe s cause b) := by
  unfold State.setSafe
  lift_lets
  intro v1
  clear_value v1
  intro v2
  clear_value v2
  intro v3
  have h4 : Keeps s0 v3 := by
    dsimp only [v3]
    refine State.put_keeps ?_ _ _
    assumption
  clear_value v3
  intro v5
  have h6 : Keeps s0 v5 := by
    dsimp only [v5]
    refine State.syncUp_keeps ?_
    refine State.syncLaser_keeps ?_
    assumption
  clear_value v5
  refine keeps_ite ?_ ?_
  · refine State.logDev_keeps ?_ _ _ _
    assumption
  · assumption

theorem State.syncBound_keeps {s0 s : State} (h : Keeps s0 s) :
    Keeps s0 (State.syncBound s) := by
  unfold State.syncBound
  refine State.each_keeps ?_ ?_ _
  · assumption
  · intro y1 y2 y3
    refine State.putB_keeps ?_ _ _
    assumption

theorem State.setStanding_keeps {s0 s : State} (h : Keeps s0 s) (k : ℕ) (b : Option StandBody) :
    Keeps s0 (State.setStanding s k b) := by
  unfold State.setStanding
  lift_lets
  intro v1
  clear_value v1
  intro v2
  have h3 : Keeps s0 v2 := by
    dsimp only [v2]
    refine State.put_keeps ?_ _ _
    refine State.putB_keeps ?_ _ _
    assumption
  clear_value v2
  intro v4
  have h5 : Keeps s0 v4 := by
    dsimp only [v4]
    refine State.put_keeps ?_ _ _
    refine State.put_keeps ?_ _ _
    assumption
  clear_value v4
  refine State.put_keeps ?_ _ _
  refine State.put_keeps ?_ _ _
  assumption

theorem State.setChange_keeps {s0 s : State} (h : Keeps s0 s) (k : ℕ) (c : Option StandChange) :
    Keeps s0 (State.setChange s k c) := by
  unfold State.setChange
  lift_lets
  intro v1
  have h2 : Keeps s0 v1 := by
    dsimp only [v1]
    refine State.putB_keeps ?_ _ _
    assumption
  clear_value v1
  intro v3
  clear_value v3
  refine keeps_mk ?_ rfl rfl rfl
  assumption

theorem State.clearStanding_keeps {s0 s : State} (h : Keeps s0 s) :
    Keeps s0 (State.clearStanding s) := by
  unfold State.clearStanding
  refine State.syncBound_keeps ?_
  refine State.each_keeps ?_ ?_ _
  · assumption
  · intro y1 y2 y3
    refine State.setChange_keeps ?_ _ _
    refine State.setStanding_keeps ?_ _ _
    assumption

theorem State.emptySlot_keeps {s0 s : State} (h : Keeps s0 s) (k : ℕ) :
    Keeps s0 (State.emptySlot s k) := by
  unfold State.emptySlot
  lift_lets
  intro v1
  have h2 : Keeps s0 v1 := by
    dsimp only [v1]
    refine State.put_keeps ?_ _ _
    refine State.putB_keeps ?_ _ _
    assumption
  clear_value v1
  intro v3
  clear_value v3
  refine keeps_mk ?_ rfl rfl rfl
  assumption

theorem State.fillSlot_keeps {s0 s : State} (h : Keeps s0 s) (k : ℕ) (key : List Byte) :
    Keeps s0 (State.fillSlot s k key) := by
  unfold State.fillSlot
  lift_lets
  intro v1
  have h2 : Keeps s0 v1 := by
    dsimp only [v1]
    refine State.put_keeps ?_ _ _
    refine State.putB_keeps ?_ _ _
    assumption
  clear_value v1
  intro v3
  clear_value v3
  intro v4
  have h5 : Keeps s0 v4 := by
    dsimp only [v4]
    refine keeps_ite ?_ ?_
    · refine keeps_mk ?_ rfl rfl rfl
      assumption
    · assumption
  clear_value v4
  intro v6
  clear_value v6
  refine keeps_mk ?_ rfl rfl rfl
  assumption

theorem State.tookRandom_keeps {s0 s : State} (h : Keeps s0 s) :
    Keeps s0 (State.tookRandom s) := by
  unfold State.tookRandom
  lift_lets
  intro v1
  clear_value v1
  intro v2
  have h3 : Keeps s0 v2 := by
    dsimp only [v2]
    refine State.when_keeps ?_ ?_ _
    · assumption
    · intro y4 y5
      refine State.sat_keeps ?_ _
      assumption
  clear_value v2
  intro v6
  clear_value v6
  refine keeps_mk ?_ rfl rfl rfl
  assumption

theorem State.dropReports_keeps {s0 s : State} (h : Keeps s0 s) (k : Nat) (p : Nat) :
    Keeps s0 (State.dropReports s k p) := by
  unfold State.dropReports
  extract_lets +onlyGivenNames v1
  clear_value v1
  refine keeps_mk ?_ rfl rfl rfl
  assumption

theorem State.emptyLines_keeps {s0 s : State} (h : Keeps s0 s) :
    Keeps s0 (State.emptyLines s) := by
  unfold State.emptyLines
  refine State.each_keeps ?_ ?_ _
  · assumption
  · intro y1 y2 y3
    refine State.dropReports_keeps ?_ _ _
    refine State.emptySlot_keeps ?_ _
    assumption

theorem State.keyReport_keeps {s0 s : State} (h : Keeps s0 s) (k : ℕ) (p : ℕ) (half : ℕ) (no : ℕ) (key : List Byte) :
    Keeps s0 (State.keyReport s k p half no key) := by
  unfold State.keyReport
  split
  · assumption
  · refine State.sat_keeps ?_ _
    refine State.queueUp_keeps ?_ _ _
    assumption

theorem State.fillLine_keeps {s0 s : State} (h : Keeps s0 s) (k : ℕ) (p : ℕ) :
    Keeps s0 (State.fillLine s k p) := by
  unfold State.fillLine
  refine keeps_ite ?_ ?_
  · assumption
  · lift_lets
    intro v1
    clear_value v1
    intro v2
    have h3 : Keeps s0 v2 := by
      dsimp only [v2]
      refine State.fillSlot_keeps ?_ _ _
      refine State.tookRandom_keeps ?_
      assumption
    clear_value v2
    intro v4
    clear_value v4
    intro v5
    clear_value v5
    intro v6
    have h7 : Keeps s0 v6 := by
      dsimp only [v6]
      refine keeps_mk ?_ rfl rfl rfl
      assumption
    clear_value v6
    refine State.keyReport_keeps ?_ _ _ _ _ _
    refine State.keyReport_keeps ?_ _ _ _ _ _
    assumption

theorem State.zeroBursts_keeps {s0 s : State} (h : Keeps s0 s) :
    Keeps s0 (State.zeroBursts s) := by
  unfold State.zeroBursts
  refine keeps_mk ?_ rfl rfl rfl
  assumption

theorem State.fillLines_keeps {s0 s : State} (h : Keeps s0 s) :
    Keeps s0 (State.fillLines s) := by
  unfold State.fillLines
  refine State.each_keeps ?_ ?_ _
  · assumption
  · intro y1 y2 y3
    refine State.fillLine_keeps ?_ _ _
    refine State.fillLine_keeps ?_ _ _
    assumption

theorem State.forgetTn_keeps {s0 s : State} (h : Keeps s0 s) :
    Keeps s0 (State.forgetTn s) := by
  unfold State.forgetTn
  extract_lets +onlyGivenNames v1
  have h2 : Keeps s0 v1 := by
    dsimp only [v1]
    refine State.put_keeps ?_ _ _
    refine State.put_keeps ?_ _ _
    refine State.putB_keeps ?_ _ _
    assumption
  clear_value v1
  extract_lets +onlyGivenNames v3
  have h4 : Keeps s0 v3 := by
    dsimp only [v3]
    refine State.put_keeps ?_ _ _
    refine State.put_keeps ?_ _ _
    assumption
  clear_value v3
  extract_lets +onlyGivenNames v5
  clear_value v5
  extract_lets +onlyGivenNames v6
  have h7 : Keeps s0 v6 := by
    dsimp only [v6]
    refine keeps_mk ?_ rfl rfl rfl
    assumption
  clear_value v6
  extract_lets +onlyGivenNames v8
  have h9 : Keeps s0 v8 := by
    dsimp only [v8]
    refine State.emptyLines_keeps ?_
    assumption
  clear_value v8
  extract_lets +onlyGivenNames v10
  clear_value v10
  extract_lets +onlyGivenNames v11
  have h12 : Keeps s0 v11 := by
    dsimp only [v11]
    refine keeps_mk ?_ rfl rfl rfl
    assumption
  clear_value v11
  extract_lets +onlyGivenNames v13
  have h14 : Keeps s0 v13 := by
    dsimp only [v13]
    refine State.each_keeps ?_ ?_ _
    · assumption
    · intro y15 y16 y17
      refine State.putB_keeps ?_ _ _
      assumption
  clear_value v13
  extract_lets +onlyGivenNames v18
  clear_value v18
  extract_lets +onlyGivenNames v19
  have h20 : Keeps s0 v19 := by
    dsimp only [v19]
    refine keeps_mk ?_ rfl rfl rfl
    assumption
  clear_value v19
  refine State.put_keeps ?_ _ _
  refine State.clearStanding_keeps ?_
  assumption

theorem State.setAct_keeps {s0 s : State} (h : Keeps s0 s) (next : Nat) :
    Keeps s0 (State.setAct s next) := by
  unfold State.setAct
  extract_lets +onlyGivenNames v1
  clear_value v1
  refine keeps_ite ?_ ?_
  · assumption
  · extract_lets +onlyGivenNames v2
    clear_value v2
    extract_lets +onlyGivenNames v3
    have h4 : Keeps s0 v3 := by
      dsimp only [v3]
      refine State.when_keeps ?_ ?_ _
      · assumption
      · intro y5 y6
        refine State.tookFree_keeps ?_
        refine State.logDev_keeps ?_ _ _ _
        assumption
    clear_value v3
    extract_lets +onlyGivenNames v7
    have h8 : Keeps s0 v7 := by
      dsimp only [v7]
      refine State.when_keeps ?_ ?_ _
      · assumption
      · intro y9 y10
        refine State.forgetTn_keeps ?_
        assumption
    clear_value v7
    extract_lets +onlyGivenNames v11
    have h12 : Keeps s0 v11 := by
      dsimp only [v11]
      refine State.when_keeps ?_ ?_ _
      · assumption
      · intro y13 y14
        refine State.clearStanding_keeps ?_
        assumption
    clear_value v11
    extract_lets +onlyGivenNames v15
    have h16 : Keeps s0 v15 := by
      dsimp only [v15]
      refine State.put_keeps ?_ _ _
      refine State.put_keeps ?_ _ _
      assumption
    clear_value v15
    extract_lets +onlyGivenNames v17
    clear_value v17
    extract_lets +onlyGivenNames v18
    have h19 : Keeps s0 v18 := by
      dsimp only [v18]
      refine State.when_keeps ?_ ?_ _
      · assumption
      · intro y20 y21
        refine State.putB_keeps ?_ _ _
        assumption
    clear_value v18
    extract_lets +onlyGivenNames v22
    clear_value v22
    extract_lets +onlyGivenNames v23
    have h24 : Keeps s0 v23 := by
      dsimp only [v23]
      refine keeps_mk ?_ rfl rfl rfl
      assumption
    clear_value v23
    extract_lets +onlyGivenNames v25
    have h26 : Keeps s0 v25 := by
      dsimp only [v25]
      refine State.when_keeps ?_ ?_ _
      · assumption
      · intro y27 y28
        refine keeps_mk ?_ rfl rfl rfl
        assumption
    clear_value v25
    extract_lets +onlyGivenNames v29
    have h30 : Keeps s0 v29 := by
      dsimp only [v29]
      refine State.when_keeps ?_ ?_ _
      · assumption
      · intro y31 y32
        refine State.raiseFloor_keeps ?_
        assumption
    clear_value v29
    refine State.syncUp_keeps ?_
    refine State.raisePf_keeps ?_ _
    assumption

theorem State.turnColour_keeps {s0 s : State} (h : Keeps s0 s) (colour : ℕ) :
    Keeps s0 (State.turnColour s colour) := by
  unfold State.turnColour
  refine keeps_ite ?_ ?_
  · assumption
  · extract_lets +onlyGivenNames v1
    have h2 : Keeps s0 v1 := by
      dsimp only [v1]
      refine State.send_keeps ?_ _
      refine State.put_keeps ?_ _ _
      assumption
    clear_value v1
    extract_lets +onlyGivenNames v3
    have h4 : Keeps s0 v3 := by
      dsimp only [v3]
      refine State.startRelock_keeps ?_
      refine State.sat_keeps ?_ _
      assumption
    clear_value v3
    refine keeps_ite ?_ ?_
    · refine State.put_keeps ?_ _ _
      assumption
    · assumption

theorem State.nextColour_keeps {s0 s : State} (h : Keeps s0 s) :
    Keeps s0 (State.nextColour s) := by
  unfold State.nextColour
  refine keeps_ite ?_ ?_
  · assumption
  · split
    · refine State.turnColour_keeps ?_ _
      assumption
    · assumption

end Sys2Proof.Machine
end

