-- ==== Sys2Proof/Laws/KeepsAct.lean ====
section
/-!
SUPPORT. What Act.lean leaves untouched (Keeps), operation by operation.
-/

namespace Sys2Proof.Machine

open Sys2Proof

theorem State.hear_keeps {s0 s : State} (h : Keeps s0 s) (m : List Byte) :
    Keeps s0 (State.hear s m) := by
  unfold State.hear
  extract_lets +onlyGivenNames v1
  clear_value v1
  extract_lets +onlyGivenNames v2
  have h3 : Keeps s0 v2 := by
    dsimp only [v2]
    refine State.when_keeps ?_ ?_ _
    · assumption
    · intro y4 y5
      refine State.leaveWatch_keeps ?_
      assumption
  clear_value v2
  extract_lets +onlyGivenNames v6
  clear_value v6
  extract_lets +onlyGivenNames v7
  clear_value v7
  split
  · extract_lets +onlyGivenNames v8
    have h9 : Keeps s0 v8 := by
      dsimp only [v8]
      refine State.sat_keeps ?_ _
      assumption
    clear_value v8
    split
    · refine State.ackMsg_keeps ?_ _ _ _
      assumption
    · refine keeps_mk ?_ rfl rfl rfl
      assumption
  · extract_lets +onlyGivenNames v10
    clear_value v10
    refine keeps_mk ?_ rfl rfl rfl
    assumption

theorem State.actVerdict_keeps {s0 s : State} (h : Keeps s0 s) :
    Keeps s0 (State.actVerdict s) := by
  unfold State.actVerdict
  extract_lets +onlyGivenNames v1
  clear_value v1
  extract_lets +onlyGivenNames v2
  clear_value v2
  split
  · refine keeps_ite ?_ ?_
    · extract_lets +onlyGivenNames v3
      clear_value v3
      extract_lets +onlyGivenNames v4
      have h5 : Keeps s0 v4 := by
        dsimp only [v4]
        refine State.setAct_keeps ?_ _
        assumption
      clear_value v4
      refine keeps_mk ?_ rfl rfl rfl
      assumption
    · refine keeps_ite ?_ ?_
      · refine State.setAct_keeps ?_ _
        assumption
      · assumption
  · refine keeps_ite ?_ ?_
    · assumption
    · refine State.setAct_keeps ?_ _
      assumption
  · refine keeps_ite ?_ ?_
    · refine State.setAct_keeps ?_ _
      assumption
    · refine keeps_ite ?_ ?_
      · refine State.setAct_keeps ?_ _
        assumption
      · assumption
  · assumption
  · refine keeps_ite ?_ ?_
    · extract_lets +onlyGivenNames v6
      have h7 : Keeps s0 v6 := by
        dsimp only [v6]
        refine State.putB_keeps ?_ _ _
        assumption
      clear_value v6
      refine keeps_mk ?_ rfl rfl rfl
      assumption
    · refine keeps_ite ?_ ?_
      · assumption
      · extract_lets +onlyGivenNames v8
        clear_value v8
        extract_lets +onlyGivenNames v9
        have h10 : Keeps s0 v9 := by
          dsimp only [v9]
          refine State.sat_keeps ?_ _
          refine State.putB_keeps ?_ _ _
          assumption
        clear_value v9
        refine keeps_mk ?_ rfl rfl rfl
        assumption

theorem State.actClocks_keeps {s0 s : State} (h : Keeps s0 s) :
    Keeps s0 (State.actClocks s) := by
  unfold State.actClocks
  extract_lets +onlyGivenNames v1
  have h2 : Keeps s0 v1 := by
    dsimp only [v1]
    split
    · refine State.put_keeps ?_ _ _
      assumption
    · assumption
  clear_value v1
  split
  · refine State.put_keeps ?_ _ _
    assumption
  · assumption

theorem State.startT1_keeps {s0 s : State} (h : Keeps s0 s) :
    Keeps s0 (State.startT1 s) := by
  unfold State.startT1
  refine keeps_mk ?_ rfl rfl rfl
  assumption

theorem State.announce_keeps {s0 s : State} (h : Keeps s0 s) (g : MapGrant) :
    Keeps s0 (State.announce s g) := by
  unfold State.announce
  extract_lets +onlyGivenNames v1
  clear_value v1
  extract_lets +onlyGivenNames v2
  clear_value v2
  extract_lets +onlyGivenNames v3
  have h4 : Keeps s0 v3 := by
    dsimp only [v3]
    refine State.tookFree_keeps ?_
    assumption
  clear_value v3
  extract_lets +onlyGivenNames v5
  have h6 : Keeps s0 v5 := by
    dsimp only [v5]
    refine State.tookFree_keeps ?_
    refine State.put_keeps ?_ _ _
    assumption
  clear_value v5
  extract_lets +onlyGivenNames v7
  clear_value v7
  extract_lets +onlyGivenNames v8
  have h9 : Keeps s0 v8 := by
    dsimp only [v8]
    refine keeps_ite ?_ ?_
    · refine State.startT1_keeps ?_
      refine State.setAct_keeps ?_ _
      assumption
    · assumption
  clear_value v8
  extract_lets +onlyGivenNames v10
  clear_value v10
  extract_lets +onlyGivenNames v11
  clear_value v11
  extract_lets +onlyGivenNames v12
  clear_value v12
  extract_lets +onlyGivenNames v13
  clear_value v13
  refine State.nextColour_keeps ?_
  refine keeps_mk ?_ rfl rfl rfl
  assumption

theorem State.announceWindow_keeps {s0 s : State} (h : Keeps s0 s) (g : MapGrant) :
    Keeps s0 (State.announceWindow s g) := by
  unfold State.announceWindow
  extract_lets +onlyGivenNames v1
  clear_value v1
  refine keeps_ite ?_ ?_
  · assumption
  · refine keeps_ite ?_ ?_
    · refine State.sat_keeps ?_ _
      assumption
    · refine keeps_ite ?_ ?_
      · refine State.put_keeps ?_ _ _
        assumption
      · refine keeps_ite ?_ ?_
        · refine State.announce_keeps ?_ _
          assumption
        · assumption

theorem State.hearAll_keeps {s0 s : State} (h : Keeps s0 s) (n : Nat) :
    Keeps s0 (State.hearAll s n) := by
  unfold State.hearAll
  extract_lets +onlyGivenNames v1
  have h2 : Keeps s0 v1 := by
    dsimp only [v1]
    refine State.each_keeps ?_ ?_ _
    · assumption
    · intro y3 y4 y5
      refine State.hear_keeps ?_ _
      assumption
  clear_value v1
  refine keeps_mk ?_ rfl rfl rfl
  assumption

theorem State.moveAct_keeps {s0 s : State} (h : Keeps s0 s) (next : Nat) :
    Keeps s0 (State.moveAct s next) := by
  unfold State.moveAct
  refine keeps_ite ?_ ?_
  · refine State.setAct_keeps ?_ _
    assumption
  · assumption

theorem State.useWindows_keeps {s0 s : State} (h : Keeps s0 s) :
    Keeps s0 (State.useWindows s) := by
  unfold State.useWindows
  refine State.each_keeps ?_ ?_ _
  · assumption
  · intro y1 y2 y3
    refine State.announceWindow_keeps ?_ _
    assumption

theorem execPhaseAct_keeps {s0 s : State} (h : Keeps s0 s) (cycles : Nat) (waited : Nat) (released : Nat) :
    KeepsO s0 (execPhaseAct cycles waited released s) := by
  unfold execPhaseAct
  refine keepsO_next ?_
  refine keeps_ite ?_ ?_
  · refine State.phaseUsedAfter_keeps ?_ _ _ _
    assumption
  · refine State.phaseUsedAfter_keeps ?_ _ _ _
    refine State.actClocks_keeps ?_
    refine State.actVerdict_keeps ?_
    refine State.useWindows_keeps ?_
    refine State.hearAll_keeps ?_ _
    assumption

theorem State.adoptTn_keeps {s0 s : State} (h : Keeps s0 s) (tn : ℕ) :
    Keeps s0 (State.adoptTn s tn) := by
  unfold State.adoptTn
  refine State.sat_keeps ?_ _
  refine State.putB_keeps ?_ _ _
  refine State.put_keeps ?_ _ _
  assumption

theorem execAssignTn_keeps {s0 s : State} (h : Keeps s0 s) (msg : List Byte) :
    KeepsO s0 (execAssignTn msg s) := by
  unfold execAssignTn
  refine keepsO_ite ?_ ?_
  · refine keepsO_next ?_
    assumption
  · extract_lets +onlyGivenNames v1
    have h2 : Keeps s0 v1 := by
      dsimp only [v1]
      refine State.tookMsg_keeps ?_ _
      assumption
    clear_value v1
    extract_lets +onlyGivenNames v3
    clear_value v3
    extract_lets +onlyGivenNames v4
    clear_value v4
    refine keepsO_ite ?_ ?_
    · refine keepsO_next ?_
      assumption
    · refine keepsO_ite ?_ ?_
      · refine keepsO_next ?_
        refine State.ackMsg_keeps ?_ _ _ _
        refine State.logDev_keeps ?_ _ _ _
        assumption
      · extract_lets +onlyGivenNames v5
        clear_value v5
        refine keepsO_ite ?_ ?_
        · refine keepsO_next ?_
          refine State.ackMsg_keeps ?_ _ _ _
          assumption
        · refine keepsO_ite ?_ ?_
          · refine keepsO_next ?_
            refine State.ackMsg_keeps ?_ _ _ _
            refine State.adoptTn_keeps ?_ _
            assumption
          · refine keepsO_ite ?_ ?_
            · extract_lets +onlyGivenNames v6
              have h7 : Keeps s0 v6 := by
                dsimp only [v6]
                refine State.put_keeps ?_ _ _
                refine State.clearStanding_keeps ?_
                assumption
              clear_value v6
              extract_lets +onlyGivenNames v8
              clear_value v8
              extract_lets +onlyGivenNames v9
              clear_value v9
              extract_lets +onlyGivenNames v10
              have h11 : Keeps s0 v10 := by
                dsimp only [v10]
                refine keeps_mk ?_ rfl rfl rfl
                assumption
              clear_value v10
              extract_lets +onlyGivenNames v12
              have h13 : Keeps s0 v12 := by
                dsimp only [v12]
                refine State.startT1_keeps ?_
                refine State.setAct_keeps ?_ _
                assumption
              clear_value v12
              refine keepsO_next ?_
              refine State.syncUp_keeps ?_
              refine State.ackMsg_keeps ?_ _ _ _
              refine State.adoptTn_keeps ?_ _
              assumption
            · refine keepsO_next ?_
              refine State.ackMsg_keeps ?_ _ _ _
              assumption

theorem State.defaultMgmt_keeps {s0 s : State} (h : Keeps s0 s) :
    Keeps s0 (State.defaultMgmt s) := by
  unfold State.defaultMgmt
  extract_lets +onlyGivenNames v1
  clear_value v1
  extract_lets +onlyGivenNames v2
  clear_value v2
  extract_lets +onlyGivenNames v3
  clear_value v3
  extract_lets +onlyGivenNames v4
  clear_value v4
  extract_lets +onlyGivenNames v5
  clear_value v5
  extract_lets +onlyGivenNames v6
  clear_value v6
  extract_lets +onlyGivenNames v7
  clear_value v7
  extract_lets +onlyGivenNames v8
  have h9 : Keeps s0 v8 := by
    dsimp only [v8]
    refine keeps_ite ?_ ?_
    · assumption
    · split
      · refine keeps_mk ?_ rfl rfl rfl
        assumption
      · refine State.logDev_keeps ?_ _ _ _
        assumption
  clear_value v8
  refine keeps_ite ?_ ?_
  · assumption
  · split
    · extract_lets +onlyGivenNames v10
      have h11 : Keeps s0 v10 := by
        dsimp only [v10]
        refine State.putB_keeps ?_ _ _
        refine State.put_keeps ?_ _ _
        assumption
      clear_value v10
      refine keeps_mk ?_ rfl rfl rfl
      assumption
    · refine State.logDev_keeps ?_ _ _ _
      assumption

theorem State.atRanged_keeps {s0 s : State} (h : Keeps s0 s) :
    Keeps s0 (State.atRanged s) := by
  unfold State.atRanged
  extract_lets +onlyGivenNames v1
  clear_value v1
  extract_lets +onlyGivenNames v2
  clear_value v2
  extract_lets +onlyGivenNames v3
  have h4 : Keeps s0 v3 := by
    dsimp only [v3]
    refine keeps_mk ?_ rfl rfl rfl
    assumption
  clear_value v3
  extract_lets +onlyGivenNames v5
  have h6 : Keeps s0 v5 := by
    dsimp only [v5]
    refine State.defaultMgmt_keeps ?_
    assumption
  clear_value v5
  refine keeps_ite ?_ ?_
  · refine State.logDev_keeps ?_ _ _ _
    assumption
  · assumption

theorem State.enterRanged_keeps {s0 s : State} (h : Keeps s0 s) :
    Keeps s0 (State.enterRanged s) := by
  unfold State.enterRanged
  extract_lets +onlyGivenNames v1
  have h2 : Keeps s0 v1 := by
    dsimp only [v1]
    refine State.emptyLines_keeps ?_
    refine State.setAct_keeps ?_ _
    assumption
  clear_value v1
  extract_lets +onlyGivenNames v3
  clear_value v3
  extract_lets +onlyGivenNames v4
  have h5 : Keeps s0 v4 := by
    dsimp only [v4]
    refine keeps_mk ?_ rfl rfl rfl
    assumption
  clear_value v4
  refine State.fillLines_keeps ?_
  refine State.atRanged_keeps ?_
  assumption

theorem State.tcReject_keeps {s0 s : State} (h : Keeps s0 s) (reason : ℕ) :
    Keeps s0 (State.tcReject s reason) := by
  unfold State.tcReject
  refine State.logDev_keeps ?_ _ _ _
  refine State.sat_keeps ?_ _
  refine State.put_keeps ?_ _ _
  assumption

theorem State.twinSet_keeps {s0 s : State} (hs : Keeps s0 s) (h : RangeHalf) (k : RangeHalf) :
    Keeps s0 (State.twinSet s h k) := by
  unfold State.twinSet
  extract_lets +onlyGivenNames v1
  clear_value v1
  extract_lets +onlyGivenNames v2
  clear_value v2
  extract_lets +onlyGivenNames v3
  clear_value v3
  extract_lets +onlyGivenNames v4
  have h5 : Keeps s0 v4 := by
    dsimp only [v4]
    refine keeps_mk ?_ rfl rfl rfl
    assumption
  have hr (c : Nat) : Keeps s0 (v4.tcReject c) := State.tcReject_keeps h5 c
  refine keeps_ite (hr _) (keeps_ite (hr _) (keeps_ite (hr _) (keeps_ite (hr _) ?_)))
  split
  · refine State.tcReject_keeps ?_ _
    refine State.tookFree_keeps ?_
    assumption
  · extract_lets +onlyGivenNames v6
    have h7 : Keeps s0 v6 := by
      dsimp only [v6]
      refine State.tookFree_keeps ?_
      refine State.tookFree_keeps ?_
      refine State.tookFree_keeps ?_
      assumption
    clear_value v6
    refine keeps_mk ?_ rfl rfl rfl
    assumption

theorem State.twinHalf_keeps {s0 s : State} (h : Keeps s0 s) (m : List Byte) :
    Keeps s0 (State.twinHalf s m) := by
  unfold State.twinHalf
  extract_lets +onlyGivenNames v1
  clear_value v1
  split
  · refine keeps_ite ?_ ?_
    · refine State.twinSet_keeps ?_ _ _
      assumption
    · refine keeps_mk ?_ rfl rfl rfl
      assumption
  · refine keeps_mk ?_ rfl rfl rfl
    assumption

theorem execRangeSet_keeps {s0 s : State} (h : Keeps s0 s) (msg : List Byte) :
    KeepsO s0 (execRangeSet msg s) := by
  unfold execRangeSet
  refine keepsO_ite ?_ ?_
  · refine keepsO_next ?_
    assumption
  · extract_lets +onlyGivenNames v1
    have h2 : Keeps s0 v1 := by
      dsimp only [v1]
      refine State.tookMsg_keeps ?_ _
      assumption
    clear_value v1
    refine keepsO_ite ?_ ?_
    · refine keepsO_next ?_
      refine State.ackMsg_keeps ?_ _ _ _
      refine State.sat_keeps ?_ _
      refine State.logDev_keeps ?_ _ _ _
      assumption
    · extract_lets +onlyGivenNames v3
      clear_value v3
      extract_lets +onlyGivenNames v4
      clear_value v4
      extract_lets +onlyGivenNames v5
      have h6 : Keeps s0 v5 := by
        dsimp only [v5]
        refine State.sat_keeps ?_ _
        refine State.put_keeps ?_ _ _
        assumption
      clear_value v5
      extract_lets +onlyGivenNames v7
      have h8 : Keeps s0 v7 := by
        dsimp only [v7]
        refine keeps_ite ?_ ?_
        · refine State.twinHalf_keeps ?_ _
          assumption
        · assumption
      clear_value v7
      refine keepsO_ite ?_ ?_
      · extract_lets +onlyGivenNames v9
        clear_value v9
        extract_lets +onlyGivenNames v10
        have h11 : Keeps s0 v10 := by
          dsimp only [v10]
          refine State.put_keeps ?_ _ _
          refine State.put_keeps ?_ _ _
          refine State.put_keeps ?_ _ _
          assumption
        clear_value v10
        extract_lets +onlyGivenNames v12
        clear_value v12
        extract_lets +onlyGivenNames v13
        have h14 : Keeps s0 v13 := by
          dsimp only [v13]
          refine keeps_mk ?_ rfl rfl rfl
          assumption
        clear_value v13
        extract_lets +onlyGivenNames v15
        have h16 : Keeps s0 v15 := by
          dsimp only [v15]
          refine keeps_ite ?_ ?_
          · refine State.enterRanged_keeps ?_
            assumption
          · assumption
        clear_value v15
        refine keepsO_next ?_
        refine State.syncUp_keeps ?_
        refine State.ackMsg_keeps ?_ _ _ _
        assumption
      · refine keepsO_next ?_
        refine State.ackMsg_keeps ?_ _ _ _
        assumption

theorem State.tookSilence_keeps {s0 s : State} (h : Keeps s0 s) (m : List Byte) :
    Keeps s0 (State.tookSilence s m) := by
  unfold State.tookSilence
  refine State.sat_keeps ?_ _
  refine State.put_keeps ?_ _ _
  refine State.tookMsg_keeps ?_ _
  assumption

theorem State.unsilence_keeps {s0 s : State} (h : Keeps s0 s) :
    Keeps s0 (State.unsilence s) := by
  unfold State.unsilence
  refine keeps_ite ?_ ?_
  · assumption
  · refine keeps_ite ?_ ?_
    · extract_lets +onlyGivenNames v1
      have h2 : Keeps s0 v1 := by
        dsimp only [v1]
        refine State.put_keeps ?_ _ _
        refine State.putB_keeps ?_ _ _
        assumption
      clear_value v1
      refine State.setAct_keeps ?_ _
      assumption
    · refine keeps_ite ?_ ?_
      · refine State.put_keeps ?_ _ _
        refine State.putB_keeps ?_ _ _
        assumption
      · refine keeps_ite ?_ ?_
        · extract_lets +onlyGivenNames v3
          have h4 : Keeps s0 v3 := by
            dsimp only [v3]
            refine State.setAct_keeps ?_ _
            assumption
          clear_value v3
          refine State.fillLines_keeps ?_
          refine keeps_ite ?_ ?_
          · refine State.atRanged_keeps ?_
            assumption
          · assumption
        · assumption

theorem execSilenceRelease_keeps {s0 s : State} (h : Keeps s0 s) (msg : List Byte) :
    KeepsO s0 (execSilenceRelease msg s) := by
  unfold execSilenceRelease
  refine keepsO_ite ?_ ?_
  · refine keepsO_next ?_
    assumption
  · extract_lets +onlyGivenNames v1
    clear_value v1
    extract_lets +onlyGivenNames v2
    clear_value v2
    extract_lets +onlyGivenNames v3
    have h4 : Keeps s0 v3 := by
      dsimp only [v3]
      refine State.tookSilence_keeps ?_ _
      assumption
    clear_value v3
    refine keepsO_ite ?_ ?_
    · refine keepsO_next ?_
      refine State.unsilence_keeps ?_
      assumption
    · refine keepsO_ite ?_ ?_
      · refine keepsO_next ?_
        refine State.ackMsg_keeps ?_ _ _ _
        refine State.unsilence_keeps ?_
        assumption
      · refine keepsO_next ?_
        refine State.ackMsg_keeps ?_ _ _ _
        assumption

theorem execSilenceSilence_keeps {s0 s : State} (h : Keeps s0 s) (msg : List Byte) :
    KeepsO s0 (execSilenceSilence msg s) := by
  unfold execSilenceSilence
  refine keepsO_ite ?_ ?_
  · refine keepsO_next ?_
    assumption
  · extract_lets +onlyGivenNames v1
    clear_value v1
    extract_lets +onlyGivenNames v2
    clear_value v2
    extract_lets +onlyGivenNames v3
    have h4 : Keeps s0 v3 := by
      dsimp only [v3]
      refine State.tookSilence_keeps ?_ _
      assumption
    clear_value v3
    refine keepsO_ite ?_ ?_
    · refine keepsO_next ?_
      assumption
    · extract_lets +onlyGivenNames v5
      clear_value v5
      extract_lets +onlyGivenNames v6
      have h7 : Keeps s0 v6 := by
        dsimp only [v6]
        refine State.logDev_keeps ?_ _ _ _
        refine State.setAct_keeps ?_ _
        assumption
      clear_value v6
      extract_lets +onlyGivenNames v8
      have h9 : Keeps s0 v8 := by
        dsimp only [v8]
        refine State.put_keeps ?_ _ _
        refine State.putB_keeps ?_ _ _
        assumption
      clear_value v8
      refine keepsO_next ?_
      refine keeps_mk ?_ rfl rfl rfl
      assumption

theorem execSilenceQuarantine_keeps {s0 s : State} (h : Keeps s0 s) (msg : List Byte) :
    KeepsO s0 (execSilenceQuarantine msg s) := by
  unfold execSilenceQuarantine
  refine keepsO_ite ?_ ?_
  · refine keepsO_next ?_
    assumption
  · extract_lets +onlyGivenNames v1
    clear_value v1
    extract_lets +onlyGivenNames v2
    clear_value v2
    extract_lets +onlyGivenNames v3
    have h4 : Keeps s0 v3 := by
      dsimp only [v3]
      refine State.tookSilence_keeps ?_ _
      assumption
    clear_value v3
    refine keepsO_ite ?_ ?_
    · extract_lets +onlyGivenNames v5
      clear_value v5
      extract_lets +onlyGivenNames v6
      have h7 : Keeps s0 v6 := by
        dsimp only [v6]
        refine keeps_mk ?_ rfl rfl rfl
        assumption
      clear_value v6
      refine keepsO_next ?_
      refine State.logDev_keeps ?_ _ _ _
      refine State.setAct_keeps ?_ _
      assumption
    · refine keepsO_next ?_
      refine State.ackMsg_keeps ?_ _ _ _
      assumption

theorem execSilenceDeregister_keeps {s0 s : State} (h : Keeps s0 s) (msg : List Byte) :
    KeepsO s0 (execSilenceDeregister msg s) := by
  unfold execSilenceDeregister
  refine keepsO_ite ?_ ?_
  · refine keepsO_next ?_
    assumption
  · extract_lets +onlyGivenNames v1
    clear_value v1
    extract_lets +onlyGivenNames v2
    clear_value v2
    extract_lets +onlyGivenNames v3
    have h4 : Keeps s0 v3 := by
      dsimp only [v3]
      refine State.tookSilence_keeps ?_ _
      assumption
    clear_value v3
    refine keepsO_ite ?_ ?_
    · refine keepsO_next ?_
      refine State.setAct_keeps ?_ _
      refine State.logDev_keeps ?_ _ _ _
      assumption
    · refine keepsO_ite ?_ ?_
      · refine keepsO_next ?_
        refine State.setAct_keeps ?_ _
        assumption
      · refine keepsO_next ?_
        assumption

theorem execSilenceReleaseWrite_keeps {s0 s : State} (h : Keeps s0 s) (data : Word) :
    KeepsO s0 (execSilenceReleaseWrite data s) := by
  unfold execSilenceReleaseWrite
  refine keepsO_next ?_
  refine keeps_ite ?_ ?_
  · assumption
  · refine State.unsilence_keeps ?_
    assumption

theorem execT1Expiry_keeps {s0 s : State} (h : Keeps s0 s) :
    KeepsO s0 (execT1Expiry s) := by
  unfold execT1Expiry
  refine keepsO_next ?_
  refine keeps_ite ?_ ?_
  · refine State.setAct_keeps ?_ _
    refine State.logDev_keeps ?_ _ _ _
    assumption
  · assumption

theorem execT2Expiry_keeps {s0 s : State} (h : Keeps s0 s) :
    KeepsO s0 (execT2Expiry s) := by
  unfold execT2Expiry
  refine keepsO_next ?_
  refine keeps_ite ?_ ?_
  · refine State.setAct_keeps ?_ _
    refine State.logDev_keeps ?_ _ _ _
    assumption
  · assumption

theorem execT3Expiry_keeps {s0 s : State} (h : Keeps s0 s) :
    KeepsO s0 (execT3Expiry s) := by
  unfold execT3Expiry
  refine keepsO_next ?_
  refine keeps_ite ?_ ?_
  · refine State.setAct_keeps ?_ _
    refine State.logDev_keeps ?_ _ _ _
    assumption
  · assumption

theorem execT4Expiry_keeps {s0 s : State} (h : Keeps s0 s) :
    KeepsO s0 (execT4Expiry s) := by
  unfold execT4Expiry
  refine keepsO_next ?_
  refine keeps_ite ?_ ?_
  · refine State.unsilence_keeps ?_
    assumption
  · assumption

theorem State.dropHeld_keeps {s0 s : State} (h : Keeps s0 s) (type : ℕ) (seq : ℕ) :
    Keeps s0 (State.dropHeld s type seq) := by
  unfold State.dropHeld
  extract_lets +onlyGivenNames v1
  clear_value v1
  refine keeps_mk ?_ rfl rfl rfl
  assumption

theorem State.keyRefused_keeps {s0 s : State} (h : Keeps s0 s) (k : Nat) (p : Nat) :
    Keeps s0 (State.keyRefused s k p) := by
  unfold State.keyRefused
  extract_lets +onlyGivenNames v1
  have h2 : Keeps s0 v1 := by
    dsimp only [v1]
    refine State.sat_keeps ?_ _
    assumption
  clear_value v1
  refine keeps_ite ?_ ?_
  · refine State.logDev_keeps ?_ _ _ _
    assumption
  · extract_lets +onlyGivenNames v3
    have h4 : Keeps s0 v3 := by
      dsimp only [v3]
      refine State.dropReports_keeps ?_ _ _
      assumption
    clear_value v3
    extract_lets +onlyGivenNames v5
    clear_value v5
    extract_lets +onlyGivenNames v6
    have h7 : Keeps s0 v6 := by
      dsimp only [v6]
      refine keeps_mk ?_ rfl rfl rfl
      assumption
    clear_value v6
    extract_lets +onlyGivenNames v8
    have h9 : Keeps s0 v8 := by
      dsimp only [v8]
      refine State.emptySlot_keeps ?_ _
      assumption
    clear_value v8
    refine keeps_ite ?_ ?_
    · refine State.fillLine_keeps ?_ _ _
      assumption
    · assumption

theorem State.keyAcked_keeps {s0 s : State} (h : Keeps s0 s) (k : ℕ) (p : ℕ) (half : ℕ) :
    Keeps s0 (State.keyAcked s k p half) := by
  unfold State.keyAcked
  refine keeps_ite ?_ ?_
  · extract_lets +onlyGivenNames v1
    clear_value v1
    extract_lets +onlyGivenNames v2
    clear_value v2
    extract_lets +onlyGivenNames v3
    have h4 : Keeps s0 v3 := by
      dsimp only [v3]
      refine keeps_mk ?_ rfl rfl rfl
      assumption
    clear_value v3
    refine keeps_ite ?_ ?_
    · refine State.setAct_keeps ?_ _
      assumption
    · assumption
  · assumption

theorem execAckDownstream_keeps {s0 s : State} (h : Keeps s0 s) (msg : List Byte) :
    KeepsO s0 (execAckDownstream msg s) := by
  unfold execAckDownstream
  refine keepsO_ite ?_ ?_
  · refine keepsO_next ?_
    assumption
  · extract_lets +onlyGivenNames v1
    have h2 : Keeps s0 v1 := by
      dsimp only [v1]
      refine State.tookMsg_keeps ?_ _
      assumption
    clear_value v1
    split
    · refine keepsO_next ?_
      assumption
    · extract_lets +onlyGivenNames v3
      have h4 : Keeps s0 v3 := by
        dsimp only [v3]
        refine State.dropHeld_keeps ?_ _ _
        assumption
      clear_value v3
      refine keepsO_ite ?_ ?_
      · extract_lets +onlyGivenNames v5
        clear_value v5
        extract_lets +onlyGivenNames v6
        clear_value v6
        refine keepsO_next ?_
        refine keeps_ite ?_ ?_
        · refine State.keyRefused_keeps ?_ _ _
          assumption
        · refine State.keyAcked_keeps ?_ _ _ _
          assumption
      · refine keepsO_next ?_
        assumption

theorem execUpstreamMsgResend_keeps {s0 s : State} (h : Keeps s0 s) (type : Byte) (seq : Byte) :
    KeepsO s0 (execUpstreamMsgResend type seq s) := by
  unfold execUpstreamMsgResend
  split
  · refine keepsO_next ?_
    assumption
  · refine keepsO_ite ?_ ?_
    · refine keepsO_next ?_
      assumption
    · refine keepsO_ite ?_ ?_
      · refine keepsO_next ?_
        refine State.sat_keeps ?_ _
        refine keeps_mk ?_ rfl rfl rfl
        assumption
      · refine keepsO_ite ?_ ?_
        · extract_lets +onlyGivenNames v1
          clear_value v1
          refine keepsO_next ?_
          refine State.logDev_keeps ?_ _ _ _
          refine State.sat_keeps ?_ _
          refine keeps_mk ?_ rfl rfl rfl
          assumption
        · refine keepsO_next ?_
          refine State.logDev_keeps ?_ _ _ _
          refine State.sat_keeps ?_ _
          refine State.dropHeld_keeps ?_ _ _
          assumption

theorem execKeyReportReseries_keeps {s0 s : State} (h : Keeps s0 s) (seq : Byte) :
    KeepsO s0 (execKeyReportReseries seq s) := by
  unfold execKeyReportReseries
  split
  · refine keepsO_next ?_
    assumption
  · refine keepsO_ite ?_ ?_
    · extract_lets +onlyGivenNames v1
      clear_value v1
      refine keepsO_next ?_
      refine keeps_mk ?_ rfl rfl rfl
      assumption
    · refine keepsO_next ?_
      assumption

end Sys2Proof.Machine
end

