-- ==== Sys2Proof/Laws/KeepsPndOps.lean ====
section
/-!
SUPPORT. What PndOps.lean leaves untouched (Keeps), operation by operation.
-/

namespace Sys2Proof.Machine

open Sys2Proof

theorem State.queueRecord_keeps {s0 s : State} (h : Keeps s0 s) (type : Nat) (arg : Nat) (payload : List Byte) :
    Keeps s0 (State.queueRecord s type arg payload) := by
  unfold State.queueRecord
  refine keeps_mk ?_ rfl rfl rfl
  assumption

theorem State.sendRecord_keeps {s0 s : State} (h : Keeps s0 s) (type : Nat) (arg : Nat) (payload : List Byte) :
    Keeps s0 (State.sendRecord s type arg payload) := by
  unfold State.sendRecord
  refine keeps_ite ?_ ?_
  · refine State.queueRecord_keeps ?_ _ _ _
    assumption
  · assumption

theorem State.endFrame_keeps {s0 s : State} (h : Keeps s0 s) :
    Keeps s0 (State.endFrame s) := by
  unfold State.endFrame
  refine keeps_ite ?_ ?_
  · assumption
  · extract_lets +onlyGivenNames v1
    clear_value v1
    extract_lets +onlyGivenNames v2
    clear_value v2
    extract_lets +onlyGivenNames v3
    have h4 : Keeps s0 v3 := by
      dsimp only [v3]
      refine State.send_keeps ?_ _
      assumption
    clear_value v3
    refine keeps_mk ?_ rfl rfl rfl
    assumption

theorem State.pndCnt_keeps {s0 s : State} (h : Keeps s0 s) (n : ℕ) :
    Keeps s0 (State.pndCnt s n) := by
  unfold State.pndCnt
  refine State.sat_keeps ?_ _
  assumption

theorem State.prefixSdu_keeps {s0 s : State} (h : Keeps s0 s) (id : ℕ) (b : List Byte) :
    Keeps s0 (State.prefixSdu s id b) := by
  unfold State.prefixSdu
  split
  · assumption
  · extract_lets +onlyGivenNames v1
    clear_value v1
    extract_lets +onlyGivenNames v2
    have h3 : Keeps s0 v2 := by
      dsimp only [v2]
      refine State.modSdu_keeps ?_ _ _
      assumption
    clear_value v2
    refine State.writeCells_keeps ?_ _ _
    assumption

theorem State.guardTagged_keeps {s0 s : State} (h : Keeps s0 s) (q : Nat) (data : List Byte) :
    Keeps s0 (State.guardTagged s q data).2 := by
  unfold State.guardTagged
  split
  · dsimp only
    assumption
  · dsimp only
    refine State.when_keeps ?_ ?_ _
    · refine keeps_mk ?_ rfl rfl rfl
      assumption
    · intro y1 y2
      refine State.pndCnt_keeps ?_ _
      refine State.sendRecord_keeps ?_ _ _ _
      assumption

theorem State.sendTo_keeps {s0 s : State} (h : Keeps s0 s) (id : ℕ) (q : ℕ) :
    Keeps s0 (State.sendTo s id q) := by
  unfold State.sendTo
  extract_lets +onlyGivenNames v1
  have h2 : Keeps s0 v1.2 := by
    dsimp only [v1]
    refine State.guardTagged_keeps ?_ _ _
    assumption
  clear_value v1
  extract_lets +onlyGivenNames v3
  have h4 : Keeps s0 v3 := by
    dsimp only [v3]
    refine State.prefixSdu_keeps ?_ _ _
    refine State.modSdu_keeps ?_ _ _
    assumption
  clear_value v3
  refine keeps_ite ?_ ?_
  · refine State.enqueue_keeps ?_ _ _
    assumption
  · assumption

end Sys2Proof.Machine
end

