-- ==== Sys2Proof/Laws/KeepsCls.lean ====
section
/-!
SUPPORT. What Cls.lean leaves untouched (Keeps), operation by operation.
-/

namespace Sys2Proof.Machine

open Sys2Proof

theorem State.clsLim_keeps {s0 s : State} (h : Keeps s0 s) (o : ℕ) (code : ℕ) (data : ℕ) :
    Keeps s0 (State.clsLim s o code data) := by
  unfold State.clsLim
  refine keeps_ite ?_ ?_
  · refine State.limNiche_keeps ?_ _ _ _
    assumption
  · refine State.limDev_keeps ?_ _ _ _
    assumption

theorem State.clsCnt_keeps {s0 s : State} (h : Keeps s0 s) (o : ℕ) (k : ℕ) :
    Keeps s0 (State.clsCnt s o k) := by
  unfold State.clsCnt
  refine State.sat_keeps ?_ _
  assumption

theorem State.setSram_keeps {s0 s : State} (h : Keeps s0 s) (a : ℕ) (b : List Byte) :
    Keeps s0 (State.setSram s a b) := by
  unfold State.setSram
  refine keeps_mk ?_ rfl rfl rfl
  assumption

theorem State.setCredit_keeps {s0 s : State} (h : Keeps s0 s) (i : ℕ) (c : ℕ) :
    Keeps s0 (State.setCredit s i c) := by
  unfold State.setCredit
  refine keeps_mk ?_ rfl rfl rfl
  assumption

theorem State.refillPolicers_keeps {s0 s : State} (h : Keeps s0 s) :
    Keeps s0 (State.refillPolicers s) := by
  unfold State.refillPolicers
  refine State.each_keeps ?_ ?_ _
  · assumption
  · intro y1 y2 y3
    refine State.setCredit_keeps ?_ _ _
    assumption

theorem State.police_keeps {s0 s : State} (h : Keeps s0 s) (i : ℕ) (n : ℕ) :
    Keeps s0 (State.police s i n).2 := by
  unfold State.police
  split
  · dsimp only
    refine State.sat_keeps ?_ _
    refine State.setCredit_keeps ?_ _ _
    assumption
  · dsimp only
    refine State.sat_keeps ?_ _
    assumption

theorem State.slowPath_keeps {s0 s : State} (h : Keeps s0 s) (o : ℕ) (id : ℕ) (reason : ℕ) :
    Keeps s0 (State.slowPath s o id reason) := by
  unfold State.slowPath
  extract_lets +onlyGivenNames v1
  have h2 : Keeps s0 v1 := by
    dsimp only [v1]
    refine State.clsCnt_keeps ?_ _ _
    assumption
  clear_value v1
  extract_lets +onlyGivenNames v3
  clear_value v3
  extract_lets +onlyGivenNames v4
  clear_value v4
  refine keeps_ite ?_ ?_
  · refine State.enqueue_keeps ?_ _ _
    refine State.modSdu_keeps ?_ _ _
    assumption
  · refine State.dropNew_keeps ?_ _
    refine State.clsLim_keeps ?_ _ _ _
    refine State.clsCnt_keeps ?_ _ _
    assumption

theorem State.applyTo_keeps {s0 s : State} (h : Keeps s0 s) (id : ℕ) (q : ℕ) (flow : ℕ) (ts : Bool) :
    Keeps s0 (State.applyTo s id q flow ts) := by
  unfold State.applyTo
  extract_lets +onlyGivenNames v1
  have h2 : Keeps s0 v1 := by
    dsimp only [v1]
    refine State.modSdu_keeps ?_ _ _
    assumption
  clear_value v1
  split
  · assumption
  · refine keeps_ite ?_ ?_
    · refine State.dropNew_keeps ?_ _
      refine State.when_keeps ?_ ?_ _
      · assumption
      · intro y3 y4
        refine State.sat_keeps ?_ _
        assumption
    · refine State.sendTo_keeps ?_ _ _
      assumption

theorem State.replicate_keeps {s0 s : State} (h : Keeps s0 s) (id : ℕ) (l : List (ℕ × ℕ)) (flow : ℕ) :
    Keeps s0 (State.replicate s id l flow) := by
  unfold State.replicate
  extract_lets +onlyGivenNames v1
  have h2 : Keeps s0 v1 := by
    dsimp only [v1]
    refine State.each_keeps ?_ ?_ _
    · assumption
    · intro y3 y4 y5
      split
      · refine State.admitSdu_keeps ?_ _
        refine State.guardTagged_keeps ?_ _ _
        assumption
      · assumption
  clear_value v1
  refine State.release_keeps ?_ _
  assumption

theorem State.applyResult_keeps {s0 s : State} (h : Keeps s0 s) (o : ℕ) (id : ℕ) (res : ℕ) :
    Keeps s0 (State.applyResult s o id res) := by
  unfold State.applyResult
  extract_lets +onlyGivenNames v1
  clear_value v1
  extract_lets +onlyGivenNames v2
  have h3 : Keeps s0 v2 := by
    dsimp only [v2]
    refine State.dropNew_keeps ?_ _
    refine State.clsLim_keeps ?_ _ _ _
    refine State.clsCnt_keeps ?_ _ _
    assumption
  clear_value v2
  refine keeps_ite ?_ ?_
  · refine State.dropNew_keeps ?_ _
    refine State.clsCnt_keeps ?_ _ _
    assumption
  · refine keeps_ite ?_ ?_
    · refine State.slowPath_keeps ?_ _ _ _
      assumption
    · refine keeps_ite ?_ ?_
      · assumption
      · split
        · refine State.dropNew_keeps ?_ _
          refine State.countDenied_keeps ?_ _ _
          assumption
        · refine keeps_ite ?_ ?_
          · assumption
          · extract_lets +onlyGivenNames v4
            clear_value v4
            extract_lets +onlyGivenNames v5
            have h6 : Keeps s0 v5.2 := by
              dsimp only [v5]
              split
              · refine State.police_keeps ?_ _ _
                assumption
              · assumption
            clear_value v5
            refine keeps_ite ?_ ?_
            · refine State.dropNew_keeps ?_ _
              refine State.clsCnt_keeps ?_ _ _
              assumption
            · refine keeps_ite ?_ ?_
              · refine State.replicate_keeps ?_ _ _ _
                assumption
              · refine State.applyTo_keeps ?_ _ _ _ _
                assumption

theorem State.startLookup_keeps {s0 s : State} (h : Keeps s0 s) (id : ℕ) (d : Sdu) :
    Keeps s0 (State.startLookup s id d) := by
  unfold State.startLookup
  extract_lets +onlyGivenNames v1
  have h2 : Keeps s0 v1 := by
    dsimp only [v1]
    refine State.clsCnt_keeps ?_ _ _
    assumption
  clear_value v1
  refine State.modSdu_keeps ?_ _ _
  assumption

theorem State.chained_keeps {s0 s : State} (h : Keeps s0 s) (o : ℕ) (p : ℕ) (id : ℕ) (k : List Byte) (ecc : Option (Fin 6 × BitVec 20)) :
    Keeps s0 (State.chained s o p id k ecc) := by
  unfold State.chained
  extract_lets +onlyGivenNames v1
  clear_value v1
  extract_lets +onlyGivenNames v2
  clear_value v2
  split
  · refine State.applyResult_keeps ?_ _ _ _
    refine State.clsCnt_keeps ?_ _ _
    assumption
  · refine State.slowPath_keeps ?_ _ _ _
    refine State.clsLim_keeps ?_ _ _ _
    assumption
  · refine State.slowPath_keeps ?_ _ _ _
    refine State.clsLim_keeps ?_ _ _ _
    assumption
  · extract_lets +onlyGivenNames v3
    have h4 : Keeps s0 v3 := by
      dsimp only [v3]
      refine State.clsCnt_keeps ?_ _ _
      assumption
    clear_value v3
    refine keeps_ite ?_ ?_
    · refine State.applyResult_keeps ?_ _ _ _
      assumption
    · refine State.dropNew_keeps ?_ _
      refine State.clsCnt_keeps ?_ _ _
      assumption

theorem State.classify_keeps {s0 s : State} (h : Keeps s0 s) (o : ℕ) (p : ℕ) (id : ℕ) (d : Sdu) (ecc : Option (Fin 6 × BitVec 20)) :
    Keeps s0 (State.classify s o p id d ecc) := by
  unfold State.classify
  refine keeps_ite ?_ ?_
  · refine keeps_ite ?_ ?_
    · refine State.dropNew_keeps ?_ _
      refine State.countDenied_keeps ?_ _ _
      assumption
    · refine State.dropNew_keeps ?_ _
      assumption
  · split
    · refine State.slowPath_keeps ?_ _ _ _
      assumption
    · refine State.chained_keeps ?_ _ _ _ _ _
      assumption

theorem State.endWaiting_keeps {s0 s : State} (h : Keeps s0 s) (id : ℕ) :
    Keeps s0 (State.endWaiting s id) := by
  unfold State.endWaiting
  refine keeps_mk ?_ rfl rfl rfl
  assumption

theorem execClassifySdu_keeps {s0 s : State} (h : Keeps s0 s) (id : ℕ) (ecc : Option (Fin 6 × BitVec 20)) :
    KeepsO s0 (execClassifySdu id ecc s) := by
  unfold execClassifySdu
  refine keepsO_next ?_
  split
  · assumption
  · refine keeps_ite ?_ ?_
    · assumption
    · extract_lets +onlyGivenNames v1
      have h2 : Keeps s0 v1 := by
        dsimp only [v1]
        refine State.endWaiting_keeps ?_ _
        assumption
      clear_value v1
      refine keeps_ite ?_ ?_
      · refine State.dropAs_keeps ?_ _ _
        assumption
      · extract_lets +onlyGivenNames v3
        have h4 : Keeps s0 v3 := by
          dsimp only [v3]
          refine State.startLookup_keeps ?_ _ _
          assumption
        clear_value v3
        refine State.classify_keeps ?_ _ _ _ _ _
        assumption

theorem State.updRefuse_keeps {s0 s : State} (h : Keeps s0 s) (o : ℕ) (code : ℕ) :
    Keeps s0 (State.updRefuse s o code) := by
  unfold State.updRefuse
  extract_lets +onlyGivenNames v1
  have h2 : Keeps s0 v1 := by
    dsimp only [v1]
    refine State.when_keeps ?_ ?_ _
    · refine State.put_keeps ?_ _ _
      assumption
    · intro y3 y4
      refine State.clsCnt_keeps ?_ _ _
      assumption
  clear_value v1
  refine State.logDev_keeps ?_ _ _ _
  assumption

theorem State.updStart_keeps {s0 s : State} (h : Keeps s0 s) (o : ℕ) (j : ClsJob) :
    Keeps s0 (State.updStart s o j) := by
  unfold State.updStart
  extract_lets +onlyGivenNames v1
  have h2 : Keeps s0 v1 := by
    dsimp only [v1]
    refine State.putB_keeps ?_ _ _
    refine State.put_keeps ?_ _ _
    assumption
  clear_value v1
  refine keeps_mk ?_ rfl rfl rfl
  assumption

theorem execClsUpdWrite_keeps {s0 s : State} (h : Keeps s0 s) (o : Fin 17) :
    KeepsO s0 (execClsUpdWrite o s) := by
  unfold execClsUpdWrite
  refine keepsO_next ?_
  refine keeps_ite ?_ ?_
  · refine State.updRefuse_keeps ?_ _ _
    assumption
  · refine State.updStart_keeps ?_ _ _
    assumption

theorem execClsUpdRead_keeps {s0 s : State} (h : Keeps s0 s) (o : Fin 17) :
    KeepsO s0 (execClsUpdRead o s) := by
  unfold execClsUpdRead
  refine keepsO_next ?_
  refine keeps_ite ?_ ?_
  · refine State.updRefuse_keeps ?_ _ _
    assumption
  · refine State.updStart_keeps ?_ _ _
    assumption

theorem execClsUpdHash_keeps {s0 s : State} (h : Keeps s0 s) (o : Fin 17) :
    KeepsO s0 (execClsUpdHash o s) := by
  unfold execClsUpdHash
  refine keepsO_next ?_
  refine keeps_ite ?_ ?_
  · refine State.updRefuse_keeps ?_ _ _
    assumption
  · refine State.updStart_keeps ?_ _ _
    assumption

theorem execClsUpdInvalidate_keeps {s0 s : State} (h : Keeps s0 s) (o : Fin 17) :
    KeepsO s0 (execClsUpdInvalidate o s) := by
  unfold execClsUpdInvalidate
  refine keepsO_next ?_
  refine keeps_ite ?_ ?_
  · refine State.updRefuse_keeps ?_ _ _
    assumption
  · refine State.updStart_keeps ?_ _ _
    assumption

theorem State.updEnd_keeps {s0 s : State} (h : Keeps s0 s) (o : ℕ) :
    Keeps s0 (State.updEnd s o) := by
  unfold State.updEnd
  extract_lets +onlyGivenNames v1
  have h2 : Keeps s0 v1 := by
    dsimp only [v1]
    refine State.putB_keeps ?_ _ _
    assumption
  clear_value v1
  refine keeps_mk ?_ rfl rfl rfl
  assumption

theorem execClsUpdComplete_keeps {s0 s : State} (h : Keeps s0 s) (o : Fin 17) :
    KeepsO s0 (execClsUpdComplete o s) := by
  unfold execClsUpdComplete
  refine keepsO_next ?_
  split
  · assumption
  · extract_lets +onlyGivenNames v1
    clear_value v1
    extract_lets +onlyGivenNames v2
    clear_value v2
    split
    · refine State.updEnd_keeps ?_ _
      refine State.setSram_keeps ?_ _ _
      assumption
    · refine State.updEnd_keeps ?_ _
      refine State.setSram_keeps ?_ _ _
      assumption
    · refine State.updEnd_keeps ?_ _
      beta_reduce
      refine State.each_keeps ?_ ?_ _
      · assumption
      · intro y3 y4 y5
        refine State.put_keeps ?_ _ _
        assumption
    · extract_lets +onlyGivenNames v6
      clear_value v6
      refine State.updEnd_keeps ?_ _
      refine State.put_keeps ?_ _ _
      refine State.put_keeps ?_ _ _
      assumption
    · assumption

theorem execTableWindowWrite_keeps {s0 s : State} (h : Keeps s0 s) (offset : BitVec 24) :
    KeepsO s0 (execTableWindowWrite offset s) := by
  unfold execTableWindowWrite
  refine keepsO_next ?_
  refine State.logDev_keeps ?_ _ _ _
  assumption

theorem execClsNtabWrite_keeps {s0 s : State} (h : Keeps s0 s) (o : Fin 17) (data : Word) :
    KeepsO s0 (execClsNtabWrite o data s) := by
  unfold execClsNtabWrite
  extract_lets +onlyGivenNames v1
  clear_value v1
  extract_lets +onlyGivenNames v2
  clear_value v2
  refine keepsO_next ?_
  refine keeps_ite ?_ ?_
  · refine State.updRefuse_keeps ?_ _ _
    assumption
  · refine keeps_ite ?_ ?_
    · refine State.updRefuse_keeps ?_ _ _
      assumption
    · refine State.updStart_keeps ?_ _ _
      refine State.put_keeps ?_ _ _
      refine State.put_keeps ?_ _ _
      assumption

theorem State.zeroTables_keeps {s0 s : State} (h : Keeps s0 s) (o : ℕ) :
    Keeps s0 (State.zeroTables s o) := by
  unfold State.zeroTables
  extract_lets +onlyGivenNames v1
  clear_value v1
  extract_lets +onlyGivenNames v2
  clear_value v2
  extract_lets +onlyGivenNames v3
  have h4 : Keeps s0 v3 := by
    dsimp only [v3]
    refine State.each_keeps ?_ ?_ _
    · assumption
    · intro y5 y6 y7
      refine State.put_keeps ?_ _ _
      refine State.put_keeps ?_ _ _
      assumption
  clear_value v3
  refine keeps_mk ?_ rfl rfl rfl
  assumption

theorem execNtabClearDone_keeps {s0 s : State} (h : Keeps s0 s) (o : Fin 17) :
    KeepsO s0 (execNtabClearDone o s) := by
  unfold execNtabClearDone
  refine keepsO_next ?_
  refine keeps_ite ?_ ?_
  · refine State.updEnd_keeps ?_ _
    refine State.zeroTables_keeps ?_ _
    assumption
  · assumption

theorem execClsTreeSelWrite_keeps {s0 s : State} (h : Keeps s0 s) (o : Fin 17) (data : Word) :
    KeepsO s0 (execClsTreeSelWrite o data s) := by
  unfold execClsTreeSelWrite
  extract_lets +onlyGivenNames v1
  clear_value v1
  extract_lets +onlyGivenNames v2
  clear_value v2
  extract_lets +onlyGivenNames v3
  have h4 : Keeps s0 v3 := by
    dsimp only [v3]
    refine State.put_keeps ?_ _ _
    refine State.put_keeps ?_ _ _
    assumption
  clear_value v3
  refine keepsO_next ?_
  refine keeps_mk ?_ rfl rfl rfl
  assumption

theorem execTreeSwitch_keeps {s0 s : State} (h : Keeps s0 s) (o : Fin 17) :
    KeepsO s0 (execTreeSwitch o s) := by
  unfold execTreeSwitch
  refine keepsO_next ?_
  refine keeps_mk ?_ rfl rfl rfl
  assumption

theorem execTreeRetire_keeps {s0 s : State} (h : Keeps s0 s) (o : Fin 17) :
    KeepsO s0 (execTreeRetire o s) := by
  unfold execTreeRetire
  extract_lets +onlyGivenNames v1
  clear_value v1
  refine keepsO_next ?_
  extract_lets +onlyGivenNames v2
  have h3 : Keeps s0 v2 := by
    dsimp only [v2]
    refine State.put_keeps ?_ _ _
    assumption
  clear_value v2
  refine keeps_mk ?_ rfl rfl rfl
  assumption

theorem State.writeWords_keeps {s0 s : State} (h : Keeps s0 s) (l : List (ℕ × Word)) :
    Keeps s0 (State.writeWords s l) := by
  unfold State.writeWords
  refine State.each_keeps ?_ ?_ _
  · assumption
  · intro y1 y2 y3
    refine State.setWord_keeps ?_ _ _
    assumption

theorem State.applyProfile_keeps {s0 s : State} (h : Keeps s0 s) (l : List (ℕ × Word)) (p : ℕ) :
    Keeps s0 (State.applyProfile s l p) := by
  unfold State.applyProfile
  refine keeps_ite ?_ ?_
  · assumption
  · extract_lets +onlyGivenNames v1
    have h2 : Keeps s0 v1 := by
      dsimp only [v1]
      refine State.writeWords_keeps ?_ _
      assumption
    clear_value v1
    refine keeps_ite ?_ ?_
    · refine State.logDev_keeps ?_ _ _ _
      assumption
    · assumption

theorem execProfileApply_keeps {s0 s : State} (h : Keeps s0 s) :
    KeepsO s0 (execProfileApply s) := by
  unfold execProfileApply
  extract_lets +onlyGivenNames v1
  clear_value v1
  extract_lets +onlyGivenNames v2
  clear_value v2
  extract_lets +onlyGivenNames v3
  have h4 : Keeps s0 v3 := by
    dsimp only [v3]
    refine State.writeWords_keeps ?_ _
    refine keeps_mk ?_ rfl rfl rfl
    assumption
  clear_value v3
  refine keepsO_next ?_
  refine State.each_keeps ?_ ?_ _
  · assumption
  · intro y5 y6 y7
    refine State.applyProfile_keeps ?_ _ _
    assumption

theorem State.movePolicers_keeps {s0 s : State} (h : Keeps s0 s) (was : State) :
    Keeps s0 (State.movePolicers s was) := by
  unfold State.movePolicers
  refine State.each_keeps ?_ ?_ _
  · assumption
  · intro y1 y2 y3
    extract_lets +onlyGivenNames v4
    clear_value v4
    extract_lets +onlyGivenNames v5
    clear_value v5
    extract_lets +onlyGivenNames v6
    clear_value v6
    extract_lets +onlyGivenNames v7
    have h8 : Keeps s0 v7 := by
      dsimp only [v7]
      refine State.each_keeps ?_ ?_ _
      · assumption
      · intro y9 y10 y11
        refine State.setWord_keeps ?_ _ _
        assumption
    clear_value v7
    refine State.setCredit_keeps ?_ _ _
    assumption

theorem State.moveTables_keeps {s0 s : State} (h : Keeps s0 s) (was : State) (n : Nat) :
    Keeps s0 (State.moveTables s was n) := by
  unfold State.moveTables
  extract_lets +onlyGivenNames v1
  have h2 : Keeps s0 v1 := by
    dsimp only [v1]
    refine State.movePolicers_keeps ?_ _
    assumption
  clear_value v1
  extract_lets +onlyGivenNames v3
  clear_value v3
  extract_lets +onlyGivenNames v4
  clear_value v4
  extract_lets +onlyGivenNames v5
  have h6 : Keeps s0 v5 := by
    dsimp only [v5]
    refine keeps_mk ?_ rfl rfl rfl
    assumption
  clear_value v5
  extract_lets +onlyGivenNames v7
  have h8 : Keeps s0 v7 := by
    dsimp only [v7]
    refine State.when_keeps ?_ ?_ _
    · assumption
    · intro y9 y10
      refine State.put_keeps ?_ _ _
      refine State.put_keeps ?_ _ _
      assumption
  clear_value v7
  refine State.each_keeps ?_ ?_ _
  · assumption
  · intro y11 y12 y13
    refine State.each_keeps ?_ ?_ _
    · assumption
    · intro y14 y15 y16
      refine State.setWord_keeps ?_ _ _
      assumption

end Sys2Proof.Machine
end

