-- ==== Sys2Proof/Laws/KeepsTick.lean ====
section
/-!
SUPPORT. What Tick.lean leaves untouched (Keeps), operation by operation.
-/

namespace Sys2Proof.Machine

open Sys2Proof

theorem State.holdFreq_keeps {s0 s : State} (h : Keeps s0 s) :
    Keeps s0 (State.holdFreq s) := by
  unfold State.holdFreq
  lift_lets
  intro v1
  clear_value v1
  intro v2
  clear_value v2
  intro v3
  have h4 : Keeps s0 v3 := by
    dsimp only [v3]
    refine keeps_ite ?_ ?_
    · assumption
    · refine State.tookFree_keeps ?_
      assumption
  clear_value v3
  intro v5
  have h6 : Keeps s0 v5 := by
    dsimp only [v5]
    refine State.putS_keeps ?_ _ _
    assumption
  clear_value v5
  refine keeps_ite ?_ ?_
  · assumption
  · refine keeps_ite ?_ ?_
    · refine State.logDev_keeps ?_ _ _ _
      refine State.putB_keeps ?_ _ _
      assumption
    · assumption

theorem State.xoGone_keeps {s0 s : State} (h : Keeps s0 s) :
    Keeps s0 (State.xoGone s) := by
  unfold State.xoGone
  lift_lets
  intro v1
  have h2 : Keeps s0 v1 := by
    dsimp only [v1]
    refine State.logDev_keeps ?_ _ _ _
    refine State.putB_keeps ?_ _ _
    assumption
  clear_value v1
  intro v3
  have h4 : Keeps s0 v3 := by
    dsimp only [v3]
    refine State.putB_keeps ?_ _ _
    refine State.put_keeps ?_ _ _
    assumption
  clear_value v3
  intro v5
  clear_value v5
  refine keeps_ite ?_ ?_
  · refine keeps_mk ?_ rfl rfl rfl
    assumption
  · refine State.faultReset_keeps ?_ _
    assumption

theorem State.enterHoldover_keeps {s0 s : State} (h : Keeps s0 s) :
    Keeps s0 (State.enterHoldover s) := by
  unfold State.enterHoldover
  lift_lets
  intro v1
  have h2 : Keeps s0 v1 := by
    dsimp only [v1]
    refine State.put_keeps ?_ _ _
    refine State.sat_keeps ?_ _
    refine State.put_keeps ?_ _ _
    refine State.holdFreq_keeps ?_
    assumption
  clear_value v1
  intro v3
  have h4 : Keeps s0 v3 := by
    dsimp only [v3]
    refine State.put_keeps ?_ _ _
    assumption
  clear_value v3
  intro v5
  clear_value v5
  intro v6
  clear_value v6
  intro v7
  have h8 : Keeps s0 v7 := by
    dsimp only [v7]
    refine keeps_mk ?_ rfl rfl rfl
    assumption
  clear_value v7
  refine keeps_ite ?_ ?_
  · refine State.xoGone_keeps ?_
    assumption
  · assumption

theorem State.verdict_keeps {s0 s : State} (h : Keeps s0 s) (was : Bool) :
    Keeps s0 (State.verdict s was) := by
  unfold State.verdict
  lift_lets
  intro v1
  clear_value v1
  intro v2
  have h3 : Keeps s0 v2 := by
    dsimp only [v2]
    refine State.when_keeps ?_ ?_ _
    · assumption
    · intro y4 y5
      refine State.putB_keeps ?_ _ _
      assumption
  clear_value v2
  refine keeps_ite ?_ ?_
  · refine State.enterHoldover_keeps ?_
    assumption
  · refine keeps_ite ?_ ?_
    · refine State.put_keeps ?_ _ _
      assumption
    · assumption

theorem State.nextTick_keeps {s0 s : State} (h : Keeps s0 s) (n : ℕ) (d : ℤ) :
    Keeps s0 (State.nextTick s n d) := by
  unfold State.nextTick
  lift_lets
  intro v1
  have h2 : Keeps s0 v1 := by
    dsimp only [v1]
    refine State.putB_keeps ?_ _ _
    refine State.putB_keeps ?_ _ _
    assumption
  clear_value v1
  intro v3
  clear_value v3
  refine keeps_mk ?_ rfl rfl rfl
  assumption

theorem State.setFc_keeps {s0 s : State} (h : Keeps s0 s) (fc : ℕ) :
    Keeps s0 (State.setFc s fc) := by
  unfold State.setFc
  refine keeps_mk ?_ rfl rfl rfl
  assumption

theorem State.setAdjust_keeps {s0 s : State} (h : Keeps s0 s) (d : Int) :
    Keeps s0 (State.setAdjust s d) := by
  unfold State.setAdjust
  refine keeps_ite ?_ ?_
  · refine State.putS_keeps ?_ _ _
    assumption
  · refine State.put_keeps ?_ _ _
    refine State.tookFree_keeps ?_
    assumption

theorem State.realign_keeps {s0 s : State} (h : Keeps s0 s) (e : Option Int) :
    Keeps s0 (State.realign s e) := by
  unfold State.realign
  extract_lets +onlyGivenNames v1
  clear_value v1
  split
  · refine State.nextTick_keeps ?_ _ _
    refine State.setFc_keeps ?_ _
    assumption
  · extract_lets +onlyGivenNames v2
    have h3 : Keeps s0 v2 := by
      dsimp only [v2]
      refine State.putS_keeps ?_ _ _
      assumption
    clear_value v2
    refine keeps_ite ?_ ?_
    · extract_lets +onlyGivenNames v4
      clear_value v4
      extract_lets +onlyGivenNames v5
      clear_value v5
      extract_lets +onlyGivenNames v6
      have h7 : Keeps s0 v6 := by
        dsimp only [v6]
        refine State.nextTick_keeps ?_ _ _
        refine State.setFc_keeps ?_ _
        assumption
      clear_value v6
      extract_lets +onlyGivenNames v8
      have h9 : Keeps s0 v8 := by
        dsimp only [v8]
        refine State.put_keeps ?_ _ _
        refine State.setAdjust_keeps ?_ _
        assumption
      clear_value v8
      refine State.startRelock_keeps ?_
      refine State.put_keeps ?_ _ _
      refine State.satBy_keeps ?_ _ _
      assumption
    · refine keeps_ite ?_ ?_
      · extract_lets +onlyGivenNames v10
        clear_value v10
        refine State.nextTick_keeps ?_ _ _
        refine State.setFc_keeps ?_ _
        assumption
      · extract_lets +onlyGivenNames v11
        clear_value v11
        extract_lets +onlyGivenNames v12
        have h13 : Keeps s0 v12 := by
          dsimp only [v12]
          refine State.nextTick_keeps ?_ _ _
          refine State.setFc_keeps ?_ _
          assumption
        clear_value v12
        refine State.logDev_keeps ?_ _ _ _
        refine State.sat_keeps ?_ _
        assumption

theorem State.measured_keeps {s0 s : State} (h : Keeps s0 s) (xo : Int) :
    Keeps s0 (State.measured s xo) := by
  unfold State.measured
  refine keeps_mk ?_ rfl rfl rfl
  assumption

theorem State.lockedEdge_keeps {s0 s : State} (h : Keeps s0 s) (xo : Int) :
    Keeps s0 (State.lockedEdge s xo) := by
  unfold State.lockedEdge
  refine State.measured_keeps ?_ _
  refine State.nextTick_keeps ?_ _ _
  refine State.setFc_keeps ?_ _
  assumption

theorem State.edgeState_keeps {s0 s : State} (h : Keeps s0 s) (xo : Int) (e : Option Int) :
    Keeps s0 (State.edgeState s xo e) := by
  unfold State.edgeState
  extract_lets +onlyGivenNames v1
  clear_value v1
  extract_lets +onlyGivenNames v2
  have h3 : ∀ a1, Keeps s0 a1 → Keeps s0 (v2 a1) := by
    intro a1 b1
    dsimp only [v2]
    refine State.nextTick_keeps ?_ _ _
    refine State.setFc_keeps ?_ _
    assumption
  clear_value v2
  split
  · refine keeps_ite ?_ ?_
    · refine State.realign_keeps ?_ _
      refine State.put_keeps ?_ _ _
      assumption
    · with_reducible (first | assumption | apply_assumption)
      assumption
  · refine keeps_ite ?_ ?_
    · refine State.lockedEdge_keeps ?_ _
      assumption
    · with_reducible (first | assumption | apply_assumption)
      refine State.enterHoldover_keeps ?_
      refine State.measured_keeps ?_ _
      assumption
  · refine keeps_ite ?_ ?_
    · refine State.realign_keeps ?_ _
      refine State.put_keeps ?_ _ _
      assumption
    · with_reducible (first | assumption | apply_assumption)
      assumption
  · refine keeps_ite ?_ ?_
    · refine State.realign_keeps ?_ _
      assumption
    · with_reducible (first | assumption | apply_assumption)
      refine State.sat_keeps ?_ _
      refine State.put_keeps ?_ _ _
      assumption

theorem State.tickEdge_keeps {s0 s : State} (h : Keeps s0 s) (xo : Int) (e : Option Int) (cycles : Nat) (frac : Nat) :
    Keeps s0 (State.tickEdge s xo e cycles frac) := by
  unfold State.tickEdge
  split
  · refine State.faultReset_keeps ?_ _
    refine State.safeFor_keeps ?_ _
    refine State.logDev_keeps ?_ _ _ _
    refine keeps_mk ?_ rfl rfl rfl
    assumption
  · extract_lets +onlyGivenNames v1
    have h2 : Keeps s0 v1 := by
      dsimp only [v1]
      refine State.when_keeps ?_ ?_ _
      · assumption
      · intro y3 y4
        refine State.each_keeps ?_ ?_ _
        · assumption
        · intro y5 y6 y7
          refine State.put_keeps ?_ _ _
          assumption
    clear_value v1
    extract_lets +onlyGivenNames v8
    clear_value v8
    extract_lets +onlyGivenNames v9
    have h10 : Keeps s0 v9 := by
      dsimp only [v9]
      refine keeps_mk ?_ rfl rfl rfl
      assumption
    clear_value v9
    extract_lets +onlyGivenNames v11
    have h12 : Keeps s0 v11 := by
      dsimp only [v11]
      refine State.put_keeps ?_ _ _
      refine State.edgeState_keeps ?_ _ _
      assumption
    clear_value v11
    extract_lets +onlyGivenNames v13
    clear_value v13
    extract_lets +onlyGivenNames v14
    clear_value v14
    extract_lets +onlyGivenNames v15
    have h16 : Keeps s0 v15 := by
      dsimp only [v15]
      refine keeps_mk ?_ rfl rfl rfl
      assumption
    clear_value v15
    refine State.phaseUsed_keeps ?_ _ _
    assumption

theorem execPhaseWindowEnd_keeps {s0 s : State} (h : Keeps s0 s) (phase : Fin 12) :
    KeepsO s0 (execPhaseWindowEnd phase s) := by
  unfold execPhaseWindowEnd
  lift_lets
  intro v1
  clear_value v1
  refine keepsO_next ?_
  refine State.when_keeps ?_ ?_ _
  · assumption
  · intro y2 y3
    refine State.logDev_keeps ?_ _ _ _
    refine State.mark_keeps ?_ _ _
    assumption

theorem execXoLost_keeps {s0 s : State} (h : Keeps s0 s) :
    KeepsO s0 (execXoLost s) := by
  unfold execXoLost
  refine keepsO_next ?_
  refine State.xoGone_keeps ?_
  assumption

theorem execTickForceHoldWrite_keeps {s0 s : State} (h : Keeps s0 s) (data : Word) :
    KeepsO s0 (execTickForceHoldWrite data s) := by
  unfold execTickForceHoldWrite
  refine keepsO_next ?_
  refine State.put_keeps ?_ _ _
  assumption

theorem execTickHwmClr_keeps {s0 s : State} (h : Keeps s0 s) :
    KeepsO s0 (execTickHwmClr s) := by
  unfold execTickHwmClr
  refine keepsO_next ?_
  refine keeps_mk ?_ rfl rfl rfl
  assumption

theorem State.latchHi_keeps {s0 s : State} (h : Keeps s0 s) (src : ℕ) (a : ℕ) (w : Word) :
    Keeps s0 (State.latchHi s src a w) := by
  unfold State.latchHi
  refine keeps_mk ?_ rfl rfl rfl
  assumption

theorem State.ifPresent_keeps {s0 s : State} {f : State → State} (h : Keeps s0 s) (hf : ∀ t, Keeps s0 t → Keeps s0 (f t)) (a : ℕ) :
    Keeps s0 (State.ifPresent s a f) := by
  unfold State.ifPresent
  refine keeps_ite ?_ (hf s h)
  refine State.logDev_keeps ?_ _ _ _
  assumption

theorem State.answer_keeps {s0 s : State} (h : Keeps s0 s) (src : ℕ) (w : Word) :
    Keeps s0 (State.answer s src w) := by
  unfold State.answer
  refine State.send_keeps ?_ _
  assumption

theorem State.readFcLo_keeps {s0 s : State} (h : Keeps s0 s) (src : ℕ) :
    Keeps s0 (State.readFcLo s src) := by
  unfold State.readFcLo
  refine State.latchHi_keeps ?_ _ _ _
  assumption

theorem execTickFcLoRead_keeps {s0 s : State} (h : Keeps s0 s) (who : Agent) :
    KeepsO s0 (execTickFcLoRead who s) := by
  unfold execTickFcLoRead
  refine keepsO_next ?_
  refine State.answer_keeps ?_ _ _
  refine State.readFcLo_keeps ?_ _
  assumption

end Sys2Proof.Machine
end

