-- ==== Sys2Proof/Laws/KeepsTimOps.lean ====
section
/-!
SUPPORT. What TimOps.lean leaves untouched (Keeps), operation by operation.
-/

namespace Sys2Proof.Machine

open Sys2Proof

theorem State.logBoth_keeps {s0 s : State} (h : Keeps s0 s) (o : Option ℕ) (code : ℕ) (data : ℕ) :
    Keeps s0 (State.logBoth s o code data) := by
  unfold State.logBoth
  split
  · refine State.logDev_keeps ?_ _ _ _
    refine State.logNiche_keeps ?_ _ _ _
    assumption
  · refine State.logDev_keeps ?_ _ _ _
    assumption

theorem State.limBothKind_keeps {s0 s : State} (h : Keeps s0 s) (o : Option Nat) (kind : Nat) (code : Nat) (data : Nat) :
    Keeps s0 (State.limBothKind s o kind code data) := by
  unfold State.limBothKind
  split
  · refine State.limitKind_keeps ?_ _ _ _ _ _
    refine State.limitKind_keeps ?_ _ _ _ _ _
    assumption
  · refine State.limitKind_keeps ?_ _ _ _ _ _
    assumption

theorem State.limBoth_keeps {s0 s : State} (h : Keeps s0 s) (o : Option Nat) (code : Nat) (data : Nat) :
    Keeps s0 (State.limBoth s o code data) := by
  unfold State.limBoth
  refine State.limBothKind_keeps ?_ _ _ _ _
  assumption

theorem State.setView_keeps {s0 s : State} (h : Keeps s0 s) (v : ℕ) (x : View) :
    Keeps s0 (State.setView s v x) := by
  unfold State.setView
  refine keeps_mk ?_ rfl rfl rfl
  assumption

theorem State.viewJob_keeps {s0 s : State} (h : Keeps s0 s) (t0 : ℕ) (j : ViewJob) :
    Keeps s0 (State.viewJob s t0 j) := by
  unfold State.viewJob
  extract_lets +onlyGivenNames v1
  clear_value v1
  extract_lets +onlyGivenNames v2
  clear_value v2
  extract_lets +onlyGivenNames v3
  clear_value v3
  extract_lets +onlyGivenNames v4
  clear_value v4
  extract_lets +onlyGivenNames v5
  clear_value v5
  extract_lets +onlyGivenNames v6
  have h7 : Keeps s0 v6 := by
    dsimp only [v6]
    refine State.setView_keeps ?_ _ _
    assumption
  clear_value v6
  refine keeps_ite ?_ ?_
  · refine State.put_keeps ?_ _ _
    refine State.put_keeps ?_ _ _
    refine State.put_keeps ?_ _ _
    refine State.put_keeps ?_ _ _
    assumption
  · assumption

theorem State.addViewJob_keeps {s0 s : State} (h : Keeps s0 s) (j : ViewJob) :
    Keeps s0 (State.addViewJob s j) := by
  unfold State.addViewJob
  refine keeps_mk ?_ rfl rfl rfl
  assumption

theorem State.viewBad_keeps {s0 s : State} (h : Keeps s0 s) :
    Keeps s0 (State.viewBad s) := by
  unfold State.viewBad
  refine State.logDev_keeps ?_ _ _ _
  assumption

theorem State.refuseView_keeps {s0 s : State} (h : Keeps s0 s) (who : Agent) (v : Nat) :
    Keeps s0 (State.refuseView s who v) := by
  unfold State.refuseView
  split
  · refine State.deny_keeps ?_ _ _ _
    assumption
  · refine State.viewBad_keeps ?_
    assumption

theorem State.pushStamp_keeps {s0 s : State} (h : Keeps s0 s) (d : QueueDesc) (f : StampFifo) (id : Nat) (stamp : Nat) (edge : Bool) (flags : Nat) :
    Keeps s0 (State.pushStamp s d f id stamp edge flags).1 := by
  unfold State.pushStamp
  refine keeps_ite_fst ?_ ?_
  · dsimp only
    refine keeps_ite ?_ ?_
    · refine State.limBothKind_keeps ?_ _ _ _ _
      refine State.sat_keeps ?_ _
      refine State.putB_keeps ?_ _ _
      assumption
    · refine State.limDev_keeps ?_ _ _ _
      refine State.sat_keeps ?_ _
      refine State.putB_keeps ?_ _ _
      assumption
  · dsimp only
    refine keeps_ite ?_ ?_
    · split
      · refine State.raiseNiche_keeps ?_ _ _
        refine State.put_keeps ?_ _ _
        assumption
      · refine State.raisePf_keeps ?_ _
        refine State.put_keeps ?_ _ _
        assumption
    · refine State.put_keeps ?_ _ _
      assumption

theorem State.popStamp_keeps {s0 s : State} (h : Keeps s0 s) (src : ℕ) (d : QueueDesc) (f : StampFifo) :
    Keeps s0 (State.popStamp s src d f).2.1 := by
  unfold State.popStamp
  split
  · assumption
  · dsimp only
    refine State.put_keeps ?_ _ _
    refine State.each_keeps ?_ ?_ _
    · assumption
    · intro y1 y2 y3
      refine State.latchHi_keeps ?_ _ _ _
      assumption

theorem State.tsqPush_keeps {s0 s : State} (h : Keeps s0 s) (p : ℕ) (id : ℕ) (stamp : ℕ) :
    Keeps s0 (State.tsqPush s p id stamp) := by
  unfold State.tsqPush
  extract_lets +onlyGivenNames v1
  have h2 : Keeps s0 v1.1 := by
    dsimp only [v1]
    refine State.pushStamp_keeps ?_ _ _ _ _ _ _
    assumption
  clear_value v1
  extract_lets +onlyGivenNames v3
  have h4 : Keeps s0 v3 := by
    dsimp only [v3]
    assumption
  clear_value v3
  refine keeps_mk ?_ rfl rfl rfl
  assumption

theorem State.setTin_keeps {s0 s : State} (h : Keeps s0 s) (i : ℕ) (x : Tin) :
    Keeps s0 (State.setTin s i x) := by
  unfold State.setTin
  refine keeps_mk ?_ rfl rfl rfl
  assumption

theorem State.setTout_keeps {s0 s : State} (h : Keeps s0 s) (k : ℕ) (x : Tout) :
    Keeps s0 (State.setTout s k x) := by
  unfold State.setTout
  beta_reduce
  refine keeps_mk ?_ rfl rfl rfl
  refine State.putB_keeps ?_ _ _
  assumption

theorem State.drive_keeps {s0 s : State} (h : Keeps s0 s) (k : Nat) (b : Bool) :
    Keeps s0 (State.drive s k b) := by
  unfold State.drive
  refine keeps_ite ?_ ?_
  · refine State.send_keeps ?_ _
    refine State.setTout_keeps ?_ _ _
    assumption
  · assumption

theorem State.syncTrace_keeps {s0 s : State} (h : Keeps s0 s) :
    Keeps s0 (State.syncTrace s) := by
  unfold State.syncTrace
  refine keeps_ite ?_ ?_
  · assumption
  · refine State.putB_keeps ?_ _ _
    assumption

theorem State.ifOwned_keeps {s0 s : State} {f : State → State} (h : Keeps s0 s) (hf : ∀ t, Keeps s0 t → Keeps s0 (f t))
    (who : Agent) (o : Option Nat) (a : Nat) : Keeps s0 (State.ifOwned s who o a f) := by
  unfold State.ifOwned
  split
  · exact hf s h
  · exact keeps_ite (hf s h) (State.deny_keeps h _ _ _)

end Sys2Proof.Machine
end

