-- ==== Sys2Proof/Laws/KeepsLoops.lean ====
section
/-!
SUPPORT. What Loops.lean leaves untouched (Keeps), operation by operation.
-/

namespace Sys2Proof.Machine

open Sys2Proof

theorem State.setOut_keeps {s0 s : State} (h : Keeps s0 s) (l : ℕ) (d : LoopDesc) (v : ℤ) :
    Keeps s0 (State.setOut s l d v) := by
  unfold State.setOut
  lift_lets
  intro v1
  have h2 : Keeps s0 v1 := by
    dsimp only [v1]
    refine State.put_keeps ?_ _ _
    assumption
  clear_value v1
  intro v3
  have h4 : Keeps s0 v3 := by
    dsimp only [v3]
    split
    · refine State.send_keeps ?_ _
      assumption
    · assumption
  clear_value v3
  intro v5
  clear_value v5
  intro v6
  clear_value v6
  refine keeps_mk ?_ rfl rfl rfl
  assumption

theorem State.pin_keeps {s0 s : State} (h : Keeps s0 s) (l : ℕ) (d : LoopDesc) (side : ℕ) :
    Keeps s0 (State.pin s l d side) := by
  unfold State.pin
  lift_lets
  intro v1
  have h2 : Keeps s0 v1 := by
    dsimp only [v1]
    refine State.putB_keeps ?_ _ _
    refine State.putB_keeps ?_ _ _
    assumption
  clear_value v1
  intro v3
  clear_value v3
  refine keeps_ite ?_ ?_
  · assumption
  · refine State.when_keeps ?_ ?_ _
    · refine State.logDev_keeps ?_ _ _ _
      refine keeps_mk ?_ rfl rfl rfl
      assumption
    · intro y4 y5
      refine State.raisePf_keeps ?_ _
      assumption

theorem State.loopLog_keeps {s0 s : State} (h : Keeps s0 s) (l : ℕ) (code : ℕ) (data : ℕ) :
    Keeps s0 (State.loopLog s l code data) := by
  unfold State.loopLog
  refine State.when_keeps ?_ ?_ _
  · refine State.logDev_keeps ?_ _ _ _
    assumption
  · intro y1 y2
    refine State.raisePf_keeps ?_ _
    assumption

theorem State.unpin_keeps {s0 s : State} (h : Keeps s0 s) (d : LoopDesc) :
    Keeps s0 (State.unpin s d) := by
  unfold State.unpin
  refine State.putB_keeps ?_ _ _
  refine State.putB_keeps ?_ _ _
  assumption

theorem State.loopStep_keeps {s0 s : State} (h : Keeps s0 s) (l : ℕ) (want : ℤ) (held : Bool) :
    Keeps s0 (State.loopStep s l want held) := by
  unfold State.loopStep
  lift_lets
  intro v1
  clear_value v1
  intro v2
  clear_value v2
  intro v3
  clear_value v3
  intro v4
  clear_value v4
  intro v5
  have h6 : Keeps s0 v5 := by
    dsimp only [v5]
    refine State.putB_keeps ?_ _ _
    assumption
  clear_value v5
  refine keeps_ite ?_ ?_
  · refine State.putB_keeps ?_ _ _
    refine State.setOut_keeps ?_ _ _ _
    assumption
  · refine keeps_ite ?_ ?_
    · refine State.putB_keeps ?_ _ _
      refine State.setOut_keeps ?_ _ _ _
      assumption
    · refine keeps_ite ?_ ?_
      · assumption
      · refine keeps_ite ?_ ?_
        · refine keeps_ite ?_ ?_
          · refine State.pin_keeps ?_ _ _ _
            assumption
          · refine State.setOut_keeps ?_ _ _ _
            refine State.unpin_keeps ?_ _
            assumption
        · refine keeps_ite ?_ ?_
          · refine keeps_ite ?_ ?_
            · refine State.pin_keeps ?_ _ _ _
              assumption
            · refine State.setOut_keeps ?_ _ _ _
              refine State.unpin_keeps ?_ _
              assumption
          · refine State.unpin_keeps ?_ _
            assumption

theorem State.ifLoop_keeps {s0 s : State} {f : State → State} (h : Keeps s0 s) (hf : ∀ t, Keeps s0 t → Keeps s0 (f t)) (l a : ℕ) :
    Keeps s0 (State.ifLoop s l a f) := by
  unfold State.ifLoop
  exact keeps_ite (State.ifPresent_keeps h hf a) (hf s h)

theorem execLoopEnvWrite_keeps {s0 s : State} (h : Keeps s0 s) (loop : Fin 7) (data : Word) :
    KeepsO s0 (execLoopEnvWrite loop data s) := by
  unfold execLoopEnvWrite
  extract_lets +onlyGivenNames v1
  clear_value v1
  extract_lets +onlyGivenNames v2
  clear_value v2
  extract_lets +onlyGivenNames v3
  clear_value v3
  refine keepsO_next ?_
  refine State.ifLoop_keeps ?_ ?_ _ _
  · assumption
  · intro y4 y5
    refine keeps_ite ?_ ?_
    · refine State.loopLog_keeps ?_ _ _ _
      assumption
    · extract_lets +onlyGivenNames v6
      have h7 : Keeps s0 v6 := by
        dsimp only [v6]
        refine State.put_keeps ?_ _ _
        refine State.put_keeps ?_ _ _
        assumption
      clear_value v6
      extract_lets +onlyGivenNames v8
      have h9 : Keeps s0 v8 := by
        dsimp only [v8]
        refine State.setOut_keeps ?_ _ _ _
        assumption
      clear_value v8
      refine State.putB_keeps ?_ _ _
      assumption

theorem execLoopManWrite_keeps {s0 s : State} (h : Keeps s0 s) (loop : Fin 7) (data : Word) :
    KeepsO s0 (execLoopManWrite loop data s) := by
  unfold execLoopManWrite
  extract_lets +onlyGivenNames v1
  clear_value v1
  extract_lets +onlyGivenNames v2
  clear_value v2
  extract_lets +onlyGivenNames v3
  clear_value v3
  refine keepsO_next ?_
  refine State.ifLoop_keeps ?_ ?_ _ _
  · assumption
  · intro y4 y5
    refine keeps_ite ?_ ?_
    · refine State.setOut_keeps ?_ _ _ _
      refine State.put_keeps ?_ _ _
      assumption
    · refine State.loopLog_keeps ?_ _ _ _
      assumption

theorem execLoopHoldWrite_keeps {s0 s : State} (h : Keeps s0 s) (loop : Fin 7) (hold : Bool) :
    KeepsO s0 (execLoopHoldWrite loop hold s) := by
  unfold execLoopHoldWrite
  extract_lets +onlyGivenNames v1
  clear_value v1
  refine keepsO_next ?_
  refine State.ifLoop_keeps ?_ ?_ _ _
  · assumption
  · intro y2 y3
    refine keeps_ite ?_ ?_
    · refine State.mark_keeps ?_ _ _
      assumption
    · refine State.unmark_keeps ?_ _ _
      assumption

theorem execThresholdLoopStep_keeps {s0 s : State} (h : Keeps s0 s) :
    KeepsO s0 (execThresholdLoopStep s) := by
  unfold execThresholdLoopStep
  lift_lets
  intro v1
  clear_value v1
  intro v2
  have h3 : Keeps s0 v2 := by
    dsimp only [v2]
    refine State.loopStep_keeps ?_ _ _ _
    assumption
  clear_value v2
  intro v4
  clear_value v4
  refine keepsO_next ?_
  refine keeps_mk ?_ rfl rfl rfl
  assumption

end Sys2Proof.Machine
end

