-- ==== Sys2Proof/Laws/KeepsDsl.lean ====
section
/-!
SUPPORT. What Dsl.lean leaves untouched (Keeps), operation by operation.
-/

namespace Sys2Proof.Machine

open Sys2Proof

theorem State.alignRaw_keeps {s0 s : State} (h : Keeps s0 s) :
    Keeps s0 (State.alignRaw s) := by
  unfold State.alignRaw
  lift_lets
  intro v1
  clear_value v1
  intro v2
  clear_value v2
  intro v3
  clear_value v3
  refine State.lineRaw_keeps ?_ _
  assumption

theorem State.setCnt_keeps {s0 s : State} (h : Keeps s0 s) (b : Bool) :
    Keeps s0 (State.setCnt s b) := by
  unfold State.setCnt
  lift_lets
  intro v1
  clear_value v1
  refine State.verdict_keeps ?_ _
  refine State.alignRaw_keeps ?_
  refine State.putB_keeps ?_ _ _
  assumption

theorem State.setFrame_keeps {s0 s : State} (h : Keeps s0 s) (f : ℕ) :
    Keeps s0 (State.setFrame s f) := by
  unfold State.setFrame
  lift_lets
  intro v1
  clear_value v1
  intro v2
  clear_value v2
  intro v3
  have h4 : Keeps s0 v3 := by
    dsimp only [v3]
    refine State.put_keeps ?_ _ _
    assumption
  clear_value v3
  intro v5
  clear_value v5
  intro v6
  have h7 : Keeps s0 v6 := by
    dsimp only [v6]
    refine keeps_mk ?_ rfl rfl rfl
    assumption
  clear_value v6
  intro v8
  have h9 : Keeps s0 v8 := by
    dsimp only [v8]
    refine State.putB_keeps ?_ _ _
    assumption
  clear_value v8
  intro v10
  clear_value v10
  intro v11
  have h12 : Keeps s0 v11 := by
    dsimp only [v11]
    refine keeps_ite ?_ ?_
    · refine keeps_mk ?_ rfl rfl rfl
      assumption
    · refine keeps_ite ?_ ?_
      · refine keeps_mk ?_ rfl rfl rfl
        assumption
      · assumption
  clear_value v11
  refine State.verdict_keeps ?_ _
  refine State.alignRaw_keeps ?_
  assumption

theorem execMarkerWindowCheck_keeps {s0 s : State} (h : Keeps s0 s) (window : BitVec 64) :
    KeepsO s0 (execMarkerWindowCheck window s) := by
  unfold execMarkerWindowCheck
  extract_lets +onlyGivenNames v1
  clear_value v1
  extract_lets +onlyGivenNames v2
  clear_value v2
  extract_lets +onlyGivenNames v3
  have h4 : Keeps s0 v3 := by
    dsimp only [v3]
    refine keeps_mk ?_ rfl rfl rfl
    assumption
  clear_value v3
  extract_lets +onlyGivenNames v5
  clear_value v5
  extract_lets +onlyGivenNames v6
  have h7 : Keeps s0 v6 := by
    dsimp only [v6]
    refine keeps_mk ?_ rfl rfl rfl
    assumption
  clear_value v6
  refine keepsO_next ?_
  split
  · refine keeps_ite ?_ ?_
    · refine State.setFrame_keeps ?_ _
      assumption
    · refine keeps_ite ?_ ?_
      · refine State.setFrame_keeps ?_ _
        assumption
      · assumption
  · refine keeps_ite ?_ ?_
    · refine keeps_mk ?_ rfl rfl rfl
      assumption
    · refine keeps_ite ?_ ?_
      · refine State.setFrame_keeps ?_ _
        assumption
      · assumption
  · assumption

theorem execHuntMarkerMatch_keeps {s0 s : State} (h : Keeps s0 s) (window : BitVec 64) :
    KeepsO s0 (execHuntMarkerMatch window s) := by
  unfold execHuntMarkerMatch
  refine keepsO_ite ?_ ?_
  · refine keepsO_next ?_
    refine State.setFrame_keeps ?_ _
    assumption
  · refine keepsO_next ?_
    assumption

theorem State.countFec_keeps {s0 s : State} (h : Keeps s0 s) (c : FecCount) :
    Keeps s0 (State.countFec s c) := by
  unfold State.countFec
  lift_lets
  intro v1
  clear_value v1
  intro v2
  have h3 : Keeps s0 v2 := by
    dsimp only [v2]
    refine State.satBy_keeps ?_ _ _
    refine State.satBy_keeps ?_ _ _
    refine State.satBy_keeps ?_ _ _
    assumption
  clear_value v2
  intro v4
  clear_value v4
  refine keeps_mk ?_ rfl rfl rfl
  assumption

theorem State.adoptCount_keeps {s0 s : State} (h : Keeps s0 s) (v : ℕ) :
    Keeps s0 (State.adoptCount s v) := by
  unfold State.adoptCount
  refine keeps_mk ?_ rfl rfl rfl
  assumption

theorem State.countHunt_keeps {s0 s : State} (h : Keeps s0 s) (v : Option ℕ) :
    Keeps s0 (State.countHunt s v) := by
  unfold State.countHunt
  split
  · refine keeps_ite ?_ ?_
    · refine State.setCnt_keeps ?_ _
      refine State.adoptCount_keeps ?_ _
      assumption
    · refine keeps_mk ?_ rfl rfl rfl
      assumption
  · refine keeps_mk ?_ rfl rfl rfl
    assumption
  · refine keeps_mk ?_ rfl rfl rfl
    assumption

theorem State.countSync_keeps {s0 s : State} (h : Keeps s0 s) (v : Option ℕ) :
    Keeps s0 (State.countSync s v) := by
  unfold State.countSync
  lift_lets
  intro v1
  clear_value v1
  intro v2
  clear_value v2
  intro v3
  have h4 : Keeps s0 v3 := by
    dsimp only [v3]
    refine keeps_mk ?_ rfl rfl rfl
    assumption
  intro v5
  clear_value v5
  split
  · lift_lets
    intro v6
    have h7 : Keeps s0 v6 := by
      dsimp only [v6]
      refine State.sat_keeps ?_ _
      refine State.adoptCount_keeps ?_ _
      assumption
    clear_value v6
    intro v8
    clear_value v8
    intro v9
    have h10 : Keeps s0 v9 := by
      dsimp only [v9]
      refine keeps_mk ?_ rfl rfl rfl
      assumption
    clear_value v9
    refine keeps_ite ?_ ?_
    · refine State.logDev_keeps ?_ _ _ _
      assumption
    · refine keeps_mk ?_ rfl rfl rfl
      assumption
  · refine keeps_ite ?_ ?_
    · refine State.setCnt_keeps ?_ _
      refine keeps_mk ?_ rfl rfl rfl
      assumption
    · assumption

theorem State.tookLine_keeps {s0 s : State} (h : Keeps s0 s) (line : List Byte) :
    Keeps s0 (State.tookLine s line) := by
  unfold State.tookLine
  extract_lets +onlyGivenNames v1
  clear_value v1
  refine State.countFec_keeps ?_ _
  refine keeps_mk ?_ rfl rfl rfl
  assumption

theorem State.judgeCounter_keeps {s0 s : State} (h : Keeps s0 s) (b : Nat) :
    Keeps s0 (State.judgeCounter s b).1 := by
  unfold State.judgeCounter
  split
  · dsimp only
    refine State.sat_keeps ?_ _
    assumption
  · dsimp only
    assumption
  · dsimp only
    refine State.sat_keeps ?_ _
    assumption

theorem State.counted_keeps {s0 s : State} (h : Keeps s0 s) (v : Option Nat) :
    Keeps s0 (State.counted s v) := by
  unfold State.counted
  refine keeps_ite ?_ ?_
  · assumption
  · refine keeps_ite ?_ ?_
    · refine keeps_mk ?_ rfl rfl rfl
      assumption
    · refine keeps_ite ?_ ?_
      · refine State.countSync_keeps ?_ _
        assumption
      · refine State.countHunt_keeps ?_ _
        assumption

theorem execCounterBlock_keeps {s0 s : State} (h : Keeps s0 s) (line : List Byte) :
    KeepsO s0 (execCounterBlock line s) := by
  unfold execCounterBlock
  extract_lets +onlyGivenNames v1
  clear_value v1
  refine keepsO_next ?_
  refine keeps_ite ?_ ?_
  · assumption
  · extract_lets +onlyGivenNames v2
    have h3 : Keeps s0 v2 := by
      dsimp only [v2]
      refine State.tookLine_keeps ?_ _
      assumption
    clear_value v2
    refine keeps_ite ?_ ?_
    · extract_lets +onlyGivenNames v4
      have h5 : Keeps s0 v4.1 := by
        dsimp only [v4]
        refine State.judgeCounter_keeps ?_ _
        assumption
      clear_value v4
      refine State.counted_keeps ?_ _
      assumption
    · assumption

theorem execLosRaw_keeps {s0 s : State} (h : Keeps s0 s) (asserted : Bool) :
    KeepsO s0 (execLosRaw asserted s) := by
  unfold execLosRaw
  lift_lets
  intro v1
  have h2 : Keeps s0 v1 := by
    dsimp only [v1]
    refine State.setRaw_keeps ?_ _ _
    assumption
  clear_value v1
  refine keepsO_next ?_
  refine keeps_ite ?_ ?_
  · refine State.setFrame_keeps ?_ _
    assumption
  · assumption

theorem State.lolRaw_keeps {s0 s : State} (h : Keeps s0 s) (unlocked : Bool) :
    Keeps s0 (State.lolRaw s unlocked) := by
  unfold State.lolRaw
  lift_lets
  intro v1
  have h2 : Keeps s0 v1 := by
    dsimp only [v1]
    refine State.setRaw_keeps ?_ _ _
    assumption
  clear_value v1
  refine keeps_ite ?_ ?_
  · refine State.setFrame_keeps ?_ _
    assumption
  · assumption

theorem State.sfWindow_keeps {s0 s : State} (h : Keeps s0 s) :
    Keeps s0 (State.sfWindow s) := by
  unfold State.sfWindow
  lift_lets
  intro v1
  clear_value v1
  intro v2
  clear_value v2
  intro v3
  clear_value v3
  intro v4
  clear_value v4
  intro v5
  clear_value v5
  intro v6
  have h7 : Keeps s0 v6 := by
    dsimp only [v6]
    refine keeps_mk ?_ rfl rfl rfl
    assumption
  clear_value v6
  refine keeps_ite ?_ ?_
  · refine State.setRaw_keeps ?_ _ _
    assumption
  · refine keeps_ite ?_ ?_
    · refine State.setRaw_keeps ?_ _ _
      assumption
    · assumption

theorem State.sdWindow_keeps {s0 s : State} (h : Keeps s0 s) :
    Keeps s0 (State.sdWindow s) := by
  unfold State.sdWindow
  lift_lets
  intro v1
  clear_value v1
  refine keeps_ite ?_ ?_
  · refine State.setRaw_keeps ?_ _ _
    assumption
  · refine keeps_ite ?_ ?_
    · refine State.setRaw_keeps ?_ _ _
      assumption
    · assumption

theorem execBerWindowEnd_keeps {s0 s : State} (h : Keeps s0 s) (epoch : Bool) :
    KeepsO s0 (execBerWindowEnd epoch s) := by
  unfold execBerWindowEnd
  lift_lets
  intro v1
  clear_value v1
  intro v2
  have h3 : Keeps s0 v2 := by
    dsimp only [v2]
    refine keeps_ite ?_ ?_
    · refine State.sdWindow_keeps ?_
      assumption
    · assumption
  clear_value v2
  intro v4
  clear_value v4
  intro v5
  have h6 : Keeps s0 v5 := by
    dsimp only [v5]
    refine keeps_ite ?_ ?_
    · refine State.sfWindow_keeps ?_
      assumption
    · assumption
  clear_value v5
  intro v7
  clear_value v7
  refine keepsO_ite ?_ ?_
  · refine keepsO_next ?_
    refine keeps_mk ?_ rfl rfl rfl
    assumption
  · refine keepsO_next ?_
    refine keeps_mk ?_ rfl rfl rfl
    assumption

theorem State.takeGrant_keeps {s0 s : State} (h : Keeps s0 s) (map : List Byte) (bad : List ℕ) (i : ℕ) :
    Keeps s0 (State.takeGrant s map bad i) := by
  unfold State.takeGrant
  lift_lets
  intro v1
  clear_value v1
  intro v2
  clear_value v2
  intro v3
  clear_value v3
  refine keeps_ite ?_ ?_
  · refine State.sat_keeps ?_ _
    assumption
  · refine keeps_ite ?_ ?_
    · refine keeps_mk ?_ rfl rfl rfl
      assumption
    · assumption

theorem State.takeMsg_keeps {s0 s : State} (h : Keeps s0 s) (map : List Byte) (bad : List ℕ) (g : ℕ) (j : ℕ) :
    Keeps s0 (State.takeMsg s map bad g j) := by
  unfold State.takeMsg
  lift_lets
  intro v1
  clear_value v1
  intro v2
  clear_value v2
  intro v3
  clear_value v3
  refine keeps_ite ?_ ?_
  · refine State.sat_keeps ?_ _
    assumption
  · refine keeps_ite ?_ ?_
    · refine State.sat_keeps ?_ _
      refine keeps_mk ?_ rfl rfl rfl
      assumption
    · assumption

theorem State.takeMap_keeps {s0 s : State} (h : Keeps s0 s) (map : List Byte) (bad : List ℕ) :
    Keeps s0 (State.takeMap s map bad) := by
  unfold State.takeMap
  lift_lets
  intro v1
  clear_value v1
  intro v2
  clear_value v2
  intro v3
  clear_value v3
  intro v4
  have h5 : Keeps s0 v4 := by
    dsimp only [v4]
    refine State.limDev_keeps ?_ _ _ _
    refine State.sat_keeps ?_ _
    assumption
  clear_value v4
  intro v6
  clear_value v6
  intro v7
  clear_value v7
  intro v8
  have h9 : Keeps s0 v8 := by
    dsimp only [v8]
    refine keeps_mk ?_ rfl rfl rfl
    assumption
  clear_value v8
  intro v10
  have h11 : Keeps s0 v10 := by
    dsimp only [v10]
    refine State.each_keeps ?_ ?_ _
    · assumption
    · intro y12 y13 y14
      refine State.takeGrant_keeps ?_ _ _ _
      assumption
  clear_value v10
  refine keeps_ite ?_ ?_
  · refine keeps_mk ?_ rfl rfl rfl
    assumption
  · refine State.each_keeps ?_ ?_ _
    · assumption
    · intro y15 y16 y17
      refine State.takeMsg_keeps ?_ _ _ _ _
      assumption

theorem execPhaseMap_keeps {s0 s : State} (h : Keeps s0 s) (cycles : Nat) (waited : Nat) :
    KeepsO s0 (execPhaseMap cycles waited s) := by
  unfold execPhaseMap
  refine keepsO_ite ?_ ?_
  · refine keepsO_next ?_
    refine State.phaseUsedAfter_keeps ?_ _ _ _
    refine State.takeMap_keeps ?_ _ _
    assumption
  · refine keepsO_next ?_
    refine State.phaseUsed_keeps ?_ _ _
    assumption

theorem State.modPair_keeps {s0 s : State} (h : Keeps s0 s) (k : ℕ) (g : KeyPair → KeyPair) :
    Keeps s0 (State.modPair s k g) := by
  unfold State.modPair
  refine keeps_mk ?_ rfl rfl rfl
  assumption

theorem State.keyEpoch_keeps {s0 s : State} (h : Keeps s0 s) (m : List Byte) :
    Keeps s0 (State.keyEpoch s m) := by
  unfold State.keyEpoch
  lift_lets
  intro v1
  clear_value v1
  intro v2
  clear_value v2
  intro v3
  clear_value v3
  intro v4
  clear_value v4
  intro v5
  have h6 : Keeps s0 v5 := by
    dsimp only [v5]
    refine State.modPair_keeps ?_ _ _
    assumption
  clear_value v5
  refine keeps_ite ?_ ?_
  · refine State.logDev_keeps ?_ _ _ _
    assumption
  · refine keeps_ite ?_ ?_
    · refine keeps_ite ?_ ?_
      · refine State.logDev_keeps ?_ _ _ _
        refine State.modPair_keeps ?_ _ _
        assumption
      · assumption
    · refine keeps_ite ?_ ?_
      · assumption
      · refine keeps_ite ?_ ?_
        · refine State.logDev_keeps ?_ _ _ _
          assumption
        · assumption

theorem State.switchParity_keeps {s0 s : State} (h : Keeps s0 s) (k : ℕ) (p : ℕ) (f : ℕ) :
    Keeps s0 (State.switchParity s k p f) := by
  unfold State.switchParity
  refine State.modPair_keeps ?_ _ _
  refine State.put_keeps ?_ _ _
  assumption

theorem execKeyEpochSwitch_keeps {s0 s : State} (h : Keeps s0 s) (pair : Fin 32) :
    KeepsO s0 (execKeyEpochSwitch pair s) := by
  unfold execKeyEpochSwitch
  split
  · refine keepsO_next ?_
    refine keeps_ite ?_ ?_
    · refine State.switchParity_keeps ?_ _ _ _
      assumption
    · assumption
  · refine keepsO_next ?_
    assumption

theorem execKeyImplicit_keeps {s0 s : State} (h : Keeps s0 s) (pair : Fin 32) :
    KeepsO s0 (execKeyImplicit pair s) := by
  unfold execKeyImplicit
  split
  · refine keepsO_next ?_
    refine State.sat_keeps ?_ _
    refine State.switchParity_keeps ?_ _ _ _
    assumption
  · refine keepsO_next ?_
    assumption

theorem execDslFidWrite_keeps {s0 s : State} (h : Keeps s0 s) (n : Fin 1024) (data : Word) :
    KeepsO s0 (execDslFidWrite n data s) := by
  unfold execDslFidWrite
  lift_lets
  intro v1
  clear_value v1
  intro v2
  clear_value v2
  intro v3
  clear_value v3
  refine keepsO_ite ?_ ?_
  · refine keepsO_next ?_
    refine State.logDev_keeps ?_ _ _ _
    assumption
  · refine keepsO_ite ?_ ?_
    · refine keepsO_next ?_
      refine State.logDev_keeps ?_ _ _ _
      assumption
    · refine keepsO_next ?_
      refine keeps_mk ?_ rfl rfl rfl
      assumption

theorem State.writeLimited_keeps {s0 s : State} (h : Keeps s0 s) (r : LimRec) :
    Keeps s0 (State.writeLimited s r) := by
  unfold State.writeLimited
  refine keeps_ite ?_ ?_
  · extract_lets +onlyGivenNames v1
    have h2 : Keeps s0 v1 := by
      dsimp only [v1]
      refine State.logDevN_keeps ?_ _ _ _ _
      assumption
    clear_value v1
    split
    · refine State.raisePf_keeps ?_ _
      assumption
    · assumption
  · refine State.when_keeps ?_ ?_ _
    · refine State.logNicheN_keeps ?_ _ _ _ _
      assumption
    · intro y3 y4
      refine State.raiseNiche_keeps ?_ _ _
      assumption

theorem execMultiframeEnd_keeps {s0 s : State} (h : Keeps s0 s) :
    KeepsO s0 (execMultiframeEnd s) := by
  unfold execMultiframeEnd
  extract_lets +onlyGivenNames v1
  clear_value v1
  extract_lets +onlyGivenNames v2
  clear_value v2
  extract_lets +onlyGivenNames v3
  have h4 : Keeps s0 v3 := by
    dsimp only [v3]
    refine keeps_mk ?_ rfl rfl rfl
    assumption
  clear_value v3
  refine keepsO_next ?_
  refine State.each_keeps ?_ ?_ _
  · assumption
  · intro y5 y6 y7
    refine State.writeLimited_keeps ?_ _
    assumption

end Sys2Proof.Machine
end

