-- ==== Sys2Proof/Laws/KeepsUsl.lean ====
section
/-!
SUPPORT. What Usl.lean leaves untouched (Keeps), operation by operation.
-/

namespace Sys2Proof.Machine

open Sys2Proof

theorem State.forfeit_keeps {s0 s : State} (h : Keeps s0 s) (cause : ℕ) (g : UpGrant) :
    Keeps s0 (State.forfeit s cause g) := by
  unfold State.forfeit
  extract_lets +onlyGivenNames v1
  have h2 : Keeps s0 v1 := by
    dsimp only [v1]
    refine State.sat_keeps ?_ _
    assumption
  clear_value v1
  extract_lets +onlyGivenNames v3
  have h4 : Keeps s0 v3 := by
    dsimp only [v3]
    refine keeps_ite ?_ ?_
    · refine State.limDev_keeps ?_ _ _ _
      assumption
    · assumption
  clear_value v3
  split
  · extract_lets +onlyGivenNames v5
    have h6 : Keeps s0 v5 := by
      dsimp only [v5]
      refine State.sat_keeps ?_ _
      assumption
    clear_value v5
    refine keeps_mk ?_ rfl rfl rfl
    assumption
  · assumption

theorem State.plan_keeps {s0 s : State} (h : Keeps s0 s) (fc : ℕ) (c : List UpGrant) :
    Keeps s0 (State.plan s fc c) := by
  unfold State.plan
  split
  · assumption
  · extract_lets +onlyGivenNames v1
    clear_value v1
    refine keeps_mk ?_ rfl rfl rfl
    assumption

theorem State.govern_keeps {s0 s : State} (h : Keeps s0 s) (fc : Nat) :
    Keeps s0 (State.govern s fc) := by
  unfold State.govern
  extract_lets +onlyGivenNames v1
  clear_value v1
  refine keeps_mk ?_ rfl rfl rfl
  assumption

theorem State.noteGrant_keeps {s0 s : State} (h : Keeps s0 s) (fc : Nat) (b : Bool) :
    Keeps s0 (State.noteGrant s fc b) := by
  unfold State.noteGrant
  refine keeps_ite ?_ ?_
  · refine keeps_mk ?_ rfl rfl rfl
    assumption
  · assumption

theorem State.schedule_keeps {s0 s : State} (h : Keeps s0 s) :
    Keeps s0 (State.schedule s) := by
  unfold State.schedule
  extract_lets +onlyGivenNames v1
  clear_value v1
  extract_lets +onlyGivenNames v2
  clear_value v2
  extract_lets +onlyGivenNames v3
  clear_value v3
  extract_lets +onlyGivenNames v4
  clear_value v4
  extract_lets +onlyGivenNames v5
  have h6 : Keeps s0 v5 := by
    dsimp only [v5]
    refine State.each_keeps ?_ ?_ _
    · refine State.noteGrant_keeps ?_ _ _
      assumption
    · intro y7 y8 y9
      split
      · refine State.forfeit_keeps ?_ _ _
        assumption
      · assumption
  clear_value v5
  split
  rename_i e10 e11 e12 e13
  extract_lets +onlyGivenNames v14
  have h15 : Keeps s0 v14 := by
    dsimp only [v14]
    refine State.each_keeps ?_ ?_ _
    · assumption
    · intro y16 y17 y18
      refine State.forfeit_keeps ?_ _ _
      assumption
  clear_value v14
  extract_lets +onlyGivenNames v19
  clear_value v19
  refine State.nextColour_keeps ?_
  refine State.each_keeps ?_ ?_ _
  · assumption
  · intro y20 y21 y22
    refine State.plan_keeps ?_ _ _
    assumption

theorem execPhaseGrant_keeps {s0 s : State} (h : Keeps s0 s) (cycles : Nat) (waited : Nat) :
    KeepsO s0 (execPhaseGrant cycles waited s) := by
  unfold execPhaseGrant
  extract_lets +onlyGivenNames v1
  have h2 : Keeps s0 v1 := by
    dsimp only [v1]
    refine State.govern_keeps ?_ _
    assumption
  clear_value v1
  refine keepsO_ite ?_ ?_
  · refine keepsO_next ?_
    refine State.phaseUsedAfter_keeps ?_ _ _ _
    refine State.schedule_keeps ?_
    assumption
  · extract_lets +onlyGivenNames v3
    clear_value v3
    refine keepsO_next ?_
    refine State.phaseUsed_keeps ?_ _ _
    refine State.satBy_keeps ?_ _ _
    refine State.noteGrant_keeps ?_ _ _
    assumption

theorem State.modBurst_keeps {s0 s : State} (h : Keeps s0 s) (id : ℕ) (g : Burst → Burst) :
    Keeps s0 (State.modBurst s id g) := by
  unfold State.modBurst
  refine keeps_mk ?_ rfl rfl rfl
  assumption

theorem State.restoreSdu_keeps {s0 s : State} (h : Keeps s0 s) (x : CutSdu) :
    Keeps s0 (State.restoreSdu s x) := by
  unfold State.restoreSdu
  extract_lets +onlyGivenNames v1
  have h2 : Keeps s0 v1 := by
    dsimp only [v1]
    refine State.countQid_keeps ?_ _ _ _
    assumption
  clear_value v1
  split
  · refine State.countQid_keeps ?_ _ _ _
    assumption
  · extract_lets +onlyGivenNames v3
    have h4 : Keeps s0 v3 := by
      dsimp only [v3]
      refine State.modSdu_keeps ?_ _ _
      assumption
    clear_value v3
    extract_lets +onlyGivenNames v5
    clear_value v5
    refine keeps_ite ?_ ?_
    · refine State.dropQueued_keeps ?_ _
      refine State.ncnt_keeps ?_ _ _
      assumption
    · assumption

theorem State.restoreMember_keeps {s0 s : State} (h : Keeps s0 s) (x : MemberSdu × Nat) :
    Keeps s0 (State.restoreMember s x) := by
  unfold State.restoreMember
  extract_lets +onlyGivenNames v1
  clear_value v1
  refine keeps_mk ?_ rfl rfl rfl
  assumption

theorem State.undoCut_keeps {s0 s : State} (h : Keeps s0 s) (b : Burst) :
    Keeps s0 (State.undoCut s b) := by
  unfold State.undoCut
  extract_lets +onlyGivenNames v1
  have h2 : Keeps s0 v1 := by
    dsimp only [v1]
    refine State.each_keeps ?_ ?_ _
    · assumption
    · intro y3 y4 y5
      refine State.restoreSdu_keeps ?_ _
      assumption
  clear_value v1
  extract_lets +onlyGivenNames v6
  have h7 : Keeps s0 v6 := by
    dsimp only [v6]
    refine State.each_keeps ?_ ?_ _
    · assumption
    · intro y8 y9 y10
      refine State.restoreMember_keeps ?_ _
      assumption
  clear_value v6
  extract_lets +onlyGivenNames v11
  clear_value v11
  refine keeps_mk ?_ rfl rfl rfl
  assumption

theorem State.dropBurst_keeps {s0 s : State} (h : Keeps s0 s) (b : Burst) :
    Keeps s0 (State.dropBurst s b) := by
  unfold State.dropBurst
  extract_lets +onlyGivenNames v1
  have h2 : Keeps s0 v1 := by
    dsimp only [v1]
    refine State.undoCut_keeps ?_ _
    assumption
  clear_value v1
  refine State.nextColour_keeps ?_
  refine keeps_mk ?_ rfl rfl rfl
  assumption

theorem State.forfeitBurst_keeps {s0 s : State} (h : Keeps s0 s) (cause : Nat) (b : Burst) :
    Keeps s0 (State.forfeitBurst s cause b) := by
  unfold State.forfeitBurst
  refine State.dropBurst_keeps ?_ _
  refine State.each_keeps ?_ ?_ _
  · assumption
  · intro y1 y2 y3
    refine State.forfeit_keeps ?_ _ _
    assumption

theorem State.guard_keeps {s0 s t : State} (h : Keeps s0 s) (b : Burst) (e : s.guard b = some t) : Keeps s0 t := by
  unfold State.guard at e
  split at e
  · cases e
    exact State.dropBurst_keeps h _
  · split at e
    · cases e
      exact State.dropBurst_keeps (State.satBy_keeps h _ _) _
    · obtain ⟨c, -, e⟩ := Option.map_eq_some_iff.mp e
      cases e
      exact State.forfeitBurst_keeps h _ _

theorem execPllLockTest_keeps {s0 s : State} (h : Keeps s0 s) (burst : Nat) :
    KeepsO s0 (execPllLockTest burst s) := by
  unfold execPllLockTest
  split
  · refine keepsO_next ?_
    assumption
  · refine keepsO_ite ?_ ?_
    · refine keepsO_next ?_
      assumption
    · split
      · rename_i e1 e2 e3 e4 s5 e6
        refine keepsO_next ?_
        with_reducible exact State.guard_keeps (by assumption) _ (by assumption)
      · refine keepsO_ite ?_ ?_
        · refine keepsO_next ?_
          refine State.modBurst_keeps ?_ _ _
          assumption
        · refine keepsO_next ?_
          refine State.forfeitBurst_keeps ?_ _ _
          refine State.limDev_keeps ?_ _ _ _
          assumption

theorem State.takeFrom_keeps {s0 s : State} (h : Keeps s0 s) (x : FragSource) (n : Nat) :
    Keeps s0 (State.takeFrom s x n) := by
  unfold State.takeFrom
  extract_lets +onlyGivenNames v1
  have h2 : Keeps s0 v1 := by
    dsimp only [v1]
    split
    · refine State.modSdu_keeps ?_ _ _
      assumption
    · assumption
  clear_value v1
  split
  · refine keeps_mk ?_ rfl rfl rfl
    assumption
  · assumption

theorem cutStep_keeps {s0 : State} {a : State × CutAcc} (h : Keeps s0 a.1) (x : FragSource) :
    Keeps s0 (cutStep a x).1 := by
  obtain ⟨s, c⟩ := a
  unfold cutStep
  dsimp only
  generalize (8 + if s.on (USL_FID_enc x.flow) = true then 8 else 0) = oh
  split
  · exact h
  · split
    · exact h
    · refine State.takeFrom_keeps ?_ _ _
      split
      · exact State.countQid_keeps h _ _ _
      · exact h

theorem State.cutGrant_keeps {s0 s : State} (h : Keeps s0 s) (room : Nat) (g : UpGrant) (only : Bool) :
    Keeps s0 (State.cutGrant s room g only).1 := by
  unfold State.cutGrant
  dsimp only
  refine keeps_ite_fst ?_ ?_
  · dsimp only
    assumption
  · dsimp only
    refine keeps_foldl_fst ?_ ?_ _
    · dsimp only
      assumption
    · intro y1 y2 y3
      refine cutStep_keeps ?_ _
      assumption

theorem State.cutMsg_keeps {s0 s : State} (h : Keeps s0 s) (b : Burst) :
    Keeps s0 (State.cutMsg s b).1 := by
  unfold State.cutMsg
  split
  · assumption
  · dsimp only
    refine keeps_mk ?_ rfl rfl rfl
    assumption
  · split
    · split
      · dsimp only
        refine keeps_mk ?_ rfl rfl rfl
        assumption
      · assumption
    · assumption

theorem State.cutGrants_keeps {s0 s : State} (h : Keeps s0 s) (b : Burst) (only : Bool) :
    Keeps s0 (State.cutGrants s b only).1 := by
  unfold State.cutGrants
  dsimp only
  refine keeps_foldl_fst ?_ ?_ _
  · dsimp only
    assumption
  · intro y1 y2 y3
    dsimp only
    refine State.cutGrant_keeps ?_ _ _ _
    assumption

theorem execBurstCut_keeps {s0 s : State} (h : Keeps s0 s) (burst : Nat) :
    KeepsO s0 (execBurstCut burst s) := by
  unfold execBurstCut
  split
  · refine keepsO_next ?_
    assumption
  · refine keepsO_ite ?_ ?_
    · refine keepsO_next ?_
      assumption
    · split
      · rename_i e1 e2 e3 e4 s5 e6
        refine keepsO_next ?_
        with_reducible exact State.guard_keeps (by assumption) _ (by assumption)
      · refine keepsO_ite ?_ ?_
        · refine keepsO_next ?_
          refine State.forfeitBurst_keeps ?_ _ _
          assumption
        · extract_lets +onlyGivenNames v7
          clear_value v7
          extract_lets +onlyGivenNames v8
          clear_value v8
          extract_lets +onlyGivenNames v9
          have h10 : Keeps s0 v9.1 := by
            dsimp only [v9]
            refine State.cutMsg_keeps ?_ _
            assumption
          clear_value v9
          extract_lets +onlyGivenNames v11
          have h12 : Keeps s0 v11.1 := by
            dsimp only [v11]
            refine State.cutGrants_keeps ?_ _ _
            assumption
          clear_value v11
          refine keepsO_next ?_
          refine State.modBurst_keeps ?_ _ _
          assumption

theorem State.countSend_keeps {s0 s : State} (h : Keeps s0 s) (m : UpMsg) :
    Keeps s0 (State.countSend s m) := by
  unfold State.countSend
  refine keeps_mk ?_ rfl rfl rfl
  assumption

theorem State.sealBurst_keeps {s0 s : State} (h : Keeps s0 s) (b : Burst) :
    Keeps s0 (State.sealBurst s b).1 := by
  unfold State.sealBurst
  dsimp only
  refine keeps_mk ?_ rfl rfl rfl
  assumption

theorem State.sentWith_keeps {s0 s : State} (h : Keeps s0 s) (b : Burst) :
    Keeps s0 (State.sentWith s b) := by
  unfold State.sentWith
  extract_lets +onlyGivenNames v1
  clear_value v1
  extract_lets +onlyGivenNames v2
  clear_value v2
  refine keeps_mk ?_ rfl rfl rfl
  assumption

theorem execBurstStart_keeps {s0 s : State} (h : Keeps s0 s) (burst : Nat) :
    KeepsO s0 (execBurstStart burst s) := by
  unfold execBurstStart
  split
  · refine keepsO_next ?_
    assumption
  · refine keepsO_ite ?_ ?_
    · refine keepsO_next ?_
      assumption
    · split
      · rename_i e1 e2 e3 e4 s5 e6
        refine keepsO_next ?_
        with_reducible exact State.guard_keeps (by assumption) _ (by assumption)
      · refine keepsO_ite ?_ ?_
        · refine keepsO_next ?_
          refine State.forfeitBurst_keeps ?_ _ _
          assumption
        · extract_lets +onlyGivenNames v7
          clear_value v7
          extract_lets +onlyGivenNames v8
          clear_value v8
          extract_lets +onlyGivenNames v9
          have h10 : Keeps s0 v9 := by
            dsimp only [v9]
            refine keeps_ite ?_ ?_
            · refine keeps_ite ?_ ?_
              · refine State.put_keeps ?_ _ _
                assumption
              · refine State.put_keeps ?_ _ _
                assumption
            · assumption
          clear_value v9
          extract_lets +onlyGivenNames v11
          have h12 : Keeps s0 v11 := by
            dsimp only [v11]
            split
            · refine State.countSend_keeps ?_ _
              assumption
            · assumption
          clear_value v11
          extract_lets +onlyGivenNames v13
          have h14 : Keeps s0 v13 := by
            dsimp only [v13]
            refine keeps_ite ?_ ?_
            · refine State.sat_keeps ?_ _
              assumption
            · assumption
          clear_value v13
          extract_lets +onlyGivenNames v15
          have h16 : Keeps s0 v15 := by
            dsimp only [v15]
            refine State.put_keeps ?_ _ _
            assumption
          clear_value v15
          extract_lets +onlyGivenNames v17
          clear_value v17
          extract_lets +onlyGivenNames v18
          clear_value v18
          extract_lets +onlyGivenNames v19
          have h20 : Keeps s0 v19 := by
            dsimp only [v19]
            refine keeps_mk ?_ rfl rfl rfl
            assumption
          clear_value v19
          extract_lets +onlyGivenNames v21
          have h22 : Keeps s0 v21.1 := by
            dsimp only [v21]
            refine State.sealBurst_keeps ?_ _
            refine State.sentWith_keeps ?_ _
            assumption
          clear_value v21
          refine keepsO_next ?_
          refine State.modBurst_keeps ?_ _ _
          assumption

theorem State.accrue_keeps {s0 s : State} (h : Keeps s0 s) (b : Burst) :
    Keeps s0 (State.accrue s b) := by
  unfold State.accrue
  extract_lets +onlyGivenNames v1
  clear_value v1
  extract_lets +onlyGivenNames v2
  clear_value v2
  extract_lets +onlyGivenNames v3
  clear_value v3
  refine keeps_mk ?_ rfl rfl rfl
  assumption

theorem State.oweUsl_keeps {s0 s : State} (h : Keeps s0 s) (k : Nat) (n : Nat) :
    Keeps s0 (State.oweUsl s k n) := by
  unfold State.oweUsl
  refine keeps_mk ?_ rfl rfl rfl
  assumption

theorem State.uslEdge_keeps {s0 s : State} (h : Keeps s0 s) :
    Keeps s0 (State.uslEdge s) := by
  unfold State.uslEdge
  extract_lets +onlyGivenNames v1
  have h2 : Keeps s0 v1 := by
    dsimp only [v1]
    refine State.each_keeps ?_ ?_ _
    · assumption
    · intro y3 y4 y5
      refine State.satBy_keeps ?_ _ _
      assumption
  clear_value v1
  refine keeps_mk ?_ rfl rfl rfl
  assumption

theorem State.countMembers_keeps {s0 s : State} (h : Keeps s0 s) (b : Burst) :
    Keeps s0 (State.countMembers s b) := by
  unfold State.countMembers
  refine State.each_keeps ?_ ?_ _
  · assumption
  · intro y1 y2 y3
    refine keeps_ite ?_ ?_
    · refine State.sat_keeps ?_ _
      assumption
    · refine State.sat_keeps ?_ _
      assumption

theorem execBurstEnd_keeps {s0 s : State} (h : Keeps s0 s) (burst : Nat) :
    KeepsO s0 (execBurstEnd burst s) := by
  unfold execBurstEnd
  split
  · refine keepsO_next ?_
    assumption
  · refine keepsO_ite ?_ ?_
    · refine keepsO_next ?_
      assumption
    · extract_lets +onlyGivenNames v1
      clear_value v1
      extract_lets +onlyGivenNames v2
      clear_value v2
      extract_lets +onlyGivenNames v3
      have h4 : Keeps s0 v3 := by
        dsimp only [v3]
        refine State.send_keeps ?_ _
        assumption
      clear_value v3
      extract_lets +onlyGivenNames v5
      have h6 : Keeps s0 v5 := by
        dsimp only [v5]
        refine State.oweUsl_keeps ?_ _ _
        refine State.oweUsl_keeps ?_ _ _
        refine State.oweUsl_keeps ?_ _ _
        assumption
      clear_value v5
      extract_lets +onlyGivenNames v7
      have h8 : Keeps s0 v7 := by
        dsimp only [v7]
        refine State.countMembers_keeps ?_ _
        refine State.oweUsl_keeps ?_ _ _
        refine State.oweUsl_keeps ?_ _ _
        assumption
      clear_value v7
      extract_lets +onlyGivenNames v9
      clear_value v9
      extract_lets +onlyGivenNames v10
      have h11 : Keeps s0 v10 := by
        dsimp only [v10]
        refine keeps_mk ?_ rfl rfl rfl
        assumption
      clear_value v10
      extract_lets +onlyGivenNames v12
      have h13 : Keeps s0 v12 := by
        dsimp only [v12]
        refine State.each_keeps ?_ ?_ _
        · assumption
        · intro y14 y15 y16
          split
          · refine keeps_ite ?_ ?_
            · refine State.release_keeps ?_ _
              assumption
            · assumption
          · assumption
      clear_value v12
      extract_lets +onlyGivenNames v17
      have h18 : Keeps s0 v17 := by
        dsimp only [v17]
        refine keeps_ite ?_ ?_
        · refine State.accrue_keeps ?_ _
          assumption
        · assumption
      clear_value v17
      refine keepsO_next ?_
      refine State.nextColour_keeps ?_
      refine State.syncLaser_keeps ?_
      refine State.put_keeps ?_ _ _
      assumption

theorem execPllRelockDone_keeps {s0 s : State} (h : Keeps s0 s) : KeepsO s0 (execPllRelockDone s) := by
  have h1 : Keeps s0 { s.putB USL_STATUS_pll_lock true with usl := { s.usl with relock := none } } :=
    keeps_mk (State.putB_keeps h _ _) rfl rfl rfl
  exact keepsO_ite (keepsO_next h) (keepsO_next (keeps_ite (State.put_keeps h1 _ _) h1))

theorem execLolRaw_keeps {s0 s : State} (h : Keeps s0 s) (unlocked : Bool) :
    KeepsO s0 (execLolRaw unlocked s) := by
  unfold execLolRaw
  extract_lets +onlyGivenNames v1
  have h2 : Keeps s0 v1 := by
    dsimp only [v1]
    refine State.lolRaw_keeps ?_ _
    assumption
  clear_value v1
  refine keepsO_next ?_
  refine keeps_ite ?_ ?_
  · refine State.startRelock_keeps ?_
    assumption
  · assumption

theorem execStandingGrant_keeps {s0 s : State} (h : Keeps s0 s) (msg : List Byte) :
    KeepsO s0 (execStandingGrant msg s) := by
  unfold execStandingGrant
  refine keepsO_ite ?_ ?_
  · refine keepsO_next ?_
    assumption
  · extract_lets +onlyGivenNames v1
    have h2 : Keeps s0 v1 := by
      dsimp only [v1]
      refine State.tookMsg_keeps ?_ _
      assumption
    clear_value v1
    refine keepsO_ite ?_ ?_
    · refine keepsO_next ?_
      refine State.ackMsg_keeps ?_ _ _ _
      assumption
    · refine keepsO_ite ?_ ?_
      · refine keepsO_next ?_
        refine State.ackMsg_keeps ?_ _ _ _
        refine State.logDev_keeps ?_ _ _ _
        assumption
      · refine keepsO_next ?_
        refine State.ackMsg_keeps ?_ _ _ _
        refine State.setChange_keeps ?_ _ _
        assumption

theorem State.upBlocked_keeps {s0 s : State} (h : Keeps s0 s) :
    Keeps s0 (State.upBlocked s) := by
  unfold State.upBlocked
  refine State.each_keeps ?_ ?_ _
  · assumption
  · intro y1 y2 y3
    extract_lets +onlyGivenNames v4
    clear_value v4
    refine keeps_ite ?_ ?_
    · assumption
    · extract_lets +onlyGivenNames v5
      clear_value v5
      extract_lets +onlyGivenNames v6
      have h7 : Keeps s0 v6 := by
        dsimp only [v6]
        refine State.setMem_keeps ?_ _ _
        assumption
      clear_value v6
      refine State.when_keeps ?_ ?_ _
      · assumption
      · intro y8 y9
        refine State.dropMembers_keeps ?_ _
        refine State.logDev_keeps ?_ _ _ _
        assumption

theorem execStandingGrantApply_keeps {s0 s : State} (h : Keeps s0 s) (index : Fin 8) :
    KeepsO s0 (execStandingGrantApply index s) := by
  unfold execStandingGrantApply
  split
  · refine keepsO_next ?_
    assumption
  · refine keepsO_ite ?_ ?_
    · refine keepsO_next ?_
      assumption
    · refine keepsO_next ?_
      refine State.upBlocked_keeps ?_
      refine State.syncBound_keeps ?_
      refine State.setChange_keeps ?_ _ _
      refine State.setStanding_keeps ?_ _ _
      assumption

theorem execStandingRemoveOnAlloc_keeps {s0 s : State} (h : Keeps s0 s) (index : Fin 8) :
    KeepsO s0 (execStandingRemoveOnAlloc index s) := by
  unfold execStandingRemoveOnAlloc
  extract_lets +onlyGivenNames v1
  clear_value v1
  extract_lets +onlyGivenNames v2
  clear_value v2
  refine keepsO_ite ?_ ?_
  · extract_lets +onlyGivenNames v3
    clear_value v3
    extract_lets +onlyGivenNames v4
    have h5 : Keeps s0 v4 := by
      dsimp only [v4]
      refine keeps_mk ?_ rfl rfl rfl
      assumption
    clear_value v4
    extract_lets +onlyGivenNames v6
    have h7 : Keeps s0 v6 := by
      dsimp only [v6]
      refine State.when_keeps ?_ ?_ _
      · assumption
      · intro y8 y9
        refine State.setStanding_keeps ?_ _ _
        assumption
    clear_value v6
    extract_lets +onlyGivenNames v10
    have h11 : Keeps s0 v10 := by
      dsimp only [v10]
      refine State.syncBound_keeps ?_
      refine State.when_keeps ?_ ?_ _
      · assumption
      · intro y12 y13
        refine State.setChange_keeps ?_ _ _
        assumption
    clear_value v10
    refine keepsO_next ?_
    refine State.logDev_keeps ?_ _ _ _
    assumption
  · refine keepsO_next ?_
    assumption

theorem State.markRemovals_keeps {s0 s : State} (h : Keeps s0 s) (aid : ℕ) :
    Keeps s0 (State.markRemovals s aid) := by
  unfold State.markRemovals
  extract_lets +onlyGivenNames v1
  clear_value v1
  refine keeps_mk ?_ rfl rfl rfl
  assumption

theorem execRogueDetect_keeps {s0 s : State} (h : Keeps s0 s) :
    KeepsO s0 (execRogueDetect s) := by
  unfold execRogueDetect
  refine keepsO_ite ?_ ?_
  · refine keepsO_next ?_
    assumption
  · extract_lets +onlyGivenNames v1
    clear_value v1
    extract_lets +onlyGivenNames v2
    clear_value v2
    extract_lets +onlyGivenNames v3
    have h4 : Keeps s0 v3 := by
      dsimp only [v3]
      refine keeps_mk ?_ rfl rfl rfl
      assumption
    clear_value v3
    extract_lets +onlyGivenNames v5
    have h6 : Keeps s0 v5 := by
      dsimp only [v5]
      refine State.sat_keeps ?_ _
      refine State.put_keeps ?_ _ _
      assumption
    clear_value v5
    extract_lets +onlyGivenNames v7
    have h8 : Keeps s0 v7 := by
      dsimp only [v7]
      refine keeps_ite ?_ ?_
      · refine State.putB_keeps ?_ _ _
        assumption
      · assumption
    clear_value v7
    extract_lets +onlyGivenNames v9
    have h10 : Keeps s0 v9 := by
      dsimp only [v9]
      refine State.each_keeps ?_ ?_ _
      · assumption
      · intro y11 y12 y13
        refine State.send_keeps ?_ _
        assumption
    clear_value v9
    refine keepsO_next ?_
    refine State.setSafe_keeps ?_ _ _
    refine State.raisePf_keeps ?_ _
    refine State.logDev_keeps ?_ _ _ _
    assumption

theorem execUslSafeClr_keeps {s0 s : State} (h : Keeps s0 s) (dark : Bool) :
    KeepsO s0 (execUslSafeClr dark s) := by
  unfold execUslSafeClr
  refine keepsO_next ?_
  refine keeps_ite ?_ ?_
  · refine State.setSafe_keeps ?_ _ _
    assumption
  · assumption

theorem execApcCalibration_keeps {s0 s : State} (h : Keeps s0 s) (colour : Fin 2) :
    KeepsO s0 (execApcCalibration colour s) := by
  unfold execApcCalibration
  extract_lets +onlyGivenNames v1
  clear_value v1
  refine keepsO_ite ?_ ?_
  · extract_lets +onlyGivenNames v2
    clear_value v2
    refine keepsO_next ?_
    extract_lets +onlyGivenNames v3
    have h4 : Keeps s0 v3 := by
      dsimp only [v3]
      refine State.tookFree_keeps ?_
      refine State.tookFree_keeps ?_
      assumption
    clear_value v3
    refine keeps_mk ?_ rfl rfl rfl
    assumption
  · refine keepsO_next ?_
    assumption

theorem execApcStarved_keeps {s0 s : State} (h : Keeps s0 s) (colour : Fin 2) :
    KeepsO s0 (execApcStarved colour s) := by
  unfold execApcStarved
  extract_lets +onlyGivenNames v1
  clear_value v1
  refine keepsO_ite ?_ ?_
  · refine keepsO_next ?_
    refine State.logDev_keeps ?_ _ _ _
    refine keeps_mk ?_ rfl rfl rfl
    assumption
  · refine keepsO_next ?_
    assumption

theorem execUslFidWrite_keeps {s0 s : State} (h : Keeps s0 s) (n : Fin 1024) (data : Word) :
    KeepsO s0 (execUslFidWrite n data s) := by
  unfold execUslFidWrite
  extract_lets +onlyGivenNames v1
  clear_value v1
  refine keepsO_ite ?_ ?_
  · refine keepsO_next ?_
    refine State.logDev_keeps ?_ _ _ _
    assumption
  · refine keepsO_next ?_
    refine keeps_mk ?_ rfl rfl rfl
    assumption

end Sys2Proof.Machine
end

