-- ==== Sys2Proof/Laws/KeepsTdm.lean ====
section
/-!
SUPPORT. What Tdm.lean leaves untouched (Keeps), operation by operation.
-/

namespace Sys2Proof.Machine

open Sys2Proof

theorem State.tribCnt_keeps {s0 s : State} (h : Keeps s0 s) (t : ℕ) (k : ℕ) :
    Keeps s0 (State.tribCnt s t k) := by
  unfold State.tribCnt
  refine keeps_ite ?_ ?_
  · refine State.wrap_keeps ?_ _
    assumption
  · refine State.sat_keeps ?_ _
    assumption

theorem State.setTdmPort_keeps {s0 s : State} (h : Keeps s0 s) (t : ℕ) (x : TdmPort) :
    Keeps s0 (State.setTdmPort s t x) := by
  unfold State.setTdmPort
  refine keeps_mk ?_ rfl rfl rfl
  assumption

theorem State.startPort_keeps {s0 s : State} (h : Keeps s0 s) (t : ℕ) :
    Keeps s0 (State.startPort s t) := by
  unfold State.startPort
  extract_lets +onlyGivenNames v1
  clear_value v1
  refine State.setTdmPort_keeps ?_ _ _
  assumption

theorem State.slip_keeps {s0 s : State} (h : Keeps s0 s) (t : ℕ) (dir : ℕ) :
    Keeps s0 (State.slip s t dir) := by
  unfold State.slip
  refine State.limBoth_keeps ?_ _ _ _
  assumption

theorem State.tdmReceive_keeps {s0 s : State} (h : Keeps s0 s) (t : Nat) (frame : List Byte) (smf : Option Bool) :
    Keeps s0 (State.tdmReceive s t frame smf) := by
  unfold State.tdmReceive
  extract_lets +onlyGivenNames v1
  clear_value v1
  extract_lets +onlyGivenNames v2
  clear_value v2
  extract_lets +onlyGivenNames v3
  clear_value v3
  extract_lets +onlyGivenNames v4
  clear_value v4
  extract_lets +onlyGivenNames v5
  clear_value v5
  extract_lets +onlyGivenNames v6
  have h7 : Keeps s0 v6 := by
    dsimp only [v6]
    refine State.when_keeps ?_ ?_ _
    · refine State.tribCnt_keeps ?_ _ _
      assumption
    · intro y8 y9
      refine State.tribCnt_keeps ?_ _ _
      assumption
  clear_value v6
  extract_lets +onlyGivenNames v10
  have h11 : Keeps s0 v10 := by
    dsimp only [v10]
    refine State.setTdmPort_keeps ?_ _ _
    assumption
  clear_value v10
  refine State.when_keeps ?_ ?_ _
  · assumption
  · intro y12 y13
    refine State.slip_keeps ?_ _ _
    refine State.tribCnt_keeps ?_ _ _
    assumption

theorem execTdmRxFrame_keeps {s0 s : State} (h : Keeps s0 s) (t : Fin 12) (frame : List Byte) (smf : Option Bool) :
    KeepsO s0 (execTdmRxFrame t frame smf s) := by
  unfold execTdmRxFrame
  refine keepsO_next ?_
  refine keeps_ite ?_ ?_
  · refine State.tdmReceive_keeps ?_ _ _ _
    assumption
  · assumption

theorem State.tdmTransmit_keeps {s0 s : State} (h : Keeps s0 s) (t : Nat) :
    Keeps s0 (State.tdmTransmit s t) := by
  unfold State.tdmTransmit
  extract_lets +onlyGivenNames v1
  clear_value v1
  extract_lets +onlyGivenNames v2
  clear_value v2
  extract_lets +onlyGivenNames v3
  have h4 : Keeps s0 v3 := by
    dsimp only [v3]
    refine State.setTdmPort_keeps ?_ _ _
    refine State.tribCnt_keeps ?_ _ _
    assumption
  clear_value v3
  extract_lets +onlyGivenNames v5
  have h6 : Keeps s0 v5 := by
    dsimp only [v5]
    refine State.when_keeps ?_ ?_ _
    · assumption
    · intro y7 y8
      refine State.slip_keeps ?_ _ _
      refine State.tribCnt_keeps ?_ _ _
      assumption
  clear_value v5
  extract_lets +onlyGivenNames v9
  clear_value v9
  extract_lets +onlyGivenNames v10
  clear_value v10
  extract_lets +onlyGivenNames v11
  clear_value v11
  extract_lets +onlyGivenNames v12
  clear_value v12
  extract_lets +onlyGivenNames v13
  clear_value v13
  extract_lets +onlyGivenNames v14
  have h15 : Keeps s0 v14 := by
    dsimp only [v14]
    refine State.setTdmPort_keeps ?_ _ _
    assumption
  clear_value v14
  refine keeps_ite ?_ ?_
  · refine State.send_keeps ?_ _
    assumption
  · refine State.send_keeps ?_ _
    assumption

theorem execTdmTxFrame_keeps {s0 s : State} (h : Keeps s0 s) (t : Fin 12) :
    KeepsO s0 (execTdmTxFrame t s) := by
  unfold execTdmTxFrame
  refine keepsO_next ?_
  refine keeps_ite ?_ ?_
  · refine State.tdmTransmit_keeps ?_ _
    assumption
  · assumption

theorem State.defectChange_keeps {s0 s : State} (h : Keeps s0 s) (t : ℕ) (raw : BitVec 6) :
    Keeps s0 (State.defectChange s t raw) := by
  unfold State.defectChange
  extract_lets +onlyGivenNames v1
  clear_value v1
  extract_lets +onlyGivenNames v2
  clear_value v2
  extract_lets +onlyGivenNames v3
  have h4 : Keeps s0 v3 := by
    dsimp only [v3]
    refine State.put_keeps ?_ _ _
    refine State.put_keeps ?_ _ _
    assumption
  clear_value v3
  extract_lets +onlyGivenNames v5
  clear_value v5
  extract_lets +onlyGivenNames v6
  have h7 : Keeps s0 v6 := by
    dsimp only [v6]
    refine State.setTdmPort_keeps ?_ _ _
    assumption
  clear_value v6
  refine State.each_keeps ?_ ?_ _
  · assumption
  · intro y8 y9 y10
    extract_lets +onlyGivenNames v11
    have h12 : Keeps s0 v11 := by
      dsimp only [v11]
      refine State.logBoth_keeps ?_ _ _ _
      refine State.mark_keeps ?_ _ _
      assumption
    clear_value v11
    extract_lets +onlyGivenNames v13
    have h14 : Keeps s0 v13 := by
      dsimp only [v13]
      refine State.raisePf_keeps ?_ _
      assumption
    clear_value v13
    split
    · refine State.raiseNiche_keeps ?_ _ _
      assumption
    · assumption

theorem execTdmDefectChange_keeps {s0 s : State} (h : Keeps s0 s) (t : Fin 12) (raw : BitVec 6) :
    KeepsO s0 (execTdmDefectChange t raw s) := by
  unfold execTdmDefectChange
  refine keepsO_next ?_
  refine keeps_ite ?_ ?_
  · refine State.defectChange_keeps ?_ _ _
    assumption
  · assumption

theorem State.memCnt_keeps {s0 s : State} (h : Keeps s0 s) (m : ℕ) (k : ℕ) :
    Keeps s0 (State.memCnt s m k) := by
  unfold State.memCnt
  refine State.sat_keeps ?_ _
  assumption

theorem State.sendMember_keeps {s0 s : State} (h : Keeps s0 s) (m : ℕ) (b : List Byte) :
    Keeps s0 (State.sendMember s m b) := by
  unfold State.sendMember
  extract_lets +onlyGivenNames v1
  clear_value v1
  refine keeps_ite ?_ ?_
  · refine keeps_ite ?_ ?_
    · refine State.memCnt_keeps ?_ _ _
      refine State.sendRecord_keeps ?_ _ _ _
      assumption
    · refine State.memCnt_keeps ?_ _ _
      assumption
  · refine keeps_ite ?_ ?_
    · refine State.memCnt_keeps ?_ _ _
      assumption
    · extract_lets +onlyGivenNames v2
      clear_value v2
      extract_lets +onlyGivenNames v3
      have h4 : Keeps s0 v3 := by
        dsimp only [v3]
        refine State.memCnt_keeps ?_ _ _
        assumption
      clear_value v3
      extract_lets +onlyGivenNames v5
      clear_value v5
      extract_lets +onlyGivenNames v6
      have h7 : Keeps s0 v6 := by
        dsimp only [v6]
        refine keeps_ite ?_ ?_
        · split
          · refine keeps_mk ?_ rfl rfl rfl
            assumption
          · assumption
        · assumption
      clear_value v6
      refine keeps_mk ?_ rfl rfl rfl
      assumption

theorem State.collect_keeps {s0 s : State} (h : Keeps s0 s) (c : ℕ) (m : ℕ) (seq : ℕ) (f : SlipFrame) :
    Keeps s0 (State.collect s c m seq f) := by
  unfold State.collect
  extract_lets +onlyGivenNames v1
  clear_value v1
  extract_lets +onlyGivenNames v2
  clear_value v2
  refine keeps_ite ?_ ?_
  · refine State.setMem_keeps ?_ _ _
    assumption
  · extract_lets +onlyGivenNames v3
    clear_value v3
    extract_lets +onlyGivenNames v4
    have h5 : Keeps s0 v4 := by
      dsimp only [v4]
      refine State.setMem_keeps ?_ _ _
      assumption
    clear_value v4
    extract_lets +onlyGivenNames v6
    clear_value v6
    extract_lets +onlyGivenNames v7
    clear_value v7
    refine State.sendMember_keeps ?_ _ _
    assumption

theorem State.lineTick_keeps {s0 s : State} (h : Keeps s0 s) (t : ℕ) :
    Keeps s0 (State.lineTick s t) := by
  unfold State.lineTick
  extract_lets +onlyGivenNames v1
  clear_value v1
  extract_lets +onlyGivenNames v2
  clear_value v2
  extract_lets +onlyGivenNames v3
  have h4 : Keeps s0 v3 := by
    dsimp only [v3]
    refine State.setTdmPort_keeps ?_ _ _
    refine State.tribCnt_keeps ?_ _ _
    assumption
  clear_value v3
  extract_lets +onlyGivenNames v5
  have h6 : Keeps s0 v5 := by
    dsimp only [v5]
    refine State.when_keeps ?_ ?_ _
    · assumption
    · intro y7 y8
      refine State.slip_keeps ?_ _ _
      refine State.tribCnt_keeps ?_ _ _
      assumption
  clear_value v5
  split
  · extract_lets +onlyGivenNames v9
    clear_value v9
    extract_lets +onlyGivenNames v10
    have h11 : Keeps s0 v10 := by
      dsimp only [v10]
      refine State.setCircuit_keeps ?_ _ _
      assumption
    clear_value v10
    refine keeps_ite ?_ ?_
    · refine State.each_keeps ?_ ?_ _
      · assumption
      · intro y12 y13 y14
        refine State.setMem_keeps ?_ _ _
        assumption
    · refine State.each_keeps ?_ ?_ _
      · assumption
      · intro y15 y16 y17
        refine State.collect_keeps ?_ _ _ _ _
        assumption
  · assumption

theorem State.circuitDown_keeps {s0 s : State} (h : Keeps s0 s) (c : ℕ) :
    Keeps s0 (State.circuitDown s c) := by
  unfold State.circuitDown
  refine keeps_ite ?_ ?_
  · assumption
  · extract_lets +onlyGivenNames v1
    have h2 : Keeps s0 v1 := by
      dsimp only [v1]
      refine State.raisePf_keeps ?_ _
      refine State.logBoth_keeps ?_ _ _ _
      assumption
    clear_value v1
    refine State.unstart_keeps ?_ _
    refine State.putB_keeps ?_ _ _
    assumption

theorem State.judgeCircuit_keeps {s0 s : State} (h : Keeps s0 s) (c : Nat) :
    Keeps s0 (State.judgeCircuit s c) := by
  unfold State.judgeCircuit
  extract_lets +onlyGivenNames v1
  clear_value v1
  refine State.when_keeps ?_ ?_ _
  · assumption
  · intro y2 y3
    refine State.circuitDown_keeps ?_ _
    assumption

theorem State.playout_keeps {s0 s : State} (h : Keeps s0 s) (t : ℕ) :
    Keeps s0 (State.playout s t).2 := by
  unfold State.playout
  dsimp only
  split
  · split
    · dsimp only
      refine State.tribCnt_keeps ?_ _ _
      assumption
    · split
      · dsimp only
        refine State.tribCnt_keeps ?_ _ _
        assumption
      · split
        · dsimp only
          refine State.tribCnt_keeps ?_ _ _
          refine State.setCircuit_keeps ?_ _ _
          assumption
        · split
          · dsimp only
            refine State.memCnt_keeps ?_ _ _
            refine State.tribCnt_keeps ?_ _ _
            refine State.putB_keeps ?_ _ _
            refine State.setCircuit_keeps ?_ _ _
            refine State.put_keeps ?_ _ _
            assumption
          · dsimp only
            refine State.tribCnt_keeps ?_ _ _
            refine State.when_keeps ?_ ?_ _
            · refine State.setCircuit_keeps ?_ _ _
              refine State.put_keeps ?_ _ _
              assumption
            · intro y1 y2
              refine State.circuitDown_keeps ?_ _
              assumption
  · dsimp only
    refine State.tribCnt_keeps ?_ _ _
    assumption

theorem State.portTick_keeps {s0 s : State} (h : Keeps s0 s) (t : ℕ) :
    Keeps s0 (State.portTick s t) := by
  unfold State.portTick
  extract_lets +onlyGivenNames v1
  have h2 : Keeps s0 v1.2 := by
    dsimp only [v1]
    refine State.playout_keeps ?_ _
    assumption
  clear_value v1
  extract_lets +onlyGivenNames v3
  clear_value v3
  extract_lets +onlyGivenNames v4
  clear_value v4
  extract_lets +onlyGivenNames v5
  have h6 : Keeps s0 v5 := by
    dsimp only [v5]
    refine State.setTdmPort_keeps ?_ _ _
    refine State.tribCnt_keeps ?_ _ _
    assumption
  clear_value v5
  refine State.when_keeps ?_ ?_ _
  · assumption
  · intro y7 y8
    refine State.slip_keeps ?_ _ _
    refine State.tribCnt_keeps ?_ _ _
    assumption

theorem execPhaseTdm_keeps {s0 s : State} (h : Keeps s0 s) (cycles : Nat) :
    KeepsO s0 (execPhaseTdm cycles s) := by
  unfold execPhaseTdm
  extract_lets +onlyGivenNames v1
  have h2 : Keeps s0 v1 := by
    dsimp only [v1]
    refine State.upBlocked_keeps ?_
    refine State.each_keeps ?_ ?_ _
    · assumption
    · intro y3 y4 y5
      refine State.judgeCircuit_keeps ?_ _
      assumption
  clear_value v1
  refine keepsO_next ?_
  refine State.phaseUsed_keeps ?_ _ _
  refine State.each_keeps ?_ ?_ _
  · assumption
  · intro y6 y7 y8
    refine State.portTick_keeps ?_ _
    refine State.lineTick_keeps ?_ _
    assumption

theorem State.startWindow_keeps {s0 s : State} (h : Keeps s0 s) (c : ℕ) (f : ℕ) :
    Keeps s0 (State.startWindow s c f) := by
  unfold State.startWindow
  extract_lets +onlyGivenNames v1
  clear_value v1
  refine State.setCircuit_keeps ?_ _ _
  refine State.put_keeps ?_ _ _
  refine State.putB_keeps ?_ _ _
  assumption

theorem State.intoSlot_keeps {s0 s : State} (h : Keeps s0 s) (c : ℕ) (m : ℕ) (f : ℕ) (d : ℕ) (b : List Byte) (ais : Bool) :
    Keeps s0 (State.intoSlot s c m f d b ais) := by
  unfold State.intoSlot
  extract_lets +onlyGivenNames v1
  clear_value v1
  extract_lets +onlyGivenNames v2
  clear_value v2
  extract_lets +onlyGivenNames v3
  have h4 : Keeps s0 v3 := by
    dsimp only [v3]
    refine State.setMem_keeps ?_ _ _
    assumption
  clear_value v3
  extract_lets +onlyGivenNames v5
  have h6 : ∀ a1 a2, Keeps s0 a1 → Keeps s0 (v5 a1 a2) := by
    intro a1 a2 b0
    dsimp only [v5]
    refine State.setCircuit_keeps ?_ _ _
    assumption
  clear_value v5
  split
  · refine State.memCnt_keeps ?_ _ _
    with_reducible apply_assumption
    assumption
  · refine keeps_ite ?_ ?_
    · refine State.memCnt_keeps ?_ _ _
      refine State.memCnt_keeps ?_ _ _
      with_reducible apply_assumption
      assumption
    · refine keeps_ite ?_ ?_
      · refine State.memCnt_keeps ?_ _ _
        refine State.memCnt_keeps ?_ _ _
        with_reducible apply_assumption
        assumption
      · refine State.memCnt_keeps ?_ _ _
        refine State.setCircuit_keeps ?_ _ _
        assumption

theorem State.skewFrame_keeps {s0 s : State} (h : Keeps s0 s) (c : ℕ) (m : ℕ) (f : ℕ) (b : List Byte) (ais : Bool) :
    Keeps s0 (State.skewFrame s c m f b ais) := by
  unfold State.skewFrame
  extract_lets +onlyGivenNames v1
  have h2 : Keeps s0 v1 := by
    dsimp only [v1]
    refine keeps_ite ?_ ?_
    · assumption
    · refine State.startWindow_keeps ?_ _ _
      assumption
  clear_value v1
  extract_lets +onlyGivenNames v3
  clear_value v3
  extract_lets +onlyGivenNames v4
  clear_value v4
  refine keeps_ite ?_ ?_
  · refine State.intoSlot_keeps ?_ _ _ _ _ _ _
    assumption
  · refine keeps_ite ?_ ?_
    · refine State.memCnt_keeps ?_ _ _
      assumption
    · extract_lets +onlyGivenNames v5
      clear_value v5
      extract_lets +onlyGivenNames v6
      have h7 : Keeps s0 v6 := by
        dsimp only [v6]
        refine State.setCircuit_keeps ?_ _ _
        refine State.memCnt_keeps ?_ _ _
        assumption
      clear_value v6
      refine keeps_ite ?_ ?_
      · extract_lets +onlyGivenNames v8
        have h9 : Keeps s0 v8 := by
          dsimp only [v8]
          refine State.logBoth_keeps ?_ _ _ _
          assumption
        clear_value v8
        refine State.intoSlot_keeps ?_ _ _ _ _ _ _
        refine State.startWindow_keeps ?_ _ _
        assumption
      · assumption

theorem State.memberUp_keeps {s0 s : State} (h : Keeps s0 s) (m : ℕ) (b : Bool) :
    Keeps s0 (State.memberUp s m b) := by
  unfold State.memberUp
  extract_lets +onlyGivenNames v1
  clear_value v1
  extract_lets +onlyGivenNames v2
  have h3 : Keeps s0 v2 := by
    dsimp only [v2]
    refine State.putB_keeps ?_ _ _
    assumption
  clear_value v2
  extract_lets +onlyGivenNames v4
  have h5 : Keeps s0 v4 := by
    dsimp only [v4]
    refine keeps_ite ?_ ?_
    · refine State.mark_keeps ?_ _ _
      assumption
    · refine State.unmark_keeps ?_ _ _
      assumption
  clear_value v4
  refine State.logBoth_keeps ?_ _ _ _
  assumption

theorem State.acceptMember_keeps {s0 s : State} (h : Keeps s0 s) (m : ℕ) (b : List Byte) :
    Keeps s0 (State.acceptMember s m b) := by
  unfold State.acceptMember
  extract_lets +onlyGivenNames v1
  clear_value v1
  refine keeps_ite ?_ ?_
  · refine State.limDev_keeps ?_ _ _ _
    refine State.memCnt_keeps ?_ _ _
    assumption
  · extract_lets +onlyGivenNames v2
    clear_value v2
    extract_lets +onlyGivenNames v3
    clear_value v3
    extract_lets +onlyGivenNames v4
    clear_value v4
    extract_lets +onlyGivenNames v5
    have h6 : Keeps s0 v5 := by
      dsimp only [v5]
      refine State.putB_keeps ?_ _ _
      refine State.putB_keeps ?_ _ _
      assumption
    clear_value v5
    extract_lets +onlyGivenNames v7
    clear_value v7
    extract_lets +onlyGivenNames v8
    clear_value v8
    extract_lets +onlyGivenNames v9
    clear_value v9
    extract_lets +onlyGivenNames v10
    have h11 : Keeps s0 v10 := by
      dsimp only [v10]
      refine State.setMem_keeps ?_ _ _
      assumption
    clear_value v10
    extract_lets +onlyGivenNames v12
    have h13 : Keeps s0 v12 := by
      dsimp only [v12]
      refine State.when_keeps ?_ ?_ _
      · assumption
      · intro y14 y15
        refine State.memberUp_keeps ?_ _ _
        assumption
    clear_value v12
    refine State.each_keeps ?_ ?_ _
    · assumption
    · intro y16 y17 y18
      refine State.skewFrame_keeps ?_ _ _ _ _ _
      assumption

theorem State.toMember_keeps {s0 s : State} (h : Keeps s0 s) (m : Nat) (b : List Byte) :
    Keeps s0 (State.toMember s m b) := by
  unfold State.toMember
  split
  · refine keeps_ite ?_ ?_
    · refine State.ncnt_keeps ?_ _ _
      assumption
    · refine State.acceptMember_keeps ?_ _ _
      assumption
  · refine State.acceptMember_keeps ?_ _ _
    assumption

theorem execMemberSduAccept_keeps {s0 s : State} (h : Keeps s0 s) (id : Nat) :
    KeepsO s0 (execMemberSduAccept id s) := by
  unfold execMemberSduAccept
  refine keepsO_next ?_
  split
  · extract_lets +onlyGivenNames v1
    clear_value v1
    extract_lets +onlyGivenNames v2
    have h3 : Keeps s0 v2 := by
      dsimp only [v2]
      refine keeps_mk ?_ rfl rfl rfl
      assumption
    clear_value v2
    extract_lets +onlyGivenNames v4
    clear_value v4
    split
    · extract_lets +onlyGivenNames v5
      have h6 : Keeps s0 v5 := by
        dsimp only [v5]
        refine State.release_keeps ?_ _
        assumption
      clear_value v5
      refine keeps_ite ?_ ?_
      · refine State.sat_keeps ?_ _
        refine State.sendRecord_keeps ?_ _ _ _
        assumption
      · assumption
    · refine State.dropNew_keeps ?_ _
      refine State.sat_keeps ?_ _
      assumption
    · refine State.release_keeps ?_ _
      refine State.each_keeps ?_ ?_ _
      · assumption
      · intro y7 y8 y9
        refine State.toMember_keeps ?_ _ _
        assumption
  · assumption

theorem execMemberDown_keeps {s0 s : State} (h : Keeps s0 s) (m : Fin 48) :
    KeepsO s0 (execMemberDown m s) := by
  unfold execMemberDown
  extract_lets +onlyGivenNames v1
  clear_value v1
  extract_lets +onlyGivenNames v2
  clear_value v2
  extract_lets +onlyGivenNames v3
  clear_value v3
  refine keepsO_next ?_
  refine keeps_ite ?_ ?_
  · extract_lets +onlyGivenNames v4
    have h5 : Keeps s0 v4 := by
      dsimp only [v4]
      refine State.setMem_keeps ?_ _ _
      refine State.memberUp_keeps ?_ _ _
      assumption
    clear_value v4
    refine State.judgeCircuit_keeps ?_ _
    assumption
  · assumption

theorem State.pmSecond_keeps {s0 s : State} (h : Keeps s0 s) (t : ℕ) (blocks : ℕ) :
    Keeps s0 (State.pmSecond s t blocks) := by
  unfold State.pmSecond
  extract_lets +onlyGivenNames v1
  clear_value v1
  extract_lets +onlyGivenNames v2
  clear_value v2
  extract_lets +onlyGivenNames v3
  clear_value v3
  extract_lets +onlyGivenNames v4
  clear_value v4
  extract_lets +onlyGivenNames v5
  have h6 : Keeps s0 v5 := by
    dsimp only [v5]
    refine State.satBy_keeps ?_ _ _
    assumption
  clear_value v5
  extract_lets +onlyGivenNames v7
  have h8 : Keeps s0 v7 := by
    dsimp only [v7]
    refine keeps_ite ?_ ?_
    · refine State.logBoth_keeps ?_ _ _ _
      refine State.putB_keeps ?_ _ _
      assumption
    · assumption
  clear_value v7
  extract_lets +onlyGivenNames v9
  clear_value v9
  extract_lets +onlyGivenNames v10
  have h11 : Keeps s0 v10 := by
    dsimp only [v10]
    refine State.each_keeps ?_ ?_ _
    · assumption
    · intro y12 y13 y14
      refine keeps_ite ?_ ?_
      · refine State.tribCnt_keeps ?_ _ _
        assumption
      · refine State.when_keeps ?_ ?_ _
        · refine State.when_keeps ?_ ?_ _
          · assumption
          · intro y15 y16
            refine State.tribCnt_keeps ?_ _ _
            assumption
        · intro y17 y18
          refine State.tribCnt_keeps ?_ _ _
          assumption
  clear_value v10
  refine State.setTdmPort_keeps ?_ _ _
  assumption

theorem State.recentre_keeps {s0 s : State} (h : Keeps s0 s) (c : ℕ) :
    Keeps s0 (State.recentre s c) := by
  unfold State.recentre
  extract_lets +onlyGivenNames v1
  clear_value v1
  extract_lets +onlyGivenNames v2
  have h3 : Keeps s0 v2 := by
    dsimp only [v2]
    refine State.setCircuit_keeps ?_ _ _
    assumption
  clear_value v2
  refine keeps_ite ?_ ?_
  · extract_lets +onlyGivenNames v4
    clear_value v4
    extract_lets +onlyGivenNames v5
    have h6 : Keeps s0 v5 := by
      dsimp only [v5]
      refine State.tribCnt_keeps ?_ _ _
      refine State.put_keeps ?_ _ _
      assumption
    clear_value v5
    refine State.setCircuit_keeps ?_ _ _
    assumption
  · assumption

theorem State.endSecond_keeps {s0 s : State} (h : Keeps s0 s) (blocks : List ℕ) :
    Keeps s0 (State.endSecond s blocks) := by
  unfold State.endSecond
  extract_lets +onlyGivenNames v1
  clear_value v1
  extract_lets +onlyGivenNames v2
  have h3 : Keeps s0 v2 := by
    dsimp only [v2]
    refine keeps_mk ?_ rfl rfl rfl
    assumption
  clear_value v2
  extract_lets +onlyGivenNames v4
  have h5 : Keeps s0 v4 := by
    dsimp only [v4]
    refine State.each_keeps ?_ ?_ _
    · assumption
    · intro y6 y7 y8
      refine State.pmSecond_keeps ?_ _ _
      assumption
  clear_value v4
  extract_lets +onlyGivenNames v9
  have h10 : Keeps s0 v9 := by
    dsimp only [v9]
    refine State.each_keeps ?_ ?_ _
    · assumption
    · intro y11 y12 y13
      refine State.recentre_keeps ?_ _
      assumption
  clear_value v9
  extract_lets +onlyGivenNames v14
  have h15 : Keeps s0 v14 := by
    dsimp only [v14]
    refine State.each_keeps ?_ ?_ _
    · assumption
    · intro y16 y17 y18
      refine State.setMem_keeps ?_ _ _
      refine State.put_keeps ?_ _ _
      refine State.when_keeps ?_ ?_ _
      · assumption
      · intro y19 y20
        refine State.tookFree_keeps ?_
        assumption
  clear_value v14
  extract_lets +onlyGivenNames v21
  have h22 : Keeps s0 v21 := by
    dsimp only [v21]
    refine State.when_keeps ?_ ?_ _
    · assumption
    · intro y23 y24
      refine State.each_keeps ?_ ?_ _
      · assumption
      · intro y25 y26 y27
        refine State.each_keeps ?_ ?_ _
        · assumption
        · intro y28 y29 y30
          refine State.put_keeps ?_ _ _
          assumption
  clear_value v21
  refine keeps_mk ?_ rfl rfl rfl
  assumption

theorem execPmSecondEnd_keeps {s0 s : State} (h : Keeps s0 s) (blocks : List ℕ) :
    KeepsO s0 (execPmSecondEnd blocks s) := by
  unfold execPmSecondEnd
  refine keepsO_next ?_
  refine keeps_ite ?_ ?_
  · assumption
  · refine State.endSecond_keeps ?_ _
    assumption

theorem State.tdmQueue_keeps {s0 s : State} (h : Keeps s0 s) (a : ℕ) (w : Word) :
    Keeps s0 (State.tdmQueue s a w) := by
  unfold State.tdmQueue
  refine keeps_mk ?_ rfl rfl rfl
  assumption

theorem State.tdmBad_keeps {s0 s : State} (h : Keeps s0 s) (code : ℕ) (index : ℕ) :
    Keeps s0 (State.tdmBad s code index) := by
  unfold State.tdmBad
  refine State.logDev_keeps ?_ _ _ _
  assumption

theorem execTdmCirWrite_keeps {s0 s : State} (h : Keeps s0 s) (c : Fin 12) (data : Word) :
    KeepsO s0 (execTdmCirWrite c data s) := by
  unfold execTdmCirWrite
  extract_lets +onlyGivenNames v1
  clear_value v1
  extract_lets +onlyGivenNames v2
  clear_value v2
  extract_lets +onlyGivenNames v3
  clear_value v3
  refine keepsO_next ?_
  refine keeps_ite ?_ ?_
  · refine State.tdmBad_keeps ?_ _ _
    assumption
  · refine keeps_ite ?_ ?_
    · refine State.tdmBad_keeps ?_ _ _
      assumption
    · refine State.tdmQueue_keeps ?_ _ _
      assumption

theorem execTdmMemWrite_keeps {s0 s : State} (h : Keeps s0 s) (m : Fin 48) (data : Word) :
    KeepsO s0 (execTdmMemWrite m data s) := by
  unfold execTdmMemWrite
  extract_lets +onlyGivenNames v1
  clear_value v1
  extract_lets +onlyGivenNames v2
  clear_value v2
  extract_lets +onlyGivenNames v3
  clear_value v3
  refine keepsO_next ?_
  refine keeps_ite ?_ ?_
  · refine State.tdmBad_keeps ?_ _ _
    assumption
  · refine keeps_ite ?_ ?_
    · refine State.tdmBad_keeps ?_ _ _
      assumption
    · refine State.tdmQueue_keeps ?_ _ _
      assumption

theorem execTdmConfigApply_keeps {s0 s : State} (h : Keeps s0 s) :
    KeepsO s0 (execTdmConfigApply s) := by
  unfold execTdmConfigApply
  extract_lets +onlyGivenNames v1
  clear_value v1
  extract_lets +onlyGivenNames v2
  clear_value v2
  extract_lets +onlyGivenNames v3
  clear_value v3
  extract_lets +onlyGivenNames v4
  have h5 : Keeps s0 v4 := by
    dsimp only [v4]
    refine State.each_keeps ?_ ?_ _
    · assumption
    · intro y6 y7 y8
      refine State.setMem_keeps ?_ _ _
      refine State.dropMembers_keeps ?_ _
      assumption
  clear_value v4
  extract_lets +onlyGivenNames v9
  have h10 : Keeps s0 v9 := by
    dsimp only [v9]
    refine State.each_keeps ?_ ?_ _
    · assumption
    · intro y11 y12 y13
      refine State.setWord_keeps ?_ _ _
      assumption
  clear_value v9
  extract_lets +onlyGivenNames v14
  clear_value v14
  extract_lets +onlyGivenNames v15
  have h16 : Keeps s0 v15 := by
    dsimp only [v15]
    refine keeps_mk ?_ rfl rfl rfl
    assumption
  clear_value v15
  extract_lets +onlyGivenNames v17
  have h18 : Keeps s0 v17 := by
    dsimp only [v17]
    refine State.each_keeps ?_ ?_ _
    · assumption
    · intro y19 y20 y21
      refine State.unstart_keeps ?_ _
      assumption
  clear_value v17
  refine keepsO_next ?_
  refine State.each_keeps ?_ ?_ _
  · assumption
  · intro y22 y23 y24
    refine State.putB_keeps ?_ _ _
    refine State.setCircuit_keeps ?_ _ _
    assumption

end Sys2Proof.Machine
end

