-- ==== Sys2Proof/Laws/KeepsArm.lean ====
section
/-!
SUPPORT. What Arm.lean leaves untouched (Keeps), operation by operation.
-/

namespace Sys2Proof.Machine

open Sys2Proof

theorem execArmLoadAddrWrite_keeps {s0 s : State} (h : Keeps s0 s) (data : Word) :
    KeepsO s0 (execArmLoadAddrWrite data s) := by
  unfold execArmLoadAddrWrite
  refine keepsO_next ?_
  refine keeps_ite ?_ ?_
  · refine State.logDev_keeps ?_ _ _ _
    assumption
  · refine State.putB_keeps ?_ _ _
    refine State.put_keeps ?_ _ _
    assumption

theorem State.stage_keeps {s0 s : State} (h : Keeps s0 s) (o : ℕ) (w : Word) :
    Keeps s0 (State.stage s o w) := by
  unfold State.stage
  refine keeps_mk ?_ rfl rfl rfl
  assumption

theorem execArmLoadDataWrite_keeps {s0 s : State} (h : Keeps s0 s) (data : Word) :
    KeepsO s0 (execArmLoadDataWrite data s) := by
  unfold execArmLoadDataWrite
  extract_lets +onlyGivenNames v1
  clear_value v1
  refine keepsO_next ?_
  refine keeps_ite ?_ ?_
  · refine State.logDev_keeps ?_ _ _ _
    assumption
  · refine keeps_ite ?_ ?_
    · assumption
    · refine keeps_ite ?_ ?_
      · refine State.putB_keeps ?_ _ _
        refine State.stage_keeps ?_ _ _
        assumption
      · refine State.put_keeps ?_ _ _
        refine State.stage_keeps ?_ _ _
        assumption

theorem State.armRefuse_keeps {s0 s : State} (h : Keeps s0 s) (code : ℕ) :
    Keeps s0 (State.armRefuse s code) := by
  unfold State.armRefuse
  refine State.raisePf_keeps ?_ _
  refine State.logDev_keeps ?_ _ _ _
  refine State.put_keeps ?_ _ _
  assumption

theorem State.countRefused_keeps {s0 s : State} (h : Keeps s0 s) (c : ArmCmd) :
    Keeps s0 (State.countRefused s c) := by
  unfold State.countRefused
  refine State.when_keeps ?_ ?_ _
  · assumption
  · intro y1 y2
    refine State.sat_keeps ?_ _
    assumption

theorem State.armStart_keeps {s0 s : State} (h : Keeps s0 s) (c : ArmCmd) :
    Keeps s0 (State.armStart s c) := by
  unfold State.armStart
  refine keeps_ite ?_ ?_
  · refine State.countRefused_keeps ?_ _
    refine State.armRefuse_keeps ?_ _
    assumption
  · extract_lets +onlyGivenNames v1
    have h2 : Keeps s0 v1 := by
      dsimp only [v1]
      refine State.put_keeps ?_ _ _
      refine State.putB_keeps ?_ _ _
      assumption
    clear_value v1
    extract_lets +onlyGivenNames v3
    have h4 : Keeps s0 v3 := by
      dsimp only [v3]
      refine State.when_keeps ?_ ?_ _
      · assumption
      · intro y5 y6
        refine State.put_keeps ?_ _ _
        assumption
    clear_value v3
    refine keeps_mk ?_ rfl rfl rfl
    assumption

theorem execArmCheck_keeps {s0 s : State} (h : Keeps s0 s) :
    KeepsO s0 (execArmCheck s) := by
  unfold execArmCheck
  refine keepsO_next ?_
  refine State.armStart_keeps ?_ _
  assumption

theorem execArmAccept_keeps {s0 s : State} (h : Keeps s0 s) :
    KeepsO s0 (execArmAccept s) := by
  unfold execArmAccept
  refine keepsO_next ?_
  refine State.armStart_keeps ?_ _
  assumption

theorem execArmRecarve_keeps {s0 s : State} (h : Keeps s0 s) :
    KeepsO s0 (execArmRecarve s) := by
  unfold execArmRecarve
  refine keepsO_next ?_
  refine State.armStart_keeps ?_ _
  assumption

theorem execArmCmdMultiBit_keeps {s0 s : State} (h : Keeps s0 s) :
    KeepsO s0 (execArmCmdMultiBit s) := by
  unfold execArmCmdMultiBit
  refine keepsO_next ?_
  refine State.armRefuse_keeps ?_ _
  assumption

theorem State.armIdle_keeps {s0 s : State} (h : Keeps s0 s) :
    Keeps s0 (State.armIdle s) := by
  unfold State.armIdle
  extract_lets +onlyGivenNames v1
  have h2 : Keeps s0 v1 := by
    dsimp only [v1]
    refine State.putB_keeps ?_ _ _
    assumption
  clear_value v1
  extract_lets +onlyGivenNames v3
  have h4 : Keeps s0 v3 := by
    dsimp only [v3]
    refine State.when_keeps ?_ ?_ _
    · assumption
    · intro y5 y6
      refine State.put_keeps ?_ _ _
      assumption
  clear_value v3
  refine keeps_mk ?_ rfl rfl rfl
  assumption

theorem State.requestCarve_keeps {s0 s : State} (h : Keeps s0 s) (c : ReadyCarve) :
    Keeps s0 (State.requestCarve s c) := by
  unfold State.requestCarve
  extract_lets +onlyGivenNames v1
  have h2 : Keeps s0 v1 := by
    dsimp only [v1]
    refine State.each_keeps ?_ ?_ _
    · assumption
    · intro y3 y4 y5
      refine State.emptySlot_keeps ?_ _
      assumption
  clear_value v1
  extract_lets +onlyGivenNames v6
  have h7 : Keeps s0 v6 := by
    dsimp only [v6]
    refine State.requestHeld_keeps ?_ _ _ _
    assumption
  clear_value v6
  refine keeps_mk ?_ rfl rfl rfl
  assumption

theorem State.beginCarve_keeps {s0 s : State} (h : Keeps s0 s) (n : ℕ) (x : Structure) :
    Keeps s0 (State.beginCarve s n x) := by
  unfold State.beginCarve
  extract_lets +onlyGivenNames v1
  have h2 : Keeps s0 v1 := by
    dsimp only [v1]
    refine State.putB_keeps ?_ _ _
    assumption
  clear_value v1
  extract_lets +onlyGivenNames v3
  clear_value v3
  refine keeps_ite ?_ ?_
  · refine keeps_mk ?_ rfl rfl rfl
    assumption
  · refine State.requestCarve_keeps ?_ _
    assumption

theorem State.armReport_keeps {s0 s : State} (h : Keeps s0 s) (c : ArmCmd) (r : Except Failure (Image × Structure)) :
    Keeps s0 (State.armReport s c r) := by
  unfold State.armReport
  split
  · refine State.countRefused_keeps ?_ _
    refine State.armRefuse_keeps ?_ _
    refine State.put_keeps ?_ _ _
    refine State.armIdle_keeps ?_
    assumption
  · extract_lets +onlyGivenNames v1
    have h2 : ∀ a1, Keeps s0 a1 → Keeps s0 (v1 a1) := by
      intro a1 b0
      dsimp only [v1]
      refine State.put_keeps ?_ _ _
      refine State.put_keeps ?_ _ _
      assumption
    clear_value v1
    split
    · with_reducible apply_assumption
      refine State.armIdle_keeps ?_
      assumption
    · extract_lets +onlyGivenNames v3
      have h4 : Keeps s0 v3 := by
        dsimp only [v3]
        with_reducible apply_assumption
        assumption
      clear_value v3
      extract_lets +onlyGivenNames v5
      clear_value v5
      refine keeps_mk ?_ rfl rfl rfl
      assumption
    · refine State.beginCarve_keeps ?_ _ _
      with_reducible apply_assumption
      refine State.armIdle_keeps ?_
      assumption

theorem execArmChecksDone_keeps {s0 s : State} (h : Keeps s0 s) :
    KeepsO s0 (execArmChecksDone s) := by
  unfold execArmChecksDone
  refine keepsO_next ?_
  split
  · assumption
  · refine keeps_ite ?_ ?_
    · assumption
    · refine State.armReport_keeps ?_ _ _
      assumption

theorem execArmDigestCompareDone_keeps {s0 s : State} (h : Keeps s0 s) :
    KeepsO s0 (execArmDigestCompareDone s) := by
  unfold execArmDigestCompareDone
  refine keepsO_next ?_
  split
  · assumption
  · refine keeps_ite ?_ ?_
    · assumption
    · extract_lets +onlyGivenNames v1
      clear_value v1
      extract_lets +onlyGivenNames v2
      have h3 : Keeps s0 v2 := by
        dsimp only [v2]
        refine State.armIdle_keeps ?_
        assumption
      clear_value v2
      refine keeps_ite ?_ ?_
      · refine State.put_keeps ?_ _ _
        refine State.put_keeps ?_ _ _
        assumption
      · refine State.armRefuse_keeps ?_ _
        refine State.put_keeps ?_ _ _
        assumption

theorem State.showStructure_keeps {s0 s : State} (h : Keeps s0 s) :
    Keeps s0 (State.showStructure s) := by
  unfold State.showStructure
  split
  · assumption
  · extract_lets +onlyGivenNames v1
    have h2 : Keeps s0 v1 := by
      dsimp only [v1]
      refine State.each_keeps ?_ ?_ _
      · assumption
      · intro y3 y4 y5
        refine State.put_keeps ?_ _ _
        assumption
    clear_value v1
    extract_lets +onlyGivenNames v6
    have h7 : Keeps s0 v6 := by
      dsimp only [v6]
      refine State.each_keeps ?_ ?_ _
      · assumption
      · intro y8 y9 y10
        refine State.put_keeps ?_ _ _
        assumption
    clear_value v6
    refine State.each_keeps ?_ ?_ _
    · assumption
    · intro y11 y12 y13
      split
      · refine State.put_keeps ?_ _ _
        refine State.put_keeps ?_ _ _
        assumption
      · refine State.put_keeps ?_ _ _
        refine State.put_keeps ?_ _ _
        assumption

theorem State.acceptImage_keeps {s0 s : State} (h : Keeps s0 s) (a : ReadyImage) :
    Keeps s0 (State.acceptImage s a) := by
  unfold State.acceptImage
  extract_lets +onlyGivenNames v1
  extract_lets +onlyGivenNames v2
  have h3 : Keeps s0 v2 := by
    dsimp only [v2]
    refine keeps_mk ?_ rfl rfl rfl
    assumption
  clear_value v2
  extract_lets +onlyGivenNames v4
  have h5 : Keeps s0 v4 := by
    dsimp only [v4]
    refine State.put_keeps ?_ _ _
    refine State.putB_keeps ?_ _ _
    assumption
  clear_value v4
  extract_lets +onlyGivenNames v6
  have h7 : Keeps s0 v6 := by
    dsimp only [v6]
    refine State.put_keeps ?_ _ _
    refine State.put_keeps ?_ _ _
    refine State.putB_keeps ?_ _ _
    assumption
  clear_value v6
  extract_lets +onlyGivenNames v8
  have h9 : Keeps s0 v8 := by
    dsimp only [v8]
    refine State.put_keeps ?_ _ _
    assumption
  clear_value v8
  extract_lets +onlyGivenNames v10
  have h11 : Keeps s0 v10 := by
    dsimp only [v10]
    refine State.each_keeps ?_ ?_ _
    · assumption
    · intro y12 y13 y14
      refine State.put_keeps ?_ _ _
      assumption
  clear_value v10
  extract_lets +onlyGivenNames v15
  have h16 : Keeps s0 v15 := by
    dsimp only [v15]
    refine State.each_keeps ?_ ?_ _
    · assumption
    · intro y17 y18 y19
      refine State.put_keeps ?_ _ _
      assumption
  clear_value v15
  extract_lets +onlyGivenNames v20
  clear_value v20
  extract_lets +onlyGivenNames v21
  have h22 : Keeps s0 v21 := by
    dsimp only [v21]
    refine keeps_mk ?_ rfl rfl rfl
    assumption
  clear_value v21
  extract_lets +onlyGivenNames v23
  have h24 : Keeps s0 v23 := by
    dsimp only [v23]
    refine State.each_keeps ?_ ?_ _
    · assumption
    · intro y25 y26 y27
      refine State.emptySlot_keeps ?_ _
      assumption
  clear_value v23
  refine State.showStructure_keeps ?_
  refine State.each_keeps ?_ ?_ _
  · assumption
  · intro y28 y29 y30
    refine State.startPort_keeps ?_ _
    assumption

theorem execArmatureAcceptance_keeps {s0 s : State} (h : Keeps s0 s) :
    KeepsO s0 (execArmatureAcceptance s) := by
  unfold execArmatureAcceptance
  refine keepsO_next ?_
  split
  · refine State.acceptImage_keeps ?_ _
    assumption
  · assumption

theorem State.applyCarve_keeps {s0 s : State} (h : Keeps s0 s) (c : ReadyCarve) :
    Keeps s0 (State.applyCarve s c) := by
  unfold State.applyCarve
  extract_lets +onlyGivenNames v1
  have h2 : Keeps s0 v1 := by
    dsimp only [v1]
    assumption
  clear_value v1
  extract_lets +onlyGivenNames v3
  extract_lets +onlyGivenNames v4
  have h5 : Keeps s0 v4 := by
    dsimp only [v4]
    refine keeps_mk ?_ rfl rfl rfl
    assumption
  clear_value v4
  extract_lets +onlyGivenNames v6
  have h7 : Keeps s0 v6 := by
    dsimp only [v6]
    refine State.each_keeps ?_ ?_ _
    · assumption
    · intro y8 y9 y10
      refine State.emptySlot_keeps ?_ _
      assumption
  clear_value v6
  extract_lets +onlyGivenNames v11
  have h12 : Keeps s0 v11 := by
    dsimp only [v11]
    refine State.moveTables_keeps ?_ _ _
    assumption
  clear_value v11
  extract_lets +onlyGivenNames v13
  have h14 : Keeps s0 v13 := by
    dsimp only [v13]
    refine State.showStructure_keeps ?_
    refine State.sat_keeps ?_ _
    refine State.putB_keeps ?_ _ _
    assumption
  clear_value v13
  refine State.modNreset_keeps ?_ _ _
  assumption

theorem execRecarveApply_keeps {s0 s : State} (h : Keeps s0 s) :
    KeepsO s0 (execRecarveApply s) := by
  unfold execRecarveApply
  refine keepsO_next ?_
  split
  · refine keeps_ite ?_ ?_
    · refine State.applyCarve_keeps ?_ _
      assumption
    · assumption
  · assumption

end Sys2Proof.Machine
end

