-- ==== Sys2Proof/Laws/KeepsRings.lean ====
section
/-!
SUPPORT. What Rings.lean leaves untouched (Keeps), operation by operation.
-/

namespace Sys2Proof.Machine

open Sys2Proof

theorem State.setRing_keeps {s0 s : State} (h : Keeps s0 s) (n : ℕ) (r : ℕ) (x : RingState) :
    Keeps s0 (State.setRing s n r x) := by
  unfold State.setRing
  refine keeps_mk ?_ rfl rfl rfl
  assumption

theorem State.dmaWrite_keeps {s0 s : State} (h : Keeps s0 s) (n : ℕ) (addr : ℕ) (b : List Byte) :
    Keeps s0 (State.dmaWrite s n addr b) := by
  unfold State.dmaWrite
  split
  · refine State.send_keeps ?_ _
    assumption
  · assumption

theorem State.writeCompletion_keeps {s0 s : State} (h : Keeps s0 s) (n : ℕ) (r : ℕ) (i : ℕ) (rec : List Byte) :
    Keeps s0 (State.writeCompletion s n r i rec) := by
  unfold State.writeCompletion
  refine State.dmaWrite_keeps ?_ _ _ _
  assumption

theorem State.signalRing_keeps {s0 s : State} (h : Keeps s0 s) (n : ℕ) (r : ℕ) :
    Keeps s0 (State.signalRing s n r) := by
  unfold State.signalRing
  refine State.raiseNiche_keeps ?_ _ _
  refine State.setRing_keeps ?_ _ _ _
  assumption

theorem State.advanceCprod_keeps {s0 s : State} (h : Keeps s0 s) (n : ℕ) (r : ℕ) :
    Keeps s0 (State.advanceCprod s n r) := by
  unfold State.advanceCprod
  lift_lets
  intro v1
  clear_value v1
  intro v2
  have h3 : Keeps s0 v2 := by
    dsimp only [v2]
    refine State.dmaWrite_keeps ?_ _ _ _
    refine State.put_keeps ?_ _ _
    assumption
  clear_value v2
  intro v4
  clear_value v4
  intro v5
  have h6 : Keeps s0 v5 := by
    dsimp only [v5]
    refine State.setRing_keeps ?_ _ _ _
    assumption
  clear_value v5
  refine keeps_ite ?_ ?_
  · refine State.signalRing_keeps ?_ _ _
    assumption
  · assumption

theorem State.completeAt_keeps {s0 s : State} (h : Keeps s0 s) (n : ℕ) (r : ℕ) (i : ℕ) (rec : List Byte) :
    Keeps s0 (State.completeAt s n r i rec) := by
  unfold State.completeAt
  refine State.advanceCprod_keeps ?_ _ _
  refine State.put_keeps ?_ _ _
  refine State.writeCompletion_keeps ?_ _ _ _ _
  assumption

theorem State.complete_keeps {s0 s : State} (h : Keeps s0 s) (n : ℕ) (r : ℕ) (rec : List Byte) :
    Keeps s0 (State.complete s n r rec) := by
  unfold State.complete
  refine State.completeAt_keeps ?_ _ _ _ _
  assumption

theorem State.consume_keeps {s0 s : State} (h : Keeps s0 s) (n : ℕ) (r : ℕ) (k : ℕ) :
    Keeps s0 (State.consume s n r k) := by
  unfold State.consume
  refine State.put_keeps ?_ _ _
  assumption

theorem State.ringError_keeps {s0 s : State} (h : Keeps s0 s) (n : ℕ) (r : ℕ) :
    Keeps s0 (State.ringError s n r) := by
  unfold State.ringError
  lift_lets
  intro v1
  have h2 : Keeps s0 v1 := by
    dsimp only [v1]
    refine State.put_keeps ?_ _ _
    refine State.putB_keeps ?_ _ _
    assumption
  clear_value v1
  refine State.logNiche_keeps ?_ _ _ _
  refine State.sat_keeps ?_ _
  assumption

theorem State.completeTx_keeps {s0 s : State} (h : Keeps s0 s) (n : ℕ) (r : ℕ) (i : ℕ) (k : ℕ) (ident : ℕ) (status : ℕ) (reason : ℕ) (len : ℕ) :
    Keeps s0 (State.completeTx s n r i k ident status reason len) := by
  unfold State.completeTx
  refine State.each_keeps ?_ ?_ _
  · assumption
  · intro y1 y2 y3
    refine State.completeAt_keeps ?_ _ _ _ _
    assumption

theorem State.txDone_keeps {s0 s : State} (h : Keeps s0 s) (id : ℕ) (len : ℕ) :
    Keeps s0 (State.txDone s id len) := by
  unfold State.txDone
  split
  · assumption
  · refine keeps_ite ?_ ?_
    · assumption
    · lift_lets
      intro v1
      clear_value v1
      intro v2 v3
      have h4 : Keeps s0 v3 := by
        dsimp only [v3]
        refine keeps_mk ?_ rfl rfl rfl
        assumption
      clear_value v3
      intro v5
      have h6 : Keeps s0 v5 := by
        dsimp only [v5]
        refine keeps_ite ?_ ?_
        · assumption
        · refine State.put_keeps ?_ _ _
          refine State.sat_keeps ?_ _
          assumption
      clear_value v5
      intro v7
      have h8 : Keeps s0 v7 := by
        dsimp only [v7]
        refine State.putB_keeps ?_ _ _
        assumption
      clear_value v7
      refine State.completeTx_keeps ?_ _ _ _ _ _ _ _ _
      assumption

end Sys2Proof.Machine
end

