-- ==== Sys2Proof/Laws/KeepsCph.lean ====
section
/-!
SUPPORT. What Cph.lean leaves untouched (Keeps), operation by operation.
-/

namespace Sys2Proof.Machine

open Sys2Proof

theorem State.cphLog_keeps {s0 s : State} (h : Keeps s0 s) (o : ℕ) (code : ℕ) (data : ℕ) :
    Keeps s0 (State.cphLog s o code data) := by
  unfold State.cphLog
  refine State.limOwner_keeps ?_ _ _ _
  assumption

theorem State.cphRefuse_keeps {s0 s : State} (h : Keeps s0 s) (o : Nat) (slot : Nat) (code : Nat) :
    Keeps s0 (State.cphRefuse s o slot code) := by
  unfold State.cphRefuse
  extract_lets +onlyGivenNames v1
  have h2 : Keeps s0 v1 := by
    dsimp only [v1]
    refine State.put_keeps ?_ _ _
    assumption
  clear_value v1
  refine keeps_ite ?_ ?_
  · refine State.countDenied_keeps ?_ _ _
    assumption
  · refine State.cphLog_keeps ?_ _ _ _
    refine State.sat_keeps ?_ _
    assumption

theorem State.clearLoadData_keeps {s0 s : State} (h : Keeps s0 s) (o : ℕ) :
    Keeps s0 (State.clearLoadData s o) := by
  unfold State.clearLoadData
  refine State.each_keeps ?_ ?_ _
  · assumption
  · intro y1 y2 y3
    refine State.put_keeps ?_ _ _
    assumption

theorem State.startKey_keeps {s0 s : State} (h : Keeps s0 s) (j : KeyJob) :
    Keeps s0 (State.startKey s j) := by
  unfold State.startKey
  extract_lets +onlyGivenNames v1
  have h2 : Keeps s0 v1 := by
    dsimp only [v1]
    refine State.put_keeps ?_ _ _
    refine State.putB_keeps ?_ _ _
    assumption
  clear_value v1
  refine keeps_mk ?_ rfl rfl rfl
  assumption

theorem execCphPlainLoad_keeps {s0 s : State} (h : Keeps s0 s) (o : Fin 17) (slot : Fin 256) :
    KeepsO s0 (execCphPlainLoad o slot s) := by
  unfold execCphPlainLoad
  extract_lets +onlyGivenNames v1
  clear_value v1
  split
  · refine keepsO_next ?_
    refine State.clearLoadData_keeps ?_ _
    refine State.cphRefuse_keeps ?_ _ _ _
    assumption
  · refine keepsO_ite ?_ ?_
    · refine keepsO_next ?_
      refine State.clearLoadData_keeps ?_ _
      refine State.cphRefuse_keeps ?_ _ _ _
      assumption
    · refine keepsO_next ?_
      refine State.startKey_keeps ?_ _
      assumption

theorem execCphUnwrapLoad_keeps {s0 s : State} (h : Keeps s0 s) (o : Fin 17) (slot : Fin 256) (wslot : Fin 256) :
    KeepsO s0 (execCphUnwrapLoad o slot wslot s) := by
  unfold execCphUnwrapLoad
  extract_lets +onlyGivenNames v1
  clear_value v1
  extract_lets +onlyGivenNames v2
  clear_value v2
  refine keepsO_ite ?_ ?_
  · refine keepsO_next ?_
    refine State.clearLoadData_keeps ?_ _
    refine State.cphRefuse_keeps ?_ _ _ _
    assumption
  · split
    · refine keepsO_next ?_
      refine State.clearLoadData_keeps ?_ _
      refine State.cphRefuse_keeps ?_ _ _ _
      assumption
    · refine keepsO_ite ?_ ?_
      · refine keepsO_next ?_
        refine State.clearLoadData_keeps ?_ _
        refine State.cphRefuse_keeps ?_ _ _ _
        assumption
      · split
        · refine keepsO_ite ?_ ?_
          · refine keepsO_next ?_
            refine State.clearLoadData_keeps ?_ _
            refine State.cphRefuse_keeps ?_ _ _ _
            assumption
          · refine keepsO_next ?_
            refine State.startKey_keeps ?_ _
            assumption
        · refine keepsO_next ?_
          refine State.clearLoadData_keeps ?_ _
          refine State.cphRefuse_keeps ?_ _ _ _
          assumption

theorem execCphZero_keeps {s0 s : State} (h : Keeps s0 s) (o : Fin 17) (slot : Fin 256) :
    KeepsO s0 (execCphZero o slot s) := by
  unfold execCphZero
  extract_lets +onlyGivenNames v1
  clear_value v1
  split
  · refine keepsO_next ?_
    refine State.clearLoadData_keeps ?_ _
    refine State.cphRefuse_keeps ?_ _ _ _
    assumption
  · refine keepsO_ite ?_ ?_
    · refine keepsO_next ?_
      refine State.clearLoadData_keeps ?_ _
      refine State.cphRefuse_keeps ?_ _ _ _
      assumption
    · refine keepsO_next ?_
      refine State.startKey_keeps ?_ _
      refine State.emptySlot_keeps ?_ _
      assumption

theorem State.endKey_keeps {s0 s : State} (h : Keeps s0 s) (o : ℕ) (code : ℕ) :
    Keeps s0 (State.endKey s o code) := by
  unfold State.endKey
  extract_lets +onlyGivenNames v1
  have h2 : Keeps s0 v1 := by
    dsimp only [v1]
    refine State.clearLoadData_keeps ?_ _
    refine State.put_keeps ?_ _ _
    refine State.putB_keeps ?_ _ _
    assumption
  clear_value v1
  refine keeps_mk ?_ rfl rfl rfl
  assumption

theorem execKeyLoadComplete_keeps {s0 s : State} (h : Keeps s0 s) (o : Fin 17) :
    KeepsO s0 (execKeyLoadComplete o s) := by
  unfold execKeyLoadComplete
  split
  · refine keepsO_next ?_
    assumption
  · refine keepsO_ite ?_ ?_
    · refine keepsO_next ?_
      refine keeps_ite ?_ ?_
      · assumption
      · refine State.endKey_keeps ?_ _ _
        assumption
    · refine keepsO_ite ?_ ?_
      · refine keepsO_next ?_
        refine State.endKey_keeps ?_ _ _
        refine State.cphRefuse_keeps ?_ _ _ _
        assumption
      · split
        · refine keepsO_next ?_
          refine State.endKey_keeps ?_ _ _
          refine State.sat_keeps ?_ _
          refine State.sat_keeps ?_ _
          refine State.fillSlot_keeps ?_ _ _
          assumption
        · refine keepsO_next ?_
          refine State.endKey_keeps ?_ _ _
          refine State.cphRefuse_keeps ?_ _ _ _
          assumption

theorem execCphSlotCfgWrite_keeps {s0 s : State} (h : Keeps s0 s) (o : Fin 17) (slot : Fin 256) (data : Word) :
    KeepsO s0 (execCphSlotCfgWrite o slot data s) := by
  unfold execCphSlotCfgWrite
  extract_lets +onlyGivenNames v1
  clear_value v1
  extract_lets +onlyGivenNames v2
  clear_value v2
  refine keepsO_ite ?_ ?_
  · refine keepsO_next ?_
    refine keeps_ite ?_ ?_
    · refine State.countDenied_keeps ?_ _ _
      assumption
    · refine State.cphLog_keeps ?_ _ _ _
      assumption
  · refine keepsO_ite ?_ ?_
    · refine keepsO_next ?_
      refine State.cphLog_keeps ?_ _ _ _
      assumption
    · extract_lets +onlyGivenNames v3
      clear_value v3
      refine keepsO_next ?_
      refine State.setWord_keeps ?_ _ _
      assumption

theorem State.enrol_keeps {s0 s : State} (h : Keeps s0 s) (secret : List Byte) (kcv : ℕ) :
    Keeps s0 (State.enrol s secret kcv) := by
  unfold State.enrol
  extract_lets +onlyGivenNames v1
  have h2 : Keeps s0 v1 := by
    dsimp only [v1]
    refine State.put_keeps ?_ _ _
    refine State.putB_keeps ?_ _ _
    assumption
  clear_value v1
  refine keeps_mk ?_ rfl rfl rfl
  assumption

theorem State.clearSecret_keeps {s0 s : State} (h : Keeps s0 s) :
    Keeps s0 (State.clearSecret s) := by
  unfold State.clearSecret
  extract_lets +onlyGivenNames v1
  have h2 : Keeps s0 v1 := by
    dsimp only [v1]
    refine State.put_keeps ?_ _ _
    refine State.putB_keeps ?_ _ _
    assumption
  clear_value v1
  refine keeps_mk ?_ rfl rfl rfl
  assumption

theorem State.clearSecretData_keeps {s0 s : State} (h : Keeps s0 s) :
    Keeps s0 (State.clearSecretData s) := by
  unfold State.clearSecretData
  refine State.each_keeps ?_ ?_ _
  · assumption
  · intro y1 y2 y3
    refine State.put_keeps ?_ _ _
    assumption

theorem execSecretEnrolCmd_keeps {s0 s : State} (h : Keeps s0 s) :
    KeepsO s0 (execSecretEnrolCmd s) := by
  unfold execSecretEnrolCmd
  extract_lets +onlyGivenNames v1
  clear_value v1
  extract_lets +onlyGivenNames v2
  clear_value v2
  refine keepsO_next ?_
  refine keeps_ite ?_ ?_
  · refine State.enrol_keeps ?_ _ _
    refine State.clearSecretData_keeps ?_
    assumption
  · refine State.logDev_keeps ?_ _ _ _
    refine State.clearSecretData_keeps ?_
    assumption

theorem execSecretClearCmd_keeps {s0 s : State} (h : Keeps s0 s) :
    KeepsO s0 (execSecretClearCmd s) := by
  unfold execSecretClearCmd
  refine keepsO_next ?_
  refine keeps_ite ?_ ?_
  · refine State.logDev_keeps ?_ _ _ _
    assumption
  · refine State.clearSecret_keeps ?_
    assumption

theorem State.servePortion_keeps {s0 s : State} (h : Keeps s0 s) (o : ℕ) :
    Keeps s0 (State.servePortion s o) := by
  unfold State.servePortion
  extract_lets +onlyGivenNames v1
  clear_value v1
  extract_lets +onlyGivenNames v2
  clear_value v2
  refine keeps_mk ?_ rfl rfl rfl
  assumption

theorem State.fetchLa_keeps {s0 s : State} (h : Keeps s0 s) (o : ℕ) (desc : List Byte) :
    Keeps s0 (State.fetchLa s o desc) := by
  unfold State.fetchLa
  extract_lets +onlyGivenNames v1
  clear_value v1
  extract_lets +onlyGivenNames v2
  clear_value v2
  extract_lets +onlyGivenNames v3
  clear_value v3
  extract_lets +onlyGivenNames v4
  clear_value v4
  extract_lets +onlyGivenNames v5
  have h6 : Keeps s0 v5 := by
    dsimp only [v5]
    refine State.putB_keeps ?_ _ _
    refine State.consume_keeps ?_ _ _ _
    assumption
  clear_value v5
  extract_lets +onlyGivenNames v7
  clear_value v7
  extract_lets +onlyGivenNames v8
  have h9 : Keeps s0 v8 := by
    dsimp only [v8]
    refine keeps_mk ?_ rfl rfl rfl
    assumption
  clear_value v8
  extract_lets +onlyGivenNames v10
  have h11 : Keeps s0 v10 := by
    dsimp only [v10]
    refine keeps_ite ?_ ?_
    · refine State.countDenied_keeps ?_ _ _
      assumption
    · assumption
  clear_value v10
  refine keeps_ite ?_ ?_
  · refine State.servePortion_keeps ?_ _
    assumption
  · assumption

theorem execLaRequestFetch_keeps {s0 s : State} (h : Keeps s0 s) (o : Fin 17) (desc : List Byte) :
    KeepsO s0 (execLaRequestFetch o desc s) := by
  unfold execLaRequestFetch
  refine keepsO_next ?_
  refine keeps_ite ?_ ?_
  · refine State.fetchLa_keeps ?_ _ _
    assumption
  · assumption

theorem State.drainLa_keeps {s0 s : State} (h : Keeps s0 s) (f o n r : Nat) : Keeps s0 (State.drainLa f o n r s) := by
  induction f generalizing s with
  | zero => exact h
  | succ f ih =>
    unfold State.drainLa
    split
    · split
      · exact ih (State.advanceCprod_keeps (keeps_mk h rfl rfl rfl) _ _)
      · exact h
    · exact h

theorem State.finishLa_keeps {s0 s : State} (h : Keeps s0 s) (j : LaJob) (status : ℕ) (written : ℕ) :
    Keeps s0 (State.finishLa s j status written) := by
  unfold State.finishLa
  extract_lets +onlyGivenNames v1
  clear_value v1
  extract_lets +onlyGivenNames v2
  clear_value v2
  extract_lets +onlyGivenNames v3
  have h4 : Keeps s0 v3 := by
    dsimp only [v3]
    refine State.writeCompletion_keeps ?_ _ _ _ _
    assumption
  clear_value v3
  extract_lets +onlyGivenNames v5
  clear_value v5
  extract_lets +onlyGivenNames v6
  have h7 : Keeps s0 v6 := by
    dsimp only [v6]
    refine keeps_mk ?_ rfl rfl rfl
    assumption
  clear_value v6
  extract_lets +onlyGivenNames v8
  have h9 : Keeps s0 v8 := by
    dsimp only [v8]
    refine State.drainLa_keeps ?_ _ _ _ _
    assumption
  clear_value v8
  refine keeps_ite ?_ ?_
  · assumption
  · refine State.putB_keeps ?_ _ _
    assumption

theorem State.laCount_keeps {s0 s : State} (h : Keeps s0 s) (o : ℕ) (k : ℕ) :
    Keeps s0 (State.laCount s o k) := by
  unfold State.laCount
  refine State.sat_keeps ?_ _
  assumption

theorem execLaRefusalComplete_keeps {s0 s : State} (h : Keeps s0 s) (o : Fin 17) :
    KeepsO s0 (execLaRefusalComplete o s) := by
  unfold execLaRefusalComplete
  split
  · refine keepsO_next ?_
    assumption
  · extract_lets +onlyGivenNames v1
    have h2 : Keeps s0 v1 := by
      dsimp only [v1]
      refine State.finishLa_keeps ?_ _ _ _
      assumption
    clear_value v1
    refine keepsO_next ?_
    refine keeps_ite ?_ ?_
    · assumption
    · refine State.cphLog_keeps ?_ _ _ _
      refine State.sat_keeps ?_ _
      refine State.laCount_keeps ?_ _ _
      assumption

theorem State.endLa_keeps {s0 s : State} (h : Keeps s0 s) (o : ℕ) (j : LaJob) (res : Option (List Byte × List Byte)) :
    Keeps s0 (State.endLa s o j res) := by
  unfold State.endLa
  split
  · refine State.cphLog_keeps ?_ _ _ _
    refine State.laCount_keeps ?_ _ _
    refine State.finishLa_keeps ?_ _ _ _
    assumption
  · extract_lets +onlyGivenNames v1
    clear_value v1
    extract_lets +onlyGivenNames v2
    have h3 : Keeps s0 v2 := by
      dsimp only [v2]
      refine keeps_ite ?_ ?_
      · assumption
      · refine State.dmaWrite_keeps ?_ _ _ _
        assumption
    clear_value v2
    extract_lets +onlyGivenNames v4
    have h5 : Keeps s0 v4 := by
      dsimp only [v4]
      refine keeps_ite ?_ ?_
      · assumption
      · refine State.dmaWrite_keeps ?_ _ _ _
        assumption
    clear_value v4
    refine State.laCount_keeps ?_ _ _
    refine State.finishLa_keeps ?_ _ _ _
    assumption

theorem execLaComplete_keeps {s0 s : State} (h : Keeps s0 s) (o : Fin 17) (index : Word) (src : List Byte) (aad : List Byte) (tag : List Byte) (error : Bool) :
    KeepsO s0 (execLaComplete o index src aad tag error s) := by
  unfold execLaComplete
  refine keepsO_next ?_
  split
  · assumption
  · refine keeps_ite ?_ ?_
    · assumption
    · refine keeps_ite ?_ ?_
      · refine State.cphLog_keeps ?_ _ _ _
        refine State.laCount_keeps ?_ _ _
        refine State.finishLa_keeps ?_ _ _ _
        assumption
      · refine State.endLa_keeps ?_ _ _ _
        assumption

theorem execRngHealthFail_keeps {s0 s : State} (h : Keeps s0 s) :
    KeepsO s0 (execRngHealthFail s) := by
  unfold execRngHealthFail
  extract_lets +onlyGivenNames v1
  clear_value v1
  extract_lets +onlyGivenNames v2
  have h3 : Keeps s0 v2 := by
    dsimp only [v2]
    refine keeps_mk ?_ rfl rfl rfl
    assumption
  clear_value v2
  refine keepsO_next ?_
  refine State.logDev_keeps ?_ _ _ _
  refine State.sat_keeps ?_ _
  refine State.putB_keeps ?_ _ _
  assumption

theorem State.reseed_keeps {s0 s : State} (h : Keeps s0 s) :
    Keeps s0 (State.reseed s) := by
  unfold State.reseed
  extract_lets +onlyGivenNames v1
  have h2 : Keeps s0 v1 := by
    dsimp only [v1]
    refine State.sat_keeps ?_ _
    assumption
  clear_value v1
  refine keeps_mk ?_ rfl rfl rfl
  assumption

theorem execRngHealthPass_keeps {s0 s : State} (h : Keeps s0 s) :
    KeepsO s0 (execRngHealthPass s) := by
  unfold execRngHealthPass
  extract_lets +onlyGivenNames v1
  clear_value v1
  extract_lets +onlyGivenNames v2
  have h3 : Keeps s0 v2 := by
    dsimp only [v2]
    refine keeps_mk ?_ rfl rfl rfl
    assumption
  clear_value v2
  extract_lets +onlyGivenNames v4
  have h5 : Keeps s0 v4 := by
    dsimp only [v4]
    refine keeps_ite ?_ ?_
    · assumption
    · refine State.reseed_keeps ?_
      assumption
  clear_value v4
  extract_lets +onlyGivenNames v6
  have h7 : Keeps s0 v6 := by
    dsimp only [v6]
    refine State.putB_keeps ?_ _ _
    assumption
  clear_value v6
  refine keepsO_next ?_
  refine keeps_ite ?_ ?_
  · assumption
  · refine State.fillLines_keeps ?_
    assumption

theorem State.eraseKeys_keeps {s0 s : State} (h : Keeps s0 s) :
    Keeps s0 (State.eraseKeys s) := by
  unfold State.eraseKeys
  extract_lets +onlyGivenNames v1
  have h2 : Keeps s0 v1 := by
    dsimp only [v1]
    refine State.each_keeps ?_ ?_ _
    · assumption
    · intro y3 y4 y5
      refine State.emptySlot_keeps ?_ _
      assumption
  clear_value v1
  extract_lets +onlyGivenNames v6
  clear_value v6
  extract_lets +onlyGivenNames v7
  have h8 : Keeps s0 v7 := by
    dsimp only [v7]
    refine State.each_keeps ?_ ?_ _
    · assumption
    · intro y9 y10 y11
      refine State.finishLa_keeps ?_ _ _ _
      assumption
  clear_value v7
  refine keeps_mk ?_ rfl rfl rfl
  assumption

theorem State.cipherAlarm_keeps {s0 s : State} (h : Keeps s0 s) (i : ℕ) :
    Keeps s0 (State.cipherAlarm s i) := by
  unfold State.cipherAlarm
  extract_lets +onlyGivenNames v1
  have h2 : Keeps s0 v1 := by
    dsimp only [v1]
    refine State.mark_keeps ?_ _ _
    refine State.eraseKeys_keeps ?_
    refine State.zeroBursts_keeps ?_
    assumption
  clear_value v1
  extract_lets +onlyGivenNames v3
  have h4 : Keeps s0 v3 := by
    dsimp only [v3]
    refine keeps_ite ?_ ?_
    · refine State.putB_keeps ?_ _ _
      assumption
    · assumption
  clear_value v3
  extract_lets +onlyGivenNames v5
  clear_value v5
  extract_lets +onlyGivenNames v6
  clear_value v6
  extract_lets +onlyGivenNames v7
  have h8 : Keeps s0 v7 := by
    dsimp only [v7]
    refine keeps_mk ?_ rfl rfl rfl
    assumption
  clear_value v7
  extract_lets +onlyGivenNames v9
  have h10 : Keeps s0 v9 := by
    dsimp only [v9]
    refine State.put_keeps ?_ _ _
    refine State.sat_keeps ?_ _
    refine State.sat_keeps ?_ _
    assumption
  clear_value v9
  extract_lets +onlyGivenNames v11
  have h12 : Keeps s0 v11 := by
    dsimp only [v11]
    refine keeps_ite ?_ ?_
    · refine State.logDev_keeps ?_ _ _ _
      refine State.sat_keeps ?_ _
      assumption
    · assumption
  clear_value v11
  extract_lets +onlyGivenNames v13
  have h14 : Keeps s0 v13 := by
    dsimp only [v13]
    refine State.raisePf_keeps ?_ _
    refine State.logDev_keeps ?_ _ _ _
    assumption
  clear_value v13
  refine keeps_ite ?_ ?_
  · refine State.logDev_keeps ?_ _ _ _
    refine State.putB_keeps ?_ _ _
    assumption
  · assumption

theorem execCphEraseCmd_keeps {s0 s : State} (h : Keeps s0 s) :
    KeepsO s0 (execCphEraseCmd s) := by
  unfold execCphEraseCmd
  refine keepsO_next ?_
  refine State.cipherAlarm_keeps ?_ _
  assumption

theorem execCipherAlarm_keeps {s0 s : State} (h : Keeps s0 s) (source : Fin 5) :
    KeepsO s0 (execCipherAlarm source s) := by
  unfold execCipherAlarm
  refine keepsO_next ?_
  refine State.cipherAlarm_keeps ?_ _
  assumption

theorem State.recoverKeys_keeps {s0 s : State} (h : Keeps s0 s) :
    Keeps s0 (State.recoverKeys s) := by
  unfold State.recoverKeys
  extract_lets +onlyGivenNames v1
  have h2 : Keeps s0 v1 := by
    dsimp only [v1]
    refine State.putB_keeps ?_ _ _
    assumption
  clear_value v1
  extract_lets +onlyGivenNames v3
  clear_value v3
  extract_lets +onlyGivenNames v4
  have h5 : Keeps s0 v4 := by
    dsimp only [v4]
    refine keeps_mk ?_ rfl rfl rfl
    assumption
  clear_value v4
  extract_lets +onlyGivenNames v6
  have h7 : Keeps s0 v6 := by
    dsimp only [v6]
    refine keeps_ite ?_ ?_
    · refine State.reseed_keeps ?_
      assumption
    · assumption
  clear_value v6
  extract_lets +onlyGivenNames v8
  have h9 : Keeps s0 v8 := by
    dsimp only [v8]
    refine State.fillLines_keeps ?_
    assumption
  clear_value v8
  extract_lets +onlyGivenNames v10
  clear_value v10
  refine State.each_keeps ?_ ?_ _
  · assumption
  · intro y11 y12 y13
    refine State.raiseNiche_keeps ?_ _ _
    refine State.logNiche_keeps ?_ _ _ _
    refine State.sat_keeps ?_ _
    assumption

theorem execAlarmRecovery_keeps {s0 s : State} (h : Keeps s0 s) :
    KeepsO s0 (execAlarmRecovery s) := by
  unfold execAlarmRecovery
  refine keepsO_next ?_
  refine keeps_ite ?_ ?_
  · refine State.recoverKeys_keeps ?_
    assumption
  · assumption

theorem State.renewPortions_keeps {s0 s : State} (h : Keeps s0 s) :
    Keeps s0 (State.renewPortions s) := by
  unfold State.renewPortions
  extract_lets +onlyGivenNames v1
  clear_value v1
  extract_lets +onlyGivenNames v2
  clear_value v2
  extract_lets +onlyGivenNames v3
  clear_value v3
  extract_lets +onlyGivenNames v4
  have h5 : Keeps s0 v4 := by
    dsimp only [v4]
    refine keeps_mk ?_ rfl rfl rfl
    assumption
  clear_value v4
  refine State.each_keeps ?_ ?_ _
  · assumption
  · intro y6 y7 y8
    refine State.servePortion_keeps ?_ _
    refine keeps_mk ?_ rfl rfl rfl
    assumption

theorem execMicroslotStart_keeps {s0 s : State} (h : Keeps s0 s) (k : Fin 8) :
    KeepsO s0 (execMicroslotStart k s) := by
  unfold execMicroslotStart
  extract_lets +onlyGivenNames v1
  have h2 : Keeps s0 v1 := by
    dsimp only [v1]
    refine State.put_keeps ?_ _ _
    assumption
  clear_value v1
  refine keepsO_next ?_
  refine keeps_ite ?_ ?_
  · refine State.renewPortions_keeps ?_
    assumption
  · assumption

end Sys2Proof.Machine
end

