-- ==== Sys2Proof/Laws/KeepsCrt.lean ====
section
/-!
SUPPORT. What Crt.lean leaves untouched (Keeps), operation by operation.
-/

namespace Sys2Proof.Machine

open Sys2Proof

theorem State.crtLog_keeps {s0 s : State} (h : Keeps s0 s) (code : ℕ) (data : ℕ) :
    Keeps s0 (State.crtLog s code data) := by
  unfold State.crtLog
  refine State.raisePf_keeps ?_ _
  refine State.logDev_keeps ?_ _ _ _
  assumption

theorem State.cartGone_keeps {s0 s : State} (h : Keeps s0 s) :
    Keeps s0 (State.cartGone s) := by
  unfold State.cartGone
  refine keeps_ite ?_ ?_
  · extract_lets +onlyGivenNames v1
    have h2 : Keeps s0 v1 := by
      dsimp only [v1]
      refine State.putB_keeps ?_ _ _
      refine State.putB_keeps ?_ _ _
      assumption
    clear_value v1
    extract_lets +onlyGivenNames v3
    clear_value v3
    extract_lets +onlyGivenNames v4
    have h5 : Keeps s0 v4 := by
      dsimp only [v4]
      refine keeps_mk ?_ rfl rfl rfl
      assumption
    clear_value v4
    refine State.crtLog_keeps ?_ _ _
    refine State.syncLaser_keeps ?_
    refine State.syncUp_keeps ?_
    refine State.endSet_keeps ?_
    assumption
  · assumption

theorem execCartRemoved_keeps {s0 s : State} (h : Keeps s0 s) :
    KeepsO s0 (execCartRemoved s) := by
  unfold execCartRemoved
  refine keepsO_next ?_
  refine State.cartGone_keeps ?_
  refine State.putB_keeps ?_ _ _
  assumption

theorem State.showWear_keeps {s0 s : State} (h : Keeps s0 s) :
    Keeps s0 (State.showWear s) := by
  unfold State.showWear
  extract_lets +onlyGivenNames v1
  clear_value v1
  extract_lets +onlyGivenNames v2
  have h3 : Keeps s0 v2 := by
    dsimp only [v2]
    refine State.put_keeps ?_ _ _
    refine State.put_keeps ?_ _ _
    assumption
  clear_value v2
  refine State.put_keeps ?_ _ _
  refine State.put_keeps ?_ _ _
  assumption

theorem State.raiseWear_keeps {s0 s : State} (h : Keeps s0 s) :
    Keeps s0 (State.raiseWear s) := by
  unfold State.raiseWear
  extract_lets +onlyGivenNames v1
  have h2 : Keeps s0 v1 := by
    dsimp only [v1]
    refine State.showWear_keeps ?_
    assumption
  clear_value v1
  extract_lets +onlyGivenNames v3
  clear_value v3
  refine keeps_ite ?_ ?_
  · refine State.patinaReport_keeps ?_ _
    refine State.crtLog_keeps ?_ _ _
    refine State.put_keeps ?_ _ _
    assumption
  · assumption

theorem State.writePatina_keeps {s0 s : State} (h : Keeps s0 s) (hour : Bool) :
    Keeps s0 (State.writePatina s hour) := by
  unfold State.writePatina
  extract_lets +onlyGivenNames v1
  clear_value v1
  extract_lets +onlyGivenNames v2
  clear_value v2
  extract_lets +onlyGivenNames v3
  clear_value v3
  extract_lets +onlyGivenNames v4
  clear_value v4
  extract_lets +onlyGivenNames v5
  have h6 : Keeps s0 v5 := by
    dsimp only [v5]
    refine keeps_mk ?_ rfl rfl rfl
    assumption
  clear_value v5
  refine State.sat_keeps ?_ _
  refine State.send_keeps ?_ _
  assumption

theorem State.otherCartridge_keeps {s0 s : State} (h : Keeps s0 s) :
    Keeps s0 (State.otherCartridge s) := by
  unfold State.otherCartridge
  extract_lets +onlyGivenNames v1
  have h2 : Keeps s0 v1 := by
    dsimp only [v1]
    refine State.put_keeps ?_ _ _
    refine State.put_keeps ?_ _ _
    refine State.put_keeps ?_ _ _
    assumption
  clear_value v1
  extract_lets +onlyGivenNames v3
  have h4 : Keeps s0 v3 := by
    dsimp only [v3]
    refine State.put_keeps ?_ _ _
    refine State.put_keeps ?_ _ _
    refine State.put_keeps ?_ _ _
    assumption
  clear_value v3
  extract_lets +onlyGivenNames v5
  have h6 : Keeps s0 v5 := by
    dsimp only [v5]
    refine State.put_keeps ?_ _ _
    refine State.put_keeps ?_ _ _
    refine State.put_keeps ?_ _ _
    assumption
  clear_value v5
  extract_lets +onlyGivenNames v7
  have h8 : Keeps s0 v7 := by
    dsimp only [v7]
    refine State.endSet_keeps ?_
    assumption
  clear_value v7
  extract_lets +onlyGivenNames v9
  clear_value v9
  extract_lets +onlyGivenNames v10
  have h11 : Keeps s0 v10 := by
    dsimp only [v10]
    refine keeps_mk ?_ rfl rfl rfl
    assumption
  clear_value v10
  refine keeps_ite ?_ ?_
  · extract_lets +onlyGivenNames v12
    have h13 : Keeps s0 v12 := by
      dsimp only [v12]
      refine State.setSafe_keeps ?_ _ _
      refine State.put_keeps ?_ _ _
      refine State.putB_keeps ?_ _ _
      assumption
    clear_value v12
    refine keeps_mk ?_ rfl rfl rfl
    assumption
  · assumption

theorem State.acceptCart_keeps {s0 s : State} (h : Keeps s0 s) (id : List Byte) (patina : List Byte) (inserted : Bool) :
    Keeps s0 (State.acceptCart s id patina inserted) := by
  unfold State.acceptCart
  extract_lets +onlyGivenNames v1
  clear_value v1
  extract_lets +onlyGivenNames v2
  clear_value v2
  extract_lets +onlyGivenNames v3
  clear_value v3
  extract_lets +onlyGivenNames v4
  clear_value v4
  extract_lets +onlyGivenNames v5
  clear_value v5
  extract_lets +onlyGivenNames v6
  have h7 : Keeps s0 v6 := by
    dsimp only [v6]
    refine keeps_ite ?_ ?_
    · assumption
    · refine State.otherCartridge_keeps ?_
      assumption
  clear_value v6
  extract_lets +onlyGivenNames v8
  have h9 : Keeps s0 v8 := by
    dsimp only [v8]
    refine State.put_keeps ?_ _ _
    refine State.put_keeps ?_ _ _
    assumption
  clear_value v8
  extract_lets +onlyGivenNames v10
  clear_value v10
  extract_lets +onlyGivenNames v11
  have h12 : Keeps s0 v11 := by
    dsimp only [v11]
    refine keeps_mk ?_ rfl rfl rfl
    assumption
  clear_value v11
  extract_lets +onlyGivenNames v13
  have h14 : Keeps s0 v13 := by
    dsimp only [v13]
    refine State.send_keeps ?_ _
    assumption
  clear_value v13
  extract_lets +onlyGivenNames v15
  have h16 : Keeps s0 v15 := by
    dsimp only [v15]
    refine State.putB_keeps ?_ _ _
    refine State.putB_keeps ?_ _ _
    assumption
  clear_value v15
  extract_lets +onlyGivenNames v17
  have h18 : Keeps s0 v17 := by
    dsimp only [v17]
    refine State.put_keeps ?_ _ _
    refine State.putB_keeps ?_ _ _
    assumption
  clear_value v17
  extract_lets +onlyGivenNames v19
  have h20 : Keeps s0 v19 := by
    dsimp only [v19]
    refine State.startRelock_keeps ?_
    refine State.put_keeps ?_ _ _
    assumption
  clear_value v19
  extract_lets +onlyGivenNames v21
  have h22 : Keeps s0 v21 := by
    dsimp only [v21]
    refine State.syncLaser_keeps ?_
    refine State.syncUp_keeps ?_
    refine State.sat_keeps ?_ _
    refine State.crtLog_keeps ?_ _ _
    assumption
  clear_value v21
  extract_lets +onlyGivenNames v23
  have h24 : Keeps s0 v23 := by
    dsimp only [v23]
    refine State.showWear_keeps ?_
    refine keeps_ite ?_ ?_
    · refine State.writePatina_keeps ?_ _
      assumption
    · assumption
  clear_value v23
  refine State.patinaReport_keeps ?_ _
  refine State.raiseWear_keeps ?_
  assumption

theorem execCartAcceptance_keeps {s0 s : State} (h : Keeps s0 s) (identity : List Byte) (patina : List Byte) (inserted : Bool) :
    KeepsO s0 (execCartAcceptance identity patina inserted s) := by
  unfold execCartAcceptance
  refine keepsO_ite ?_ ?_
  · refine keepsO_next ?_
    assumption
  · extract_lets +onlyGivenNames v1
    have h2 : Keeps s0 v1 := by
      dsimp only [v1]
      refine State.putB_keeps ?_ _ _
      assumption
    clear_value v1
    split
    · refine keepsO_next ?_
      refine State.sat_keeps ?_ _
      refine State.crtLog_keeps ?_ _ _
      assumption
    · refine keepsO_next ?_
      refine State.acceptCart_keeps ?_ _ _ _
      assumption

theorem State.recoverBus_keeps {s0 s : State} (h : Keeps s0 s) (sda : List Bool) :
    Keeps s0 (State.recoverBus s sda).1 := by
  unfold State.recoverBus
  dsimp only
  refine State.send_keeps ?_ _
  refine State.sat_keeps ?_ _
  assumption

theorem State.busFree_keeps {s0 s : State} (h : Keeps s0 s) :
    Keeps s0 (State.busFree s) := by
  unfold State.busFree
  refine keeps_ite ?_ ?_
  · refine State.setSafe_keeps ?_ _ _
    extract_lets +onlyGivenNames v1
    have h2 : Keeps s0 v1 := by
      dsimp only [v1]
      refine State.putB_keeps ?_ _ _
      assumption
    clear_value v1
    refine keeps_mk ?_ rfl rfl rfl
    assumption
  · assumption

theorem State.busStuck_keeps {s0 s : State} (h : Keeps s0 s) :
    Keeps s0 (State.busStuck s) := by
  unfold State.busStuck
  extract_lets +onlyGivenNames v1
  have h2 : Keeps s0 v1 := by
    dsimp only [v1]
    refine State.sat_keeps ?_ _
    refine State.putB_keeps ?_ _ _
    assumption
  clear_value v1
  extract_lets +onlyGivenNames v3
  have h4 : Keeps s0 v3 := by
    dsimp only [v3]
    refine keeps_ite ?_ ?_
    · assumption
    · refine State.crtLog_keeps ?_ _ _
      assumption
  clear_value v3
  extract_lets +onlyGivenNames v5
  clear_value v5
  extract_lets +onlyGivenNames v6
  have h7 : Keeps s0 v6 := by
    dsimp only [v6]
    refine keeps_mk ?_ rfl rfl rfl
    assumption
  clear_value v6
  refine State.cartGone_keeps ?_
  refine State.setSafe_keeps ?_ _ _
  assumption

theorem execBusRecovery_keeps {s0 s : State} (h : Keeps s0 s) (failed : Bool) (sda : List Bool) :
    KeepsO s0 (execBusRecovery failed sda s) := by
  unfold execBusRecovery
  extract_lets +onlyGivenNames v1
  have h2 : Keeps s0 v1 := by
    dsimp only [v1]
    refine State.sat_keeps ?_ _
    assumption
  clear_value v1
  extract_lets +onlyGivenNames v3
  clear_value v3
  extract_lets +onlyGivenNames v4
  have h5 : Keeps s0 v4 := by
    dsimp only [v4]
    refine keeps_ite ?_ ?_
    · refine keeps_mk ?_ rfl rfl rfl
      assumption
    · assumption
  clear_value v4
  extract_lets +onlyGivenNames v6
  have h7 : Keeps s0 v6.1 := by
    dsimp only [v6]
    refine State.recoverBus_keeps ?_ _
    assumption
  clear_value v6
  refine keepsO_next ?_
  refine keeps_ite ?_ ?_
  · refine keeps_ite ?_ ?_
    · refine State.cartGone_keeps ?_
      refine State.busFree_keeps ?_
      assumption
    · refine State.busFree_keeps ?_
      assumption
  · refine State.busStuck_keeps ?_
    assumption

theorem execBusStuckRetry_keeps {s0 s : State} (h : Keeps s0 s) (sda : List Bool) :
    KeepsO s0 (execBusStuckRetry sda s) := by
  unfold execBusStuckRetry
  refine keepsO_next ?_
  refine keeps_ite ?_ ?_
  · extract_lets +onlyGivenNames v1
    have h2 : Keeps s0 v1.1 := by
      dsimp only [v1]
      refine State.recoverBus_keeps ?_ _
      assumption
    clear_value v1
    refine keeps_ite ?_ ?_
    · refine State.busFree_keeps ?_
      assumption
    · assumption
  · assumption

theorem execCartTempPoll_keeps {s0 s : State} (h : Keeps s0 s) (temp : Option (BitVec 16)) :
    KeepsO s0 (execCartTempPoll temp s) := by
  unfold execCartTempPoll
  split
  · refine keepsO_next ?_
    assumption
  · extract_lets +onlyGivenNames v1
    have h2 : Keeps s0 v1 := by
      dsimp only [v1]
      refine State.put_keeps ?_ _ _
      assumption
    clear_value v1
    extract_lets +onlyGivenNames v3
    clear_value v3
    refine keepsO_next ?_
    refine keeps_mk ?_ rfl rfl rfl
    assumption

theorem execPatinaWrite_keeps {s0 s : State} (h : Keeps s0 s) (ok : Bool) :
    KeepsO s0 (execPatinaWrite ok s) := by
  unfold execPatinaWrite
  extract_lets +onlyGivenNames v1
  clear_value v1
  refine keepsO_ite ?_ ?_
  · refine keepsO_next ?_
    refine State.showWear_keeps ?_
    refine State.writePatina_keeps ?_ _
    assumption
  · refine keepsO_next ?_
    assumption

theorem execRequestPatina_keeps {s0 s : State} (h : Keeps s0 s) (msg : List Byte) :
    KeepsO s0 (execRequestPatina msg s) := by
  unfold execRequestPatina
  refine keepsO_next ?_
  refine keeps_ite ?_ ?_
  · refine State.patinaReport_keeps ?_ _
    refine State.tookMsg_keeps ?_ _
    assumption
  · assumption

theorem execCrtRawGo_keeps {s0 s : State} (h : Keeps s0 s) (data : Word) :
    KeepsO s0 (execCrtRawGo data s) := by
  unfold execCrtRawGo
  extract_lets +onlyGivenNames v1
  clear_value v1
  extract_lets +onlyGivenNames v2
  clear_value v2
  refine keepsO_ite ?_ ?_
  · refine keepsO_next ?_
    refine State.crtLog_keeps ?_ _ _
    assumption
  · extract_lets +onlyGivenNames v3
    have h4 : Keeps s0 v3 := by
      dsimp only [v3]
      refine State.put_keeps ?_ _ _
      refine State.put_keeps ?_ _ _
      refine State.put_keeps ?_ _ _
      assumption
    clear_value v3
    refine keepsO_next ?_
    refine keeps_mk ?_ rfl rfl rfl
    assumption

theorem execCrtRawDone_keeps {s0 s : State} (h : Keeps s0 s) (byte : Byte) :
    KeepsO s0 (execCrtRawDone byte s) := by
  unfold execCrtRawDone
  split
  · refine keepsO_next ?_
    assumption
  · refine keepsO_next ?_
    extract_lets +onlyGivenNames v1
    have h2 : Keeps s0 v1 := by
      dsimp only [v1]
      refine State.putB_keeps ?_ _ _
      refine State.put_keeps ?_ _ _
      assumption
    clear_value v1
    refine keeps_mk ?_ rfl rfl rfl
    assumption

theorem execApdLoopStep_keeps {s0 s : State} (h : Keeps s0 s) :
    KeepsO s0 (execApdLoopStep s) := by
  unfold execApdLoopStep
  extract_lets +onlyGivenNames v1
  clear_value v1
  refine keepsO_next ?_
  refine State.tookFree_keeps ?_
  refine State.loopStep_keeps ?_ _ _ _
  assumption

theorem execLaserLoopStep_keeps {s0 s : State} (h : Keeps s0 s) (loop : Fin 4) (reading : ℕ) :
    KeepsO s0 (execLaserLoopStep loop reading s) := by
  unfold execLaserLoopStep
  extract_lets +onlyGivenNames v1
  clear_value v1
  extract_lets +onlyGivenNames v2
  clear_value v2
  extract_lets +onlyGivenNames v3
  have h4 : Keeps s0 v3 := by
    dsimp only [v3]
    refine State.loopStep_keeps ?_ _ _ _
    assumption
  clear_value v3
  extract_lets +onlyGivenNames v5
  clear_value v5
  refine keepsO_next ?_
  refine keeps_ite ?_ ?_
  · refine State.raiseWear_keeps ?_
    refine keeps_mk ?_ rfl rfl rfl
    assumption
  · assumption

end Sys2Proof.Machine
end

