-- ==== Sys2Proof/Laws/KeepsFlc.lean ====
section
/-!
SUPPORT. What Flc.lean leaves untouched (Keeps), operation by operation.
-/

namespace Sys2Proof.Machine

open Sys2Proof

theorem State.flcLog_keeps {s0 s : State} (h : Keeps s0 s) (code : ℕ) (port : ℕ) (addr : ℕ) :
    Keeps s0 (State.flcLog s code port addr) := by
  unfold State.flcLog
  refine State.raisePf_keeps ?_ _
  refine State.logDev_keeps ?_ _ _ _
  assumption

theorem State.flashRefuse_keeps {s0 s : State} (h : Keeps s0 s) (port : ℕ) (code : ℕ) (a : ℕ) :
    Keeps s0 (State.flashRefuse s port code a) := by
  unfold State.flashRefuse
  refine State.flcLog_keeps ?_ _ _ _
  refine State.sat_keeps ?_ _
  refine State.put_keeps ?_ _ _
  assumption

theorem State.flashStart_keeps {s0 s : State} (h : Keeps s0 s) (o : FlashOp) :
    Keeps s0 (State.flashStart s o) := by
  unfold State.flashStart
  extract_lets +onlyGivenNames v1
  have h2 : Keeps s0 v1 := by
    dsimp only [v1]
    refine State.put_keeps ?_ _ _
    refine State.putB_keeps ?_ _ _
    assumption
  clear_value v1
  refine keeps_mk ?_ rfl rfl rfl
  assumption

theorem State.flashEnd_keeps {s0 s : State} (h : Keeps s0 s) (port : ℕ) (code : ℕ) :
    Keeps s0 (State.flashEnd s port code) := by
  unfold State.flashEnd
  refine State.put_keeps ?_ _ _
  refine State.putB_keeps ?_ _ _
  assumption

theorem State.flashProgram_keeps {s0 s : State} (h : Keeps s0 s) (port : ℕ) (a : ℕ) (data : List Byte) :
    Keeps s0 (State.flashProgram s port a data) := by
  unfold State.flashProgram
  split
  · refine State.flashRefuse_keeps ?_ _ _ _
    assumption
  · refine keeps_ite ?_ ?_
    · refine State.sat_keeps ?_ _
      refine State.flashEnd_keeps ?_ _ _
      assumption
    · refine State.flashStart_keeps ?_ _
      assumption

theorem State.flashErase_keeps {s0 s : State} (h : Keeps s0 s) (port : ℕ) (a : ℕ) :
    Keeps s0 (State.flashErase s port a) := by
  unfold State.flashErase
  split
  · refine State.flashRefuse_keeps ?_ _ _ _
    assumption
  · refine State.flashStart_keeps ?_ _
    refine State.markSector_keeps ?_ _ _
    assumption

theorem execFlashProgramCmd_keeps {s0 s : State} (h : Keeps s0 s) (port : Fin 3) :
    KeepsO s0 (execFlashProgramCmd port s) := by
  unfold execFlashProgramCmd
  refine keepsO_next ?_
  refine State.flashProgram_keeps ?_ _ _ _
  assumption

theorem execFlashEraseCmd_keeps {s0 s : State} (h : Keeps s0 s) (port : Fin 3) :
    KeepsO s0 (execFlashEraseCmd port s) := by
  unfold execFlashEraseCmd
  refine keepsO_next ?_
  refine State.flashErase_keeps ?_ _ _
  assumption

theorem State.suspendErase_keeps {s0 s : State} (h : Keeps s0 s) (held : Bool) :
    Keeps s0 (State.suspendErase s held) := by
  unfold State.suspendErase
  split
  · refine keeps_ite ?_ ?_
    · extract_lets +onlyGivenNames v1
      clear_value v1
      extract_lets +onlyGivenNames v2
      have h3 : Keeps s0 v2 := by
        dsimp only [v2]
        refine State.sat_keeps ?_ _
        assumption
      clear_value v2
      refine keeps_mk ?_ rfl rfl rfl
      assumption
    · assumption
  · assumption

theorem State.resumeErase_keeps {s0 s : State} (h : Keeps s0 s) :
    Keeps s0 (State.resumeErase s) := by
  unfold State.resumeErase
  split
  · refine keeps_ite ?_ ?_
    · refine keeps_mk ?_ rfl rfl rfl
      assumption
    · refine keeps_mk ?_ rfl rfl rfl
      assumption
  · assumption

theorem execFlashSuspendCmd_keeps {s0 s : State} (h : Keeps s0 s) :
    KeepsO s0 (execFlashSuspendCmd s) := by
  unfold execFlashSuspendCmd
  refine keepsO_next ?_
  refine keeps_ite ?_ ?_
  · refine keeps_mk ?_ rfl rfl rfl
    assumption
  · refine State.suspendErase_keeps ?_ _
    assumption

theorem execFlashResumeCmd_keeps {s0 s : State} (h : Keeps s0 s) :
    KeepsO s0 (execFlashResumeCmd s) := by
  unfold execFlashResumeCmd
  refine keepsO_next ?_
  refine keeps_ite ?_ ?_
  · refine State.resumeErase_keeps ?_
    assumption
  · assumption

theorem execFlashProgramDone_keeps {s0 s : State} (h : Keeps s0 s) (ok : Bool) :
    KeepsO s0 (execFlashProgramDone ok s) := by
  unfold execFlashProgramDone
  refine keepsO_next ?_
  split
  · refine keeps_ite ?_ ?_
    · assumption
    · extract_lets +onlyGivenNames v1
      clear_value v1
      extract_lets +onlyGivenNames v2
      have h3 : Keeps s0 v2 := by
        dsimp only [v2]
        refine keeps_mk ?_ rfl rfl rfl
        assumption
      clear_value v2
      refine keeps_ite ?_ ?_
      · refine State.sat_keeps ?_ _
        refine State.flashEnd_keeps ?_ _ _
        refine State.setUnit_keeps ?_ _ _
        assumption
      · refine State.flcLog_keeps ?_ _ _ _
        refine State.sat_keeps ?_ _
        refine State.flashEnd_keeps ?_ _ _
        refine State.tookFree_keeps ?_
        refine State.setUnit_keeps ?_ _ _
        assumption
  · assumption

theorem execFlashEraseDone_keeps {s0 s : State} (h : Keeps s0 s) (ok : Bool) :
    KeepsO s0 (execFlashEraseDone ok s) := by
  unfold execFlashEraseDone
  refine keepsO_next ?_
  split
  · refine keeps_ite ?_ ?_
    · assumption
    · extract_lets +onlyGivenNames v1
      clear_value v1
      extract_lets +onlyGivenNames v2
      clear_value v2
      extract_lets +onlyGivenNames v3
      have h4 : Keeps s0 v3 := by
        dsimp only [v3]
        refine keeps_mk ?_ rfl rfl rfl
        assumption
      clear_value v3
      refine keeps_ite ?_ ?_
      · refine State.sat_keeps ?_ _
        refine State.flashEnd_keeps ?_ _ _
        refine State.markSector_keeps ?_ _ _
        refine State.eraseSector_keeps ?_ _
        assumption
      · extract_lets +onlyGivenNames v5
        clear_value v5
        extract_lets +onlyGivenNames v6
        have h7 : Keeps s0 v6 := by
          dsimp only [v6]
          refine keeps_mk ?_ rfl rfl rfl
          assumption
        clear_value v6
        refine State.flcLog_keeps ?_ _ _ _
        refine State.sat_keeps ?_ _
        refine State.flashEnd_keeps ?_ _ _
        assumption
  · assumption

theorem State.flashRead_keeps {s0 s : State} (h : Keeps s0 s) (master : ℕ) (a : ℕ) (ecc : ℕ) (stall : ℕ) :
    Keeps s0 (State.flashRead s master a ecc stall) := by
  unfold State.flashRead
  extract_lets +onlyGivenNames v1
  clear_value v1
  extract_lets +onlyGivenNames v2
  clear_value v2
  extract_lets +onlyGivenNames v3
  have h4 : Keeps s0 v3 := by
    dsimp only [v3]
    refine State.when_keeps ?_ ?_ _
    · assumption
    · intro y5 y6
      refine State.suspendErase_keeps ?_ _
      refine State.put_keeps ?_ _ _
      assumption
  clear_value v3
  extract_lets +onlyGivenNames v7
  have h8 : Keeps s0 v7 := by
    dsimp only [v7]
    refine State.when_keeps ?_ ?_ _
    · assumption
    · intro y9 y10
      refine keeps_mk ?_ rfl rfl rfl
      assumption
  clear_value v7
  extract_lets +onlyGivenNames v11
  clear_value v11
  extract_lets +onlyGivenNames v12
  clear_value v12
  extract_lets +onlyGivenNames v13
  have h14 : Keeps s0 v13 := by
    dsimp only [v13]
    refine State.when_keeps ?_ ?_ _
    · assumption
    · intro y15 y16
      refine State.sat_keeps ?_ _
      assumption
  clear_value v13
  extract_lets +onlyGivenNames v17
  have h18 : Keeps s0 v17 := by
    dsimp only [v17]
    refine State.when_keeps ?_ ?_ _
    · assumption
    · intro y19 y20
      refine State.limDev_keeps ?_ _ _ _
      refine State.sat_keeps ?_ _
      refine keeps_mk ?_ rfl rfl rfl
      assumption
  clear_value v17
  refine State.when_keeps ?_ ?_ _
  · assumption
  · intro y21 y22
    extract_lets +onlyGivenNames v23
    have h24 : Keeps s0 v23 := by
      dsimp only [v23]
      refine State.when_keeps ?_ ?_ _
      · assumption
      · intro y25 y26
        refine State.putB_keeps ?_ _ _
        assumption
    clear_value v23
    refine State.when_keeps ?_ ?_ _
    · assumption
    · intro y27 y28
      refine State.putB_keeps ?_ _ _
      assumption

theorem execFlashWindowRead_keeps {s0 s : State} (h : Keeps s0 s) (master : Fin 3) (addr : BitVec 25) (ecc : Fin 3) (stall : ℕ) :
    KeepsO s0 (execFlashWindowRead master addr ecc stall s) := by
  unfold execFlashWindowRead
  extract_lets +onlyGivenNames v1
  clear_value v1
  extract_lets +onlyGivenNames v2
  have h3 : Keeps s0 v2 := by
    dsimp only [v2]
    refine State.flashRead_keeps ?_ _ _ _ _
    assumption
  clear_value v2
  refine keepsO_next ?_
  refine State.tookFree_keeps ?_
  refine State.when_keeps ?_ ?_ _
  · assumption
  · intro y4 y5
    refine State.send_keeps ?_ _
    assumption

theorem execEraseAutoResume_keeps {s0 s : State} (h : Keeps s0 s) :
    KeepsO s0 (execEraseAutoResume s) := by
  unfold execEraseAutoResume
  refine keepsO_next ?_
  refine keeps_ite ?_ ?_
  · refine State.resumeErase_keeps ?_
    assumption
  · assumption

theorem execEraseSlow_keeps {s0 s : State} (h : Keeps s0 s) :
    KeepsO s0 (execEraseSlow s) := by
  unfold execEraseSlow
  extract_lets +onlyGivenNames v1
  have h2 : ∀ a1 a2, Keeps s0 a2 → Keeps s0 (v1 a1 a2) := by
    intro a1 a2 b0
    dsimp only [v1]
    refine State.flcLog_keeps ?_ _ _ _
    assumption
  clear_value v1
  refine keepsO_next ?_
  split
  · refine keeps_ite ?_ ?_
    · with_reducible apply_assumption
      refine keeps_mk ?_ rfl rfl rfl
      assumption
    · split
      · refine keeps_ite ?_ ?_
        · with_reducible apply_assumption
          refine keeps_mk ?_ rfl rfl rfl
          assumption
        · assumption
      · assumption
  · refine keeps_ite ?_ ?_
    · with_reducible apply_assumption
      refine keeps_mk ?_ rfl rfl rfl
      assumption
    · assumption
  · assumption

end Sys2Proof.Machine
end

