-- ==== Sys2Proof/Laws/KeepsMbxOps.lean ====
section
/-!
SUPPORT. What MbxOps.lean leaves untouched (Keeps), operation by operation.
-/

namespace Sys2Proof.Machine

open Sys2Proof

theorem State.setMbx_keeps {s0 s : State} (h : Keeps s0 s) (a : Agent) (m : Mbx) :
    Keeps s0 (State.setMbx s a m) := by
  unfold State.setMbx
  split
  · refine keeps_mk ?_ rfl rfl rfl
    assumption
  · refine keeps_mk ?_ rfl rfl rfl
    assumption
  · refine keeps_mk ?_ rfl rfl rfl
    assumption
  · refine keeps_mk ?_ rfl rfl rfl
    assumption
  · assumption
  · assumption

theorem State.limSup_keeps {s0 s : State} (h : Keeps s0 s) (a : Agent) (code : ℕ) :
    Keeps s0 (State.limSup s a code) := by
  unfold State.limSup
  split
  · refine State.limNiche_keeps ?_ _ _ _
    assumption
  · refine State.limDev_keeps ?_ _ _ _
    assumption

theorem State.takeRx_keeps {s0 s : State} (h : Keeps s0 s) (a : Agent) (k : ℕ) :
    Keeps s0 (State.takeRx s a k) := by
  unfold State.takeRx
  extract_lets +onlyGivenNames v1
  clear_value v1
  extract_lets +onlyGivenNames v2
  have h3 : Keeps s0 v2 := by
    dsimp only [v2]
    refine State.setMbx_keeps ?_ _ _
    assumption
  clear_value v2
  split
  · refine keeps_mk ?_ rfl rfl rfl
    assumption
  · assumption

theorem State.tookReq_keeps {s0 s : State} (h : Keeps s0 s) (a : Agent) (r : Req) :
    Keeps s0 (State.tookReq s a r) := by
  unfold State.tookReq
  refine State.takeRx_keeps ?_ _ _
  assumption

theorem State.dropRest_keeps {s0 s : State} (h : Keeps s0 s) (a : Agent) :
    Keeps s0 (State.dropRest s a) := by
  unfold State.dropRest
  split
  · extract_lets +onlyGivenNames v1
    clear_value v1
    extract_lets +onlyGivenNames v2
    clear_value v2
    extract_lets +onlyGivenNames v3
    have h4 : Keeps s0 v3 := by
      dsimp only [v3]
      refine State.takeRx_keeps ?_ _ _
      assumption
    clear_value v3
    refine keeps_ite ?_ ?_
    · refine keeps_mk ?_ rfl rfl rfl
      assumption
    · assumption
  · split
    · refine State.tookReq_keeps ?_ _ _
      assumption
    · refine State.setMbx_keeps ?_ _ _
      assumption
  · refine State.setMbx_keeps ?_ _ _
    assumption

theorem State.place_keeps {s0 s : State} (h : Keeps s0 s) (a : Agent) (m : List Word) :
    Keeps s0 (State.place s a m) := by
  unfold State.place
  split
  · refine State.admitSdu_keeps ?_ _
    assumption
  · extract_lets +onlyGivenNames v1
    clear_value v1
    extract_lets +onlyGivenNames v2
    have h3 : Keeps s0 v2 := by
      dsimp only [v2]
      refine State.setMbx_keeps ?_ _ _
      assumption
    clear_value v2
    refine keeps_ite ?_ ?_
    · refine State.raiseNiche_keeps ?_ _ _
      assumption
    · assumption
  · extract_lets +onlyGivenNames v4
    clear_value v4
    refine State.setMbx_keeps ?_ _ _
    assumption

theorem State.respond_keeps {s0 s : State} (h : Keeps s0 s) (a : Agent) (r : Req) (executed : Bool) (status : ℕ) (ws : List Word) :
    Keeps s0 (State.respond s a r executed status ws) := by
  unfold State.respond
  extract_lets +onlyGivenNames v1
  clear_value v1
  extract_lets +onlyGivenNames v2
  clear_value v2
  extract_lets +onlyGivenNames v3
  have h4 : Keeps s0 v3 := by
    dsimp only [v3]
    refine keeps_ite ?_ ?_
    · refine State.setMbx_keeps ?_ _ _
      assumption
    · assumption
  clear_value v3
  extract_lets +onlyGivenNames v5
  have h6 : Keeps s0 v5 := by
    dsimp only [v5]
    refine State.when_keeps ?_ ?_ _
    · assumption
    · intro y7 y8
      refine State.sat_keeps ?_ _
      assumption
  clear_value v5
  extract_lets +onlyGivenNames v9
  have h10 : Keeps s0 v9 := by
    dsimp only [v9]
    refine State.when_keeps ?_ ?_ _
    · assumption
    · intro y11 y12
      refine State.limSup_keeps ?_ _ _
      assumption
  clear_value v9
  refine State.place_keeps ?_ _ _
  assumption

theorem State.serve_keeps {s0 s : State} {run : Req → State → State × ℕ × List Word} (h : Keeps s0 s) (hrun : ∀ (y0 : Req) (y1 : State), Keeps s0 y1 → Keeps s0 (run y0 y1).1) (a : Agent) (p : Req → Bool) :
    Keeps s0 (State.serve s a p run) := by
  unfold State.serve
  split
  · assumption
  · refine keeps_ite ?_ ?_
    · assumption
    · split
      · refine keeps_ite ?_ ?_
        · refine keeps_ite ?_ ?_
          · refine State.place_keeps ?_ _ _
            refine State.sat_keeps ?_ _
            refine State.tookReq_keeps ?_ _ _
            assumption
          · assumption
        · refine keeps_ite ?_ ?_
          · refine State.respond_keeps ?_ _ _ _ _ _
            refine State.tookReq_keeps ?_ _ _
            assumption
          · assumption
      · refine keeps_ite ?_ ?_
        · assumption
        · extract_lets +onlyGivenNames v1
          have h2 : Keeps s0 v1 := by
            dsimp only [v1]
            refine State.tookReq_keeps ?_ _ _
            assumption
          clear_value v1
          refine keeps_ite ?_ ?_
          · extract_lets +onlyGivenNames v3
            have h4 : Keeps s0 v3 := by
              dsimp only [v3]
              split
              · refine State.countDenied_keeps ?_ _ _
                assumption
              · assumption
            clear_value v3
            refine State.respond_keeps ?_ _ _ _ _ _
            assumption
          · refine keeps_ite ?_ ?_
            · refine State.respond_keeps ?_ _ _ _ _ _
              assumption
            · extract_lets +onlyGivenNames v5
              have h6 : Keeps s0 v5.1 := by
                dsimp only [v5]
                with_reducible apply_assumption
                assumption
              clear_value v5
              refine keeps_ite ?_ ?_
              · assumption
              · refine State.respond_keeps ?_ _ _ _ _ _
                assumption

end Sys2Proof.Machine
end

