-- ==== Sys2Proof/Laws/KeepsTim.lean ====
section
/-!
SUPPORT. What Tim.lean leaves untouched (Keeps), operation by operation.
-/

namespace Sys2Proof.Machine

open Sys2Proof

theorem State.applyTwin_keeps {s0 s : State} (h : Keeps s0 s) (r : TwinResult) :
    Keeps s0 (State.applyTwin s r) := by
  unfold State.applyTwin
  extract_lets +onlyGivenNames v1
  have h2 : Keeps s0 v1 := by
    dsimp only [v1]
    refine State.putS_keeps ?_ _ _
    refine State.putS_keeps ?_ _ _
    refine State.put_keeps ?_ _ _
    assumption
  clear_value v1
  extract_lets +onlyGivenNames v3
  have h4 : Keeps s0 v3 := by
    dsimp only [v3]
    refine State.put_keeps ?_ _ _
    refine State.putB_keeps ?_ _ _
    refine State.put_keeps ?_ _ _
    assumption
  clear_value v3
  extract_lets +onlyGivenNames v5
  have h6 : Keeps s0 v5 := by
    dsimp only [v5]
    refine State.putB_keeps ?_ _ _
    refine State.sat_keeps ?_ _
    assumption
  clear_value v5
  extract_lets +onlyGivenNames v7
  clear_value v7
  extract_lets +onlyGivenNames v8
  clear_value v8
  extract_lets +onlyGivenNames v9
  have h10 : Keeps s0 v9 := by
    dsimp only [v9]
    refine keeps_mk ?_ rfl rfl rfl
    assumption
  clear_value v9
  refine State.syncTrace_keeps ?_
  assumption

theorem execTwinColourApply_keeps {s0 s : State} (h : Keeps s0 s) :
    KeepsO s0 (execTwinColourApply s) := by
  unfold execTwinColourApply
  refine keepsO_next ?_
  split
  · assumption
  · refine State.applyTwin_keeps ?_ _
    assumption

theorem execViewOffsetCmd_keeps {s0 s : State} (h : Keeps s0 s) (who : Agent) (view : Fin 4) :
    KeepsO s0 (execViewOffsetCmd who view s) := by
  unfold execViewOffsetCmd
  extract_lets +onlyGivenNames v1
  clear_value v1
  refine keepsO_next ?_
  refine keeps_ite ?_ ?_
  · refine State.refuseView_keeps ?_ _ _
    assumption
  · extract_lets +onlyGivenNames v2
    clear_value v2
    refine keeps_ite ?_ ?_
    · refine State.viewBad_keeps ?_
      assumption
    · refine State.addViewJob_keeps ?_ _
      assumption

theorem execViewRateCmd_keeps {s0 s : State} (h : Keeps s0 s) (who : Agent) (view : Fin 4) :
    KeepsO s0 (execViewRateCmd who view s) := by
  unfold execViewRateCmd
  extract_lets +onlyGivenNames v1
  clear_value v1
  refine keepsO_next ?_
  refine keeps_ite ?_ ?_
  · refine State.refuseView_keeps ?_ _ _
    assumption
  · refine State.addViewJob_keeps ?_ _
    assumption

theorem execViewStepCmd_keeps {s0 s : State} (h : Keeps s0 s) (who : Agent) (view : Fin 4) :
    KeepsO s0 (execViewStepCmd who view s) := by
  unfold execViewStepCmd
  extract_lets +onlyGivenNames v1
  clear_value v1
  refine keepsO_next ?_
  refine keeps_ite ?_ ?_
  · refine State.refuseView_keeps ?_ _ _
    assumption
  · refine State.addViewJob_keeps ?_ _
    assumption

theorem execTimSnap_keeps {s0 s : State} (h : Keeps s0 s) :
    KeepsO s0 (execTimSnap s) := by
  unfold execTimSnap
  extract_lets +onlyGivenNames v1
  clear_value v1
  extract_lets +onlyGivenNames v2
  have h3 : Keeps s0 v2 := by
    dsimp only [v2]
    refine State.put_keeps ?_ _ _
    refine State.put_keeps ?_ _ _
    refine State.put_keeps ?_ _ _
    assumption
  clear_value v2
  refine keepsO_next ?_
  refine State.each_keeps ?_ ?_ _
  · assumption
  · intro y4 y5 y6
    extract_lets +onlyGivenNames v7
    clear_value v7
    refine State.put_keeps ?_ _ _
    refine State.put_keeps ?_ _ _
    refine State.put_keeps ?_ _ _
    assumption

theorem State.fireFrame_keeps {s0 s : State} (h : Keeps s0 s) (k : Nat) (x : Sched) :
    Keeps s0 (State.fireFrame s k x) := by
  unfold State.fireFrame
  refine State.when_keeps ?_ ?_ _
  · assumption
  · intro y1 y2
    refine State.send_keeps ?_ _
    assumption

theorem State.fire_keeps {s0 s : State} (h : Keeps s0 s) (k : ℕ) (x : Sched) (late : Bool) :
    Keeps s0 (State.fire s k x late) := by
  unfold State.fire
  extract_lets +onlyGivenNames v1
  have h2 : Keeps s0 v1 := by
    dsimp only [v1]
    refine State.when_keeps ?_ ?_ _
    · assumption
    · intro y3 y4
      refine State.putB_keeps ?_ _ _
      assumption
  clear_value v1
  extract_lets +onlyGivenNames v5
  clear_value v5
  extract_lets +onlyGivenNames v6
  have h7 : Keeps s0 v6 := by
    dsimp only [v6]
    refine State.setTout_keeps ?_ _ _
    assumption
  clear_value v6
  extract_lets +onlyGivenNames v8
  clear_value v8
  extract_lets +onlyGivenNames v9
  have h10 : ∀ a1, Keeps s0 a1 → Keeps s0 (v9 a1) := by
    intro a1 b0
    dsimp only [v9]
    refine State.setTout_keeps ?_ _ _
    assumption
  clear_value v9
  extract_lets +onlyGivenNames v11
  clear_value v11
  extract_lets +onlyGivenNames v12
  have h13 : ∀ a1 a2, Keeps s0 a1 → Keeps s0 (v12 a1 a2) := by
    intro a1 a2 b0
    dsimp only [v12]
    refine State.setTout_keeps ?_ _ _
    refine State.satBy_keeps ?_ _ _
    assumption
  clear_value v12
  split
  · with_reducible apply_assumption
    refine State.drive_keeps ?_ _ _
    assumption
  · with_reducible apply_assumption
    refine State.drive_keeps ?_ _ _
    assumption
  · extract_lets +onlyGivenNames v14
    clear_value v14
    extract_lets +onlyGivenNames v15
    have h16 : Keeps s0 v15 := by
      dsimp only [v15]
      refine State.drive_keeps ?_ _ _
      assumption
    clear_value v15
    extract_lets +onlyGivenNames v17
    clear_value v17
    extract_lets +onlyGivenNames v18
    have h19 : Keeps s0 v18 := by
      dsimp only [v18]
      refine State.setTout_keeps ?_ _ _
      assumption
    clear_value v18
    refine keeps_ite ?_ ?_
    · with_reducible apply_assumption
      assumption
    · with_reducible apply_assumption
      assumption
  · with_reducible apply_assumption
    refine State.fireFrame_keeps ?_ _ _
    assumption

theorem State.schedRange_keeps {s0 s : State} (h : Keeps s0 s) (o : Option ℕ) (k : ℕ) :
    Keeps s0 (State.schedRange s o k) := by
  unfold State.schedRange
  refine State.logBoth_keeps ?_ _ _ _
  refine State.sat_keeps ?_ _
  assumption

theorem State.armTout_keeps {s0 s : State} (h : Keeps s0 s) (k : ℕ) :
    Keeps s0 (State.armTout s k) := by
  unfold State.armTout
  split
  · assumption
  · extract_lets +onlyGivenNames v1
    clear_value v1
    extract_lets +onlyGivenNames v2
    have h3 : Keeps s0 v2 := by
      dsimp only [v2]
      refine State.setTout_keeps ?_ _ _
      assumption
    clear_value v2
    refine keeps_ite ?_ ?_
    · refine State.schedRange_keeps ?_ _ _
      assumption
    · extract_lets +onlyGivenNames v4
      clear_value v4
      extract_lets +onlyGivenNames v5
      have h6 : Keeps s0 v5 := by
        dsimp only [v5]
        refine State.setTout_keeps ?_ _ _
        assumption
      clear_value v5
      refine keeps_ite ?_ ?_
      · refine State.fire_keeps ?_ _ _ _
        refine State.logBoth_keeps ?_ _ _ _
        refine State.sat_keeps ?_ _
        assumption
      · assumption

theorem execToutArm_keeps {s0 s : State} (h : Keeps s0 s) (who : Agent) (k : Fin 4) :
    KeepsO s0 (execToutArm who k s) := by
  unfold execToutArm
  extract_lets +onlyGivenNames v1
  clear_value v1
  extract_lets +onlyGivenNames v2
  clear_value v2
  refine keepsO_next ?_
  refine State.ifOwned_keeps ?_ ?_ _ _ _
  · assumption
  · intro y3 y4
    refine State.setTout_keeps ?_ _ _
    assumption

theorem execToutDisarm_keeps {s0 s : State} (h : Keeps s0 s) (k : Fin 4) :
    KeepsO s0 (execToutDisarm k s) := by
  unfold execToutDisarm
  extract_lets +onlyGivenNames v1
  clear_value v1
  extract_lets +onlyGivenNames v2
  clear_value v2
  extract_lets +onlyGivenNames v3
  have h4 : Keeps s0 v3 := by
    dsimp only [v3]
    refine State.setTout_keeps ?_ _ _
    assumption
  clear_value v3
  refine keepsO_next ?_
  refine State.drive_keeps ?_ _ _
  assumption

theorem execToutFire_keeps {s0 s : State} (h : Keeps s0 s) (k : Fin 4) :
    KeepsO s0 (execToutFire k s) := by
  unfold execToutFire
  refine keepsO_next ?_
  split
  · refine keeps_ite ?_ ?_
    · refine State.fire_keeps ?_ _ _ _
      assumption
    · assumption
  · assumption

theorem execToutPulseEnd_keeps {s0 s : State} (h : Keeps s0 s) (k : Fin 4) :
    KeepsO s0 (execToutPulseEnd k s) := by
  unfold execToutPulseEnd
  extract_lets +onlyGivenNames v1
  clear_value v1
  refine keepsO_next ?_
  split
  · refine keeps_ite ?_ ?_
    · refine State.drive_keeps ?_ _ _
      refine State.setTout_keeps ?_ _ _
      assumption
    · assumption
  · assumption

theorem State.setServo_keeps {s0 s : State} (h : Keeps s0 s) (v : ℕ) (x : Servo) :
    Keeps s0 (State.setServo s v x) := by
  unfold State.setServo
  refine keeps_mk ?_ rfl rfl rfl
  assumption

theorem State.stepFires_keeps {s0 s : State} (h : Keeps s0 s) (v : ℕ) :
    Keeps s0 (State.stepFires s v) := by
  unfold State.stepFires
  refine State.each_keeps ?_ ?_ _
  · assumption
  · intro y1 y2 y3
    split
    · refine keeps_ite ?_ ?_
      · refine State.fire_keeps ?_ _ _ _
        assumption
      · assumption
    · assumption

theorem State.applyViews_keeps {s0 s : State} (h : Keeps s0 s) :
    Keeps s0 (State.applyViews s) := by
  unfold State.applyViews
  extract_lets +onlyGivenNames v1
  clear_value v1
  extract_lets +onlyGivenNames v2
  clear_value v2
  extract_lets +onlyGivenNames v3
  clear_value v3
  extract_lets +onlyGivenNames v4
  have h5 : Keeps s0 v4 := by
    dsimp only [v4]
    refine keeps_mk ?_ rfl rfl rfl
    assumption
  clear_value v4
  extract_lets +onlyGivenNames v6
  have h7 : Keeps s0 v6 := by
    dsimp only [v6]
    refine State.each_keeps ?_ ?_ _
    · assumption
    · intro y8 y9 y10
      refine State.viewJob_keeps ?_ _ _
      assumption
  clear_value v6
  refine State.each_keeps ?_ ?_ _
  · assumption
  · intro y11 y12 y13
    refine State.stepFires_keeps ?_ _
    assumption

theorem State.timeTick_keeps {s0 s : State} (h : Keeps s0 s) :
    Keeps s0 (State.timeTick s) := by
  unfold State.timeTick
  extract_lets +onlyGivenNames v1
  clear_value v1
  extract_lets +onlyGivenNames v2
  have h3 : Keeps s0 v2 := by
    dsimp only [v2]
    refine State.tookFree_keeps ?_
    assumption
  clear_value v2
  extract_lets +onlyGivenNames v4
  have h5 : Keeps s0 v4 := by
    dsimp only [v4]
    split
    · refine State.putS_keeps ?_ _ _
      refine State.putB_keeps ?_ _ _
      assumption
    · refine State.putB_keeps ?_ _ _
      assumption
  clear_value v4
  extract_lets +onlyGivenNames v6
  have h7 : Keeps s0 v6 := by
    dsimp only [v6]
    refine State.applyViews_keeps ?_
    assumption
  clear_value v6
  extract_lets +onlyGivenNames v8
  clear_value v8
  extract_lets +onlyGivenNames v9
  clear_value v9
  extract_lets +onlyGivenNames v10
  clear_value v10
  extract_lets +onlyGivenNames v11
  clear_value v11
  extract_lets +onlyGivenNames v12
  have h13 : Keeps s0 v12 := by
    dsimp only [v12]
    refine State.setServo_keeps ?_ _ _
    assumption
  clear_value v12
  extract_lets +onlyGivenNames v14
  have h15 : Keeps s0 v14 := by
    dsimp only [v14]
    refine State.setServo_keeps ?_ _ _
    assumption
  clear_value v14
  extract_lets +onlyGivenNames v16
  clear_value v16
  extract_lets +onlyGivenNames v17
  have h18 : Keeps s0 v17 := by
    dsimp only [v17]
    refine keeps_mk ?_ rfl rfl rfl
    assumption
  clear_value v17
  refine State.each_keeps ?_ ?_ _
  · assumption
  · intro y19 y20 y21
    refine State.armTout_keeps ?_ _
    assumption

theorem execPhaseTime_keeps {s0 s : State} (h : Keeps s0 s) (cycles : ℕ) :
    KeepsO s0 (execPhaseTime cycles s) := by
  unfold execPhaseTime
  refine keepsO_next ?_
  refine State.phaseUsed_keeps ?_ _ _
  refine State.timeTick_keeps ?_
  assumption

theorem State.acceptTod_keeps {s0 s : State} (h : Keeps s0 s) (x : TodBody) :
    Keeps s0 (State.acceptTod s x) := by
  unfold State.acceptTod
  extract_lets +onlyGivenNames v1
  have h2 : Keeps s0 v1 := by
    dsimp only [v1]
    refine State.sat_keeps ?_ _
    assumption
  clear_value v1
  refine keeps_mk ?_ rfl rfl rfl
  assumption

theorem State.takeTod_keeps {s0 s : State} (h : Keeps s0 s) (m : List Byte) :
    Keeps s0 (State.takeTod s m) := by
  unfold State.takeTod
  extract_lets +onlyGivenNames v1
  clear_value v1
  refine keeps_ite ?_ ?_
  · refine State.logDev_keeps ?_ _ _ _
    refine State.sat_keeps ?_ _
    assumption
  · refine State.acceptTod_keeps ?_ _
    assumption

theorem execTimeOfDay_keeps {s0 s : State} (h : Keeps s0 s) (msg : List Byte) :
    KeepsO s0 (execTimeOfDay msg s) := by
  unfold execTimeOfDay
  refine keepsO_next ?_
  refine keeps_ite ?_ ?_
  · assumption
  · extract_lets +onlyGivenNames v1
    clear_value v1
    extract_lets +onlyGivenNames v2
    have h3 : Keeps s0 v2 := by
      dsimp only [v2]
      refine State.takeTod_keeps ?_ _
      refine State.tookMsg_keeps ?_ _
      assumption
    clear_value v2
    refine keeps_ite ?_ ?_
    · assumption
    · refine keeps_mk ?_ rfl rfl rfl
      assumption

theorem execTodApply_keeps {s0 s : State} (h : Keeps s0 s) :
    KeepsO s0 (execTodApply s) := by
  unfold execTodApply
  refine keepsO_next ?_
  split
  · assumption
  · refine keeps_ite ?_ ?_
    · assumption
    · extract_lets +onlyGivenNames v1
      have h2 : Keeps s0 v1 := by
        dsimp only [v1]
        refine State.putB_keeps ?_ _ _
        refine State.putS_keeps ?_ _ _
        assumption
      clear_value v1
      extract_lets +onlyGivenNames v3
      have h4 : Keeps s0 v3 := by
        dsimp only [v3]
        refine State.put_keeps ?_ _ _
        refine State.putB_keeps ?_ _ _
        assumption
      clear_value v3
      extract_lets +onlyGivenNames v5
      have h6 : Keeps s0 v5 := by
        dsimp only [v5]
        refine State.putB_keeps ?_ _ _
        refine State.put_keeps ?_ _ _
        assumption
      clear_value v5
      extract_lets +onlyGivenNames v7
      clear_value v7
      extract_lets +onlyGivenNames v8
      clear_value v8
      extract_lets +onlyGivenNames v9
      have h10 : Keeps s0 v9 := by
        dsimp only [v9]
        refine keeps_mk ?_ rfl rfl rfl
        assumption
      clear_value v9
      refine State.syncTrace_keeps ?_
      assumption

theorem execLeapAdopt_keeps {s0 s : State} (h : Keeps s0 s) :
    KeepsO s0 (execLeapAdopt s) := by
  unfold execLeapAdopt
  extract_lets +onlyGivenNames v1
  clear_value v1
  refine keepsO_next ?_
  split
  · refine keeps_ite ?_ ?_
    · refine keeps_mk ?_ rfl rfl rfl
      assumption
    · assumption
  · assumption

theorem State.servoStep_keeps {s0 s : State} (h : Keeps s0 s) (v : ℕ) (e : ℚ) :
    Keeps s0 (State.servoStep s v e) := by
  unfold State.servoStep
  extract_lets +onlyGivenNames v1
  clear_value v1
  extract_lets +onlyGivenNames v2
  clear_value v2
  extract_lets +onlyGivenNames v3
  clear_value v3
  extract_lets +onlyGivenNames v4
  clear_value v4
  refine keeps_ite ?_ ?_
  · extract_lets +onlyGivenNames v5
    clear_value v5
    extract_lets +onlyGivenNames v6
    clear_value v6
    extract_lets +onlyGivenNames v7
    have h8 : Keeps s0 v7 := by
      dsimp only [v7]
      refine State.tookFree_keeps ?_
      refine State.addViewJob_keeps ?_ _
      assumption
    clear_value v7
    extract_lets +onlyGivenNames v9
    have h10 : Keeps s0 v9 := by
      dsimp only [v9]
      refine State.setServo_keeps ?_ _ _
      assumption
    clear_value v9
    extract_lets +onlyGivenNames v11
    have h12 : Keeps s0 v11 := by
      dsimp only [v11]
      refine State.logDev_keeps ?_ _ _ _
      refine State.sat_keeps ?_ _
      assumption
    clear_value v11
    refine State.when_keeps ?_ ?_ _
    · refine State.putB_keeps ?_ _ _
      assumption
    · intro y13 y14
      refine State.raisePf_keeps ?_ _
      assumption
  · extract_lets +onlyGivenNames v15
    clear_value v15
    extract_lets +onlyGivenNames v16
    clear_value v16
    extract_lets +onlyGivenNames v17
    clear_value v17
    extract_lets +onlyGivenNames v18
    clear_value v18
    extract_lets +onlyGivenNames v19
    clear_value v19
    extract_lets +onlyGivenNames v20
    clear_value v20
    extract_lets +onlyGivenNames v21
    have h22 : Keeps s0 v21 := by
      dsimp only [v21]
      refine State.tookFree_keeps ?_
      refine State.addViewJob_keeps ?_ _
      assumption
    clear_value v21
    extract_lets +onlyGivenNames v23
    have h24 : Keeps s0 v23 := by
      dsimp only [v23]
      refine State.setServo_keeps ?_ _ _
      assumption
    clear_value v23
    extract_lets +onlyGivenNames v25
    clear_value v25
    refine State.when_keeps ?_ ?_ _
    · refine State.putB_keeps ?_ _ _
      assumption
    · intro y26 y27
      refine State.raisePf_keeps ?_ _
      assumption

theorem State.endInterval_keeps {s0 s : State} (h : Keeps s0 s) (v : ℕ) :
    Keeps s0 (State.endInterval s v) := by
  unfold State.endInterval
  extract_lets +onlyGivenNames v1
  clear_value v1
  extract_lets +onlyGivenNames v2
  clear_value v2
  extract_lets +onlyGivenNames v3
  have h4 : Keeps s0 v3 := by
    dsimp only [v3]
    refine State.setServo_keeps ?_ _ _
    assumption
  clear_value v3
  refine keeps_ite ?_ ?_
  · assumption
  · extract_lets +onlyGivenNames v5
    have h6 : Keeps s0 v5 := by
      dsimp only [v5]
      refine State.servoStep_keeps ?_ _ _
      assumption
    clear_value v5
    refine keeps_ite ?_ ?_
    · refine State.addViewJob_keeps ?_ _
      assumption
    · assumption

theorem execServoUpdate_keeps {s0 s : State} (h : Keeps s0 s) (servo : Fin 2) :
    KeepsO s0 (execServoUpdate servo s) := by
  unfold execServoUpdate
  refine keepsO_next ?_
  refine keeps_ite ?_ ?_
  · assumption
  · refine State.endInterval_keeps ?_ _
    assumption

theorem State.takePtp_keeps {s0 s : State} (h : Keeps s0 s) (p : ℕ) (state : ℕ) (offset : Option ℤ) :
    Keeps s0 (State.takePtp s p state offset) := by
  unfold State.takePtp
  extract_lets +onlyGivenNames v1
  have h2 : Keeps s0 v1 := by
    dsimp only [v1]
    refine State.sat_keeps ?_ _
    assumption
  clear_value v1
  extract_lets +onlyGivenNames v3
  have h4 : Keeps s0 v3 := by
    dsimp only [v3]
    refine keeps_ite ?_ ?_
    · refine State.put_keeps ?_ _ _
      assumption
    · assumption
  clear_value v3
  extract_lets +onlyGivenNames v5
  clear_value v5
  extract_lets +onlyGivenNames v6
  have h7 : Keeps s0 v6 := by
    dsimp only [v6]
    refine State.putB_keeps ?_ _ _
    assumption
  clear_value v6
  refine keeps_ite ?_ ?_
  · refine State.setServo_keeps ?_ _ _
    assumption
  · assumption

theorem execPtpFrameRx_keeps {s0 s : State} (h : Keeps s0 s) (port : Fin 6) (frame : List Byte) (state : Fin 16) (offset : Option ℤ) :
    KeepsO s0 (execPtpFrameRx port frame state offset s) := by
  unfold execPtpFrameRx
  refine keepsO_next ?_
  refine keeps_ite ?_ ?_
  · refine State.takePtp_keeps ?_ _ _ _
    assumption
  · assumption

theorem State.readTsq_keeps {s0 s : State} (h : Keeps s0 s) (src : ℕ) (p : ℕ) :
    Keeps s0 (State.readTsq s src p).1 := by
  unfold State.readTsq
  dsimp only
  refine keeps_mk ?_ rfl rfl rfl
  refine State.popStamp_keeps ?_ _ _ _
  assumption

theorem execTsqE0Read_keeps {s0 s : State} (h : Keeps s0 s) (who : Agent) (port : Fin 6) :
    KeepsO s0 (execTsqE0Read who port s) := by
  unfold execTsqE0Read
  refine keepsO_next ?_
  refine State.ifOwned_keeps ?_ ?_ _ _ _
  · assumption
  · intro y1 y2
    extract_lets +onlyGivenNames v3
    have h4 : Keeps s0 v3.1 := by
      dsimp only [v3]
      refine State.readTsq_keeps ?_ _ _
      assumption
    clear_value v3
    refine State.answer_keeps ?_ _ _
    assumption

theorem execTinEdge_keeps {s0 s : State} (h : Keeps s0 s) (tin : Fin 4) (rise : Bool) (held : ℕ) (frac : Fin 16) :
    KeepsO s0 (execTinEdge tin rise held frac s) := by
  unfold execTinEdge
  extract_lets +onlyGivenNames v1
  clear_value v1
  extract_lets +onlyGivenNames v2
  clear_value v2
  extract_lets +onlyGivenNames v3
  clear_value v3
  extract_lets +onlyGivenNames v4
  clear_value v4
  refine keepsO_next ?_
  refine keeps_ite ?_ ?_
  · assumption
  · refine keeps_ite ?_ ?_
    · refine State.sat_keeps ?_ _
      assumption
    · extract_lets +onlyGivenNames v5
      have h6 : Keeps s0 v5.1 := by
        dsimp only [v5]
        refine State.pushStamp_keeps ?_ _ _ _ _ _ _
        assumption
      clear_value v5
      refine State.when_keeps ?_ ?_ _
      · refine State.setTin_keeps ?_ _ _
        assumption
      · intro y7 y8
        refine State.wakeEvent_keeps ?_ _
        assumption

theorem State.readTin_keeps {s0 s : State} (h : Keeps s0 s) (src : ℕ) (i : ℕ) :
    Keeps s0 (State.readTin s src i).1 := by
  unfold State.readTin
  dsimp only
  refine State.setTin_keeps ?_ _ _
  refine State.popStamp_keeps ?_ _ _ _
  assumption

theorem execTinE0Read_keeps {s0 s : State} (h : Keeps s0 s) (who : Agent) (tin : Fin 4) :
    KeepsO s0 (execTinE0Read who tin s) := by
  unfold execTinE0Read
  refine keepsO_next ?_
  refine State.ifOwned_keeps ?_ ?_ _ _ _
  · assumption
  · intro y1 y2
    extract_lets +onlyGivenNames v3
    have h4 : Keeps s0 v3.1 := by
      dsimp only [v3]
      refine State.readTin_keeps ?_ _ _
      assumption
    clear_value v3
    refine State.answer_keeps ?_ _ _
    assumption

theorem execTimCalGo_keeps {s0 s : State} (h : Keeps s0 s) (who : Agent) (target : Fin 4) :
    KeepsO s0 (execTimCalGo who target s) := by
  unfold execTimCalGo
  extract_lets +onlyGivenNames v1
  clear_value v1
  extract_lets +onlyGivenNames v2
  clear_value v2
  extract_lets +onlyGivenNames v3
  clear_value v3
  extract_lets +onlyGivenNames v4
  clear_value v4
  refine keepsO_next ?_
  refine keeps_ite ?_ ?_
  · refine State.logBoth_keeps ?_ _ _ _
    refine State.sat_keeps ?_ _
    assumption
  · refine keeps_ite ?_ ?_
    · refine State.refuseView_keeps ?_ _ _
      assumption
    · extract_lets +onlyGivenNames v5
      clear_value v5
      extract_lets +onlyGivenNames v6
      have h7 : Keeps s0 v6 := by
        dsimp only [v6]
        refine State.when_keeps ?_ ?_ _
        · assumption
        · intro y8 y9
          refine State.tookFree_keeps ?_
          assumption
      clear_value v6
      extract_lets +onlyGivenNames v10
      have h11 : Keeps s0 v10 := by
        dsimp only [v10]
        refine State.put_keeps ?_ _ _
        refine State.put_keeps ?_ _ _
        assumption
      clear_value v10
      refine keeps_ite ?_ ?_
      · assumption
      · refine State.addViewJob_keeps ?_ _
        assumption

end Sys2Proof.Machine
end

