-- ==== Sys2Proof/Laws/KeepsCstOps.lean ====
section
/-!
SUPPORT. What CstOps.lean leaves untouched (Keeps), operation by operation.
-/

namespace Sys2Proof.Machine

open Sys2Proof

theorem State.castCnt_keeps {s0 s : State} (h : Keeps s0 s) (n : ℕ) :
    Keeps s0 (State.castCnt s n) := by
  unfold State.castCnt
  refine State.sat_keeps ?_ _
  assumption

theorem State.castLog_keeps {s0 s : State} (h : Keeps s0 s) (code : Nat) (data : Nat) :
    Keeps s0 (State.castLog s code data) := by
  unfold State.castLog
  refine State.when_keeps ?_ ?_ _
  · refine State.raisePf_keeps ?_ _
    refine State.logDev_keeps ?_ _ _ _
    refine State.put_keeps ?_ _ _
    assumption
  · intro y1 y2
    refine State.raisePf_keeps ?_ _
    assumption

theorem State.castLim_keeps {s0 s : State} (h : Keeps s0 s) (code : Nat) (data : Nat) :
    Keeps s0 (State.castLim s code data) := by
  unfold State.castLim
  refine State.limDev_keeps ?_ _ _ _
  refine State.put_keeps ?_ _ _
  assumption

theorem State.setSecond_keeps {s0 s : State} (h : Keeps s0 s) (t : Option ℕ) :
    Keeps s0 (State.setSecond s t) := by
  unfold State.setSecond
  extract_lets +onlyGivenNames v1
  clear_value v1
  extract_lets +onlyGivenNames v2
  have h3 : Keeps s0 v2 := by
    dsimp only [v2]
    refine State.put_keeps ?_ _ _
    refine State.put_keeps ?_ _ _
    assumption
  clear_value v2
  refine keeps_mk ?_ rfl rfl rfl
  assumption

theorem State.castReport_keeps {s0 s : State} (h : Keeps s0 s) (code : ℕ) :
    Keeps s0 (State.castReport s code) := by
  unfold State.castReport
  refine State.queueUp_keeps ?_ _ _
  assumption

theorem State.setCast_keeps {s0 s : State} (h : Keeps s0 s) (st : ℕ) :
    Keeps s0 (State.setCast s st) := by
  unfold State.setCast
  refine keeps_ite ?_ ?_
  · assumption
  · extract_lets +onlyGivenNames v1
    have h2 : Keeps s0 v1 := by
      dsimp only [v1]
      refine State.raisePf_keeps ?_ _
      refine State.put_keeps ?_ _ _
      assumption
    clear_value v1
    refine keeps_ite ?_ ?_
    · refine State.castReport_keeps ?_ _
      assumption
    · assumption

theorem State.stageErase_keeps {s0 s : State} (h : Keeps s0 s) (t : ℕ) :
    Keeps s0 (State.stageErase s t) := by
  unfold State.stageErase
  refine State.markSector_keeps ?_ _ _
  refine State.eraseSector_keeps ?_ _
  refine State.markSector_keeps ?_ _ _
  assumption

theorem State.stageWrite_keeps {s0 s : State} (h : Keeps s0 s) (a : ℕ) (data : List Byte) :
    Keeps s0 (State.stageWrite s a data) := by
  unfold State.stageWrite
  extract_lets +onlyGivenNames v1
  clear_value v1
  extract_lets +onlyGivenNames v2
  clear_value v2
  refine State.each_keeps ?_ ?_ _
  · assumption
  · intro y3 y4 y5
    extract_lets +onlyGivenNames v6
    clear_value v6
    extract_lets +onlyGivenNames v7
    clear_value v7
    extract_lets +onlyGivenNames v8
    clear_value v8
    extract_lets +onlyGivenNames v9
    clear_value v9
    refine State.setUnit_keeps ?_ _ _
    assumption

theorem State.noteBytes_keeps {s0 s : State} (h : Keeps s0 s) (k : ℕ) (a : ℕ) (b : ℕ) :
    Keeps s0 (State.noteBytes s k a b) := by
  unfold State.noteBytes
  refine keeps_mk ?_ rfl rfl rfl
  assumption

theorem State.takeManifest_keeps {s0 s : State} (h : Keeps s0 s) :
    Keeps s0 (State.takeManifest s) := by
  unfold State.takeManifest
  extract_lets +onlyGivenNames v1
  clear_value v1
  extract_lets +onlyGivenNames v2
  clear_value v2
  split
  · extract_lets +onlyGivenNames v3
    clear_value v3
    extract_lets +onlyGivenNames v4
    have h5 : Keeps s0 v4 := by
      dsimp only [v4]
      refine State.each_keeps ?_ ?_ _
      · assumption
      · intro y6 y7 y8
        refine State.each_keeps ?_ ?_ _
        · assumption
        · intro y9 y10 y11
          refine State.stageErase_keeps ?_ _
          assumption
    clear_value v4
    extract_lets +onlyGivenNames v12
    have h13 : Keeps s0 v12 := by
      dsimp only [v12]
      refine State.each_keeps ?_ ?_ _
      · assumption
      · intro y14 y15 y16
        split
        · refine State.noteBytes_keeps ?_ _ _ _
          refine State.stageWrite_keeps ?_ _ _
          assumption
        · assumption
    clear_value v12
    extract_lets +onlyGivenNames v17
    clear_value v17
    extract_lets +onlyGivenNames v18
    have h19 : Keeps s0 v18 := by
      dsimp only [v18]
      refine keeps_mk ?_ rfl rfl rfl
      assumption
    clear_value v18
    extract_lets +onlyGivenNames v20
    have h21 : Keeps s0 v20 := by
      dsimp only [v20]
      refine State.putB_keeps ?_ _ _
      refine State.put_keeps ?_ _ _
      assumption
    clear_value v20
    extract_lets +onlyGivenNames v22
    clear_value v22
    refine State.each_keeps ?_ ?_ _
    · assumption
    · intro y23 y24 y25
      refine State.put_keeps ?_ _ _
      assumption
  · refine State.castLog_keeps ?_ _ _
    assumption

theorem State.castBlock_keeps {s0 s : State} (h : Keeps s0 s) (k : ℕ) (off : ℕ) (data : List Byte) :
    Keeps s0 (State.castBlock s k off data).1 := by
  unfold State.castBlock
  split
  · dsimp only
    refine State.castLog_keeps ?_ _ _
    refine State.castCnt_keeps ?_ _
    assumption
  · split
    · dsimp only
      refine State.castLim_keeps ?_ _ _
      refine State.castCnt_keeps ?_ _
      assumption
    · split
      · dsimp only
        refine State.castLim_keeps ?_ _ _
        refine State.castCnt_keeps ?_ _
        assumption
      · dsimp only
        split
        · split
          · dsimp only
            refine State.castCnt_keeps ?_ _
            refine State.noteBytes_keeps ?_ _ _ _
            refine State.sendRecord_keeps ?_ _ _ _
            assumption
          · dsimp only
            refine State.castLog_keeps ?_ _ _
            refine State.castCnt_keeps ?_ _
            assumption
        · split
          · dsimp only
            refine State.castLim_keeps ?_ _ _
            refine State.castCnt_keeps ?_ _
            assumption
          · split
            · dsimp only
              refine State.castCnt_keeps ?_ _
              assumption
            · split
              · dsimp only
                refine keeps_ite ?_ ?_
                · refine State.takeManifest_keeps ?_
                  refine State.castCnt_keeps ?_ _
                  refine State.noteBytes_keeps ?_ _ _ _
                  refine State.stageWrite_keeps ?_ _ _
                  assumption
                · refine State.castCnt_keeps ?_ _
                  refine State.noteBytes_keeps ?_ _ _ _
                  refine State.stageWrite_keeps ?_ _ _
                  assumption
              · dsimp only
                refine State.castLim_keeps ?_ _ _
                refine State.castCnt_keeps ?_ _
                assumption

theorem State.disarm_keeps {s0 s : State} (h : Keeps s0 s) :
    Keeps s0 (State.disarm s) := by
  unfold State.disarm
  extract_lets +onlyGivenNames v1
  have h2 : Keeps s0 v1 := by
    dsimp only [v1]
    refine State.stageErase_keeps ?_ _
    assumption
  clear_value v1
  extract_lets +onlyGivenNames v3
  clear_value v3
  extract_lets +onlyGivenNames v4
  have h5 : Keeps s0 v4 := by
    dsimp only [v4]
    refine keeps_mk ?_ rfl rfl rfl
    assumption
  clear_value v4
  refine State.setCast_keeps ?_ _
  refine State.setSecond_keeps ?_ _
  assumption

theorem State.serveCast_keeps {s0 s : State} {run : Req → State → State × ℕ} (h : Keeps s0 s) (hrun : ∀ (y0 : Req) (y1 : State), Keeps s0 y1 → Keeps s0 (run y0 y1).1) (src : Agent) (op : ℕ) :
    Keeps s0 (State.serveCast s src op run) := by
  unfold State.serveCast
  refine State.serve_keeps ?_ ?_ _ _
  · assumption
  · intro y1 y2 y3
    dsimp only
    with_reducible apply_assumption
    assumption

theorem State.castState_keeps {s0 s : State} (h : Keeps s0 s) :
    Keeps s0 (State.castState s).1 := by
  unfold State.castState
  dsimp only
  refine State.castLog_keeps ?_ _ _
  assumption

end Sys2Proof.Machine
end

