-- ==== Sys2Proof/Laws/KeepsDeliver.lean ====
section
/-!
SUPPORT. What Deliver.lean leaves untouched (Keeps), operation by operation.
-/

namespace Sys2Proof.Machine

open Sys2Proof

theorem State.tagBad_keeps {s0 s : State} (h : Keeps s0 s) :
    Keeps s0 (State.tagBad s) := by
  unfold State.tagBad
  refine State.limDev_keeps ?_ _ _ _
  refine State.pndCnt_keeps ?_ _
  assumption

theorem State.window_keeps {s0 s : State} (h : Keeps s0 s) (n : ℕ) (seq : ℕ) :
    Keeps s0 (State.window s n seq).2 := by
  unfold State.window
  dsimp only
  split
  · dsimp only
    refine State.pndCnt_keeps ?_ _
    refine keeps_ite ?_ ?_
    · refine State.logDev_keeps ?_ _ _ _
      refine State.pndCnt_keeps ?_ _
      refine keeps_mk ?_ rfl rfl rfl
      assumption
    · refine keeps_mk ?_ rfl rfl rfl
      assumption
  · dsimp only
    refine State.pndCnt_keeps ?_ _
    refine keeps_ite ?_ ?_
    · refine State.logDev_keeps ?_ _ _ _
      refine State.pndCnt_keeps ?_ _
      refine keeps_mk ?_ rfl rfl rfl
      assumption
    · refine keeps_mk ?_ rfl rfl rfl
      assumption
  · dsimp only
    refine State.pndCnt_keeps ?_ _
    refine keeps_ite ?_ ?_
    · refine State.logDev_keeps ?_ _ _ _
      refine State.pndCnt_keeps ?_ _
      refine keeps_mk ?_ rfl rfl rfl
      assumption
    · refine keeps_mk ?_ rfl rfl rfl
      assumption

theorem State.toDest_keeps {s0 s : State} (h : Keeps s0 s) (id : ℕ) (f : ℕ) :
    Keeps s0 (State.toDest s id f) := by
  unfold State.toDest
  split
  · extract_lets +onlyGivenNames v1
    have h2 : Keeps s0 v1 := by
      dsimp only [v1]
      refine State.modSdu_keeps ?_ _ _
      assumption
    clear_value v1
    refine keeps_mk ?_ rfl rfl rfl
    assumption
  · refine keeps_mk ?_ rfl rfl rfl
    assumption
  · extract_lets +onlyGivenNames v3
    clear_value v3
    extract_lets +onlyGivenNames v4
    clear_value v4
    extract_lets +onlyGivenNames v5
    clear_value v5
    extract_lets +onlyGivenNames v6
    clear_value v6
    extract_lets +onlyGivenNames v7
    have h8 : Keeps s0 v7 := by
      dsimp only [v7]
      refine keeps_ite ?_ ?_
      · refine keeps_mk ?_ rfl rfl rfl
        assumption
      · refine State.limDev_keeps ?_ _ _ _
        refine State.sat_keeps ?_ _
        assumption
    clear_value v7
    refine State.release_keeps ?_ _
    assumption
  · refine State.release_keeps ?_ _
    assumption

theorem State.guardCopy_keeps {s0 s : State} (h : Keeps s0 s) (id : ℕ) (n : ℕ) (f : ℕ) :
    Keeps s0 (State.guardCopy s id n f) := by
  unfold State.guardCopy
  split
  · assumption
  · extract_lets +onlyGivenNames v1
    have h2 : Keeps s0 v1.2 := by
      dsimp only [v1]
      refine State.window_keeps ?_ _ _
      assumption
    clear_value v1
    refine keeps_ite ?_ ?_
    · refine State.toDest_keeps ?_ _ _
      refine State.modSdu_keeps ?_ _ _
      assumption
    · refine State.release_keeps ?_ _
      assumption

theorem State.lineDeliver_keeps {s0 s : State} (h : Keeps s0 s) (id : ℕ) (f : ℕ) :
    Keeps s0 (State.lineDeliver s id f) := by
  unfold State.lineDeliver
  split
  · assumption
  · split
    · refine keeps_ite ?_ ?_
      · refine State.release_keeps ?_ _
        refine State.tagBad_keeps ?_
        assumption
      · refine keeps_ite ?_ ?_
        · refine State.guardCopy_keeps ?_ _ _ _
          assumption
        · refine keeps_ite ?_ ?_
          · refine State.release_keeps ?_ _
            refine State.pndCnt_keeps ?_ _
            refine State.sendRecord_keeps ?_ _ _ _
            assumption
          · refine State.release_keeps ?_ _
            refine State.pndCnt_keeps ?_ _
            assumption
    · refine keeps_ite ?_ ?_
      · refine keeps_ite ?_ ?_
        · refine State.release_keeps ?_ _
          refine State.pndCnt_keeps ?_ _
          refine State.sendRecord_keeps ?_ _ _ _
          assumption
        · refine State.release_keeps ?_ _
          refine State.pndCnt_keeps ?_ _
          assumption
      · refine State.toDest_keeps ?_ _ _
        assumption

theorem State.goOn_keeps {s0 s : State} (h : Keeps s0 s) (id : Nat) (o : Onward) :
    Keeps s0 (State.goOn s id o) := by
  unfold State.goOn
  split
  · refine State.lineDeliver_keeps ?_ _ _
    assumption
  · refine State.guardCopy_keeps ?_ _ _ _
    assumption
  · refine State.toDest_keeps ?_ _ _
    assumption

theorem State.forward_keeps {s0 s : State} (h : Keeps s0 s) (id : Nat) (o : Onward) :
    Keeps s0 (State.forward s id o) := by
  unfold State.forward
  refine keeps_ite ?_ ?_
  · refine State.goOn_keeps ?_ _ _
    assumption
  · refine State.modSdu_keeps ?_ _ _
    assumption

theorem State.fromRecord_keeps {s0 s : State} (h : Keeps s0 s) (data : List Byte) :
    Keeps s0 (State.fromRecord s data).2 := by
  unfold State.fromRecord
  dsimp only
  refine State.admitSdu_keeps ?_ _
  assumption

end Sys2Proof.Machine
end

