-- ==== Sys2Proof/Laws/KeepsPnd.lean ====
section
/-!
SUPPORT. What Pnd.lean leaves untouched (Keeps), operation by operation.
-/

namespace Sys2Proof.Machine

open Sys2Proof

theorem State.withVerdict_keeps {s0 s : State} {f : State → State} (h : Keeps s0 s) (hf : ∀ (y0 : State), Keeps s0 y0 → Keeps s0 (f y0)) :
    Keeps s0 (State.withVerdict s f) := by
  unfold State.withVerdict
  refine State.verdict_keeps ?_ _
  with_reducible apply_assumption
  assumption

theorem execLinkTrainStart_keeps {s0 s : State} (h : Keeps s0 s) :
    KeepsO s0 (execLinkTrainStart s) := by
  unfold execLinkTrainStart
  refine keepsO_next ?_
  refine keeps_ite ?_ ?_
  · extract_lets +onlyGivenNames v1
    have h2 : Keeps s0 v1 := by
      dsimp only [v1]
      refine State.put_keeps ?_ _ _
      assumption
    clear_value v1
    refine keeps_mk ?_ rfl rfl rfl
    assumption
  · assumption

theorem execLinkTrainTimeout_keeps {s0 s : State} (h : Keeps s0 s) :
    KeepsO s0 (execLinkTrainTimeout s) := by
  unfold execLinkTrainTimeout
  refine keepsO_next ?_
  refine keeps_ite ?_ ?_
  · extract_lets +onlyGivenNames v1
    have h2 : Keeps s0 v1 := by
      dsimp only [v1]
      refine State.put_keeps ?_ _ _
      assumption
    clear_value v1
    refine keeps_mk ?_ rfl rfl rfl
    assumption
  · assumption

theorem State.consentFreed_keeps {s0 s : State} (h : Keeps s0 s) :
    Keeps s0 (State.consentFreed s) := by
  unfold State.consentFreed
  refine keeps_mk ?_ rfl rfl rfl
  assumption

theorem State.linkDown_keeps {s0 s : State} (h : Keeps s0 s) :
    Keeps s0 (State.linkDown s) := by
  unfold State.linkDown
  refine State.withVerdict_keeps ?_ ?_
  · assumption
  · intro y1 y2
    extract_lets +onlyGivenNames v3
    clear_value v3
    extract_lets +onlyGivenNames v4
    have h5 : Keeps s0 v4 := by
      dsimp only [v4]
      refine State.putB_keeps ?_ _ _
      refine State.put_keeps ?_ _ _
      assumption
    clear_value v4
    extract_lets +onlyGivenNames v6
    have h7 : Keeps s0 v6 := by
      dsimp only [v6]
      refine State.consentFreed_keeps ?_
      assumption
    clear_value v6
    extract_lets +onlyGivenNames v8
    clear_value v8
    extract_lets +onlyGivenNames v9
    have h10 : Keeps s0 v9 := by
      dsimp only [v9]
      refine keeps_mk ?_ rfl rfl rfl
      assumption
    clear_value v9
    refine keeps_ite ?_ ?_
    · refine State.pndCnt_keeps ?_ _
      refine State.raisePf_keeps ?_ _
      refine State.logDev_keeps ?_ _ _ _
      assumption
    · assumption

theorem execLinkDown_keeps {s0 s : State} (h : Keeps s0 s) (lost : Bool) :
    KeepsO s0 (execLinkDown lost s) := by
  unfold execLinkDown
  refine keepsO_next ?_
  refine keeps_ite ?_ ?_
  · refine State.linkDown_keeps ?_
    assumption
  · assumption

theorem execLinkMarkerBlock_keeps {s0 s : State} (h : Keeps s0 s) (line : List Byte) (spaced : Bool) :
    KeepsO s0 (execLinkMarkerBlock line spaced s) := by
  unfold execLinkMarkerBlock
  extract_lets +onlyGivenNames v1
  clear_value v1
  refine keepsO_next ?_
  refine keeps_ite ?_ ?_
  · assumption
  · refine State.withVerdict_keeps ?_ ?_
    · assumption
    · intro y2 y3
      refine keeps_mk ?_ rfl rfl rfl
      assumption

theorem State.recordBad_keeps {s0 s : State} (h : Keeps s0 s) :
    Keeps s0 (State.recordBad s) := by
  unfold State.recordBad
  refine State.limDev_keeps ?_ _ _ _
  refine State.pndCnt_keeps ?_ _
  assumption

theorem State.readRecord_keeps {s0 s : State} (h : Keeps s0 s) (b : List Byte) (type : ℕ) :
    Keeps s0 (State.readRecord s b type).2 := by
  unfold State.readRecord
  dsimp only
  split
  · assumption
  · split
    · dsimp only
      refine keeps_mk ?_ rfl rfl rfl
      refine State.recordBad_keeps ?_
      assumption
    · split
      · assumption
      · split
        · dsimp only
          refine State.recordBad_keeps ?_
          assumption
        · assumption

theorem State.bind_keeps {s0 s : State} (h : Keeps s0 s) (form : ℕ) (role : ℕ) (partner : ℕ) (pairId : ℕ) :
    Keeps s0 (State.bind s form role partner pairId) := by
  unfold State.bind
  extract_lets +onlyGivenNames v1
  have h2 : Keeps s0 v1 := by
    dsimp only [v1]
    refine State.put_keeps ?_ _ _
    refine State.putB_keeps ?_ _ _
    assumption
  clear_value v1
  extract_lets +onlyGivenNames v3
  have h4 : Keeps s0 v3 := by
    dsimp only [v3]
    refine State.put_keeps ?_ _ _
    refine State.put_keeps ?_ _ _
    refine State.put_keeps ?_ _ _
    assumption
  clear_value v3
  extract_lets +onlyGivenNames v5
  have h6 : Keeps s0 v5 := by
    dsimp only [v5]
    refine State.put_keeps ?_ _ _
    refine State.put_keeps ?_ _ _
    assumption
  clear_value v5
  refine keeps_mk ?_ rfl rfl rfl
  assumption

theorem State.becomeWing_keeps {s0 s : State} (h : Keeps s0 s) (p : Peer) :
    Keeps s0 (State.becomeWing s p) := by
  unfold State.becomeWing
  refine State.withVerdict_keeps ?_ ?_
  · assumption
  · intro y1 y2
    extract_lets +onlyGivenNames v3
    clear_value v3
    extract_lets +onlyGivenNames v4
    have h5 : Keeps s0 v4 := by
      dsimp only [v4]
      refine keeps_mk ?_ rfl rfl rfl
      assumption
    clear_value v4
    extract_lets +onlyGivenNames v6
    have h7 : Keeps s0 v6 := by
      dsimp only [v6]
      refine State.putB_keeps ?_ _ _
      refine State.bind_keeps ?_ _ _ _ _
      assumption
    clear_value v6
    extract_lets +onlyGivenNames v8
    clear_value v8
    extract_lets +onlyGivenNames v9
    have h10 : Keeps s0 v9 := by
      dsimp only [v9]
      refine keeps_mk ?_ rfl rfl rfl
      assumption
    clear_value v9
    refine State.setSafe_keeps ?_ _ _
    assumption

theorem State.unbind_keeps {s0 s : State} (h : Keeps s0 s) :
    Keeps s0 (State.unbind s) := by
  unfold State.unbind
  refine State.withVerdict_keeps ?_ ?_
  · assumption
  · intro y1 y2
    extract_lets +onlyGivenNames v3
    clear_value v3
    extract_lets +onlyGivenNames v4
    have h5 : Keeps s0 v4 := by
      dsimp only [v4]
      refine State.put_keeps ?_ _ _
      refine State.putB_keeps ?_ _ _
      refine State.putB_keeps ?_ _ _
      assumption
    clear_value v4
    extract_lets +onlyGivenNames v6
    have h7 : Keeps s0 v6 := by
      dsimp only [v6]
      refine State.put_keeps ?_ _ _
      refine State.put_keeps ?_ _ _
      refine State.put_keeps ?_ _ _
      assumption
    clear_value v6
    extract_lets +onlyGivenNames v8
    have h9 : Keeps s0 v8 := by
      dsimp only [v8]
      refine State.put_keeps ?_ _ _
      refine State.put_keeps ?_ _ _
      assumption
    clear_value v8
    extract_lets +onlyGivenNames v10
    have h11 : Keeps s0 v10 := by
      dsimp only [v10]
      refine State.consentFreed_keeps ?_
      assumption
    clear_value v10
    extract_lets +onlyGivenNames v12
    clear_value v12
    extract_lets +onlyGivenNames v13
    have h14 : Keeps s0 v13 := by
      dsimp only [v13]
      refine keeps_mk ?_ rfl rfl rfl
      assumption
    clear_value v13
    refine keeps_ite ?_ ?_
    · extract_lets +onlyGivenNames v15
      have h16 : Keeps s0 v15 := by
        dsimp only [v15]
        refine State.putB_keeps ?_ _ _
        refine State.put_keeps ?_ _ _
        refine State.put_keeps ?_ _ _
        assumption
      clear_value v15
      refine State.setSafe_keeps ?_ _ _
      refine State.putB_keeps ?_ _ _
      refine State.put_keeps ?_ _ _
      refine State.put_keeps ?_ _ _
      assumption
    · assumption

theorem State.bindRefuse_keeps {s0 s : State} (h : Keeps s0 s) (m : List Byte) (code : ℕ) :
    Keeps s0 (State.bindRefuse s m code) := by
  unfold State.bindRefuse
  refine State.ackMsg_keeps ?_ _ _ _
  refine State.logDev_keeps ?_ _ _ _
  assumption

theorem State.admitBind_keeps {s0 s : State} (h : Keeps s0 s) (m : List Byte) :
    Keeps s0 (State.admitBind s m) := by
  unfold State.admitBind
  split
  · refine State.bindRefuse_keeps ?_ _ _
    assumption
  · extract_lets +onlyGivenNames v1
    clear_value v1
    refine State.ackMsg_keeps ?_ _ _ _
    refine keeps_mk ?_ rfl rfl rfl
    assumption

theorem State.takeBind_keeps {s0 s : State} (h : Keeps s0 s) (m : List Byte) :
    Keeps s0 (State.takeBind s m) := by
  unfold State.takeBind
  extract_lets +onlyGivenNames v1
  have h2 : Keeps s0 v1 := by
    dsimp only [v1]
    refine State.tookMsg_keeps ?_ _
    assumption
  clear_value v1
  refine keeps_ite ?_ ?_
  · refine State.ackMsg_keeps ?_ _ _ _
    assumption
  · refine State.admitBind_keeps ?_ _
    assumption

theorem execPendantBindSpan_keeps {s0 s : State} (h : Keeps s0 s) (msg : List Byte) :
    KeepsO s0 (execPendantBindSpan msg s) := by
  unfold execPendantBindSpan
  refine keepsO_next ?_
  refine keeps_ite ?_ ?_
  · refine State.takeBind_keeps ?_ _
    assumption
  · assumption

theorem execPendantBindGuard_keeps {s0 s : State} (h : Keeps s0 s) (msg : List Byte) :
    KeepsO s0 (execPendantBindGuard msg s) := by
  unfold execPendantBindGuard
  refine keepsO_next ?_
  refine keeps_ite ?_ ?_
  · refine State.takeBind_keeps ?_ _
    assumption
  · assumption

theorem execPendantUnbind_keeps {s0 s : State} (h : Keeps s0 s) (msg : List Byte) :
    KeepsO s0 (execPendantUnbind msg s) := by
  unfold execPendantUnbind
  refine keepsO_next ?_
  refine keeps_ite ?_ ?_
  · assumption
  · extract_lets +onlyGivenNames v1
    have h2 : Keeps s0 v1 := by
      dsimp only [v1]
      refine State.tookMsg_keeps ?_ _
      assumption
    clear_value v1
    refine keeps_ite ?_ ?_
    · refine State.ackMsg_keeps ?_ _ _ _
      assumption
    · refine State.admitBind_keeps ?_ _
      assumption

theorem State.applyBind_keeps {s0 s : State} (h : Keeps s0 s) (b : BindBody) :
    Keeps s0 (State.applyBind s b) := by
  unfold State.applyBind
  refine keeps_ite ?_ ?_
  · refine State.when_keeps ?_ ?_ _
    · assumption
    · intro y1 y2
      refine State.unbind_keeps ?_
      assumption
  · refine keeps_ite ?_ ?_
    · assumption
    · refine keeps_ite ?_ ?_
      · refine State.bind_keeps ?_ _ _ _ _
        assumption
      · refine State.bind_keeps ?_ _ _ _ _
        assumption

theorem execPendantBindApply_keeps {s0 s : State} (h : Keeps s0 s) :
    KeepsO s0 (execPendantBindApply s) := by
  unfold execPendantBindApply
  extract_lets +onlyGivenNames v1
  clear_value v1
  extract_lets +onlyGivenNames v2
  clear_value v2
  refine keepsO_next ?_
  refine State.each_keeps ?_ ?_ _
  · refine keeps_mk ?_ rfl rfl rfl
    assumption
  · intro y3 y4 y5
    refine State.applyBind_keeps ?_ _
    assumption

theorem execPndCmdUnbind_keeps {s0 s : State} (h : Keeps s0 s) :
    KeepsO s0 (execPndCmdUnbind s) := by
  unfold execPndCmdUnbind
  refine keepsO_next ?_
  refine keeps_mk ?_ rfl rfl rfl
  assumption

theorem State.becomePaired_keeps {s0 s : State} (h : Keeps s0 s) :
    Keeps s0 (State.becomePaired s) := by
  unfold State.becomePaired
  extract_lets +onlyGivenNames v1
  have h2 : Keeps s0 v1 := by
    dsimp only [v1]
    refine State.putB_keeps ?_ _ _
    assumption
  clear_value v1
  extract_lets +onlyGivenNames v3
  clear_value v3
  extract_lets +onlyGivenNames v4
  have h5 : Keeps s0 v4 := by
    dsimp only [v4]
    refine keeps_mk ?_ rfl rfl rfl
    assumption
  clear_value v4
  refine State.when_keeps ?_ ?_ _
  · assumption
  · intro y6 y7
    refine State.putB_keeps ?_ _ _
    assumption

theorem State.followFace_keeps {s0 s : State} (h : Keeps s0 s) (p : Peer) :
    Keeps s0 (State.followFace s p) := by
  unfold State.followFace
  extract_lets +onlyGivenNames v1
  have h2 : Keeps s0 v1 := by
    dsimp only [v1]
    refine State.putB_keeps ?_ _ _
    refine State.put_keeps ?_ _ _
    refine State.put_keeps ?_ _ _
    assumption
  clear_value v1
  extract_lets +onlyGivenNames v3
  have h4 : Keeps s0 v3 := by
    dsimp only [v3]
    refine State.put_keeps ?_ _ _
    assumption
  clear_value v3
  extract_lets +onlyGivenNames v5
  clear_value v5
  extract_lets +onlyGivenNames v6
  have h7 : Keeps s0 v6 := by
    dsimp only [v6]
    refine keeps_mk ?_ rfl rfl rfl
    assumption
  clear_value v6
  refine State.when_keeps ?_ ?_ _
  · assumption
  · intro y8 y9
    refine State.putB_keeps ?_ _ _
    assumption

theorem State.notePeer_keeps {s0 s : State} (h : Keeps s0 s) (p : Peer) :
    Keeps s0 (State.notePeer s p) := by
  unfold State.notePeer
  extract_lets +onlyGivenNames v1
  have h2 : Keeps s0 v1 := by
    dsimp only [v1]
    refine State.putB_keeps ?_ _ _
    refine State.put_keeps ?_ _ _
    assumption
  clear_value v1
  extract_lets +onlyGivenNames v3
  have h4 : Keeps s0 v3 := by
    dsimp only [v3]
    refine State.put_keeps ?_ _ _
    refine State.putB_keeps ?_ _ _
    assumption
  clear_value v3
  refine keeps_mk ?_ rfl rfl rfl
  assumption

theorem State.peerRestarted_keeps {s0 s : State} (h : Keeps s0 s) :
    Keeps s0 (State.peerRestarted s) := by
  unfold State.peerRestarted
  extract_lets +onlyGivenNames v1
  have h2 : Keeps s0 v1 := by
    dsimp only [v1]
    refine State.logDev_keeps ?_ _ _ _
    assumption
  clear_value v1
  refine keeps_mk ?_ rfl rfl rfl
  assumption

theorem State.noteClash_keeps {s0 s : State} (h : Keeps s0 s) (p : Peer) :
    Keeps s0 (State.noteClash s p) := by
  unfold State.noteClash
  extract_lets +onlyGivenNames v1
  clear_value v1
  extract_lets +onlyGivenNames v2
  have h3 : Keeps s0 v2 := by
    dsimp only [v2]
    refine State.when_keeps ?_ ?_ _
    · assumption
    · intro y4 y5
      refine State.logDev_keeps ?_ _ _ _
      assumption
  clear_value v2
  refine keeps_mk ?_ rfl rfl rfl
  assumption

theorem State.takePeer_keeps {s0 s : State} (h : Keeps s0 s) (p : Peer) :
    Keeps s0 (State.takePeer s p) := by
  unfold State.takePeer
  extract_lets +onlyGivenNames v1
  have h2 : Keeps s0 v1 := by
    dsimp only [v1]
    refine State.noteClash_keeps ?_ _
    refine State.when_keeps ?_ ?_ _
    · refine State.notePeer_keeps ?_ _
      assumption
    · intro y3 y4
      refine State.peerRestarted_keeps ?_
      assumption
  clear_value v1
  extract_lets +onlyGivenNames v5
  have h6 : Keeps s0 v5 := by
    dsimp only [v5]
    refine keeps_ite ?_ ?_
    · refine State.becomeWing_keeps ?_ _
      assumption
    · assumption
  clear_value v5
  extract_lets +onlyGivenNames v7
  have h8 : Keeps s0 v7 := by
    dsimp only [v7]
    refine keeps_ite ?_ ?_
    · refine State.becomePaired_keeps ?_
      assumption
    · assumption
  clear_value v7
  refine keeps_ite ?_ ?_
  · refine State.followFace_keeps ?_ _
    assumption
  · assumption

theorem execStateRecord_keeps {s0 s : State} (h : Keeps s0 s) (record : List Byte) :
    KeepsO s0 (execStateRecord record s) := by
  unfold execStateRecord
  refine keepsO_next ?_
  split
  · rename_i s1 e2
    have h3 : Keeps s0 s1 := by
      refine keeps_snd e2 ?_
      refine State.readRecord_keeps ?_ _ _
      assumption
    refine State.withVerdict_keeps ?_ ?_
    · assumption
    · intro y4 y5
      refine State.takePeer_keeps ?_ _
      assumption
  · rename_i s6 e7
    have h8 : Keeps s0 s6 := by
      refine keeps_snd e7 ?_
      refine State.readRecord_keeps ?_ _ _
      assumption
    assumption

theorem execConsentReq_keeps {s0 s : State} (h : Keeps s0 s) (record : List Byte) :
    KeepsO s0 (execConsentReq record s) := by
  unfold execConsentReq
  refine keepsO_next ?_
  split
  · rename_i s1 e2
    have h3 : Keeps s0 s1 := by
      refine keeps_snd e2 ?_
      refine State.readRecord_keeps ?_ _ _
      assumption
    extract_lets +onlyGivenNames v4
    clear_value v4
    refine State.sendRecord_keeps ?_ _ _ _
    assumption
  · rename_i s5 e6
    have h7 : Keeps s0 s5 := by
      refine keeps_snd e6 ?_
      refine State.readRecord_keeps ?_ _ _
      assumption
    assumption

theorem execConsentReply_keeps {s0 s : State} (h : Keeps s0 s) (record : List Byte) :
    KeepsO s0 (execConsentReply record s) := by
  unfold execConsentReply
  refine keepsO_next ?_
  split
  · rename_i s1 e2
    have h3 : Keeps s0 s1 := by
      refine keeps_snd e2 ?_
      refine State.readRecord_keeps ?_ _ _
      assumption
    split
    · rename_i w4 w5 w6
      have h7 : Keeps s0 s1 := by
        refine keeps_snd e2 ?_
        refine State.readRecord_keeps ?_ _ _
        assumption
      refine keeps_ite ?_ ?_
      · extract_lets +onlyGivenNames v8
        clear_value v8
        extract_lets +onlyGivenNames v9
        clear_value v9
        extract_lets +onlyGivenNames v10
        have h11 : Keeps s0 v10 := by
          dsimp only [v10]
          refine keeps_mk ?_ rfl rfl rfl
          assumption
        clear_value v10
        refine State.when_keeps ?_ ?_ _
        · assumption
        · intro y12 y13
          refine State.pndCnt_keeps ?_ _
          assumption
      · assumption
    · rename_i w14 w15
      have h16 : Keeps s0 s1 := by
        refine keeps_snd e2 ?_
        refine State.readRecord_keeps ?_ _ _
        assumption
      assumption
  · rename_i s17 e18
    have h19 : Keeps s0 s17 := by
      refine keeps_snd e18 ?_
      refine State.readRecord_keeps ?_ _ _
      assumption
    assumption

theorem execConsentTimeout_keeps {s0 s : State} (h : Keeps s0 s) :
    KeepsO s0 (execConsentTimeout s) := by
  unfold execConsentTimeout
  refine keepsO_next ?_
  split
  · refine keeps_ite ?_ ?_
    · refine State.logDev_keeps ?_ _ _ _
      refine State.pndCnt_keeps ?_ _
      refine keeps_mk ?_ rfl rfl rfl
      assumption
    · assumption
  · assumption

theorem execTodRecord_keeps {s0 s : State} (h : Keeps s0 s) (record : List Byte) :
    KeepsO s0 (execTodRecord record s) := by
  unfold execTodRecord
  refine keepsO_next ?_
  split
  · rename_i e1 e2 e3 s4 e5
    have h6 : Keeps s0 s4 := by
      refine keeps_snd e5 ?_
      refine State.readRecord_keeps ?_ _ _
      assumption
    refine keeps_ite ?_ ?_
    · extract_lets +onlyGivenNames v7
      have h8 : Keeps s0 v7 := by
        dsimp only [v7]
        refine State.acceptTod_keeps ?_ _
        assumption
      clear_value v7
      refine keeps_mk ?_ rfl rfl rfl
      assumption
    · assumption
  · rename_i e9 s10 e11
    have h12 : Keeps s0 s10 := by
      refine keeps_snd e11 ?_
      refine State.readRecord_keeps ?_ _ _
      assumption
    assumption

theorem State.orphan_keeps {s0 s : State} (h : Keeps s0 s) :
    Keeps s0 (State.orphan s) := by
  unfold State.orphan
  refine State.pndCnt_keeps ?_ _
  assumption

theorem execDupUpRecord_keeps {s0 s : State} (h : Keeps s0 s) (record : List Byte) :
    KeepsO s0 (execDupUpRecord record s) := by
  unfold execDupUpRecord
  refine keepsO_next ?_
  split
  · rename_i s1 e2
    have h3 : Keeps s0 s1 := by
      refine keeps_snd e2 ?_
      refine State.readRecord_keeps ?_ _ _
      assumption
    extract_lets +onlyGivenNames v4
    clear_value v4
    extract_lets +onlyGivenNames v5
    clear_value v5
    refine keeps_ite ?_ ?_
    · refine State.admitSdu_keeps ?_ _
      refine State.pndCnt_keeps ?_ _
      assumption
    · refine State.orphan_keeps ?_
      assumption
  · rename_i s6 e7
    have h8 : Keeps s0 s6 := by
      refine keeps_snd e7 ?_
      refine State.readRecord_keeps ?_ _ _
      assumption
    assumption

theorem execDupDownRecord_keeps {s0 s : State} (h : Keeps s0 s) (record : List Byte) :
    KeepsO s0 (execDupDownRecord record s) := by
  unfold execDupDownRecord
  refine keepsO_next ?_
  split
  · rename_i e1 e2 e3 s4 e5
    have h6 : Keeps s0 s4 := by
      refine keeps_snd e5 ?_
      refine State.readRecord_keeps ?_ _ _
      assumption
    extract_lets +onlyGivenNames v7
    clear_value v7
    extract_lets +onlyGivenNames v8
    clear_value v8
    refine keeps_ite ?_ ?_
    · refine State.orphan_keeps ?_
      assumption
    · refine keeps_ite ?_ ?_
      · refine State.tagBad_keeps ?_
        assumption
      · extract_lets +onlyGivenNames v9
        have h10 : Keeps s0 v9.2 := by
          dsimp only [v9]
          refine State.fromRecord_keeps ?_ _
          assumption
        clear_value v9
        refine State.forward_keeps ?_ _ _
        assumption
  · rename_i e11 s12 e13
    have h14 : Keeps s0 s12 := by
      refine keeps_snd e13 ?_
      refine State.readRecord_keeps ?_ _ _
      assumption
    assumption

theorem execSpanUpRecord_keeps {s0 s : State} (h : Keeps s0 s) (record : List Byte) :
    KeepsO s0 (execSpanUpRecord record s) := by
  unfold execSpanUpRecord
  refine keepsO_next ?_
  split
  · rename_i s1 e2
    have h3 : Keeps s0 s1 := by
      refine keeps_snd e2 ?_
      refine State.readRecord_keeps ?_ _ _
      assumption
    extract_lets +onlyGivenNames v4
    clear_value v4
    split
    · rename_i w5 w6 w7
      have h8 : Keeps s0 s1 := by
        refine keeps_snd e2 ?_
        refine State.readRecord_keeps ?_ _ _
        assumption
      refine State.admitSdu_keeps ?_ _
      refine State.pndCnt_keeps ?_ _
      assumption
    · rename_i w9 w10
      have h11 : Keeps s0 s1 := by
        refine keeps_snd e2 ?_
        refine State.readRecord_keeps ?_ _ _
        assumption
      refine State.orphan_keeps ?_
      assumption
  · rename_i s12 e13
    have h14 : Keeps s0 s12 := by
      refine keeps_snd e13 ?_
      refine State.readRecord_keeps ?_ _ _
      assumption
    assumption

theorem execSpanDownRecord_keeps {s0 s : State} (h : Keeps s0 s) (record : List Byte) :
    KeepsO s0 (execSpanDownRecord record s) := by
  unfold execSpanDownRecord
  refine keepsO_next ?_
  split
  · rename_i e1 e2 e3 s4 e5
    have h6 : Keeps s0 s4 := by
      refine keeps_snd e5 ?_
      refine State.readRecord_keeps ?_ _ _
      assumption
    extract_lets +onlyGivenNames v7
    clear_value v7
    refine keeps_ite ?_ ?_
    · extract_lets +onlyGivenNames v8
      have h9 : Keeps s0 v8.2 := by
        dsimp only [v8]
        refine State.fromRecord_keeps ?_ _
        refine State.pndCnt_keeps ?_ _
        assumption
      clear_value v8
      refine State.forward_keeps ?_ _ _
      assumption
    · refine State.orphan_keeps ?_
      assumption
  · rename_i e10 s11 e12
    have h13 : Keeps s0 s11 := by
      refine keeps_snd e12 ?_
      refine State.readRecord_keeps ?_ _ _
      assumption
    assumption

theorem execMemberRecord_keeps {s0 s : State} (h : Keeps s0 s) (record : List Byte) :
    KeepsO s0 (execMemberRecord record s) := by
  unfold execMemberRecord
  refine keepsO_next ?_
  split
  · rename_i s1 e2
    have h3 : Keeps s0 s1 := by
      refine keeps_snd e2 ?_
      refine State.readRecord_keeps ?_ _ _
      assumption
    extract_lets +onlyGivenNames v4
    clear_value v4
    refine keeps_ite ?_ ?_
    · assumption
    · refine keeps_ite ?_ ?_
      · refine State.each_keeps ?_ ?_ _
        · assumption
        · intro y5 y6 y7
          refine State.acceptMember_keeps ?_ _ _
          assumption
      · refine keeps_ite ?_ ?_
        · extract_lets +onlyGivenNames v8
          clear_value v8
          extract_lets +onlyGivenNames v9
          clear_value v9
          refine keeps_mk ?_ rfl rfl rfl
          assumption
        · assumption
  · rename_i s10 e11
    have h12 : Keeps s0 s10 := by
      refine keeps_snd e11 ?_
      refine State.readRecord_keeps ?_ _ _
      assumption
    assumption

theorem execPndGflowWrite_keeps {s0 s : State} (h : Keeps s0 s) (n : Fin 256) (data : Word) :
    KeepsO s0 (execPndGflowWrite n data s) := by
  unfold execPndGflowWrite
  extract_lets +onlyGivenNames v1
  clear_value v1
  refine keepsO_next ?_
  refine keeps_ite ?_ ?_
  · refine State.logDev_keeps ?_ _ _ _
    assumption
  · refine keeps_mk ?_ rfl rfl rfl
    assumption

theorem State.delaySample_keeps {s0 s : State} (h : Keeps s0 s) (link : LinkSample) :
    Keeps s0 (State.delaySample s link) := by
  unfold State.delaySample
  split
  · extract_lets +onlyGivenNames v1
    clear_value v1
    extract_lets +onlyGivenNames v2
    clear_value v2
    extract_lets +onlyGivenNames v3
    clear_value v3
    refine State.tookFree_keeps ?_
    refine State.putS_keeps ?_ _ _
    refine keeps_mk ?_ rfl rfl rfl
    assumption
  · assumption

theorem State.sendSpan_keeps {s0 s : State} (h : Keeps s0 s) :
    Keeps s0 (State.sendSpan s) := by
  unfold State.sendSpan
  extract_lets +onlyGivenNames v1
  clear_value v1
  refine keeps_foldl_snd ?_ ?_ _
  · assumption
  · intro y2 y3 y4
    split
    · dsimp only
      split
      · assumption
      · dsimp only
        refine State.release_keeps ?_ _
        refine State.addBytes_keeps ?_ _ _ _
        refine State.pndCnt_keeps ?_ _
        refine State.sendRecord_keeps ?_ _ _ _
        assumption
    · assumption

theorem State.sendLinkFrame_keeps {s0 s : State} (h : Keeps s0 s) (left : Nat) :
    Keeps s0 (State.sendLinkFrame s left) := by
  unfold State.sendLinkFrame
  extract_lets +onlyGivenNames v1
  have h2 : Keeps s0 v1 := by
    dsimp only [v1]
    refine State.endFrame_keeps ?_
    assumption
  clear_value v1
  refine keeps_ite ?_ ?_
  · refine keeps_mk ?_ rfl rfl rfl
    assumption
  · extract_lets +onlyGivenNames v3
    clear_value v3
    extract_lets +onlyGivenNames v4
    have h5 : Keeps s0 v4 := by
      dsimp only [v4]
      refine State.queueRecord_keeps ?_ _ _ _
      refine keeps_mk ?_ rfl rfl rfl
      assumption
    clear_value v4
    extract_lets +onlyGivenNames v6
    clear_value v6
    extract_lets +onlyGivenNames v7
    clear_value v7
    extract_lets +onlyGivenNames v8
    have h9 : Keeps s0 v8 := by
      dsimp only [v8]
      split
      · refine keeps_mk ?_ rfl rfl rfl
        refine State.sendRecord_keeps ?_ _ _ _
        assumption
      · refine keeps_mk ?_ rfl rfl rfl
        assumption
    clear_value v8
    extract_lets +onlyGivenNames v10
    have h11 : Keeps s0 v10 := by
      dsimp only [v10]
      refine State.when_keeps ?_ ?_ _
      · assumption
      · intro y12 y13
        refine State.sendRecord_keeps ?_ _ _ _
        assumption
    clear_value v10
    refine keeps_ite ?_ ?_
    · refine State.sendSpan_keeps ?_
      assumption
    · assumption

theorem State.pndEdge_keeps {s0 s : State} (h : Keeps s0 s) (link : LinkSample) :
    Keeps s0 (State.pndEdge s link) := by
  unfold State.pndEdge
  extract_lets +onlyGivenNames v1
  have h2 : Keeps s0 v1 := by
    dsimp only [v1]
    refine State.each_keeps ?_ ?_ _
    · assumption
    · intro y3 y4 y5
      refine State.setWord_keeps ?_ _ _
      assumption
  clear_value v1
  extract_lets +onlyGivenNames v6
  clear_value v6
  extract_lets +onlyGivenNames v7
  have h8 : Keeps s0 v7 := by
    dsimp only [v7]
    refine keeps_mk ?_ rfl rfl rfl
    assumption
  clear_value v7
  extract_lets +onlyGivenNames v9
  clear_value v9
  extract_lets +onlyGivenNames v10
  have h11 : Keeps s0 v10 := by
    dsimp only [v10]
    refine keeps_ite ?_ ?_
    · refine State.unbind_keeps ?_
      assumption
    · assumption
  clear_value v10
  extract_lets +onlyGivenNames v12
  have h13 : Keeps s0 v12 := by
    dsimp only [v12]
    split
    · refine keeps_ite ?_ ?_
      · refine State.putB_keeps ?_ _ _
        assumption
      · assumption
    · assumption
  clear_value v12
  extract_lets +onlyGivenNames v14
  have h15 : Keeps s0 v14 := by
    dsimp only [v14]
    refine keeps_ite ?_ ?_
    · refine State.delaySample_keeps ?_ _
      assumption
    · assumption
  clear_value v14
  extract_lets +onlyGivenNames v16
  clear_value v16
  extract_lets +onlyGivenNames v17
  have h18 : Keeps s0 v17 := by
    dsimp only [v17]
    refine keeps_mk ?_ rfl rfl rfl
    assumption
  clear_value v17
  refine State.sendLinkFrame_keeps ?_ _
  assumption

end Sys2Proof.Machine
end

