-- ==== Sys2Proof/Laws/KeepsCst.lean ====
section
/-!
SUPPORT. What Cst.lean leaves untouched (Keeps), operation by operation.
-/

namespace Sys2Proof.Machine

open Sys2Proof

theorem execCastBlock_keeps {s0 s : State} (h : Keeps s0 s) (src : Agent) :
    KeepsO s0 (execCastBlock src s) := by
  unfold execCastBlock
  refine keepsO_next ?_
  refine State.serve_keeps ?_ ?_ _ _
  · assumption
  · intro y1 y2 y3
    dsimp only
    refine State.castBlock_keeps ?_ _ _ _
    assumption

theorem State.dropSession_keeps {s0 s : State} (h : Keeps s0 s) :
    Keeps s0 (State.dropSession s) := by
  unfold State.dropSession
  extract_lets +onlyGivenNames v1
  have h2 : Keeps s0 v1 := by
    dsimp only [v1]
    refine State.putB_keeps ?_ _ _
    refine State.put_keeps ?_ _ _
    assumption
  clear_value v1
  extract_lets +onlyGivenNames v3
  have h4 : Keeps s0 v3 := by
    dsimp only [v3]
    refine State.each_keeps ?_ ?_ _
    · assumption
    · intro y5 y6 y7
      refine State.put_keeps ?_ _ _
      assumption
  clear_value v3
  extract_lets +onlyGivenNames v8
  clear_value v8
  extract_lets +onlyGivenNames v9
  clear_value v9
  refine State.setSecond_keeps ?_ _
  refine keeps_mk ?_ rfl rfl rfl
  assumption

theorem execCastBegin_keeps {s0 s : State} (h : Keeps s0 s) (src : Agent) :
    KeepsO s0 (execCastBegin src s) := by
  unfold execCastBegin
  refine keepsO_next ?_
  refine State.serveCast_keeps ?_ ?_ _ _
  · assumption
  · intro y1 y2 y3
    dsimp only
    split
    · refine State.castState_keeps ?_
      assumption
    · split
      · dsimp only
        refine State.castLog_keeps ?_ _ _
        assumption
      · split
        · dsimp only
          refine State.setCast_keeps ?_ _
          refine keeps_mk ?_ rfl rfl rfl
          refine State.stageErase_keeps ?_ _
          refine State.stageErase_keeps ?_ _
          refine State.dropSession_keeps ?_
          assumption
        · dsimp only
          refine State.castLog_keeps ?_ _ _
          assumption

theorem execCastAbandon_keeps {s0 s : State} (h : Keeps s0 s) (src : Agent) :
    KeepsO s0 (execCastAbandon src s) := by
  unfold execCastAbandon
  refine keepsO_next ?_
  refine State.serveCast_keeps ?_ ?_ _ _
  · assumption
  · intro y1 y2 y3
    split
    · dsimp only
      refine State.setCast_keeps ?_ _
      refine State.dropSession_keeps ?_
      assumption
    · refine State.castState_keeps ?_
      assumption

theorem execCastVerify_keeps {s0 s : State} (h : Keeps s0 s) (src : Agent) :
    KeepsO s0 (execCastVerify src s) := by
  unfold execCastVerify
  refine keepsO_next ?_
  refine State.serveCast_keeps ?_ ?_ _ _
  · assumption
  · intro y1 y2 y3
    split
    · dsimp only
      refine keeps_mk ?_ rfl rfl rfl
      assumption
    · refine State.castState_keeps ?_
      assumption

theorem execCastVerifyDone_keeps {s0 s : State} (h : Keeps s0 s) :
    KeepsO s0 (execCastVerifyDone s) := by
  unfold execCastVerifyDone
  refine keepsO_next ?_
  refine keeps_ite ?_ ?_
  · assumption
  · extract_lets +onlyGivenNames v1
    clear_value v1
    extract_lets +onlyGivenNames v2
    have h3 : Keeps s0 v2 := by
      dsimp only [v2]
      refine keeps_mk ?_ rfl rfl rfl
      assumption
    clear_value v2
    split
    · refine State.setCast_keeps ?_ _
      assumption
    · refine State.castLog_keeps ?_ _ _
      assumption

theorem State.armWith_keeps {s0 s : State} (h : Keeps s0 s) (sec : Option ℕ) :
    Keeps s0 (State.armWith s sec).1 := by
  unfold State.armWith
  split
  · split
    · dsimp only
      refine State.castLog_keeps ?_ _ _
      assumption
    · split
      · dsimp only
        refine State.setSecond_keeps ?_ _
        refine keeps_mk ?_ rfl rfl rfl
        assumption
      · split
        · dsimp only
          refine keeps_ite ?_ ?_
          · refine keeps_mk ?_ rfl rfl rfl
            assumption
          · assumption
        · split
          · dsimp only
            refine State.tookFree_keeps ?_
            refine keeps_mk ?_ rfl rfl rfl
            refine State.setUnit_keeps ?_ _ _
            assumption
          · dsimp only
            refine State.castLog_keeps ?_ _ _
            assumption
  · split
    · dsimp only
      refine State.castLog_keeps ?_ _ _
      assumption
    · split
      · assumption
      · split
        · dsimp only
          refine keeps_ite ?_ ?_
          · refine keeps_mk ?_ rfl rfl rfl
            assumption
          · assumption
        · split
          · dsimp only
            refine State.tookFree_keeps ?_
            refine keeps_mk ?_ rfl rfl rfl
            refine State.setUnit_keeps ?_ _ _
            assumption
          · dsimp only
            refine State.castLog_keeps ?_ _ _
            assumption

theorem execCastArm_keeps {s0 s : State} (h : Keeps s0 s) (src : Agent) :
    KeepsO s0 (execCastArm src s) := by
  unfold execCastArm
  refine keepsO_next ?_
  refine State.serveCast_keeps ?_ ?_ _ _
  · assumption
  · intro y1 y2 y3
    split
    · refine State.castState_keeps ?_
      assumption
    · split
      · dsimp only
        refine State.castLog_keeps ?_ _ _
        assumption
      · split
        · dsimp only
          refine State.castLog_keeps ?_ _ _
          assumption
        · refine State.armWith_keeps ?_ _
          assumption

theorem execCastCommitDurable_keeps {s0 s : State} (h : Keeps s0 s) :
    KeepsO s0 (execCastCommitDurable s) := by
  unfold execCastCommitDurable
  refine keepsO_next ?_
  split
  · assumption
  · extract_lets +onlyGivenNames v1
    have h2 : Keeps s0 v1 := by
      dsimp only [v1]
      refine State.setUnit_keeps ?_ _ _
      assumption
    clear_value v1
    extract_lets +onlyGivenNames v3
    clear_value v3
    extract_lets +onlyGivenNames v4
    have h5 : Keeps s0 v4 := by
      dsimp only [v4]
      refine keeps_mk ?_ rfl rfl rfl
      assumption
    clear_value v4
    refine State.setCast_keeps ?_ _
    refine State.setSecond_keeps ?_ _
    refine State.castCnt_keeps ?_ _
    assumption

theorem execCastDisarm_keeps {s0 s : State} (h : Keeps s0 s) (src : Agent) :
    KeepsO s0 (execCastDisarm src s) := by
  unfold execCastDisarm
  refine keepsO_next ?_
  refine State.serveCast_keeps ?_ ?_ _ _
  · assumption
  · intro y1 y2 y3
    split
    · refine State.castState_keeps ?_
      assumption
    · split
      · dsimp only
        refine State.disarm_keeps ?_
        assumption
      · dsimp only
        refine State.castLog_keeps ?_ _ _
        assumption

theorem execCastQuery_keeps {s0 s : State} (h : Keeps s0 s) (src : Agent) :
    KeepsO s0 (execCastQuery src s) := by
  unfold execCastQuery
  refine keepsO_next ?_
  refine State.serveCast_keeps ?_ ?_ _ _
  · assumption
  · intro y1 y2 y3
    assumption

theorem State.castRefuse_keeps {s0 s : State} (h : Keeps s0 s) (code : ℕ) :
    Keeps s0 (State.castRefuse s code) := by
  unfold State.castRefuse
  refine State.castReport_keeps ?_ _
  refine State.castLog_keeps ?_ _ _
  assumption

theorem execCastAtSchedule_keeps {s0 s : State} (h : Keeps s0 s) (msg : List Byte) :
    KeepsO s0 (execCastAtSchedule msg s) := by
  unfold execCastAtSchedule
  refine keepsO_next ?_
  refine keeps_ite ?_ ?_
  · assumption
  · extract_lets +onlyGivenNames v1
    have h2 : Keeps s0 v1 := by
      dsimp only [v1]
      refine State.tookMsg_keeps ?_ _
      assumption
    clear_value v1
    extract_lets +onlyGivenNames v3
    clear_value v3
    refine keeps_ite ?_ ?_
    · refine State.castRefuse_keeps ?_ _
      assumption
    · refine keeps_ite ?_ ?_
      · assumption
      · refine keeps_ite ?_ ?_
        · refine State.castRefuse_keeps ?_ _
          assumption
        · refine State.castReport_keeps ?_ _
          refine State.setSecond_keeps ?_ _
          refine keeps_mk ?_ rfl rfl rfl
          assumption

theorem execCastAtCancel_keeps {s0 s : State} (h : Keeps s0 s) (msg : List Byte) :
    KeepsO s0 (execCastAtCancel msg s) := by
  unfold execCastAtCancel
  refine keepsO_next ?_
  refine keeps_ite ?_ ?_
  · assumption
  · extract_lets +onlyGivenNames v1
    have h2 : Keeps s0 v1 := by
      dsimp only [v1]
      refine State.tookMsg_keeps ?_ _
      assumption
    clear_value v1
    refine keeps_ite ?_ ?_
    · refine State.castRefuse_keeps ?_ _
      assumption
    · split
      · refine State.disarm_keeps ?_
        assumption
      · refine State.castRefuse_keeps ?_ _
        assumption

theorem State.abortCast_keeps {s0 s : State} (h : Keeps s0 s) :
    Keeps s0 (State.abortCast s) := by
  unfold State.abortCast
  extract_lets +onlyGivenNames v1
  have h2 : Keeps s0 v1 := by
    dsimp only [v1]
    refine State.castLog_keeps ?_ _ _
    refine State.castCnt_keeps ?_ _
    assumption
  clear_value v1
  refine State.disarm_keeps ?_
  refine State.setCast_keeps ?_ _
  assumption

theorem execCastFreeze_keeps {s0 s : State} (h : Keeps s0 s) :
    KeepsO s0 (execCastFreeze s) := by
  unfold execCastFreeze
  refine keepsO_next ?_
  refine keeps_ite ?_ ?_
  · assumption
  · refine keeps_ite ?_ ?_
    · refine State.castReport_keeps ?_ _
      refine State.setSecond_keeps ?_ _
      refine keeps_mk ?_ rfl rfl rfl
      assumption
    · refine keeps_ite ?_ ?_
      · refine State.abortCast_keeps ?_
        assumption
      · refine keeps_mk ?_ rfl rfl rfl
        assumption

theorem execCastSelectorDurable_keeps {s0 s : State} (h : Keeps s0 s) :
    KeepsO s0 (execCastSelectorDurable s) := by
  unfold execCastSelectorDurable
  refine keepsO_next ?_
  refine keeps_ite ?_ ?_
  · assumption
  · extract_lets +onlyGivenNames v1
    have h2 : Keeps s0 v1 := by
      dsimp only [v1]
      refine State.select_keeps ?_ _ _ _
      assumption
    clear_value v1
    extract_lets +onlyGivenNames v3
    clear_value v3
    extract_lets +onlyGivenNames v4
    have h5 : Keeps s0 v4 := by
      dsimp only [v4]
      refine keeps_mk ?_ rfl rfl rfl
      assumption
    clear_value v4
    refine State.warmReset_keeps ?_ _
    refine State.castLog_keeps ?_ _ _
    refine State.castCnt_keeps ?_ _
    assumption

theorem execCastSettle_keeps {s0 s : State} (h : Keeps s0 s) :
    KeepsO s0 (execCastSettle s) := by
  unfold execCastSettle
  refine keepsO_next ?_
  refine keeps_ite ?_ ?_
  · extract_lets +onlyGivenNames v1
    have h2 : Keeps s0 v1 := by
      dsimp only [v1]
      refine State.raiseFloor_keeps ?_
      refine State.select_keeps ?_ _ _ _
      assumption
    clear_value v1
    extract_lets +onlyGivenNames v3
    clear_value v3
    extract_lets +onlyGivenNames v4
    have h5 : Keeps s0 v4 := by
      dsimp only [v4]
      refine keeps_mk ?_ rfl rfl rfl
      assumption
    clear_value v4
    refine State.setCast_keeps ?_ _
    refine State.put_keeps ?_ _ _
    assumption
  · assumption

theorem State.failStart_keeps {s0 s : State} (h : Keeps s0 s) :
    Keeps s0 (State.failStart s) := by
  unfold State.failStart
  refine State.warmReset_keeps ?_ _
  assumption

theorem execCastFailedStart_keeps {s0 s : State} (h : Keeps s0 s) (why : Fin 4) :
    KeepsO s0 (execCastFailedStart why s) := by
  unfold execCastFailedStart
  refine keepsO_next ?_
  refine keeps_ite ?_ ?_
  · assumption
  · split
    · refine keeps_ite ?_ ?_
      · refine State.failStart_keeps ?_
        assumption
      · assumption
    · refine keeps_ite ?_ ?_
      · assumption
      · refine State.failStart_keeps ?_
        assumption
    · refine keeps_ite ?_ ?_
      · assumption
      · refine State.failStart_keeps ?_
        assumption
    · refine keeps_ite ?_ ?_
      · refine State.failStart_keeps ?_
        assumption
      · assumption

theorem State.revertNow_keeps {s0 s : State} (h : Keeps s0 s) :
    Keeps s0 (State.revertNow s) := by
  unfold State.revertNow
  refine State.failStart_keeps ?_
  refine State.select_keeps ?_ _ _ _
  assumption

theorem execCastRecord_keeps {s0 s : State} (h : Keeps s0 s) (record : List Byte) :
    KeepsO s0 (execCastRecord record s) := by
  unfold execCastRecord
  refine keepsO_next ?_
  split
  · rename_i s1 e2
    have h3 : Keeps s0 s1 := by
      refine keeps_snd e2 ?_
      refine State.readRecord_keeps ?_ _ _
      assumption
    assumption
  · rename_i s4 e5
    have h6 : Keeps s0 s4 := by
      refine keeps_snd e5 ?_
      refine State.readRecord_keeps ?_ _ _
      assumption
    refine keeps_ite ?_ ?_
    · refine State.castBlock_keeps ?_ _ _ _
      assumption
    · refine keeps_ite ?_ ?_
      · assumption
      · extract_lets +onlyGivenNames v7
        clear_value v7
        extract_lets +onlyGivenNames v8
        clear_value v8
        extract_lets +onlyGivenNames v9
        have h10 : Keeps s0 v9 := by
          dsimp only [v9]
          refine keeps_mk ?_ rfl rfl rfl
          assumption
        clear_value v9
        refine keeps_ite ?_ ?_
        · assumption
        · refine keeps_ite ?_ ?_
          · refine State.revertNow_keeps ?_
            assumption
          · refine keeps_ite ?_ ?_
            · refine State.setSecond_keeps ?_ _
              assumption
            · assumption

end Sys2Proof.Machine
end

