-- ==== Sys2Proof/Laws/KeepsBoot.lean ====
section
/-!
SUPPORT. What Boot.lean leaves untouched (Keeps), operation by operation.
-/

namespace Sys2Proof.Machine

open Sys2Proof

theorem State.bootRules_keeps {s0 s : State} (h : Keeps s0 s) :
    Keeps s0 (State.bootRules s).1 := by
  unfold State.bootRules
  dsimp only
  split
  · split
    · dsimp only
      refine State.select_keeps ?_ _ _ _
      assumption
    · split
      · dsimp only
        refine State.select_keeps ?_ _ _ _
        assumption
      · split
        · dsimp only
          refine State.select_keeps ?_ _ _ _
          assumption
        · assumption
  · split
    · dsimp only
      refine State.select_keeps ?_ _ _ _
      assumption
    · split
      · dsimp only
        refine State.select_keeps ?_ _ _ _
        assumption
      · split
        · dsimp only
          refine State.select_keeps ?_ _ _ _
          assumption
        · assumption

theorem State.bootRefused_keeps {s0 s : State} (h : Keeps s0 s) (bank : ℕ) (reason : ℕ) :
    Keeps s0 (State.bootRefused s bank reason) := by
  unfold State.bootRefused
  refine State.raisePf_keeps ?_ _
  refine State.logDev_keeps ?_ _ _ _
  refine State.put_keeps ?_ _ _
  assumption

theorem State.showManifest_keeps {s0 s : State} (h : Keeps s0 s) (d : List Byte) :
    Keeps s0 (State.showManifest s d) := by
  unfold State.showManifest
  extract_lets +onlyGivenNames v1
  have h2 : Keeps s0 v1 := by
    dsimp only [v1]
    refine State.putB_keeps ?_ _ _
    assumption
  clear_value v1
  extract_lets +onlyGivenNames v3
  clear_value v3
  refine State.each_keeps ?_ ?_ _
  · assumption
  · intro y4 y5 y6
    refine State.put_keeps ?_ _ _
    assumption

theorem State.restoreSession_keeps {s0 s : State} (h : Keeps s0 s) (st : ℕ) :
    Keeps s0 (State.restoreSession s st) := by
  unfold State.restoreSession
  extract_lets +onlyGivenNames v1
  clear_value v1
  extract_lets +onlyGivenNames v2
  clear_value v2
  refine keeps_ite ?_ ?_
  · extract_lets +onlyGivenNames v3
    clear_value v3
    extract_lets +onlyGivenNames v4
    clear_value v4
    extract_lets +onlyGivenNames v5
    have h6 : Keeps s0 v5 := by
      dsimp only [v5]
      refine keeps_mk ?_ rfl rfl rfl
      assumption
    clear_value v5
    refine State.showManifest_keeps ?_ _
    refine State.put_keeps ?_ _ _
    assumption
  · refine keeps_ite ?_ ?_
    · refine State.showManifest_keeps ?_ _
      assumption
    · assumption

theorem State.castBoot_keeps {s0 s : State} (h : Keeps s0 s) (p : BootPick) :
    Keeps s0 (State.castBoot s p) := by
  unfold State.castBoot
  extract_lets +onlyGivenNames v1
  clear_value v1
  extract_lets +onlyGivenNames v2
  clear_value v2
  extract_lets +onlyGivenNames v3
  clear_value v3
  extract_lets +onlyGivenNames v4
  have h5 : Keeps s0 v4 := by
    dsimp only [v4]
    refine State.putB_keeps ?_ _ _
    refine State.put_keeps ?_ _ _
    assumption
  clear_value v4
  extract_lets +onlyGivenNames v6
  clear_value v6
  extract_lets +onlyGivenNames v7
  have h8 : Keeps s0 v7 := by
    dsimp only [v7]
    refine State.put_keeps ?_ _ _
    assumption
  clear_value v7
  extract_lets +onlyGivenNames v9
  clear_value v9
  extract_lets +onlyGivenNames v10
  have h11 : Keeps s0 v10 := by
    dsimp only [v10]
    refine keeps_mk ?_ rfl rfl rfl
    assumption
  clear_value v10
  extract_lets +onlyGivenNames v12
  have h13 : Keeps s0 v12 := by
    dsimp only [v12]
    refine State.restoreSession_keeps ?_ _
    assumption
  clear_value v12
  refine keeps_ite ?_ ?_
  · refine State.castReport_keeps ?_ _
    refine State.castLog_keeps ?_ _ _
    refine State.castCnt_keeps ?_ _
    assumption
  · refine keeps_ite ?_ ?_
    · refine State.castReport_keeps ?_ _
      refine State.castLog_keeps ?_ _ _
      refine State.castCnt_keeps ?_ _
      assumption
    · assumption

theorem State.stageImage_keeps {s0 s : State} (h : Keeps s0 s) (bank : Nat) (p : Part) :
    Keeps s0 (State.stageImage s bank p) := by
  unfold State.stageImage
  extract_lets +onlyGivenNames v1
  clear_value v1
  extract_lets +onlyGivenNames v2
  clear_value v2
  extract_lets +onlyGivenNames v3
  clear_value v3
  refine keeps_mk ?_ rfl rfl rfl
  assumption

theorem State.openSecret_keeps {s0 s : State} (h : Keeps s0 s) :
    Keeps s0 (State.openSecret s) := by
  unfold State.openSecret
  split
  · refine State.enrol_keeps ?_ _ _
    assumption
  · assumption

theorem State.acceptSetImage_keeps {s0 s : State} (h : Keeps s0 s) (bank : Nat) (own : List Part) :
    Keeps s0 (State.acceptSetImage s bank own) := by
  unfold State.acceptSetImage
  split
  · refine State.armStart_keeps ?_ _
    refine State.stageImage_keeps ?_ _ _
    assumption
  · assumption

theorem State.startSet_keeps {s0 s : State} (h : Keeps s0 s) (bank : ℕ) :
    Keeps s0 (State.startSet s bank) := by
  unfold State.startSet
  extract_lets +onlyGivenNames v1
  clear_value v1
  extract_lets +onlyGivenNames v2
  clear_value v2
  extract_lets +onlyGivenNames v3
  have h4 : Keeps s0 v3 := by
    dsimp only [v3]
    refine State.put_keeps ?_ _ _
    assumption
  clear_value v3
  extract_lets +onlyGivenNames v5
  have h6 : Keeps s0 v5 := by
    dsimp only [v5]
    refine State.each_keeps ?_ ?_ _
    · assumption
    · intro y7 y8 y9
      refine State.put_keeps ?_ _ _
      assumption
  clear_value v5
  extract_lets +onlyGivenNames v10
  clear_value v10
  extract_lets +onlyGivenNames v11
  clear_value v11
  extract_lets +onlyGivenNames v12
  clear_value v12
  extract_lets +onlyGivenNames v13
  have h14 : Keeps s0 v13 := by
    dsimp only [v13]
    refine keeps_mk ?_ rfl rfl rfl
    assumption
  clear_value v13
  refine State.acceptSetImage_keeps ?_ _ _
  refine State.openSecret_keeps ?_
  assumption

theorem State.bootFrom_keeps {s0 s : State} (h : Keeps s0 s) (bank : ℕ) (p : BootPick) :
    Keeps s0 (State.bootFrom s bank p) := by
  unfold State.bootFrom
  extract_lets +onlyGivenNames v1
  have h2 : Keeps s0 v1 := by
    dsimp only [v1]
    refine State.put_keeps ?_ _ _
    refine State.put_keeps ?_ _ _
    assumption
  clear_value v1
  extract_lets +onlyGivenNames v3
  have h4 : Keeps s0 v3 := by
    dsimp only [v3]
    refine State.putB_keeps ?_ _ _
    assumption
  clear_value v3
  extract_lets +onlyGivenNames v5
  clear_value v5
  extract_lets +onlyGivenNames v6
  have h7 : Keeps s0 v6 := by
    dsimp only [v6]
    refine keeps_mk ?_ rfl rfl rfl
    assumption
  clear_value v6
  refine State.startSet_keeps ?_ _
  refine State.castBoot_keeps ?_ _
  assumption

theorem State.noBank_keeps {s0 s : State} (h : Keeps s0 s) :
    Keeps s0 (State.noBank s) := by
  unfold State.noBank
  extract_lets +onlyGivenNames v1
  clear_value v1
  extract_lets +onlyGivenNames v2
  have h3 : Keeps s0 v2 := by
    dsimp only [v2]
    refine keeps_mk ?_ rfl rfl rfl
    assumption
  clear_value v2
  refine State.setSafe_keeps ?_ _ _
  refine State.raisePf_keeps ?_ _
  refine State.logDev_keeps ?_ _ _ _
  refine State.put_keeps ?_ _ _
  assumption

theorem State.bootPicked_keeps {s0 s : State} (h : Keeps s0 s) (p : BootPick) :
    Keeps s0 (State.bootPicked s p) := by
  unfold State.bootPicked
  extract_lets +onlyGivenNames v1
  clear_value v1
  refine keeps_ite ?_ ?_
  · refine State.bootFrom_keeps ?_ _ _
    assumption
  · extract_lets +onlyGivenNames v2
    have h3 : Keeps s0 v2 := by
      dsimp only [v2]
      refine State.bootRefused_keeps ?_ _ _
      assumption
    clear_value v2
    extract_lets +onlyGivenNames v4
    clear_value v4
    refine keeps_ite ?_ ?_
    · refine State.bootFrom_keeps ?_ _ _
      assumption
    · refine State.noBank_keeps ?_
      refine State.bootRefused_keeps ?_ _ _
      assumption

theorem execBootRom_keeps {s0 s : State} (h : Keeps s0 s) :
    KeepsO s0 (execBootRom s) := by
  unfold execBootRom
  refine keepsO_next ?_
  refine keeps_ite ?_ ?_
  · assumption
  · refine State.bootPicked_keeps ?_ _
    refine State.bootRules_keeps ?_
    assumption

theorem State.reverify_keeps {s0 s : State} (h : Keeps s0 s) :
    Keeps s0 (State.reverify s) := by
  unfold State.reverify
  refine keeps_ite ?_ ?_
  · assumption
  · split
    · assumption
    · refine State.setCast_keeps ?_ _
      refine State.castLog_keeps ?_ _ _
      assumption

theorem State.goUp_keeps {s0 s : State} (h : Keeps s0 s) :
    Keeps s0 (State.goUp s) := by
  unfold State.goUp
  extract_lets +onlyGivenNames v1
  have h2 : Keeps s0 v1 := by
    dsimp only [v1]
    refine State.reverify_keeps ?_
    assumption
  clear_value v1
  extract_lets +onlyGivenNames v3
  clear_value v3
  extract_lets +onlyGivenNames v4
  have h5 : Keeps s0 v4 := by
    dsimp only [v4]
    refine keeps_mk ?_ rfl rfl rfl
    assumption
  clear_value v4
  extract_lets +onlyGivenNames v6
  have h7 : Keeps s0 v6 := by
    dsimp only [v6]
    refine State.logDev_keeps ?_ _ _ _
    assumption
  clear_value v6
  extract_lets +onlyGivenNames v8
  have h9 : Keeps s0 v8 := by
    dsimp only [v8]
    refine keeps_ite ?_ ?_
    · refine State.pwrLog_keeps ?_ _ _
      assumption
    · assumption
  clear_value v8
  extract_lets +onlyGivenNames v10
  clear_value v10
  extract_lets +onlyGivenNames v11
  have h12 : Keeps s0 v11 := by
    dsimp only [v11]
    refine keeps_mk ?_ rfl rfl rfl
    assumption
  clear_value v11
  refine keeps_ite ?_ ?_
  · extract_lets +onlyGivenNames v13
    have h14 : Keeps s0 v13 := by
      dsimp only [v13]
      refine State.raisePf_keeps ?_ _
      assumption
    clear_value v13
    refine keeps_mk ?_ rfl rfl rfl
    assumption
  · assumption

theorem execBringUpComplete_keeps {s0 s : State} (h : Keeps s0 s) :
    KeepsO s0 (execBringUpComplete s) := by
  unfold execBringUpComplete
  refine keepsO_next ?_
  refine keeps_ite ?_ ?_
  · assumption
  · refine State.goUp_keeps ?_
    assumption

end Sys2Proof.Machine
end

