-- ==== Sys2Proof/Laws/KeepsEth.lean ====
section
/-!
SUPPORT. What Eth.lean leaves untouched (Keeps), operation by operation.
-/

namespace Sys2Proof.Machine

open Sys2Proof

theorem State.ethCnt_keeps {s0 s : State} (h : Keeps s0 s) (p : ℕ) (n : ℕ) :
    Keeps s0 (State.ethCnt s p n) := by
  unfold State.ethCnt
  refine State.sat_keeps ?_ _
  assumption

theorem State.modeBad_keeps {s0 s : State} (h : Keeps s0 s) (p : ℕ) :
    Keeps s0 (State.modeBad s p) := by
  unfold State.modeBad
  refine State.logDev_keeps ?_ _ _ _
  assumption

theorem State.syncOver_keeps {s0 s : State} (h : Keeps s0 s) (p : ℕ) :
    Keeps s0 (State.syncOver s p) := by
  unfold State.syncOver
  refine State.putB_keeps ?_ _ _
  assumption

theorem State.freeTx_keeps {s0 s : State} (h : Keeps s0 s) (t : EthTx) :
    Keeps s0 (State.freeTx s t) := by
  unfold State.freeTx
  split
  · refine State.release_keeps ?_ _
    assumption
  · assumption

theorem State.loseTx_keeps {s0 s : State} (h : Keeps s0 s) (p : Nat) :
    Keeps s0 (State.loseTx s p) := by
  unfold State.loseTx
  extract_lets +onlyGivenNames v1
  clear_value v1
  extract_lets +onlyGivenNames v2
  have h3 : Keeps s0 v2 := by
    dsimp only [v2]
    refine State.modEth_keeps ?_ _ _
    assumption
  clear_value v2
  refine State.each_keeps ?_ ?_ _
  · assumption
  · intro y4 y5 y6
    refine State.freeTx_keeps ?_ _
    assumption

theorem State.syncLink_keeps {s0 s : State} (h : Keeps s0 s) (p : Nat) :
    Keeps s0 (State.syncLink s p) := by
  unfold State.syncLink
  extract_lets +onlyGivenNames v1
  have h2 : Keeps s0 v1 := by
    dsimp only [v1]
    refine State.settlePort_keeps ?_ _
    assumption
  clear_value v1
  extract_lets +onlyGivenNames v3
  clear_value v3
  extract_lets +onlyGivenNames v4
  have h5 : Keeps s0 v4 := by
    dsimp only [v4]
    refine State.when_keeps ?_ ?_ _
    · assumption
    · intro y6 y7
      refine State.modeBad_keeps ?_ _
      assumption
  clear_value v4
  extract_lets +onlyGivenNames v8
  have h9 : Keeps s0 v8 := by
    dsimp only [v8]
    refine State.modEth_keeps ?_ _ _
    refine State.putB_keeps ?_ _ _
    assumption
  clear_value v8
  extract_lets +onlyGivenNames v10
  clear_value v10
  extract_lets +onlyGivenNames v11
  clear_value v11
  refine keeps_ite ?_ ?_
  · assumption
  · extract_lets +onlyGivenNames v12
    clear_value v12
    extract_lets +onlyGivenNames v13
    have h14 : Keeps s0 v13 := by
      dsimp only [v13]
      refine State.putB_keeps ?_ _ _
      refine State.put_keeps ?_ _ _
      refine State.putB_keeps ?_ _ _
      assumption
    clear_value v13
    extract_lets +onlyGivenNames v15
    have h16 : Keeps s0 v15 := by
      dsimp only [v15]
      refine State.when_keeps ?_ ?_ _
      · refine State.syncOver_keeps ?_ _
        refine State.ethCnt_keeps ?_ _ _
        assumption
      · intro y17 y18
        refine State.loseTx_keeps ?_ _
        assumption
    clear_value v15
    extract_lets +onlyGivenNames v19
    have h20 : Keeps s0 v19 := by
      dsimp only [v19]
      refine State.limBoth_keeps ?_ _ _ _
      assumption
    clear_value v19
    split
    · refine State.raiseNiche_keeps ?_ _ _
      assumption
    · assumption

theorem execEthLinkChange_keeps {s0 s : State} (h : Keeps s0 s) (port : Fin 6) (report : Option (Fin 4 × Bool)) :
    KeepsO s0 (execEthLinkChange port report s) := by
  unfold execEthLinkChange
  extract_lets +onlyGivenNames v1
  clear_value v1
  refine keepsO_next ?_
  refine State.syncLink_keeps ?_ _
  refine State.modEth_keeps ?_ _ _
  assumption

theorem State.pauseRx_keeps {s0 s : State} (h : Keeps s0 s) (p : ℕ) (f : List Byte) :
    Keeps s0 (State.pauseRx s p f) := by
  unfold State.pauseRx
  extract_lets +onlyGivenNames v1
  clear_value v1
  refine keeps_ite ?_ ?_
  · refine State.putB_keeps ?_ _ _
    refine State.modEth_keeps ?_ _ _
    assumption
  · assumption

theorem State.addEthBytes_keeps {s0 s : State} (h : Keeps s0 s) (p : ℕ) (sent : Bool) (n : ℕ) :
    Keeps s0 (State.addEthBytes s p sent n) := by
  unfold State.addEthBytes
  extract_lets +onlyGivenNames v1
  clear_value v1
  refine State.modEth_keeps ?_ _ _
  assumption

theorem State.endRx_keeps {s0 s : State} {f : State → State} (h : Keeps s0 s) (hf : ∀ t, Keeps s0 t → Keeps s0 (f t))
    (p n : ℕ) (data : List Byte) : Keeps s0 (State.endRx s p n data f) := by
  unfold State.endRx
  extract_lets +onlyGivenNames v1 v2
  have h2 : Keeps s0 v2 := State.admitSdu_keeps h _
  refine keeps_ite (hf _ ?_) h2
  exact State.release_keeps h2 _

theorem State.dropRx_keeps {s0 s : State} (h : Keeps s0 s) (p : Nat) (n : Nat) (k : Nat) (data : List Byte) :
    Keeps s0 (State.dropRx s p n k data) := by
  unfold State.dropRx
  refine State.endRx_keeps ?_ ?_ _ _ _
  · assumption
  · intro y1 y2
    refine State.ethCnt_keeps ?_ _ _
    assumption

theorem State.passRx_keeps {s0 s : State} {f : State → State} (h : Keeps s0 s) (hf : ∀ (y0 : State), Keeps s0 y0 → Keeps s0 (f y0)) (p : ℕ) (n : ℕ) (data : List Byte) (trunc : Bool) (stamp : ℕ) :
    Keeps s0 (State.passRx s p n data trunc stamp f) := by
  unfold State.passRx
  extract_lets +onlyGivenNames v1
  clear_value v1
  extract_lets +onlyGivenNames v2
  have h3 : Keeps s0 v2 := by
    dsimp only [v2]
    refine State.toClassifier_keeps ?_ _
    assumption
  clear_value v2
  refine keeps_ite ?_ ?_
  · with_reducible apply_assumption
    assumption
  · assumption

theorem State.frameRx_keeps {s0 s : State} (h : Keeps s0 s) (p : Nat) (f : List Byte) (ago : Nat) :
    Keeps s0 (State.frameRx s p f ago) := by
  unfold State.frameRx
  extract_lets +onlyGivenNames v1
  clear_value v1
  extract_lets +onlyGivenNames v2
  clear_value v2
  extract_lets +onlyGivenNames v3
  clear_value v3
  split
  · refine State.ethCnt_keeps ?_ _ _
    assumption
  · extract_lets +onlyGivenNames v4
    clear_value v4
    extract_lets +onlyGivenNames v5
    have h6 : Keeps s0 v5 := by
      dsimp only [v5]
      refine State.tookFree_keeps ?_
      assumption
    clear_value v5
    refine keeps_ite ?_ ?_
    · refine State.dropRx_keeps ?_ _ _ _ _
      assumption
    · refine keeps_ite ?_ ?_
      · refine keeps_ite ?_ ?_
        · refine State.passRx_keeps ?_ ?_ _ _ _ _ _
          · assumption
          · intro y7 y8
            refine State.ethCnt_keeps ?_ _ _
            assumption
        · refine State.dropRx_keeps ?_ _ _ _ _
          assumption
      · refine keeps_ite ?_ ?_
        · refine State.dropRx_keeps ?_ _ _ _ _
          assumption
        · refine keeps_ite ?_ ?_
          · refine State.endRx_keeps ?_ ?_ _ _ _
            · assumption
            · intro y9 y10
              refine State.pauseRx_keeps ?_ _ _
              refine State.ethCnt_keeps ?_ _ _
              assumption
          · refine keeps_ite ?_ ?_
            · refine State.addEthBytes_keeps ?_ _ _ _
              refine State.ethCnt_keeps ?_ _ _
              assumption
            · refine State.passRx_keeps ?_ ?_ _ _ _ _ _
              · assumption
              · intro y11 y12
                refine State.addEthBytes_keeps ?_ _ _ _
                refine State.ethCnt_keeps ?_ _ _
                assumption

theorem State.wakeRx_keeps {s0 s : State} (h : Keeps s0 s) (p : Nat) (f : List Byte) :
    Keeps s0 (State.wakeRx s p f) := by
  unfold State.wakeRx
  refine keeps_ite ?_ ?_
  · refine State.each_keeps ?_ ?_ _
    · assumption
    · intro y1 y2 y3
      refine State.wakeFrom_keeps ?_ _ _
      refine State.put_keeps ?_ _ _
      refine State.putB_keeps ?_ _ _
      refine State.ethCnt_keeps ?_ _ _
      assumption
  · assumption

theorem execEthFrameRx_keeps {s0 s : State} (h : Keeps s0 s) (port : Fin 6) (frame : List Byte) (ago : ℕ) :
    KeepsO s0 (execEthFrameRx port frame ago s) := by
  unfold execEthFrameRx
  extract_lets +onlyGivenNames v1
  clear_value v1
  refine keepsO_next ?_
  refine keeps_ite ?_ ?_
  · assumption
  · refine keeps_ite ?_ ?_
    · refine State.wakeRx_keeps ?_ _ _
      assumption
    · refine State.frameRx_keeps ?_ _ _ _
      assumption

theorem execPauseExpiry_keeps {s0 s : State} (h : Keeps s0 s) (port : Fin 6) :
    KeepsO s0 (execPauseExpiry port s) := by
  unfold execPauseExpiry
  extract_lets +onlyGivenNames v1
  clear_value v1
  refine keepsO_next ?_
  split
  · refine keeps_ite ?_ ?_
    · refine State.putB_keeps ?_ _ _
      refine State.modEth_keeps ?_ _ _
      assumption
    · assumption
  · assumption

theorem execEthWakeEnable_keeps {s0 s : State} (h : Keeps s0 s) (port : Fin 6) (data : Word) :
    KeepsO s0 (execEthWakeEnable port data s) := by
  unfold execEthWakeEnable
  extract_lets +onlyGivenNames v1
  clear_value v1
  extract_lets +onlyGivenNames v2
  clear_value v2
  extract_lets +onlyGivenNames v3
  have h4 : Keeps s0 v3 := by
    dsimp only [v3]
    refine keeps_ite ?_ ?_
    · assumption
    · refine State.put_keeps ?_ _ _
      assumption
  clear_value v3
  refine keepsO_next ?_
  refine keeps_ite ?_ ?_
  · refine State.modeBad_keeps ?_ _
    assumption
  · refine keeps_ite ?_ ?_
    · refine State.logDev_keeps ?_ _ _ _
      refine State.putB_keeps ?_ _ _
      assumption
    · refine State.putB_keeps ?_ _ _
      assumption

theorem State.takeHead_keeps {s0 s : State} (h : Keeps s0 s) (p : ℕ) (c : ℕ) (d : Sdu) :
    Keeps s0 (State.takeHead s p c d) := by
  unfold State.takeHead
  extract_lets +onlyGivenNames v1
  have h2 : Keeps s0 v1 := by
    dsimp only [v1]
    refine State.dequeue_keeps ?_ _
    refine State.settlePort_keeps ?_ _
    assumption
  clear_value v1
  refine keeps_ite ?_ ?_
  · assumption
  · refine State.modEth_keeps ?_ _ _
    assumption

theorem State.startTx_keeps {s0 s : State} (h : Keeps s0 s) (fuel p defer : Nat) :
    Keeps s0 (State.startTx fuel p defer s) := by
  induction fuel generalizing s with
  | zero => exact h
  | succ fuel ih =>
    unfold State.startTx
    split
    · exact h
    · split
      · exact h
      · refine keeps_ite ?_ ?_
        · exact ih (State.ethCnt_keeps (State.release_keeps (State.takeHead_keeps h _ _ _) _) _ _)
        · refine State.modEth_keeps (State.when_keeps ?_ (fun t ht => State.ethCnt_keeps ht _ _) _) _ _
          exact State.addEthBytes_keeps (State.ethCnt_keeps (State.takeHead_keeps h _ _ _) _ _) _ _ _

theorem State.downDrop_keeps {s0 s : State} (h : Keeps s0 s) (p : ℕ) :
    Keeps s0 (State.downDrop s p) := by
  unfold State.downDrop
  refine State.each_keeps ?_ ?_ _
  · assumption
  · intro y1 y2 y3
    refine State.each_keeps ?_ ?_ _
    · assumption
    · intro y4 y5 y6
      refine State.ethCnt_keeps ?_ _ _
      refine State.release_keeps ?_ _
      refine State.takeHead_keeps ?_ _ _ _
      assumption

theorem State.startPtp_keeps {s0 s : State} (h : Keeps s0 s) (p : Nat) :
    Keeps s0 (State.startPtp s p) := by
  unfold State.startPtp
  split
  · assumption
  · extract_lets +onlyGivenNames v1
    have h2 : Keeps s0 v1 := by
      dsimp only [v1]
      refine State.addEthBytes_keeps ?_ _ _ _
      refine State.ethCnt_keeps ?_ _ _
      refine State.settlePort_keeps ?_ _
      assumption
    clear_value v1
    refine State.modEth_keeps ?_ _ _
    assumption

theorem execEthTxStart_keeps {s0 s : State} (h : Keeps s0 s) (port : Fin 6) (clear : Option Nat) (defer : Nat) :
    KeepsO s0 (execEthTxStart port clear defer s) := by
  unfold execEthTxStart
  extract_lets +onlyGivenNames v1
  clear_value v1
  refine keepsO_next ?_
  refine keeps_ite ?_ ?_
  · assumption
  · refine keeps_ite ?_ ?_
    · refine keeps_ite ?_ ?_
      · assumption
      · refine keeps_ite ?_ ?_
        · refine State.startPtp_keeps ?_ _
          assumption
        · refine keeps_ite ?_ ?_
          · assumption
          · refine State.startTx_keeps ?_ _ _ _
            assumption
    · refine keeps_ite ?_ ?_
      · refine State.downDrop_keeps ?_ _
        assumption
      · assumption

theorem State.sentTx_keeps {s0 s : State} (h : Keeps s0 s) (p : Nat) (t : EthTx) (st : Nat) :
    Keeps s0 (State.sentTx s p t st) := by
  unfold State.sentTx
  split
  · extract_lets +onlyGivenNames v1
    clear_value v1
    extract_lets +onlyGivenNames v2
    have h3 : Keeps s0 v2 := by
      dsimp only [v2]
      refine State.send_keeps ?_ _
      assumption
    clear_value v2
    split
    · refine State.modEth_keeps ?_ _ _
      assumption
    · assumption
  · extract_lets +onlyGivenNames v4
    have h5 : Keeps s0 v4 := by
      dsimp only [v4]
      refine State.send_keeps ?_ _
      assumption
    clear_value v4
    split
    · refine keeps_ite ?_ ?_
      · refine State.tsqPush_keeps ?_ _ _ _
        assumption
      · assumption
    · assumption

theorem execEthTxComplete_keeps {s0 s : State} (h : Keeps s0 s) (port : Fin 6) (ago : Nat) :
    KeepsO s0 (execEthTxComplete port ago s) := by
  unfold execEthTxComplete
  extract_lets +onlyGivenNames v1
  clear_value v1
  refine keepsO_next ?_
  split
  · assumption
  · refine keeps_ite ?_ ?_
    · assumption
    · extract_lets +onlyGivenNames v2
      have h3 : Keeps s0 v2 := by
        dsimp only [v2]
        refine State.modEth_keeps ?_ _ _
        refine State.settlePort_keeps ?_ _
        assumption
      clear_value v2
      extract_lets +onlyGivenNames v4
      have h5 : Keeps s0 v4 := by
        dsimp only [v4]
        refine keeps_ite ?_ ?_
        · refine State.ethCnt_keeps ?_ _ _
          assumption
        · refine keeps_ite ?_ ?_
          · refine State.ethCnt_keeps ?_ _ _
            assumption
          · assumption
      clear_value v4
      extract_lets +onlyGivenNames v6
      clear_value v6
      refine State.freeTx_keeps ?_ _
      refine State.sentTx_keeps ?_ _ _ _
      refine State.tookFree_keeps ?_
      assumption

theorem State.giveUp_keeps {s0 s : State} (h : Keeps s0 s) (p : Nat) (t : EthTx) (k : Nat) :
    Keeps s0 (State.giveUp s p t k) := by
  unfold State.giveUp
  refine State.limDev_keeps ?_ _ _ _
  refine State.ethCnt_keeps ?_ _ _
  refine State.freeTx_keeps ?_ _
  assumption

theorem execEthCollision_keeps {s0 s : State} (h : Keeps s0 s) (port : Fin 6) (after : ℕ) :
    KeepsO s0 (execEthCollision port after s) := by
  unfold execEthCollision
  extract_lets +onlyGivenNames v1
  clear_value v1
  refine keepsO_next ?_
  split
  · assumption
  · refine keeps_ite ?_ ?_
    · assumption
    · extract_lets +onlyGivenNames v2
      have h3 : Keeps s0 v2 := by
        dsimp only [v2]
        refine State.send_keeps ?_ _
        refine State.settlePort_keeps ?_ _
        assumption
      clear_value v2
      extract_lets +onlyGivenNames v4
      have h5 : Keeps s0 v4 := by
        dsimp only [v4]
        refine State.modEth_keeps ?_ _ _
        assumption
      clear_value v4
      extract_lets +onlyGivenNames v6
      clear_value v6
      refine keeps_ite ?_ ?_
      · refine State.giveUp_keeps ?_ _ _ _
        assumption
      · refine keeps_ite ?_ ?_
        · refine State.giveUp_keeps ?_ _ _ _
          assumption
        · extract_lets +onlyGivenNames v7
          clear_value v7
          refine State.modEth_keeps ?_ _ _
          refine State.tookFree_keeps ?_
          assumption

theorem execEthBackoffExpiry_keeps {s0 s : State} (h : Keeps s0 s) (port : Fin 6) (clear : Option Nat) :
    KeepsO s0 (execEthBackoffExpiry port clear s) := by
  unfold execEthBackoffExpiry
  extract_lets +onlyGivenNames v1
  clear_value v1
  refine keepsO_next ?_
  split
  · assumption
  · refine keeps_ite ?_ ?_
    · extract_lets +onlyGivenNames v2
      have h3 : Keeps s0 v2 := by
        dsimp only [v2]
        refine State.settlePort_keeps ?_ _
        assumption
      clear_value v2
      refine State.modEth_keeps ?_ _ _
      assumption
    · assumption

theorem State.abortTx_keeps {s0 s : State} (h : Keeps s0 s) (p : ℕ) :
    Keeps s0 (State.abortTx s p) := by
  unfold State.abortTx
  extract_lets +onlyGivenNames v1
  clear_value v1
  extract_lets +onlyGivenNames v2
  have h3 : Keeps s0 v2 := by
    dsimp only [v2]
    refine State.settlePort_keeps ?_ _
    assumption
  clear_value v2
  extract_lets +onlyGivenNames v4
  have h5 : Keeps s0 v4 := by
    dsimp only [v4]
    refine keeps_ite ?_ ?_
    · refine State.send_keeps ?_ _
      assumption
    · assumption
  clear_value v4
  extract_lets +onlyGivenNames v6
  have h7 : Keeps s0 v6 := by
    dsimp only [v6]
    refine keeps_ite ?_ ?_
    · refine State.ethCnt_keeps ?_ _ _
      assumption
    · assumption
  clear_value v6
  refine State.loseTx_keeps ?_ _
  assumption

theorem execNicheResetTxAbort_keeps {s0 s : State} (h : Keeps s0 s) (n : Fin 16) :
    KeepsO s0 (execNicheResetTxAbort n s) := by
  unfold execNicheResetTxAbort
  extract_lets +onlyGivenNames v1
  clear_value v1
  refine keepsO_next ?_
  refine keeps_ite ?_ ?_
  · refine State.each_keeps ?_ ?_ _
    · assumption
    · intro y2 y3 y4
      extract_lets +onlyGivenNames v5
      clear_value v5
      refine keeps_ite ?_ ?_
      · refine State.logDev_keeps ?_ _ _ _
        refine State.ncnt_keeps ?_ _ _
        refine State.abortTx_keeps ?_ _
        assumption
      · assumption
  · assumption

theorem State.ethPend_keeps {s0 s : State} (h : Keeps s0 s) (p : ℕ) (a : ℕ) (w : Word) :
    Keeps s0 (State.ethPend s p a w) := by
  unfold State.ethPend
  refine State.modEth_keeps ?_ _ _
  assumption

theorem execEthCbsWrite_keeps {s0 s : State} (h : Keeps s0 s) (port : Fin 6) (reg : Fin 9) (data : Word) :
    KeepsO s0 (execEthCbsWrite port reg data s) := by
  unfold execEthCbsWrite
  extract_lets +onlyGivenNames v1
  clear_value v1
  extract_lets +onlyGivenNames v2
  clear_value v2
  extract_lets +onlyGivenNames v3
  clear_value v3
  extract_lets +onlyGivenNames v4
  have h5 : Keeps s0 v4 := by
    dsimp only [v4]
    refine State.ethPend_keeps ?_ _ _ _
    assumption
  clear_value v4
  refine keepsO_next ?_
  refine keeps_ite ?_ ?_
  · refine State.modeBad_keeps ?_ _
    assumption
  · refine keeps_ite ?_ ?_
    · refine State.logDev_keeps ?_ _ _ _
      assumption
    · assumption

theorem State.ethApply_keeps {s0 s : State} (h : Keeps s0 s) (p : Nat) (f : Nat → Nat → Bool) :
    Keeps s0 (State.ethApply s p f) := by
  unfold State.ethApply
  extract_lets +onlyGivenNames v1
  clear_value v1
  refine keeps_ite ?_ ?_
  · assumption
  · extract_lets +onlyGivenNames v2
    have h3 : Keeps s0 v2 := by
      dsimp only [v2]
      refine State.settlePort_keeps ?_ _
      assumption
    clear_value v2
    extract_lets +onlyGivenNames v4
    clear_value v4
    extract_lets +onlyGivenNames v5
    have h6 : Keeps s0 v5 := by
      dsimp only [v5]
      refine State.modEth_keeps ?_ _ _
      assumption
    clear_value v5
    extract_lets +onlyGivenNames v7
    have h8 : Keeps s0 v7 := by
      dsimp only [v7]
      refine State.each_keeps ?_ ?_ _
      · assumption
      · intro y9 y10 y11
        refine State.setWord_keeps ?_ _ _
        assumption
    clear_value v7
    extract_lets +onlyGivenNames v12
    clear_value v12
    extract_lets +onlyGivenNames v13
    have h14 : Keeps s0 v13 := by
      dsimp only [v13]
      refine State.modEth_keeps ?_ _ _
      assumption
    clear_value v13
    refine State.syncOver_keeps ?_ _
    assumption

theorem State.ethEdge_keeps {s0 s : State} (h : Keeps s0 s) :
    Keeps s0 (State.ethEdge s) := by
  unfold State.ethEdge
  refine State.each_keeps ?_ ?_ _
  · assumption
  · intro y1 y2 y3
    refine State.ethApply_keeps ?_ _ _
    assumption

theorem State.ethSched_keeps {s0 s : State} (h : Keeps s0 s) :
    Keeps s0 (State.ethSched s) := by
  unfold State.ethSched
  refine State.each_keeps ?_ ?_ _
  · assumption
  · intro y1 y2 y3
    refine State.ethApply_keeps ?_ _ _
    assumption

theorem execEthBytesLoRead_keeps {s0 s : State} (h : Keeps s0 s) (who : Agent) (port : Fin 6) (sent : Bool) :
    KeepsO s0 (execEthBytesLoRead who port sent s) := by
  unfold execEthBytesLoRead
  extract_lets +onlyGivenNames v1
  clear_value v1
  extract_lets +onlyGivenNames v2
  clear_value v2
  extract_lets +onlyGivenNames v3
  clear_value v3
  refine keepsO_next ?_
  refine State.ifOwned_keeps ?_ ?_ _ _ _
  · assumption
  · intro y4 y5
    refine State.answer_keeps ?_ _ _
    refine State.latchHi_keeps ?_ _ _ _
    assumption

theorem execPtpMsgSend_keeps {s0 s : State} (h : Keeps s0 s) (port : Fin 6) (body : List Byte) :
    KeepsO s0 (execPtpMsgSend port body s) := by
  unfold execPtpMsgSend
  extract_lets +onlyGivenNames v1
  clear_value v1
  refine keepsO_next ?_
  refine keeps_ite ?_ ?_
  · extract_lets +onlyGivenNames v2
    clear_value v2
    extract_lets +onlyGivenNames v3
    have h4 : Keeps s0 v3 := by
      dsimp only [v3]
      refine State.modEth_keeps ?_ _ _
      refine State.tookFree_keeps ?_
      refine State.tookFree_keeps ?_
      assumption
    clear_value v3
    refine keeps_ite ?_ ?_
    · refine State.startPtp_keeps ?_ _
      assumption
    · assumption
  · assumption

end Sys2Proof.Machine
end

