-- ==== Sys2Proof/Laws/KeepsCal.lean ====
section
/-!
SUPPORT. What Cal.lean leaves untouched (Keeps), operation by operation.
-/

namespace Sys2Proof.Machine

open Sys2Proof

theorem State.snapshot_keeps {s0 s : State} (h : Keeps s0 s) :
    Keeps s0 (State.snapshot s) := by
  unfold State.snapshot
  extract_lets +onlyGivenNames v1
  clear_value v1
  extract_lets +onlyGivenNames v2
  have h3 : Keeps s0 v2 := by
    dsimp only [v2]
    refine State.each_keeps ?_ ?_ _
    · assumption
    · intro y4 y5 y6
      refine State.put_keeps ?_ _ _
      assumption
  clear_value v2
  refine State.each_keeps ?_ ?_ _
  · assumption
  · intro y7 y8 y9
    refine State.put_keeps ?_ _ _
    assumption

theorem State.caliperReport_keeps {s0 s : State} (h : Keeps s0 s) (b : Breach) (ecc : Bool) :
    Keeps s0 (State.caliperReport s b ecc) := by
  unfold State.caliperReport
  extract_lets +onlyGivenNames v1
  have h2 : Keeps s0 v1 := by
    dsimp only [v1]
    refine State.queueUp_keeps ?_ _ _
    assumption
  clear_value v1
  refine keeps_mk ?_ rfl rfl rfl
  assumption

theorem State.recordBreach_keeps {s0 s : State} (h : Keeps s0 s) (b : Breach) :
    Keeps s0 (State.recordBreach s b) := by
  unfold State.recordBreach
  extract_lets +onlyGivenNames v1
  clear_value v1
  extract_lets +onlyGivenNames v2
  clear_value v2
  extract_lets +onlyGivenNames v3
  have h4 : Keeps s0 v3 := by
    dsimp only [v3]
    refine State.raisePf_keeps ?_ _
    refine State.logDev_keeps ?_ _ _ _
    assumption
  clear_value v3
  extract_lets +onlyGivenNames v5
  have h6 : Keeps s0 v5 := by
    dsimp only [v5]
    refine State.put_keeps ?_ _ _
    refine State.put_keeps ?_ _ _
    refine State.put_keeps ?_ _ _
    assumption
  clear_value v5
  extract_lets +onlyGivenNames v7
  have h8 : Keeps s0 v7 := by
    dsimp only [v7]
    refine State.put_keeps ?_ _ _
    assumption
  clear_value v7
  extract_lets +onlyGivenNames v9
  have h10 : Keeps s0 v9 := by
    dsimp only [v9]
    refine keeps_ite ?_ ?_
    · refine State.putB_keeps ?_ _ _
      assumption
    · assumption
  clear_value v9
  refine keeps_ite ?_ ?_
  · refine State.caliperReport_keeps ?_ _ _
    assumption
  · assumption

theorem State.audit_keeps {s0 s : State} (h : Keeps s0 s) :
    Keeps s0 (State.audit s) := by
  unfold State.audit
  extract_lets +onlyGivenNames v1
  clear_value v1
  extract_lets +onlyGivenNames v2
  clear_value v2
  extract_lets +onlyGivenNames v3
  clear_value v3
  extract_lets +onlyGivenNames v4
  have h5 : Keeps s0 v4 := by
    dsimp only [v4]
    refine State.putB_keeps ?_ _ _
    refine State.putB_keeps ?_ _ _
    refine State.putB_keeps ?_ _ _
    assumption
  clear_value v4
  extract_lets +onlyGivenNames v6
  clear_value v6
  extract_lets +onlyGivenNames v7
  have h8 : Keeps s0 v7 := by
    dsimp only [v7]
    refine keeps_mk ?_ rfl rfl rfl
    assumption
  clear_value v7
  refine keeps_ite ?_ ?_
  · refine keeps_ite ?_ ?_
    · extract_lets +onlyGivenNames v9
      have h10 : Keeps s0 v9 := by
        dsimp only [v9]
        refine State.putB_keeps ?_ _ _
        assumption
      clear_value v9
      refine keeps_mk ?_ rfl rfl rfl
      assumption
    · assumption
  · extract_lets +onlyGivenNames v11
    have h12 : Keeps s0 v11 := by
      dsimp only [v11]
      refine State.putB_keeps ?_ _ _
      refine State.sat_keeps ?_ _
      assumption
    clear_value v11
    extract_lets +onlyGivenNames v13
    clear_value v13
    extract_lets +onlyGivenNames v14
    have h15 : Keeps s0 v14 := by
      dsimp only [v14]
      refine keeps_mk ?_ rfl rfl rfl
      assumption
    clear_value v14
    refine State.each_keeps ?_ ?_ _
    · assumption
    · intro y16 y17 y18
      refine State.recordBreach_keeps ?_ _
      assumption

theorem execPhaseCaliper_keeps {s0 s : State} (h : Keeps s0 s) (cycles : ℕ) :
    KeepsO s0 (execPhaseCaliper cycles s) := by
  unfold execPhaseCaliper
  refine keepsO_next ?_
  refine keeps_ite ?_ ?_
  · refine State.audit_keeps ?_
    refine State.snapshot_keeps ?_
    refine State.phaseUsed_keeps ?_ _ _
    assumption
  · assumption

theorem execPhaseSched_keeps {s0 s : State} (h : Keeps s0 s) (cycles : ℕ) :
    KeepsO s0 (execPhaseSched cycles s) := by
  unfold execPhaseSched
  refine keepsO_next ?_
  refine State.ethSched_keeps ?_
  refine State.refillPolicers_keeps ?_
  refine State.phaseUsed_keeps ?_ _ _
  assumption

theorem execPhaseReport_keeps {s0 s : State} (h : Keeps s0 s) (cycles : ℕ) :
    KeepsO s0 (execPhaseReport cycles s) := by
  unfold execPhaseReport
  refine keepsO_next ?_
  refine State.phaseUsed_keeps ?_ _ _
  assumption

end Sys2Proof.Machine
end

