-- ==== Sys2Proof/Laws/KeepsCel.lean ====
section
/-!
SUPPORT. What Cel.lean leaves untouched (Keeps), operation by operation.
-/

namespace Sys2Proof.Machine

open Sys2Proof

theorem State.endWait_keeps {s0 s : State} (h : Keeps s0 s) (id : ℕ) :
    Keeps s0 (State.endWait s id) := by
  unfold State.endWait
  refine keeps_mk ?_ rfl rfl rfl
  assumption

theorem State.noCell_keeps {s0 s : State} (h : Keeps s0 s) (id : ℕ) :
    Keeps s0 (State.noCell s id) := by
  unfold State.noCell
  split
  · assumption
  · refine State.limDev_keeps ?_ _ _ _
    refine State.dropAs_keeps ?_ _ _
    assumption

theorem State.grantCells_keeps {s0 s : State} (h : Keeps s0 s) (id : Nat) (w : CellWait) :
    Keeps s0 (State.grantCells s id w) := by
  unfold State.grantCells
  extract_lets +onlyGivenNames v1
  have h2 : Keeps s0 v1 := by
    dsimp only [v1]
    refine State.writeCells_keeps ?_ _ _
    refine State.endWait_keeps ?_ _
    assumption
  clear_value v1
  extract_lets +onlyGivenNames v3
  clear_value v3
  extract_lets +onlyGivenNames v4
  have h5 : Keeps s0 v4 := by
    dsimp only [v4]
    refine keeps_mk ?_ rfl rfl rfl
    assumption
  clear_value v4
  split
  · assumption
  · refine keeps_ite ?_ ?_
    · assumption
    · split
      · refine State.goOn_keeps ?_ _ _
        assumption
      · refine State.enqueue_keeps ?_ _ _
        assumption
      · assumption

theorem execCellWaitGrant_keeps {s0 s : State} (h : Keeps s0 s) (id : ℕ) :
    KeepsO s0 (execCellWaitGrant id s) := by
  unfold execCellWaitGrant
  split
  · refine keepsO_next ?_
    assumption
  · refine keepsO_next ?_
    refine keeps_ite ?_ ?_
    · refine State.txDone_keeps ?_ _ _
      refine State.noCell_keeps ?_ _
      assumption
    · refine State.txDone_keeps ?_ _ _
      refine State.grantCells_keeps ?_ _ _
      assumption

theorem execCellWaitTimeout_keeps {s0 s : State} (h : Keeps s0 s) (id : ℕ) :
    KeepsO s0 (execCellWaitTimeout id s) := by
  unfold execCellWaitTimeout
  split
  · refine keepsO_next ?_
    assumption
  · refine keepsO_next ?_
    refine keeps_ite ?_ ?_
    · refine State.txDone_keeps ?_ _ _
      refine State.noCell_keeps ?_ _
      assumption
    · assumption

theorem execScrubComplete_keeps {s0 s : State} (h : Keeps s0 s) (cell : Fin 393216) :
    KeepsO s0 (execScrubComplete cell s) := by
  unfold execScrubComplete
  refine keepsO_next ?_
  refine keeps_mk ?_ rfl rfl rfl
  assumption

theorem execDescEccError_keeps {s0 s : State} (h : Keeps s0 s) (cell : Fin 393216) :
    KeepsO s0 (execDescEccError cell s) := by
  unfold execDescEccError
  extract_lets +onlyGivenNames v1
  clear_value v1
  refine keepsO_ite ?_ ?_
  · refine keepsO_next ?_
    assumption
  · extract_lets +onlyGivenNames v2
    clear_value v2
    extract_lets +onlyGivenNames v3
    have h4 : Keeps s0 v3 := by
      dsimp only [v3]
      refine State.each_keeps ?_ ?_ _
      · assumption
      · intro y5 y6 y7
        refine keeps_ite ?_ ?_
        · refine State.dropQueued_keeps ?_ _
          assumption
        · refine State.dropNew_keeps ?_ _
          assumption
    clear_value v3
    extract_lets +onlyGivenNames v8
    clear_value v8
    extract_lets +onlyGivenNames v9
    have h10 : Keeps s0 v9 := by
      dsimp only [v9]
      refine keeps_mk ?_ rfl rfl rfl
      assumption
    clear_value v9
    refine keepsO_next ?_
    refine State.logDev_keeps ?_ _ _ _
    assumption

theorem execNicheQueueFlush_keeps {s0 s : State} (h : Keeps s0 s) (n : Fin 16) :
    KeepsO s0 (execNicheQueueFlush n s) := by
  unfold execNicheQueueFlush
  refine keepsO_ite ?_ ?_
  · extract_lets +onlyGivenNames v1
    clear_value v1
    extract_lets +onlyGivenNames v2
    have h3 : Keeps s0 v2 := by
      dsimp only [v2]
      refine State.each_keeps ?_ ?_ _
      · assumption
      · intro y4 y5 y6
        refine State.dropQueued_keeps ?_ _
        refine State.ncnt_keeps ?_ _ _
        assumption
    clear_value v2
    extract_lets +onlyGivenNames v7
    have h8 : Keeps s0 v7 := by
      dsimp only [v7]
      refine State.dropMesh_keeps ?_ ?_ _
      · assumption
      · intro y9 y10 y11
        refine State.ncnt_keeps ?_ _ _
        assumption
    clear_value v7
    refine keepsO_next ?_
    refine State.modNreset_keeps ?_ _ _
    assumption
  · refine keepsO_next ?_
    assumption

theorem execCalAckWrite_keeps {s0 s : State} (h : Keeps s0 s) (data : Word) :
    KeepsO s0 (execCalAckWrite data s) := by
  unfold execCalAckWrite
  refine keepsO_next ?_
  refine keeps_ite ?_ ?_
  · refine keeps_mk ?_ rfl rfl rfl
    assumption
  · assumption

theorem State.readCelLo_keeps {s0 s : State} (h : Keeps s0 s) (src : ℕ) (a : ℕ) (j : ℕ) :
    Keeps s0 (State.readCelLo s src a j) := by
  unfold State.readCelLo
  refine State.latchHi_keeps ?_ _ _ _
  assumption

theorem execCelCountLoRead_keeps {s0 s : State} (h : Keeps s0 s) (who : Agent) (a : Fin 64) (count : Fin 3) :
    KeepsO s0 (execCelCountLoRead who a count s) := by
  unfold execCelCountLoRead
  extract_lets +onlyGivenNames v1
  clear_value v1
  refine keepsO_next ?_
  refine State.ifOwned_keeps ?_ ?_ _ _ _
  · assumption
  · intro y2 y3
    refine State.answer_keeps ?_ _ _
    refine State.readCelLo_keeps ?_ _ _ _
    assumption

end Sys2Proof.Machine
end

