-- ==== Sys2Proof/Laws/KeepsFio.lean ====
section
/-!
SUPPORT. What Fio.lean leaves untouched (Keeps), operation by operation.
-/

namespace Sys2Proof.Machine

open Sys2Proof

theorem State.fieldLog_keeps {s0 s : State} (h : Keeps s0 s) (o : Option ℕ) (code : ℕ) (data : ℕ) :
    Keeps s0 (State.fieldLog s o code data) := by
  unfold State.fieldLog
  extract_lets +onlyGivenNames v1
  have h2 : Keeps s0 v1 := by
    dsimp only [v1]
    refine State.raisePf_keeps ?_ _
    refine State.logBoth_keeps ?_ _ _ _
    assumption
  clear_value v1
  split
  · refine State.raiseNiche_keeps ?_ _ _
    assumption
  · assumption

theorem State.fioCnt_keeps {s0 s : State} (h : Keeps s0 s) (n : ℕ) :
    Keeps s0 (State.fioCnt s n) := by
  unfold State.fioCnt
  refine State.sat_keeps ?_ _
  assumption

theorem State.fioCfgBad_keeps {s0 s : State} (h : Keeps s0 s) (o : Option ℕ) (n : ℕ) :
    Keeps s0 (State.fioCfgBad s o n) := by
  unfold State.fioCfgBad
  refine State.fieldLog_keeps ?_ _ _ _
  assumption

theorem State.dieDiscard_keeps {s0 s : State} (h : Keeps s0 s) :
    Keeps s0 (State.dieDiscard s) := by
  unfold State.dieDiscard
  refine keeps_ite ?_ ?_
  · assumption
  · extract_lets +onlyGivenNames v1
    have h2 : Keeps s0 v1 := by
      dsimp only [v1]
      refine State.fieldLog_keeps ?_ _ _ _
      assumption
    clear_value v1
    refine keeps_mk ?_ rfl rfl rfl
    assumption

theorem execFioEnergyCfgWrite_keeps {s0 s : State} (h : Keeps s0 s) (reg : Fin 11) (data : Word) :
    KeepsO s0 (execFioEnergyCfgWrite reg data s) := by
  unfold execFioEnergyCfgWrite
  extract_lets +onlyGivenNames v1
  clear_value v1
  extract_lets +onlyGivenNames v2
  clear_value v2
  extract_lets +onlyGivenNames v3
  clear_value v3
  extract_lets +onlyGivenNames v4
  clear_value v4
  refine keepsO_next ?_
  refine State.ifPresent_keeps ?_ ?_ _
  · assumption
  · intro y5 y6
    refine keeps_ite ?_ ?_
    · refine State.dieDiscard_keeps ?_
      assumption
    · refine keeps_ite ?_ ?_
      · refine keeps_ite ?_ ?_
        · refine State.fioCfgBad_keeps ?_ _ _
          assumption
        · refine keeps_ite ?_ ?_
          · refine State.fieldLog_keeps ?_ _ _ _
            refine State.fioCnt_keeps ?_ _
            assumption
          · refine State.setWord_keeps ?_ _ _
            assumption
      · extract_lets +onlyGivenNames v7
        clear_value v7
        extract_lets +onlyGivenNames v8
        clear_value v8
        extract_lets +onlyGivenNames v9
        clear_value v9
        refine keeps_ite ?_ ?_
        · refine State.fioCfgBad_keeps ?_ _ _
          assumption
        · split
          · refine State.fieldLog_keeps ?_ _ _ _
            refine State.fioCnt_keeps ?_ _
            assumption
          · refine State.setWord_keeps ?_ _ _
            assumption

theorem execAinSettleStart_keeps {s0 s : State} (h : Keeps s0 s) :
    KeepsO s0 (execAinSettleStart s) := by
  unfold execAinSettleStart
  refine keepsO_next ?_
  refine keeps_ite ?_ ?_
  · assumption
  · split
    · assumption
    · extract_lets +onlyGivenNames v1
      clear_value v1
      extract_lets +onlyGivenNames v2
      clear_value v2
      refine keeps_mk ?_ rfl rfl rfl
      assumption

theorem State.endConversion_keeps {s0 s : State} (h : Keeps s0 s) (c : Nat) (r : Int) (cmLo : Int) (cmHi : Int) (inner : Int) :
    Keeps s0 (State.endConversion s c r cmLo cmHi inner) := by
  unfold State.endConversion
  extract_lets +onlyGivenNames v1
  clear_value v1
  extract_lets +onlyGivenNames v2
  clear_value v2
  extract_lets +onlyGivenNames v3
  clear_value v3
  extract_lets +onlyGivenNames v4
  clear_value v4
  extract_lets +onlyGivenNames v5
  clear_value v5
  extract_lets +onlyGivenNames v6
  clear_value v6
  extract_lets +onlyGivenNames v7
  clear_value v7
  extract_lets +onlyGivenNames v8
  clear_value v8
  extract_lets +onlyGivenNames v9
  have h10 : Keeps s0 v9 := by
    dsimp only [v9]
    refine State.tookFree_keeps ?_
    assumption
  clear_value v9
  extract_lets +onlyGivenNames v11
  clear_value v11
  extract_lets +onlyGivenNames v12
  clear_value v12
  extract_lets +onlyGivenNames v13
  clear_value v13
  extract_lets +onlyGivenNames v14
  clear_value v14
  extract_lets +onlyGivenNames v15
  have h16 : Keeps s0 v15 := by
    dsimp only [v15]
    refine State.when_keeps ?_ ?_ _
    · assumption
    · intro y17 y18
      refine State.limBothKind_keeps ?_ _ _ _ _
      refine State.fioCnt_keeps ?_ _
      assumption
  clear_value v15
  extract_lets +onlyGivenNames v19
  have h20 : Keeps s0 v19 := by
    dsimp only [v19]
    refine State.when_keeps ?_ ?_ _
    · assumption
    · intro y21 y22
      refine State.fieldLog_keeps ?_ _ _ _
      assumption
  clear_value v19
  refine keeps_mk ?_ rfl rfl rfl
  assumption

theorem execAinConversionEnd_keeps {s0 s : State} (h : Keeps s0 s) (raw : BitVec 24) (cmLo : ℤ) (cmHi : ℤ) (inner : ℤ) :
    KeepsO s0 (execAinConversionEnd raw cmLo cmHi inner s) := by
  unfold execAinConversionEnd
  refine keepsO_next ?_
  split
  · assumption
  · refine State.endConversion_keeps ?_ _ _ _ _ _
    assumption

theorem State.setLoop_keeps {s0 s : State} (h : Keeps s0 s) (j : ℕ) (x : LoopOut) :
    Keeps s0 (State.setLoop s j x) := by
  unfold State.setLoop
  refine keeps_mk ?_ rfl rfl rfl
  assumption

theorem State.sink_keeps {s0 s : State} (h : Keeps s0 s) (j : ℕ) (ua : ℕ) :
    Keeps s0 (State.sink s j ua) := by
  unfold State.sink
  extract_lets +onlyGivenNames v1
  clear_value v1
  extract_lets +onlyGivenNames v2
  clear_value v2
  extract_lets +onlyGivenNames v3
  have h4 : Keeps s0 v3 := by
    dsimp only [v3]
    refine State.setLoop_keeps ?_ _ _
    assumption
  clear_value v3
  refine State.send_keeps ?_ _
  refine State.put_keeps ?_ _ _
  assumption

theorem execLoopSetWrite_keeps {s0 s : State} (h : Keeps s0 s) (j : Fin 2) (data : Word) :
    KeepsO s0 (execLoopSetWrite j data s) := by
  unfold execLoopSetWrite
  extract_lets +onlyGivenNames v1
  clear_value v1
  extract_lets +onlyGivenNames v2
  clear_value v2
  refine keepsO_next ?_
  refine State.ifPresent_keeps ?_ ?_ _
  · assumption
  · intro y3 y4
    refine keeps_ite ?_ ?_
    · refine State.dieDiscard_keeps ?_
      assumption
    · refine keeps_ite ?_ ?_
      · refine State.fioCfgBad_keeps ?_ _ _
        assumption
      · refine State.sink_keeps ?_ _ _
        refine State.put_keeps ?_ _ _
        assumption

theorem execLoopTxmWrite_keeps {s0 s : State} (h : Keeps s0 s) (who : Agent) (j : Fin 2) (data : Word) :
    KeepsO s0 (execLoopTxmWrite who j data s) := by
  unfold execLoopTxmWrite
  extract_lets +onlyGivenNames v1
  clear_value v1
  extract_lets +onlyGivenNames v2
  clear_value v2
  extract_lets +onlyGivenNames v3
  clear_value v3
  extract_lets +onlyGivenNames v4
  clear_value v4
  extract_lets +onlyGivenNames v5
  clear_value v5
  extract_lets +onlyGivenNames v6
  clear_value v6
  extract_lets +onlyGivenNames v7
  clear_value v7
  refine keepsO_next ?_
  refine State.ifPresent_keeps ?_ ?_ _
  · assumption
  · intro y8 y9
    refine keeps_ite ?_ ?_
    · refine State.dieDiscard_keeps ?_
      assumption
    · refine keeps_ite ?_ ?_
      · split
        · refine State.deny_keeps ?_ _ _ _
          assumption
        · split
          · refine State.countDenied_keeps ?_ _ _
            assumption
          · assumption
      · refine keeps_ite ?_ ?_
        · refine State.fieldLog_keeps ?_ _ _ _
          assumption
        · refine keeps_ite ?_ ?_
          · refine State.fioCfgBad_keeps ?_ _ _
            assumption
          · extract_lets +onlyGivenNames v10
            clear_value v10
            extract_lets +onlyGivenNames v11
            clear_value v11
            extract_lets +onlyGivenNames v12
            have h13 : Keeps s0 v12 := by
              dsimp only [v12]
              refine State.setLoop_keeps ?_ _ _
              refine State.setWord_keeps ?_ _ _
              assumption
            clear_value v12
            refine keeps_ite ?_ ?_
            · refine State.sink_keeps ?_ _ _
              refine State.putB_keeps ?_ _ _
              refine State.putB_keeps ?_ _ _
              assumption
            · assumption

theorem State.loopFault_keeps {s0 s : State} (h : Keeps s0 s) (j : ℕ) :
    Keeps s0 (State.loopFault s j) := by
  unfold State.loopFault
  extract_lets +onlyGivenNames v1
  clear_value v1
  extract_lets +onlyGivenNames v2
  have h3 : Keeps s0 v2 := by
    dsimp only [v2]
    refine State.putB_keeps ?_ _ _
    refine State.putB_keeps ?_ _ _
    assumption
  clear_value v2
  extract_lets +onlyGivenNames v4
  have h5 : Keeps s0 v4 := by
    dsimp only [v4]
    refine State.sink_keeps ?_ _ _
    assumption
  clear_value v4
  refine keeps_ite ?_ ?_
  · assumption
  · refine State.fieldLog_keeps ?_ _ _ _
    refine State.fioCnt_keeps ?_ _
    assumption

theorem State.loopSample_keeps {s0 s : State} (h : Keeps s0 s) (j : ℕ) (x : AinSample) :
    Keeps s0 (State.loopSample s j x) := by
  unfold State.loopSample
  extract_lets +onlyGivenNames v1
  clear_value v1
  refine keeps_ite ?_ ?_
  · refine State.loopFault_keeps ?_ _
    refine State.setLoop_keeps ?_ _ _
    assumption
  · refine keeps_ite ?_ ?_
    · extract_lets +onlyGivenNames v2
      have h3 : Keeps s0 v2 := by
        dsimp only [v2]
        refine State.setLoop_keeps ?_ _ _
        assumption
      clear_value v2
      refine keeps_ite ?_ ?_
      · refine State.loopFault_keeps ?_ _
        assumption
      · refine State.putB_keeps ?_ _ _
        assumption
    · extract_lets +onlyGivenNames v4
      clear_value v4
      extract_lets +onlyGivenNames v5
      clear_value v5
      extract_lets +onlyGivenNames v6
      clear_value v6
      extract_lets +onlyGivenNames v7
      have h8 : Keeps s0 v7 := by
        dsimp only [v7]
        refine State.setLoop_keeps ?_ _ _
        refine State.tookFree_keeps ?_
        assumption
      clear_value v7
      extract_lets +onlyGivenNames v9
      have h10 : Keeps s0 v9 := by
        dsimp only [v9]
        refine State.putB_keeps ?_ _ _
        refine State.putB_keeps ?_ _ _
        assumption
      clear_value v9
      refine State.sink_keeps ?_ _ _
      assumption

theorem State.handSample_keeps {s0 s : State} (h : Keeps s0 s) (x : AinSample) :
    Keeps s0 (State.handSample s x) := by
  unfold State.handSample
  extract_lets +onlyGivenNames v1
  clear_value v1
  extract_lets +onlyGivenNames v2
  have h3 : Keeps s0 v2 := by
    dsimp only [v2]
    refine State.putS_keeps ?_ _ _
    refine State.putS_keeps ?_ _ _
    assumption
  clear_value v2
  extract_lets +onlyGivenNames v4
  have h5 : Keeps s0 v4 := by
    dsimp only [v4]
    refine State.putB_keeps ?_ _ _
    refine State.wrap_keeps ?_ _
    assumption
  clear_value v4
  extract_lets +onlyGivenNames v6
  have h7 : Keeps s0 v6 := by
    dsimp only [v6]
    refine State.putB_keeps ?_ _ _
    refine State.putB_keeps ?_ _ _
    refine State.putB_keeps ?_ _ _
    assumption
  clear_value v6
  extract_lets +onlyGivenNames v8
  have h9 : Keeps s0 v8 := by
    dsimp only [v8]
    refine State.putB_keeps ?_ _ _
    refine State.putB_keeps ?_ _ _
    assumption
  clear_value v8
  extract_lets +onlyGivenNames v10
  have h11 : Keeps s0 v10 := by
    dsimp only [v10]
    refine keeps_ite ?_ ?_
    · refine State.fioCnt_keeps ?_ _
      refine State.sat_keeps ?_ _
      assumption
    · refine State.put_keeps ?_ _ _
      assumption
  clear_value v10
  extract_lets +onlyGivenNames v12
  have h13 : Keeps s0 v12 := by
    dsimp only [v12]
    refine State.when_keeps ?_ ?_ _
    · refine State.fioCnt_keeps ?_ _
      assumption
    · intro y14 y15
      refine State.fioCnt_keeps ?_ _
      assumption
  clear_value v12
  refine State.each_keeps ?_ ?_ _
  · assumption
  · intro y16 y17 y18
    refine keeps_ite ?_ ?_
    · refine State.loopSample_keeps ?_ _ _
      assumption
    · assumption

theorem execPhaseFio_keeps {s0 s : State} (h : Keeps s0 s) (cycles : ℕ) :
    KeepsO s0 (execPhaseFio cycles s) := by
  unfold execPhaseFio
  extract_lets +onlyGivenNames v1
  clear_value v1
  extract_lets +onlyGivenNames v2
  clear_value v2
  extract_lets +onlyGivenNames v3
  have h4 : Keeps s0 v3 := by
    dsimp only [v3]
    refine keeps_mk ?_ rfl rfl rfl
    assumption
  clear_value v3
  refine keepsO_next ?_
  refine State.phaseUsed_keeps ?_ _ _
  refine State.each_keeps ?_ ?_ _
  · assumption
  · intro y5 y6 y7
    refine State.handSample_keeps ?_ _
    assumption

theorem execAinValRead_keeps {s0 s : State} (h : Keeps s0 s) (who : Agent) (n : Fin 8) :
    KeepsO s0 (execAinValRead who n s) := by
  unfold execAinValRead
  refine keepsO_next ?_
  refine State.ifOwned_keeps ?_ ?_ _ _ _
  · assumption
  · intro y1 y2
    refine State.answer_keeps ?_ _ _
    refine State.putB_keeps ?_ _ _
    assumption

theorem execLoopOverrange_keeps {s0 s : State} (h : Keeps s0 s) (j : Fin 2) (above : Bool) :
    KeepsO s0 (execLoopOverrange j above s) := by
  unfold execLoopOverrange
  extract_lets +onlyGivenNames v1
  clear_value v1
  extract_lets +onlyGivenNames v2
  clear_value v2
  refine keepsO_next ?_
  refine keeps_ite ?_ ?_
  · assumption
  · refine State.when_keeps ?_ ?_ _
    · refine State.putB_keeps ?_ _ _
      assumption
    · intro y3 y4
      refine State.fieldLog_keeps ?_ _ _ _
      assumption

theorem execLoopOpen_keeps {s0 s : State} (h : Keeps s0 s) (j : Fin 2) (meas : BitVec 16) :
    KeepsO s0 (execLoopOpen j meas s) := by
  unfold execLoopOpen
  extract_lets +onlyGivenNames v1
  clear_value v1
  extract_lets +onlyGivenNames v2
  clear_value v2
  extract_lets +onlyGivenNames v3
  clear_value v3
  refine keepsO_next ?_
  refine keeps_ite ?_ ?_
  · assumption
  · refine State.when_keeps ?_ ?_ _
    · refine State.putB_keeps ?_ _ _
      refine State.put_keeps ?_ _ _
      assumption
    · intro y4 y5
      refine State.fieldLog_keeps ?_ _ _ _
      assumption

theorem execLoopRefreshTimeout_keeps {s0 s : State} (h : Keeps s0 s) (j : Fin 2) :
    KeepsO s0 (execLoopRefreshTimeout j s) := by
  unfold execLoopRefreshTimeout
  extract_lets +onlyGivenNames v1
  clear_value v1
  refine keepsO_next ?_
  split
  · refine keeps_ite ?_ ?_
    · extract_lets +onlyGivenNames v2
      clear_value v2
      refine State.send_keeps ?_ _
      refine State.setLoop_keeps ?_ _ _
      refine State.tookFree_keeps ?_
      assumption
    · assumption
  · assumption

theorem State.loopsStale_keeps {s0 s : State} (h : Keeps s0 s) :
    Keeps s0 (State.loopsStale s) := by
  unfold State.loopsStale
  refine State.each_keeps ?_ ?_ _
  · assumption
  · intro y1 y2 y3
    refine State.setLoop_keeps ?_ _ _
    assumption

theorem execFioDieLost_keeps {s0 s : State} (h : Keeps s0 s) :
    KeepsO s0 (execFioDieLost s) := by
  unfold execFioDieLost
  refine keepsO_next ?_
  refine keeps_ite ?_ ?_
  · assumption
  · extract_lets +onlyGivenNames v1
    have h2 : Keeps s0 v1 := by
      dsimp only [v1]
      refine State.loopsStale_keeps ?_
      refine State.putB_keeps ?_ _ _
      assumption
    clear_value v1
    extract_lets +onlyGivenNames v3
    clear_value v3
    extract_lets +onlyGivenNames v4
    have h5 : Keeps s0 v4 := by
      dsimp only [v4]
      refine keeps_mk ?_ rfl rfl rfl
      assumption
    clear_value v4
    refine State.dieDiscard_keeps ?_
    assumption

theorem execFioDieLinkUp_keeps {s0 s : State} (h : Keeps s0 s) :
    KeepsO s0 (execFioDieLinkUp s) := by
  unfold execFioDieLinkUp
  refine keepsO_next ?_
  refine keeps_ite ?_ ?_
  · assumption
  · extract_lets +onlyGivenNames v1
    have h2 : Keeps s0 v1 := by
      dsimp only [v1]
      refine State.putB_keeps ?_ _ _
      assumption
    clear_value v1
    extract_lets +onlyGivenNames v3
    clear_value v3
    extract_lets +onlyGivenNames v4
    have h5 : Keeps s0 v4 := by
      dsimp only [v4]
      refine keeps_mk ?_ rfl rfl rfl
      assumption
    clear_value v4
    refine State.each_keeps ?_ ?_ _
    · assumption
    · intro y6 y7 y8
      extract_lets +onlyGivenNames v9
      clear_value v9
      extract_lets +onlyGivenNames v10
      have h11 : Keeps s0 v10 := by
        dsimp only [v10]
        refine State.setLoop_keeps ?_ _ _
        assumption
      clear_value v10
      refine keeps_ite ?_ ?_
      · assumption
      · refine State.sink_keeps ?_ _ _
        assumption

theorem State.setTabWord_keeps {s0 s : State} (h : Keeps s0 s) (k : ℕ) (i : ℕ) (w : Word) :
    Keeps s0 (State.setTabWord s k i w) := by
  unfold State.setTabWord
  refine keeps_mk ?_ rfl rfl rfl
  assumption

theorem execCtabCommit_keeps {s0 s : State} (h : Keeps s0 s) :
    KeepsO s0 (execCtabCommit s) := by
  unfold execCtabCommit
  extract_lets +onlyGivenNames v1
  clear_value v1
  extract_lets +onlyGivenNames v2
  clear_value v2
  extract_lets +onlyGivenNames v3
  clear_value v3
  extract_lets +onlyGivenNames v4
  clear_value v4
  extract_lets +onlyGivenNames v5
  clear_value v5
  refine keepsO_next ?_
  refine State.ifPresent_keeps ?_ ?_ _
  · assumption
  · intro y6 y7
    refine keeps_ite ?_ ?_
    · refine State.dieDiscard_keeps ?_
      assumption
    · refine keeps_ite ?_ ?_
      · refine State.fieldLog_keeps ?_ _ _ _
        assumption
      · refine keeps_mk ?_ rfl rfl rfl
        assumption

theorem execCtabActivate_keeps {s0 s : State} (h : Keeps s0 s) :
    KeepsO s0 (execCtabActivate s) := by
  unfold execCtabActivate
  extract_lets +onlyGivenNames v1
  clear_value v1
  refine keepsO_next ?_
  refine keeps_mk ?_ rfl rfl rfl
  assumption

theorem State.setDin_keeps {s0 s : State} (h : Keeps s0 s) (i : ℕ) (x : DinState) :
    Keeps s0 (State.setDin s i x) := by
  unfold State.setDin
  refine keeps_mk ?_ rfl rfl rfl
  assumption

theorem State.setDinLevel_keeps {s0 s : State} (h : Keeps s0 s) (i : ℕ) (v : ℕ) :
    Keeps s0 (State.setDinLevel s i v) := by
  unfold State.setDinLevel
  refine State.put_keeps ?_ _ _
  assumption

theorem State.dinEvent_keeps {s0 s : State} (h : Keeps s0 s) (i : Nat) (rise : Bool) (stamp : Nat) (chat : Bool) :
    Keeps s0 (State.dinEvent s i rise stamp chat) := by
  unfold State.dinEvent
  refine keeps_ite ?_ ?_
  · assumption
  · extract_lets +onlyGivenNames v1
    clear_value v1
    extract_lets +onlyGivenNames v2
    have h3 : Keeps s0 v2.1 := by
      dsimp only [v2]
      refine State.pushStamp_keeps ?_ _ _ _ _ _ _
      assumption
    clear_value v2
    refine State.when_keeps ?_ ?_ _
    · refine State.setDin_keeps ?_ _ _
      assumption
    · intro y4 y5
      refine State.wakeEvent_keeps ?_ _
      assumption

theorem State.dinEvaluate_keeps {s0 s : State} (h : Keeps s0 s) (i : ℕ) (mv : ℕ) :
    Keeps s0 (State.dinEvaluate s i mv) := by
  unfold State.dinEvaluate
  extract_lets +onlyGivenNames v1
  clear_value v1
  refine State.setDin_keeps ?_ _ _
  refine State.setDinLevel_keeps ?_ _ _
  assumption

theorem execDinCrossing_keeps {s0 s : State} (h : Keeps s0 s) (i : Fin 8) (mv : ℕ) (frac : Fin 16) :
    KeepsO s0 (execDinCrossing i mv frac s) := by
  unfold execDinCrossing
  extract_lets +onlyGivenNames v1
  clear_value v1
  refine keepsO_next ?_
  refine keeps_ite ?_ ?_
  · assumption
  · split
    · assumption
    · extract_lets +onlyGivenNames v2
      clear_value v2
      extract_lets +onlyGivenNames v3
      have h4 : Keeps s0 v3 := by
        dsimp only [v3]
        refine State.setDinLevel_keeps ?_ _ _
        assumption
      clear_value v3
      split
      · refine State.setDin_keeps ?_ _ _
        assumption
      · refine keeps_ite ?_ ?_
        · refine State.setDin_keeps ?_ _ _
          assumption
        · refine keeps_ite ?_ ?_
          · assumption
          · refine State.setDin_keeps ?_ _ _
            assumption

theorem State.settleDin_keeps {s0 s : State} (h : Keeps s0 s) (i : Nat) (l : Bool) (stamp : Nat) (at_ : Nat) :
    Keeps s0 (State.settleDin s i l stamp at_) := by
  unfold State.settleDin
  extract_lets +onlyGivenNames v1
  clear_value v1
  extract_lets +onlyGivenNames v2
  clear_value v2
  extract_lets +onlyGivenNames v3
  clear_value v3
  extract_lets +onlyGivenNames v4
  clear_value v4
  extract_lets +onlyGivenNames v5
  have h6 : Keeps s0 v5 := by
    dsimp only [v5]
    refine State.setDin_keeps ?_ _ _
    assumption
  clear_value v5
  refine keeps_ite ?_ ?_
  · assumption
  · refine keeps_ite ?_ ?_
    · refine State.limBothKind_keeps ?_ _ _ _ _
      refine State.dinEvent_keeps ?_ _ _ _ _
      assumption
    · refine keeps_ite ?_ ?_
      · refine State.dinEvent_keeps ?_ _ _ _ _
        assumption
      · assumption

theorem execDinEvent_keeps {s0 s : State} (h : Keeps s0 s) (i : Fin 8) :
    KeepsO s0 (execDinEvent i s) := by
  unfold execDinEvent
  refine keepsO_next ?_
  split
  · assumption
  · refine keeps_ite ?_ ?_
    · refine State.settleDin_keeps ?_ _ _ _ _
      assumption
    · assumption

theorem execChatterEnd_keeps {s0 s : State} (h : Keeps s0 s) (i : Fin 8) :
    KeepsO s0 (execChatterEnd i s) := by
  unfold execChatterEnd
  extract_lets +onlyGivenNames v1
  clear_value v1
  extract_lets +onlyGivenNames v2
  clear_value v2
  refine keepsO_next ?_
  refine keeps_ite ?_ ?_
  · refine State.dinEvent_keeps ?_ _ _ _ _
    refine State.setDin_keeps ?_ _ _
    assumption
  · assumption

theorem execDinCfgWrite_keeps {s0 s : State} (h : Keeps s0 s) (i : Fin 8) (data : Word) (mv : ℕ) :
    KeepsO s0 (execDinCfgWrite i data mv s) := by
  unfold execDinCfgWrite
  extract_lets +onlyGivenNames v1
  clear_value v1
  extract_lets +onlyGivenNames v2
  clear_value v2
  refine keepsO_next ?_
  refine keeps_ite ?_ ?_
  · refine State.fieldLog_keeps ?_ _ _ _
    assumption
  · refine State.dinEvaluate_keeps ?_ _ _
    refine State.setWord_keeps ?_ _ _
    assumption

theorem State.readDin_keeps {s0 s : State} (h : Keeps s0 s) (src : ℕ) (i : ℕ) :
    Keeps s0 (State.readDin s src i).1 := by
  unfold State.readDin
  dsimp only
  refine State.setDin_keeps ?_ _ _
  refine State.popStamp_keeps ?_ _ _ _
  assumption

theorem execDinE0Read_keeps {s0 s : State} (h : Keeps s0 s) (who : Agent) (i : Fin 8) :
    KeepsO s0 (execDinE0Read who i s) := by
  unfold execDinE0Read
  refine keepsO_next ?_
  refine State.ifOwned_keeps ?_ ?_ _ _ _
  · assumption
  · intro y1 y2
    extract_lets +onlyGivenNames v3
    have h4 : Keeps s0 v3.1 := by
      dsimp only [v3]
      refine State.readDin_keeps ?_ _ _
      assumption
    clear_value v3
    refine State.answer_keeps ?_ _ _
    assumption

theorem execWettingDip_keeps {s0 s : State} (h : Keeps s0 s) (mv : ℕ) :
    KeepsO s0 (execWettingDip mv s) := by
  unfold execWettingDip
  extract_lets +onlyGivenNames v1
  clear_value v1
  refine keepsO_next ?_
  refine keeps_ite ?_ ?_
  · assumption
  · refine keeps_ite ?_ ?_
    · extract_lets +onlyGivenNames v2
      have h3 : Keeps s0 v2 := by
        dsimp only [v2]
        refine State.putB_keeps ?_ _ _
        assumption
      clear_value v2
      extract_lets +onlyGivenNames v4
      clear_value v4
      extract_lets +onlyGivenNames v5
      have h6 : Keeps s0 v5 := by
        dsimp only [v5]
        refine keeps_mk ?_ rfl rfl rfl
        assumption
      clear_value v5
      refine keeps_ite ?_ ?_
      · assumption
      · refine State.fieldLog_keeps ?_ _ _ _
        assumption
    · refine keeps_mk ?_ rfl rfl rfl
      assumption

theorem execWettingDipEnd_keeps {s0 s : State} (h : Keeps s0 s) :
    KeepsO s0 (execWettingDipEnd s) := by
  unfold execWettingDipEnd
  refine keepsO_next ?_
  refine keeps_ite ?_ ?_
  · extract_lets +onlyGivenNames v1
    have h2 : Keeps s0 v1 := by
      dsimp only [v1]
      refine State.putB_keeps ?_ _ _
      assumption
    clear_value v1
    refine keeps_mk ?_ rfl rfl rfl
    assumption
  · assumption

theorem execDoutCmd_keeps {s0 s : State} (h : Keeps s0 s) (k : Fin 4) (on : Bool) :
    KeepsO s0 (execDoutCmd k on s) := by
  unfold execDoutCmd
  extract_lets +onlyGivenNames v1
  clear_value v1
  refine keepsO_next ?_
  refine keeps_ite ?_ ?_
  · assumption
  · extract_lets +onlyGivenNames v2
    have h3 : Keeps s0 v2 := by
      dsimp only [v2]
      refine State.putB_keeps ?_ _ _
      assumption
    clear_value v2
    refine keeps_ite ?_ ?_
    · refine State.switchDout_keeps ?_ _ _
      refine State.setDout_keeps ?_ _ _
      refine State.putB_keeps ?_ _ _
      assumption
    · refine keeps_ite ?_ ?_
      · assumption
      · refine State.switchDout_keeps ?_ _ _
        assumption

theorem execDoutClear_keeps {s0 s : State} (h : Keeps s0 s) (k : Fin 4) :
    KeepsO s0 (execDoutClear k s) := by
  unfold execDoutClear
  extract_lets +onlyGivenNames v1
  clear_value v1
  refine keepsO_next ?_
  refine State.put_keeps ?_ _ _
  refine State.putB_keeps ?_ _ _
  refine State.putB_keeps ?_ _ _
  assumption

theorem State.shorted_keeps {s0 s : State} (h : Keeps s0 s) (k : ℕ) :
    Keeps s0 (State.shorted s k) := by
  unfold State.shorted
  extract_lets +onlyGivenNames v1
  clear_value v1
  extract_lets +onlyGivenNames v2
  have h3 : Keeps s0 v2 := by
    dsimp only [v2]
    refine State.fieldLog_keeps ?_ _ _ _
    refine State.switchDout_keeps ?_ _ _
    assumption
  clear_value v2
  extract_lets +onlyGivenNames v4
  have h5 : Keeps s0 v4 := by
    dsimp only [v4]
    refine State.when_keeps ?_ ?_ _
    · assumption
    · intro y6 y7
      refine State.sat_keeps ?_ _
      assumption
  clear_value v4
  refine keeps_ite ?_ ?_
  · refine State.setDout_keeps ?_ _ _
    refine State.putB_keeps ?_ _ _
    refine State.putB_keeps ?_ _ _
    assumption
  · refine State.setDout_keeps ?_ _ _
    refine State.putB_keeps ?_ _ _
    assumption

theorem execDoutShort_keeps {s0 s : State} (h : Keeps s0 s) (k : Fin 4) :
    KeepsO s0 (execDoutShort k s) := by
  unfold execDoutShort
  refine keepsO_next ?_
  refine keeps_ite ?_ ?_
  · refine State.shorted_keeps ?_ _
    assumption
  · assumption

theorem execDoutRetry_keeps {s0 s : State} (h : Keeps s0 s) (k : Fin 4) :
    KeepsO s0 (execDoutRetry k s) := by
  unfold execDoutRetry
  extract_lets +onlyGivenNames v1
  clear_value v1
  refine keepsO_next ?_
  split
  · refine keeps_ite ?_ ?_
    · assumption
    · refine State.switchDout_keeps ?_ _ _
      refine State.setDout_keeps ?_ _ _
      assumption
  · assumption

theorem execDoutRetrySuccess_keeps {s0 s : State} (h : Keeps s0 s) (k : Fin 4) :
    KeepsO s0 (execDoutRetrySuccess k s) := by
  unfold execDoutRetrySuccess
  extract_lets +onlyGivenNames v1
  clear_value v1
  refine keepsO_next ?_
  split
  · refine keeps_ite ?_ ?_
    · refine State.setDout_keeps ?_ _ _
      refine State.putB_keeps ?_ _ _
      refine State.put_keeps ?_ _ _
      assumption
    · assumption
  · assumption

theorem State.probeGap_keeps {s0 s : State} (h : Keeps s0 s) (m : ℕ) :
    Keeps s0 (State.probeGap s m) := by
  unfold State.probeGap
  refine State.send_keeps ?_ _
  refine State.send_keeps ?_ _
  assumption

theorem execDoutExtdrv_keeps {s0 s : State} (h : Keeps s0 s) (k : Fin 4) (low : BitVec 4) :
    KeepsO s0 (execDoutExtdrv k low s) := by
  unfold execDoutExtdrv
  extract_lets +onlyGivenNames v1
  clear_value v1
  extract_lets +onlyGivenNames v2
  clear_value v2
  refine keepsO_next ?_
  refine keeps_ite ?_ ?_
  · assumption
  · extract_lets +onlyGivenNames v3
    have h4 : Keeps s0 v3 := by
      dsimp only [v3]
      refine State.putB_keeps ?_ _ _
      assumption
    clear_value v3
    split
    · extract_lets +onlyGivenNames v5
      have h6 : Keeps s0 v5 := by
        dsimp only [v5]
        refine State.each_keeps ?_ ?_ _
        · assumption
        · intro y7 y8 y9
          refine State.probeGap_keeps ?_ _
          assumption
      clear_value v5
      extract_lets +onlyGivenNames v10
      have h11 : ∀ a1 a2, Keeps s0 a1 → Keeps s0 (v10 a1 a2) := by
        intro a1 a2 b0
        dsimp only [v10]
        refine State.switchDout_keeps ?_ _ _
        refine State.setDout_keeps ?_ _ _
        refine State.putB_keeps ?_ _ _
        refine State.putB_keeps ?_ _ _
        assumption
      clear_value v10
      refine State.fieldLog_keeps ?_ _ _ _
      with_reducible apply_assumption
      with_reducible apply_assumption
      assumption
    · extract_lets +onlyGivenNames v12
      have h13 : Keeps s0 v12 := by
        dsimp only [v12]
        refine State.each_keeps ?_ ?_ _
        · assumption
        · intro y14 y15 y16
          refine State.probeGap_keeps ?_ _
          assumption
      clear_value v12
      refine State.fieldLog_keeps ?_ _ _ _
      refine State.putB_keeps ?_ _ _
      assumption

theorem execDoutExtdrvClear_keeps {s0 s : State} (h : Keeps s0 s) (k : Fin 4) :
    KeepsO s0 (execDoutExtdrvClear k s) := by
  unfold execDoutExtdrvClear
  refine keepsO_next ?_
  refine keeps_ite ?_ ?_
  · assumption
  · refine State.putB_keeps ?_ _ _
    refine State.putB_keeps ?_ _ _
    assumption

end Sys2Proof.Machine
end

