-- ==== Sys2Proof/Laws/KeepsMsh.lean ====
section
/-!
SUPPORT. What Msh.lean leaves untouched (Keeps), operation by operation.
-/

namespace Sys2Proof.Machine

open Sys2Proof

theorem State.mshLog_keeps {s0 s : State} (h : Keeps s0 s) (code : ℕ) (data : ℕ) :
    Keeps s0 (State.mshLog s code data) := by
  unfold State.mshLog
  refine State.raisePf_keeps ?_ _
  refine State.logDev_keeps ?_ _ _ _
  assumption

theorem State.mshCnt_keeps {s0 s : State} (h : Keeps s0 s) (n : ℕ) :
    Keeps s0 (State.mshCnt s n) := by
  unfold State.mshCnt
  refine State.sat_keeps ?_ _
  assumption

theorem execMeshRun_keeps {s0 s : State} (h : Keeps s0 s) :
    KeepsO s0 (execMeshRun s) := by
  unfold execMeshRun
  extract_lets +onlyGivenNames v1
  clear_value v1
  refine keepsO_next ?_
  refine State.ifPresent_keeps ?_ ?_ _
  · assumption
  · intro y2 y3
    refine keeps_ite ?_ ?_
    · assumption
    · refine keeps_ite ?_ ?_
      · refine State.mshLog_keeps ?_ _ _
        assumption
      · refine keeps_ite ?_ ?_
        · refine State.mshLog_keeps ?_ _ _
          assumption
        · refine keeps_ite ?_ ?_
          · refine State.mshLog_keeps ?_ _ _
            assumption
          · extract_lets +onlyGivenNames v4
            have h5 : Keeps s0 v4 := by
              dsimp only [v4]
              refine State.putB_keeps ?_ _ _
              assumption
            clear_value v4
            refine keeps_mk ?_ rfl rfl rfl
            assumption

theorem State.meshStop_keeps {s0 s : State} (h : Keeps s0 s) :
    Keeps s0 (State.meshStop s) := by
  unfold State.meshStop
  extract_lets +onlyGivenNames v1
  have h2 : Keeps s0 v1 := by
    dsimp only [v1]
    refine State.dropMesh_keeps ?_ ?_ _
    · assumption
    · intro y3 y4 y5
      refine State.mshCnt_keeps ?_ _
      assumption
  clear_value v1
  extract_lets +onlyGivenNames v6
  have h7 : Keeps s0 v6 := by
    dsimp only [v6]
    refine State.putB_keeps ?_ _ _
    refine State.putB_keeps ?_ _ _
    refine State.putB_keeps ?_ _ _
    assumption
  clear_value v6
  refine keeps_mk ?_ rfl rfl rfl
  assumption

theorem execMeshStop_keeps {s0 s : State} (h : Keeps s0 s) :
    KeepsO s0 (execMeshStop s) := by
  unfold execMeshStop
  refine keepsO_next ?_
  refine State.meshStop_keeps ?_
  assumption

theorem State.meshEdge_keeps {s0 s : State} (h : Keeps s0 s) :
    Keeps s0 (State.meshEdge s) := by
  unfold State.meshEdge
  extract_lets +onlyGivenNames v1
  have h2 : Keeps s0 v1 := by
    dsimp only [v1]
    refine State.putB_keeps ?_ _ _
    assumption
  clear_value v1
  extract_lets +onlyGivenNames v3
  clear_value v3
  extract_lets +onlyGivenNames v4
  have h5 : Keeps s0 v4 := by
    dsimp only [v4]
    refine keeps_ite ?_ ?_
    · refine keeps_mk ?_ rfl rfl rfl
      assumption
    · assumption
  clear_value v4
  refine State.dropMesh_keeps ?_ ?_ _
  · assumption
  · intro y6 y7 y8
    refine State.mshCnt_keeps ?_ _
    assumption

theorem State.heardNode_keeps {s0 s : State} (h : Keeps s0 s) (n : ℕ) :
    Keeps s0 (State.heardNode s n) := by
  unfold State.heardNode
  extract_lets +onlyGivenNames v1
  have h2 : Keeps s0 v1 := by
    dsimp only [v1]
    refine State.put_keeps ?_ _ _
    refine State.putB_keeps ?_ _ _
    assumption
  clear_value v1
  refine keeps_mk ?_ rfl rfl rfl
  assumption

theorem State.meshTick_keeps {s0 s : State} (h : Keeps s0 s) :
    Keeps s0 (State.meshTick s) := by
  unfold State.meshTick
  extract_lets +onlyGivenNames v1
  have h2 : Keeps s0 v1 := by
    dsimp only [v1]
    refine State.each_keeps ?_ ?_ _
    · assumption
    · intro y3 y4 y5
      refine State.put_keeps ?_ _ _
      refine State.tookFree_keeps ?_
      refine State.put_keeps ?_ _ _
      assumption
  clear_value v1
  refine keeps_ite ?_ ?_
  · extract_lets +onlyGivenNames v6
    have h7 : Keeps s0 v6 := by
      dsimp only [v6]
      refine State.putB_keeps ?_ _ _
      assumption
    clear_value v6
    refine keeps_mk ?_ rfl rfl rfl
    assumption
  · assumption

theorem execPhaseMesh_keeps {s0 s : State} (h : Keeps s0 s) (cycles : ℕ) :
    KeepsO s0 (execPhaseMesh cycles s) := by
  unfold execPhaseMesh
  refine keepsO_next ?_
  refine State.phaseUsed_keeps ?_ _ _
  refine State.meshTick_keeps ?_
  assumption

theorem State.loseNode_keeps {s0 s : State} (h : Keeps s0 s) (n : Nat) :
    Keeps s0 (State.loseNode s n) := by
  unfold State.loseNode
  extract_lets +onlyGivenNames v1
  have h2 : Keeps s0 v1 := by
    dsimp only [v1]
    refine State.putB_keeps ?_ _ _
    assumption
  clear_value v1
  extract_lets +onlyGivenNames v3
  have h4 : Keeps s0 v3 := by
    dsimp only [v3]
    refine State.mshLog_keeps ?_ _ _
    refine State.logNiche_keeps ?_ _ _ _
    assumption
  clear_value v3
  extract_lets +onlyGivenNames v5
  clear_value v5
  extract_lets +onlyGivenNames v6
  have h7 : Keeps s0 v6 := by
    dsimp only [v6]
    refine State.setInd_keeps ?_ _
    assumption
  clear_value v6
  refine State.each_keeps ?_ ?_ _
  · assumption
  · intro y8 y9 y10
    refine State.release_keeps ?_ _
    refine State.mshCnt_keeps ?_ _
    assumption

theorem execNodeLost_keeps {s0 s : State} (h : Keeps s0 s) (n : Fin 512) :
    KeepsO s0 (execNodeLost n s) := by
  unfold execNodeLost
  refine keepsO_next ?_
  refine keeps_ite ?_ ?_
  · refine State.loseNode_keeps ?_ _
    assumption
  · assumption

theorem execRadioCalibration_keeps {s0 s : State} (h : Keeps s0 s) :
    KeepsO s0 (execRadioCalibration s) := by
  unfold execRadioCalibration
  refine keepsO_next ?_
  refine keeps_ite ?_ ?_
  · extract_lets +onlyGivenNames v1
    have h2 : Keeps s0 v1 := by
      dsimp only [v1]
      refine State.putB_keeps ?_ _ _
      refine State.mshCnt_keeps ?_ _
      assumption
    clear_value v1
    refine keeps_mk ?_ rfl rfl rfl
    assumption
  · assumption

theorem execCalStarved_keeps {s0 s : State} (h : Keeps s0 s) :
    KeepsO s0 (execCalStarved s) := by
  unfold execCalStarved
  refine keepsO_next ?_
  split
  · refine keeps_ite ?_ ?_
    · extract_lets +onlyGivenNames v1
      have h2 : Keeps s0 v1 := by
        dsimp only [v1]
        refine State.mshLog_keeps ?_ _ _
        assumption
      clear_value v1
      refine keeps_mk ?_ rfl rfl rfl
      assumption
    · assumption
  · assumption

theorem execCcaLoopStep_keeps {s0 s : State} (h : Keeps s0 s) (energies : List ℤ) :
    KeepsO s0 (execCcaLoopStep energies s) := by
  unfold execCcaLoopStep
  extract_lets +onlyGivenNames v1
  clear_value v1
  refine keepsO_next ?_
  refine keeps_ite ?_ ?_
  · refine State.loopStep_keeps ?_ _ _ _
    assumption
  · assumption

theorem execMshNodeWrite_keeps {s0 s : State} (h : Keeps s0 s) (n : Fin 512) (reg : Fin 4) (data : Word) :
    KeepsO s0 (execMshNodeWrite n reg data s) := by
  unfold execMshNodeWrite
  refine keepsO_next ?_
  refine State.ifPresent_keeps ?_ ?_ _
  · assumption
  · intro y1 y2
    split
    · refine keeps_ite ?_ ?_
      · refine State.mshLog_keeps ?_ _ _
        assumption
      · refine State.setWord_keeps ?_ _ _
        assumption
    · assumption
    · refine State.setWord_keeps ?_ _ _
      assumption

theorem execMshAsnLoRead_keeps {s0 s : State} (h : Keeps s0 s) (who : Agent) :
    KeepsO s0 (execMshAsnLoRead who s) := by
  unfold execMshAsnLoRead
  extract_lets +onlyGivenNames v1
  clear_value v1
  refine keepsO_next ?_
  refine State.answer_keeps ?_ _ _
  refine State.latchHi_keeps ?_ _ _ _
  assumption

theorem State.meshEnter_keeps {s0 s : State} (h : Keeps s0 s) (x : MeshTx) :
    Keeps s0 (State.meshEnter s x) := by
  unfold State.meshEnter
  refine keeps_ite ?_ ?_
  · refine keeps_ite ?_ ?_
    · refine State.release_keeps ?_ _
      refine State.mshCnt_keeps ?_ _
      assumption
    · refine State.setInd_keeps ?_ _
      assumption
  · refine keeps_mk ?_ rfl rfl rfl
    assumption

theorem State.meshTake_keeps {s0 s : State} (h : Keeps s0 s) (q : ℕ) (d : Sdu) :
    Keeps s0 (State.meshTake s q d) := by
  unfold State.meshTake
  extract_lets +onlyGivenNames v1
  have h2 : Keeps s0 v1 := by
    dsimp only [v1]
    refine State.dequeue_keeps ?_ _
    assumption
  extract_lets +onlyGivenNames v3
  clear_value v3
  extract_lets +onlyGivenNames v4
  have h5 : Keeps s0 v4 := by
    dsimp only [v4]
    refine keeps_mk ?_ rfl rfl rfl
    assumption
  extract_lets +onlyGivenNames v6
  clear_value v6
  extract_lets +onlyGivenNames v7
  extract_lets +onlyGivenNames v8
  extract_lets +onlyGivenNames v9
  clear_value v9
  extract_lets +onlyGivenNames v10
  have h11 : Keeps s0 v10 := by
    dsimp only [v10]
    refine State.tookFree_keeps ?_
    assumption
  refine keeps_ite ?_ ?_
  · refine State.release_keeps ?_ _
    refine State.mshLog_keeps ?_ _ _
    assumption
  · refine keeps_ite ?_ ?_
    · refine State.release_keeps ?_ _
      refine State.mshCnt_keeps ?_ _
      assumption
    · refine keeps_ite ?_ ?_
      · refine State.release_keeps ?_ _
        refine State.countDenied_keeps ?_ _ _
        assumption
      · refine keeps_ite ?_ ?_
        · refine State.release_keeps ?_ _
          refine State.mshCnt_keeps ?_ _
          assumption
        · refine State.meshEnter_keeps ?_ _
          assumption

theorem execMeshDequeue_keeps {s0 s : State} (h : Keeps s0 s) :
    KeepsO s0 (execMeshDequeue s) := by
  unfold execMeshDequeue
  refine keepsO_next ?_
  refine keeps_ite ?_ ?_
  · assumption
  · split
    · assumption
    · split
      · assumption
      · refine State.meshTake_keeps ?_ _ _
        assumption

theorem execIndirectExpire_keeps {s0 s : State} (h : Keeps s0 s) :
    KeepsO s0 (execIndirectExpire s) := by
  unfold execIndirectExpire
  extract_lets +onlyGivenNames v1
  clear_value v1
  refine keepsO_next ?_
  refine State.each_keeps ?_ ?_ _
  · refine State.setInd_keeps ?_ _
    assumption
  · intro y2 y3 y4
    refine State.release_keeps ?_ _
    refine State.mshCnt_keeps ?_ _
    assumption

theorem execMeshStoreExpire_keeps {s0 s : State} (h : Keeps s0 s) :
    KeepsO s0 (execMeshStoreExpire s) := by
  unfold execMeshStoreExpire
  extract_lets +onlyGivenNames v1
  clear_value v1
  extract_lets +onlyGivenNames v2
  clear_value v2
  extract_lets +onlyGivenNames v3
  have h4 : Keeps s0 v3 := by
    dsimp only [v3]
    refine keeps_mk ?_ rfl rfl rfl
    assumption
  clear_value v3
  refine keepsO_next ?_
  refine State.each_keeps ?_ ?_ _
  · assumption
  · intro y5 y6 y7
    refine State.release_keeps ?_ _
    refine State.mshCnt_keeps ?_ _
    assumption

theorem execSeenExpire_keeps {s0 s : State} (h : Keeps s0 s) :
    KeepsO s0 (execSeenExpire s) := by
  unfold execSeenExpire
  refine keepsO_next ?_
  refine keeps_mk ?_ rfl rfl rfl
  assumption

theorem State.seenAdd_keeps {s0 s : State} (h : Keeps s0 s) (addr : ℕ) (wide : Bool) (seq : ℕ) :
    Keeps s0 (State.seenAdd s addr wide seq) := by
  unfold State.seenAdd
  refine keeps_mk ?_ rfl rfl rfl
  assumption

theorem State.meshGone_keeps {s0 s : State} (h : Keeps s0 s) (id : ℕ) :
    Keeps s0 (State.meshGone s id) := by
  unfold State.meshGone
  extract_lets +onlyGivenNames v1
  clear_value v1
  extract_lets +onlyGivenNames v2
  have h3 : Keeps s0 v2 := by
    dsimp only [v2]
    refine keeps_mk ?_ rfl rfl rfl
    assumption
  clear_value v2
  refine State.release_keeps ?_ _
  refine State.setInd_keeps ?_ _
  assumption

theorem State.modMesh_keeps {s0 s : State} (h : Keeps s0 s) (id : ℕ) (f : MeshTx → MeshTx) :
    Keeps s0 (State.modMesh s id f) := by
  unfold State.modMesh
  extract_lets +onlyGivenNames v1
  clear_value v1
  refine keeps_mk ?_ rfl rfl rfl
  assumption

theorem State.meshBackoff_keeps {s0 s : State} (h : Keeps s0 s) (id : ℕ) :
    Keeps s0 (State.meshBackoff s id) := by
  unfold State.meshBackoff
  refine State.tookFree_keeps ?_
  refine State.modMesh_keeps ?_ _ _
  assumption

theorem State.meshNoAck_keeps {s0 s : State} (h : Keeps s0 s) :
    Keeps s0 (State.meshNoAck s) := by
  unfold State.meshNoAck
  split
  · assumption
  · extract_lets +onlyGivenNames v1
    have h2 : Keeps s0 v1 := by
      dsimp only [v1]
      refine State.sat_keeps ?_ _
      refine State.mshCnt_keeps ?_ _
      assumption
    clear_value v1
    extract_lets +onlyGivenNames v3
    clear_value v3
    extract_lets +onlyGivenNames v4
    have h5 : Keeps s0 v4 := by
      dsimp only [v4]
      refine keeps_mk ?_ rfl rfl rfl
      assumption
    clear_value v4
    split
    · assumption
    · refine keeps_ite ?_ ?_
      · refine State.meshGone_keeps ?_ _
        refine State.mshCnt_keeps ?_ _
        assumption
      · extract_lets +onlyGivenNames v6
        have h7 : Keeps s0 v6 := by
          dsimp only [v6]
          refine State.modMesh_keeps ?_ _ _
          assumption
        clear_value v6
        refine keeps_ite ?_ ?_
        · refine State.meshBackoff_keeps ?_ _
          assumption
        · assumption

theorem execMeshAckTimeout_keeps {s0 s : State} (h : Keeps s0 s) :
    KeepsO s0 (execMeshAckTimeout s) := by
  unfold execMeshAckTimeout
  refine keepsO_next ?_
  refine State.meshNoAck_keeps ?_
  assumption

theorem State.secFail_keeps {s0 s : State} (h : Keeps s0 s) (o : Option ℕ) :
    Keeps s0 (State.secFail s o) := by
  unfold State.secFail
  refine State.limBoth_keeps ?_ _ _ _
  refine State.mshCnt_keeps ?_ _
  assumption

theorem State.meshPayload_keeps {s0 s : State} (h : Keeps s0 s) (x : MeshTx) :
    Keeps s0 (State.meshPayload s x).2 := by
  unfold State.meshPayload
  dsimp only
  split
  · dsimp only
    refine State.seenAdd_keeps ?_ _ _ _
    refine State.tookFree_keeps ?_
    assumption
  · assumption

theorem State.meshSend_keeps {s0 s : State} (h : Keeps s0 s) (x : MeshTx) (chan : ℕ) (channel : ℕ) (asn : ℕ) (shared : Bool) (indirect : Bool) (more : Bool) :
    Keeps s0 (State.meshSend s x chan channel asn shared indirect more) := by
  unfold State.meshSend
  refine keeps_ite ?_ ?_
  · refine State.meshGone_keeps ?_ _
    refine State.secFail_keeps ?_ _
    assumption
  · extract_lets +onlyGivenNames v1
    have h2 : Keeps s0 v1.2 := by
      dsimp only [v1]
      refine State.meshPayload_keeps ?_ _
      assumption
    clear_value v1
    extract_lets +onlyGivenNames v3
    have h4 : Keeps s0 v3 := by
      dsimp only [v3]
      refine State.send_keeps ?_ _
      refine State.mshCnt_keeps ?_ _
      assumption
    clear_value v3
    refine keeps_ite ?_ ?_
    · refine keeps_mk ?_ rfl rfl rfl
      assumption
    · refine State.meshGone_keeps ?_ _
      assumption

theorem State.skipUnlock_keeps {s0 s : State} (h : Keeps s0 s) :
    Keeps s0 (State.skipUnlock s) := by
  unfold State.skipUnlock
  refine State.limDev_keeps ?_ _ _ _
  refine State.mshCnt_keeps ?_ _
  assumption

theorem State.passShared_keeps {s0 s : State} (h : Keeps s0 s) (links : List ℕ) :
    Keeps s0 (State.passShared s links) := by
  unfold State.passShared
  extract_lets +onlyGivenNames v1
  clear_value v1
  refine keeps_mk ?_ rfl rfl rfl
  assumption

theorem State.servePending_keeps {s0 s : State} (h : Keeps s0 s) (asn : ℕ) (node : ℕ) (chan : ℕ) (locked : Bool) :
    Keeps s0 (State.servePending s asn node chan locked) := by
  unfold State.servePending
  extract_lets +onlyGivenNames v1
  clear_value v1
  extract_lets +onlyGivenNames v2
  clear_value v2
  extract_lets +onlyGivenNames v3
  have h4 : Keeps s0 v3 := by
    dsimp only [v3]
    refine keeps_mk ?_ rfl rfl rfl
    assumption
  clear_value v3
  split
  · assumption
  · extract_lets +onlyGivenNames v5
    clear_value v5
    refine keeps_ite ?_ ?_
    · refine State.modMesh_keeps ?_ _ _
      refine State.mshCnt_keeps ?_ _
      assumption
    · refine keeps_ite ?_ ?_
      · refine State.modMesh_keeps ?_ _ _
        refine State.mshCnt_keeps ?_ _
        refine State.skipUnlock_keeps ?_
        assumption
      · extract_lets +onlyGivenNames v6
        have h7 : Keeps s0 v6 := by
          dsimp only [v6]
          refine State.meshSend_keeps ?_ _ _ _ _ _ _ _
          assumption
        clear_value v6
        split
        · extract_lets +onlyGivenNames v8
          have h9 : Keeps s0 v8 := by
            dsimp only [v8]
            refine State.modMesh_keeps ?_ _ _
            assumption
          clear_value v8
          refine keeps_mk ?_ rfl rfl rfl
          assumption
        · assumption

theorem State.serveTx_keeps {s0 s : State} (h : Keeps s0 s) (asn : ℕ) (i : ℕ) (locked : Bool) (busy : Bool) :
    Keeps s0 (State.serveTx s asn i locked busy) := by
  unfold State.serveTx
  extract_lets +onlyGivenNames v1
  clear_value v1
  extract_lets +onlyGivenNames v2
  clear_value v2
  extract_lets +onlyGivenNames v3
  clear_value v3
  refine keeps_ite ?_ ?_
  · refine State.skipUnlock_keeps ?_
    assumption
  · refine keeps_ite ?_ ?_
    · extract_lets +onlyGivenNames v4
      have h5 : Keeps s0 v4 := by
        dsimp only [v4]
        refine State.mshCnt_keeps ?_ _
        assumption
      clear_value v4
      refine keeps_ite ?_ ?_
      · assumption
      · split
        · refine State.meshBackoff_keeps ?_ _
          assumption
        · assumption
    · refine keeps_ite ?_ ?_
      · extract_lets +onlyGivenNames v6
        have h7 : Keeps s0 v6 := by
          dsimp only [v6]
          refine State.send_keeps ?_ _
          refine State.mshCnt_keeps ?_ _
          assumption
        clear_value v6
        refine keeps_mk ?_ rfl rfl rfl
        assumption
      · split
        · refine State.meshSend_keeps ?_ _ _ _ _ _ _ _
          assumption
        · assumption

theorem State.serveRx_keeps {s0 s : State} (h : Keeps s0 s) (asn : ℕ) (i : ℕ) (start : ℕ) (locked : Bool) :
    Keeps s0 (State.serveRx s asn i start locked) := by
  unfold State.serveRx
  refine keeps_ite ?_ ?_
  · refine State.mshCnt_keeps ?_ _
    assumption
  · extract_lets +onlyGivenNames v1
    clear_value v1
    refine keeps_mk ?_ rfl rfl rfl
    assumption

theorem State.putAsn_keeps {s0 s : State} (h : Keeps s0 s) (asn : ℕ) :
    Keeps s0 (State.putAsn s asn) := by
  unfold State.putAsn
  extract_lets +onlyGivenNames v1
  have h2 : Keeps s0 v1 := by
    dsimp only [v1]
    refine State.put_keeps ?_ _ _
    refine State.put_keeps ?_ _ _
    assumption
  clear_value v1
  extract_lets +onlyGivenNames v3
  clear_value v3
  extract_lets +onlyGivenNames v4
  have h5 : Keeps s0 v4 := by
    dsimp only [v4]
    refine keeps_mk ?_ rfl rfl rfl
    assumption
  clear_value v4
  refine keeps_ite ?_ ?_
  · extract_lets +onlyGivenNames v6
    have h7 : Keeps s0 v6 := by
      dsimp only [v6]
      refine State.put_keeps ?_ _ _
      refine State.put_keeps ?_ _ _
      assumption
    clear_value v6
    refine keeps_mk ?_ rfl rfl rfl
    assumption
  · assumption

theorem State.serveLink_keeps {s0 s : State} (h : Keeps s0 s) (asn : Nat) (start : Nat) (locked : Bool) (busy : Bool) (tx : Option Nat) (rx : Option Nat) (idle : Bool) :
    Keeps s0 (State.serveLink s asn start locked busy tx rx idle) := by
  unfold State.serveLink
  split
  · refine State.serveTx_keeps ?_ _ _ _ _
    assumption
  · refine State.serveRx_keeps ?_ _ _ _ _
    assumption
  · refine keeps_mk ?_ rfl rfl rfl
    assumption

theorem State.slotWork_keeps {s0 s : State} (h : Keeps s0 s) (asn : Nat) (start : Nat) (locked : Bool) (busy : Bool) (tx : Option Nat) (rx : Option Nat) (idle : Bool) :
    Keeps s0 (State.slotWork s asn start locked busy tx rx idle) := by
  unfold State.slotWork
  split
  · refine keeps_ite ?_ ?_
    · refine State.servePending_keeps ?_ _ _ _ _
      refine State.when_keeps ?_ ?_ _
      · assumption
      · intro y1 y2
        refine State.mshCnt_keeps ?_ _
        assumption
    · refine State.serveLink_keeps ?_ _ _ _ _ _ _ _
      refine keeps_mk ?_ rfl rfl rfl
      assumption
  · refine State.serveLink_keeps ?_ _ _ _ _ _ _ _
    assumption

theorem State.meshSlot_keeps {s0 s : State} (h : Keeps s0 s) (start : ℕ) (locked : Bool) (busy : Bool) :
    Keeps s0 (State.meshSlot s start locked busy) := by
  unfold State.meshSlot
  extract_lets +onlyGivenNames v1
  clear_value v1
  extract_lets +onlyGivenNames v2
  have h3 : Keeps s0 v2 := by
    dsimp only [v2]
    refine State.putB_keeps ?_ _ _
    refine State.putAsn_keeps ?_ _
    refine State.meshNoAck_keeps ?_
    assumption
  clear_value v2
  extract_lets +onlyGivenNames v4
  clear_value v4
  extract_lets +onlyGivenNames v5
  clear_value v5
  extract_lets +onlyGivenNames v6
  have h7 : Keeps s0 v6 := by
    dsimp only [v6]
    refine State.satBy_keeps ?_ _ _
    assumption
  clear_value v6
  extract_lets +onlyGivenNames v8
  clear_value v8
  extract_lets +onlyGivenNames v9
  clear_value v9
  extract_lets +onlyGivenNames v10
  have h11 : Keeps s0 v10 := by
    dsimp only [v10]
    refine State.passShared_keeps ?_ _
    assumption
  clear_value v10
  refine State.slotWork_keeps ?_ _ _ _ _ _ _ _
  assumption

theorem execMeshSlotStart_keeps {s0 s : State} (h : Keeps s0 s) (locked : Bool) (busy : Bool) :
    KeepsO s0 (execMeshSlotStart locked busy s) := by
  unfold execMeshSlotStart
  refine keepsO_next ?_
  split
  · assumption
  · refine keeps_ite ?_ ?_
    · assumption
    · refine State.meshSlot_keeps ?_ _ _ _
      assumption

theorem State.meshAcked_keeps {s0 s : State} (h : Keeps s0 s) (f : RadioFrame) :
    Keeps s0 (State.meshAcked s f) := by
  unfold State.meshAcked
  split
  · assumption
  · refine keeps_ite ?_ ?_
    · refine State.secFail_keeps ?_ _
      assumption
    · extract_lets +onlyGivenNames v1
      clear_value v1
      extract_lets +onlyGivenNames v2
      have h3 : Keeps s0 v2 := by
        dsimp only [v2]
        refine State.heardNode_keeps ?_ _
        refine State.mshCnt_keeps ?_ _
        refine keeps_mk ?_ rfl rfl rfl
        assumption
      clear_value v2
      refine State.meshGone_keeps ?_ _
      assumption

theorem State.meshDeliver_keeps {s0 s : State} (h : Keeps s0 s) (o : Option ℕ) (node : Option ℕ) (payload : List Byte) (stamp : ℕ) :
    Keeps s0 (State.meshDeliver s o node payload stamp) := by
  unfold State.meshDeliver
  refine State.toClassifier_keeps ?_ _
  assumption

theorem State.meshFlood_keeps {s0 s : State} (h : Keeps s0 s) (f : RadioFrame) (o : Option ℕ) (node : Option ℕ) (payload : List Byte) (h : MeshHead) (seq : ℕ) (stamp : ℕ) :
    Keeps s0 (State.meshFlood s f o node payload h seq stamp) := by
  unfold State.meshFlood
  refine keeps_ite ?_ ?_
  · refine State.mshCnt_keeps ?_ _
    assumption
  · extract_lets +onlyGivenNames v1
    have h2 : Keeps s0 v1 := by
      dsimp only [v1]
      refine State.meshDeliver_keeps ?_ _ _ _ _
      refine State.seenAdd_keeps ?_ _ _ _
      assumption
    clear_value v1
    refine keeps_ite ?_ ?_
    · assumption
    · extract_lets +onlyGivenNames v3
      clear_value v3
      extract_lets +onlyGivenNames v4
      have h5 : Keeps s0 v4 := by
        dsimp only [v4]
        refine State.admitSdu_keeps ?_ _
        assumption
      clear_value v4
      refine keeps_ite ?_ ?_
      · refine State.mshCnt_keeps ?_ _
        refine State.meshEnter_keeps ?_ _
        assumption
      · assumption

theorem State.meshAnswer_keeps {s0 s : State} (h : Keeps s0 s) (f : RadioFrame) (l : MeshListen) (node : Option ℕ) :
    Keeps s0 (State.meshAnswer s f l node) := by
  unfold State.meshAnswer
  refine keeps_ite ?_ ?_
  · assumption
  · extract_lets +onlyGivenNames v1
    clear_value v1
    extract_lets +onlyGivenNames v2
    clear_value v2
    extract_lets +onlyGivenNames v3
    have h4 : Keeps s0 v3 := by
      dsimp only [v3]
      refine State.send_keeps ?_ _
      refine State.tookFree_keeps ?_
      assumption
    clear_value v3
    split
    · extract_lets +onlyGivenNames v5
      have h6 : Keeps s0 v5 := by
        dsimp only [v5]
        refine State.modMesh_keeps ?_ _ _
        assumption
      clear_value v5
      refine keeps_mk ?_ rfl rfl rfl
      assumption
    · assumption

theorem State.meshReceive_keeps {s0 s : State} (h : Keeps s0 s) (f : RadioFrame) (l : MeshListen) :
    Keeps s0 (State.meshReceive s f l) := by
  unfold State.meshReceive
  extract_lets +onlyGivenNames v1
  clear_value v1
  extract_lets +onlyGivenNames v2
  have h3 : Keeps s0 v2 := by
    dsimp only [v2]
    refine keeps_mk ?_ rfl rfl rfl
    assumption
  clear_value v2
  extract_lets +onlyGivenNames v4
  clear_value v4
  extract_lets +onlyGivenNames v5
  clear_value v5
  refine keeps_ite ?_ ?_
  · refine State.sat_keeps ?_ _
    refine State.mshCnt_keeps ?_ _
    assumption
  · refine keeps_ite ?_ ?_
    · refine State.mshCnt_keeps ?_ _
      assumption
    · refine keeps_ite ?_ ?_
      · assumption
      · extract_lets +onlyGivenNames v6
        have h7 : Keeps s0 v6 := by
          dsimp only [v6]
          refine State.mshCnt_keeps ?_ _
          assumption
        clear_value v6
        split
        · refine State.secFail_keeps ?_ _
          assumption
        · extract_lets +onlyGivenNames v8
          clear_value v8
          extract_lets +onlyGivenNames v9
          clear_value v9
          extract_lets +onlyGivenNames v10
          clear_value v10
          refine keeps_ite ?_ ?_
          · refine State.secFail_keeps ?_ _
            assumption
          · extract_lets +onlyGivenNames v11
            have h12 : Keeps s0 v11 := by
              dsimp only [v11]
              split
              · refine State.heardNode_keeps ?_ _
                assumption
              · assumption
            clear_value v11
            extract_lets +onlyGivenNames v13
            have h14 : Keeps s0 v13 := by
              dsimp only [v13]
              refine State.when_keeps ?_ ?_ _
              · refine State.meshAnswer_keeps ?_ _ _ _
                assumption
              · intro y15 y16
                refine State.mshCnt_keeps ?_ _
                assumption
            clear_value v13
            refine keeps_ite ?_ ?_
            · assumption
            · extract_lets +onlyGivenNames v17
              clear_value v17
              split
              · refine State.meshFlood_keeps ?_ _ _ _ _ _ _ _
                assumption
              · refine State.meshDeliver_keeps ?_ _ _ _ _
                assumption

theorem execMeshFrameRx_keeps {s0 s : State} (h : Keeps s0 s) (frame : RadioFrame) :
    KeepsO s0 (execMeshFrameRx frame s) := by
  unfold execMeshFrameRx
  refine keepsO_next ?_
  refine keeps_ite ?_ ?_
  · split
    · refine keeps_ite ?_ ?_
      · refine State.sat_keeps ?_ _
        refine State.mshCnt_keeps ?_ _
        assumption
      · refine keeps_ite ?_ ?_
        · refine State.mshCnt_keeps ?_ _
          assumption
        · refine State.meshAcked_keeps ?_ _
          assumption
    · assumption
  · split
    · assumption
    · extract_lets +onlyGivenNames v1
      clear_value v1
      refine keeps_ite ?_ ?_
      · refine State.meshReceive_keeps ?_ _ _
        assumption
      · assumption

end Sys2Proof.Machine
end

