-- ==== Sys2Proof/Laws/KeepsDomains.lean ====
section
/-!
SUPPORT. What Domains.lean leaves untouched (Keeps), operation by operation.
-/

namespace Sys2Proof.Machine

open Sys2Proof

theorem State.resetRegs_keeps {s0 s : State} (h : Keeps s0 s) (p : Nat → Bool) : Keeps s0 (s.resetRegs p) :=
  keeps_regs (t := s) (u := s.resetRegs p) rfl rfl rfl rfl rfl rfl (remapRegs_wf · (fun a w => if p a then wordReset a w else w)) h

theorem State.rewindRegs_keeps {s0 s : State} (h : Keeps s0 s) (p : Nat → Bool) : Keeps s0 (s.rewindRegs p) :=
  keeps_regs (t := s) (u := s.rewindRegs p) rfl rfl rfl rfl rfl rfl (remapRegs_wf · (fun a w => if p a then wordRewind a w else w)) h

theorem State.ethOff_keeps {s0 s : State} (h : Keeps s0 s) (p : ℕ) :
    Keeps s0 (State.ethOff s p) := by
  unfold State.ethOff
  extract_lets +onlyGivenNames v1
  have h2 : Keeps s0 v1 := by
    dsimp only [v1]
    refine State.loseTx_keeps ?_ _
    refine State.settlePort_keeps ?_ _
    assumption
  clear_value v1
  extract_lets +onlyGivenNames v3
  clear_value v3
  extract_lets +onlyGivenNames v4
  have h5 : Keeps s0 v4 := by
    dsimp only [v4]
    refine State.resetRegs_keeps ?_ _
    assumption
  clear_value v4
  refine State.modEth_keeps ?_ _ _
  assumption

theorem State.tdmOff_keeps {s0 s : State} (h : Keeps s0 s) (ports : List ℕ) :
    Keeps s0 (State.tdmOff s ports) := by
  unfold State.tdmOff
  refine State.each_keeps ?_ ?_ _
  · assumption
  · intro y1 y2 y3
    extract_lets +onlyGivenNames v4
    clear_value v4
    extract_lets +onlyGivenNames v5
    have h6 : Keeps s0 v5 := by
      dsimp only [v5]
      refine State.setTdmPort_keeps ?_ _ _
      assumption
    clear_value v5
    refine State.resetRegs_keeps ?_ _
    assumption

theorem State.pointsOff_keeps {s0 s : State} (h : Keeps s0 s) :
    Keeps s0 (State.pointsOff s) := by
  unfold State.pointsOff
  extract_lets +onlyGivenNames v1
  have h2 : Keeps s0 v1 := by
    dsimp only [v1]
    refine State.each_keeps ?_ ?_ _
    · assumption
    · intro y3 y4 y5
      refine State.doutOff_keeps ?_ _
      assumption
  clear_value v1
  extract_lets +onlyGivenNames v6
  have h7 : Keeps s0 v6 := by
    dsimp only [v6]
    refine State.each_keeps ?_ ?_ _
    · assumption
    · intro y8 y9 y10
      refine State.setTout_keeps ?_ _ _
      assumption
  clear_value v6
  extract_lets +onlyGivenNames v11
  have h12 : Keeps s0 v11 := by
    dsimp only [v11]
    refine State.resetRegs_keeps ?_ _
    assumption
  clear_value v11
  refine keeps_mk ?_ rfl rfl rfl
  assumption

theorem State.dieOff_keeps {s0 s : State} (h : Keeps s0 s) :
    Keeps s0 (State.dieOff s) := by
  unfold State.dieOff
  extract_lets +onlyGivenNames v1
  have h2 : Keeps s0 v1 := by
    dsimp only [v1]
    refine State.resetRegs_keeps ?_ _
    refine State.loopsStale_keeps ?_
    assumption
  clear_value v1
  extract_lets +onlyGivenNames v3
  clear_value v3
  refine keeps_mk ?_ rfl rfl rfl
  assumption

theorem State.hifOff_keeps {s0 s : State} (h : Keeps s0 s) : Keeps s0 s.hifOff := by
  exact keeps_table (t := s.resetRegs (fun a => within 0x2C0000 0x2C0100 a || within 0x2C0200 0x2C0400 a ||
    within 0x2C1000 0x2E0000 a)) (u := s.hifOff) rfl rfl rfl rfl rfl rfl (fun _ => rfl) (State.resetRegs_keeps h _)

theorem State.pendantOff_keeps {s0 s : State} (h : Keeps s0 s) :
    Keeps s0 (State.pendantOff s) := by
  unfold State.pendantOff
  extract_lets +onlyGivenNames v1
  have h2 : Keeps s0 v1 := by
    dsimp only [v1]
    refine State.when_keeps ?_ ?_ _
    · assumption
    · intro y3 y4
      refine State.pndCnt_keeps ?_ _
      assumption
  clear_value v1
  extract_lets +onlyGivenNames v5
  have h6 : Keeps s0 v5 := by
    dsimp only [v5]
    refine State.putB_keeps ?_ _ _
    refine State.put_keeps ?_ _ _
    assumption
  clear_value v5
  refine keeps_mk ?_ rfl rfl rfl
  assumption

theorem State.supOff_keeps {s0 s : State} (h : Keeps s0 s) :
    Keeps s0 (State.supOff s) := by
  unfold State.supOff
  extract_lets +onlyGivenNames v1
  clear_value v1
  extract_lets +onlyGivenNames v2
  clear_value v2
  refine keeps_mk ?_ rfl rfl rfl
  assumption

theorem State.busOff_keeps {s0 s : State} (h : Keeps s0 s) :
    Keeps s0 (State.busOff s) := by
  unfold State.busOff
  extract_lets +onlyGivenNames v1
  have h2 : Keeps s0 v1 := by
    dsimp only [v1]
    refine State.resetRegs_keeps ?_ _
    refine State.putB_keeps ?_ _ _
    refine State.endSet_keeps ?_
    assumption
  clear_value v1
  refine State.syncLaser_keeps ?_
  refine State.syncUp_keeps ?_
  refine keeps_mk ?_ rfl rfl rfl
  assumption

theorem State.keysOff_keeps {s0 s : State} (h : Keeps s0 s) :
    Keeps s0 (State.keysOff s) := by
  unfold State.keysOff
  extract_lets +onlyGivenNames v1
  have h2 : Keeps s0 v1 := by
    dsimp only [v1]
    refine State.each_keeps ?_ ?_ _
    · assumption
    · intro y3 y4 y5
      refine State.emptySlot_keeps ?_ _
      assumption
  clear_value v1
  refine keeps_mk ?_ rfl rfl rfl
  assumption

theorem State.flashOff_keeps {s0 s : State} (h : Keeps s0 s) (bank : ℕ) :
    Keeps s0 (State.flashOff s bank) := by
  unfold State.flashOff
  extract_lets +onlyGivenNames v1
  clear_value v1
  refine keeps_ite ?_ ?_
  · refine State.tookFree_keeps ?_
    refine keeps_mk ?_ rfl rfl rfl
    assumption
  · assumption

theorem State.domainLost_keeps {s0 s : State} (h : Keeps s0 s) (d : Nat) :
    Keeps s0 (State.domainLost s d) := by
  unfold State.domainLost
  split
  · extract_lets +onlyGivenNames v1
    have h2 : Keeps s0 v1 := by
      dsimp only [v1]
      refine State.resetRegs_keeps ?_ _
      assumption
    clear_value v1
    refine keeps_mk ?_ rfl rfl rfl
    assumption
  · extract_lets +onlyGivenNames v3
    have h4 : Keeps s0 v3 := by
      dsimp only [v3]
      refine State.putB_keeps ?_ _ _
      assumption
    clear_value v3
    refine keeps_mk ?_ rfl rfl rfl
    assumption
  · refine State.busOff_keeps ?_
    assumption
  · extract_lets +onlyGivenNames v5
    have h6 : Keeps s0 v5 := by
      dsimp only [v5]
      refine State.putB_keeps ?_ _ _
      refine State.resetRegs_keeps ?_ _
      assumption
    clear_value v5
    refine keeps_mk ?_ rfl rfl rfl
    assumption
  · refine keeps_mk ?_ rfl rfl rfl
    assumption
  · refine keeps_mk ?_ rfl rfl rfl
    assumption
  · refine keeps_mk ?_ rfl rfl rfl
    assumption
  · refine keeps_mk ?_ rfl rfl rfl
    assumption
  · extract_lets +onlyGivenNames v7
    have h8 : Keeps s0 v7 := by
      dsimp only [v7]
      refine State.resetRegs_keeps ?_ _
      assumption
    clear_value v7
    refine keeps_mk ?_ rfl rfl rfl
    assumption
  · refine State.ethOff_keeps ?_ _
    assumption
  · refine State.ethOff_keeps ?_ _
    assumption
  · refine State.ethOff_keeps ?_ _
    assumption
  · refine State.ethOff_keeps ?_ _
    assumption
  · refine State.ethOff_keeps ?_ _
    assumption
  · refine State.ethOff_keeps ?_ _
    assumption
  · refine State.tdmOff_keeps ?_ _
    assumption
  · refine State.tdmOff_keeps ?_ _
    assumption
  · refine State.pointsOff_keeps ?_
    assumption
  · refine State.meshStop_keeps ?_
    assumption
  · extract_lets +onlyGivenNames v9
    have h10 : Keeps s0 v9 := by
      dsimp only [v9]
      refine State.meshStop_keeps ?_
      assumption
    clear_value v9
    extract_lets +onlyGivenNames v11
    have h12 : Keeps s0 v11 := by
      dsimp only [v11]
      refine State.resetRegs_keeps ?_ _
      assumption
    clear_value v11
    refine keeps_mk ?_ rfl rfl rfl
    assumption
  · refine State.dieOff_keeps ?_
    assumption
  · refine State.dieOff_keeps ?_
    assumption
  · refine State.hifOff_keeps ?_
    assumption
  · refine State.supOff_keeps ?_
    assumption
  · refine State.flashOff_keeps ?_ _
    assumption
  · refine State.flashOff_keeps ?_ _
    assumption
  · refine State.pendantOff_keeps ?_
    assumption
  · refine State.keysOff_keeps ?_
    assumption
  · assumption

theorem State.domainOff_keeps {s0 s : State} (h : Keeps s0 s) (d : ℕ) :
    Keeps s0 (State.domainOff s d) := by
  unfold State.domainOff
  refine keeps_ite ?_ ?_
  · refine State.domainLost_keeps ?_ _
    refine keeps_mk ?_ rfl rfl rfl
    assumption
  · assumption

theorem State.domainBack_keeps {s0 s : State} (h : Keeps s0 s) (d : ℕ) :
    Keeps s0 (State.domainBack s d) := by
  unfold State.domainBack
  refine keeps_ite ?_ ?_
  · assumption
  · extract_lets +onlyGivenNames v1
    clear_value v1
    extract_lets +onlyGivenNames v2
    have h3 : Keeps s0 v2 := by
      dsimp only [v2]
      refine keeps_mk ?_ rfl rfl rfl
      assumption
    clear_value v2
    split
    · refine State.startRelock_keeps ?_
      assumption
    · refine keeps_mk ?_ rfl rfl rfl
      assumption
    · refine keeps_mk ?_ rfl rfl rfl
      assumption
    · refine keeps_mk ?_ rfl rfl rfl
      assumption
    · refine keeps_mk ?_ rfl rfl rfl
      assumption
    · refine State.each_keeps ?_ ?_ _
      · assumption
      · intro y4 y5 y6
        refine State.startPort_keeps ?_ _
        assumption
    · refine State.each_keeps ?_ ?_ _
      · assumption
      · intro y7 y8 y9
        refine State.startPort_keeps ?_ _
        assumption
    · refine State.recoverKeys_keeps ?_
      assumption
    · assumption

theorem State.tdmBlockReset_keeps {s0 s : State} (h : Keeps s0 s) :
    Keeps s0 (State.tdmBlockReset s) := by
  unfold State.tdmBlockReset
  extract_lets +onlyGivenNames v1
  have h2 : Keeps s0 v1 := by
    dsimp only [v1]
    refine State.each_keeps ?_ ?_ _
    · assumption
    · intro y3 y4 y5
      refine State.setMem_keeps ?_ _ _
      refine State.putB_keeps ?_ _ _
      refine State.dropMembers_keeps ?_ _
      assumption
  clear_value v1
  extract_lets +onlyGivenNames v6
  have h7 : Keeps s0 v6 := by
    dsimp only [v6]
    refine State.each_keeps ?_ ?_ _
    · assumption
    · intro y8 y9 y10
      refine State.putB_keeps ?_ _ _
      refine State.put_keeps ?_ _ _
      refine State.unstart_keeps ?_ _
      assumption
  clear_value v6
  refine keeps_mk ?_ rfl rfl rfl
  assumption

theorem State.blockEffect_keeps {s0 s : State} (h : Keeps s0 s) (b : Nat) :
    Keeps s0 (State.blockEffect s b) := by
  unfold State.blockEffect
  refine keeps_ite ?_ ?_
  · refine State.syncLink_keeps ?_ _
    refine State.modEth_keeps ?_ _ _
    refine State.abortTx_keeps ?_ _
    assumption
  · split
    · refine State.tdmBlockReset_keeps ?_
      assumption
    · refine State.meshStop_keeps ?_
      assumption
    · extract_lets +onlyGivenNames v1
      have h2 : Keeps s0 v1 := by
        dsimp only [v1]
        refine State.loopsStale_keeps ?_
        refine State.putB_keeps ?_ _ _
        assumption
      clear_value v1
      refine keeps_mk ?_ rfl rfl rfl
      assumption
    · extract_lets +onlyGivenNames v3
      have h4 : Keeps s0 v3 := by
        dsimp only [v3]
        refine State.putB_keeps ?_ _ _
        refine State.putB_keeps ?_ _ _
        refine State.endSet_keeps ?_
        assumption
      clear_value v3
      refine State.syncLaser_keeps ?_
      refine State.syncUp_keeps ?_
      refine keeps_mk ?_ rfl rfl rfl
      assumption
    · extract_lets +onlyGivenNames v5
      clear_value v5
      extract_lets +onlyGivenNames v6
      clear_value v6
      refine keeps_mk ?_ rfl rfl rfl
      assumption
    · assumption

theorem State.blockReset_keeps {s0 s : State} (h : Keeps s0 s) (b : ℕ) :
    Keeps s0 (State.blockReset s b) := by
  unfold State.blockReset
  extract_lets +onlyGivenNames v1
  have h2 : Keeps s0 v1 := by
    dsimp only [v1]
    refine State.rewindRegs_keeps ?_ _
    refine State.blockEffect_keeps ?_ _
    assumption
  clear_value v1
  refine keeps_ite ?_ ?_
  · refine State.each_keeps ?_ ?_ _
    · assumption
    · intro y3 y4 y5
      refine State.startPort_keeps ?_ _
      assumption
  · assumption

end Sys2Proof.Machine
end

