-- ==== Sys2Proof/Laws/KeepsHif.lean ====
section
/-!
SUPPORT. What Hif.lean leaves untouched (Keeps), operation by operation.
-/

namespace Sys2Proof.Machine

open Sys2Proof

theorem State.hifLog_keeps {s0 s : State} (h : Keeps s0 s) (n : ℕ) (r : ℕ) (code : ℕ) :
    Keeps s0 (State.hifLog s n r code) := by
  unfold State.hifLog
  extract_lets +onlyGivenNames v1
  have h2 : Keeps s0 v1 := by
    dsimp only [v1]
    refine State.logNiche_keeps ?_ _ _ _
    refine State.put_keeps ?_ _ _
    assumption
  clear_value v1
  refine keeps_ite ?_ ?_
  · assumption
  · refine State.raiseNiche_keeps ?_ _ _
    assumption

theorem execRingEnable_keeps {s0 s : State} (h : Keeps s0 s) (who : Agent) (niche : Fin 16) (ring : Fin 64) (data : Word) :
    KeepsO s0 (execRingEnable who niche ring data s) := by
  unfold execRingEnable
  extract_lets +onlyGivenNames v1
  clear_value v1
  extract_lets +onlyGivenNames v2
  clear_value v2
  refine keepsO_next ?_
  refine keeps_ite ?_ ?_
  · assumption
  · refine keeps_ite ?_ ?_
    · refine State.hifLog_keeps ?_ _ _ _
      assumption
    · extract_lets +onlyGivenNames v3
      have h4 : Keeps s0 v3 := by
        dsimp only [v3]
        refine State.setWord_keeps ?_ _ _
        assumption
      clear_value v3
      extract_lets +onlyGivenNames v5
      have h6 : Keeps s0 v5 := by
        dsimp only [v5]
        refine State.put_keeps ?_ _ _
        refine State.put_keeps ?_ _ _
        refine State.put_keeps ?_ _ _
        assumption
      clear_value v5
      refine State.setRing_keeps ?_ _ _ _
      refine State.putB_keeps ?_ _ _
      assumption

theorem execRingDisable_keeps {s0 s : State} (h : Keeps s0 s) (who : Agent) (niche : Fin 16) (ring : Fin 64) (data : Word) :
    KeepsO s0 (execRingDisable who niche ring data s) := by
  unfold execRingDisable
  extract_lets +onlyGivenNames v1
  clear_value v1
  extract_lets +onlyGivenNames v2
  clear_value v2
  refine keepsO_next ?_
  refine keeps_ite ?_ ?_
  · assumption
  · refine keeps_ite ?_ ?_
    · refine State.hifLog_keeps ?_ _ _ _
      assumption
    · refine State.setWord_keeps ?_ _ _
      assumption

theorem execRingDoorbell_keeps {s0 s : State} (h : Keeps s0 s) (who : Agent) (niche : Fin 16) (ring : Fin 64) (p : Word) :
    KeepsO s0 (execRingDoorbell who niche ring p s) := by
  unfold execRingDoorbell
  extract_lets +onlyGivenNames v1
  clear_value v1
  extract_lets +onlyGivenNames v2
  clear_value v2
  refine keepsO_next ?_
  refine keeps_ite ?_ ?_
  · assumption
  · refine keeps_ite ?_ ?_
    · refine State.hifLog_keeps ?_ _ _ _
      assumption
    · refine keeps_ite ?_ ?_
      · refine State.sat_keeps ?_ _
        assumption
      · split
        · assumption
        · refine State.sat_keeps ?_ _
          assumption
        · refine State.limNiche_keeps ?_ _ _ _
          refine State.put_keeps ?_ _ _
          refine State.sat_keeps ?_ _
          assumption
        · refine State.put_keeps ?_ _ _
          assumption

theorem State.deliverRx_keeps {s0 s : State} (h : Keeps s0 s) (n : ℕ) (r : ℕ) (d : Sdu) (k : ℕ) (size : ℕ) (addrs : List (BitVec 64)) :
    Keeps s0 (State.deliverRx s n r d k size addrs) := by
  unfold State.deliverRx
  extract_lets +onlyGivenNames v1
  clear_value v1
  extract_lets +onlyGivenNames v2
  have h3 : Keeps s0 v2 := by
    dsimp only [v2]
    refine State.consume_keeps ?_ _ _ _
    refine State.dequeue_keeps ?_ _
    assumption
  clear_value v2
  extract_lets +onlyGivenNames v4
  have h5 : Keeps s0 v4 := by
    dsimp only [v4]
    refine State.each_keeps ?_ ?_ _
    · assumption
    · intro y6 y7 y8
      refine State.dmaWrite_keeps ?_ _ _ _
      assumption
  clear_value v4
  extract_lets +onlyGivenNames v9
  have h10 : Keeps s0 v9 := by
    dsimp only [v9]
    refine State.release_keeps ?_ _
    assumption
  clear_value v9
  refine State.each_keeps ?_ ?_ _
  · assumption
  · intro y11 y12 y13
    refine State.completeAt_keeps ?_ _ _ _ _
    assumption

theorem execRxSduDeliver_keeps {s0 s : State} (h : Keeps s0 s) (niche : Fin 16) (ring : Fin 64) (addrs : List (BitVec 64)) :
    KeepsO s0 (execRxSduDeliver niche ring addrs s) := by
  unfold execRxSduDeliver
  refine keepsO_next ?_
  split
  · assumption
  · refine State.deliverRx_keeps ?_ _ _ _ _ _ _
    assumption

theorem State.refuseTx_keeps {s0 s : State} (h : Keeps s0 s) (n : ℕ) (r : ℕ) (i : ℕ) (k : ℕ) (ident : ℕ) (status : ℕ) (reason : ℕ) (len : ℕ) :
    Keeps s0 (State.refuseTx s n r i k ident status reason len) := by
  unfold State.refuseTx
  extract_lets +onlyGivenNames v1
  have h2 : Keeps s0 v1 := by
    dsimp only [v1]
    refine keeps_ite ?_ ?_
    · refine State.put_keeps ?_ _ _
      refine State.sat_keeps ?_ _
      assumption
    · assumption
  clear_value v1
  refine State.completeTx_keeps ?_ _ _ _ _ _ _ _ _
  assumption

theorem State.admitTx_keeps {s0 s : State} (h : Keeps s0 s) (n : ℕ) (r : ℕ) (i : ℕ) (k : ℕ) (d : List Byte) (data : List Byte) :
    Keeps s0 (State.admitTx s n r i k d data) := by
  unfold State.admitTx
  extract_lets +onlyGivenNames v1
  clear_value v1
  extract_lets +onlyGivenNames v2
  clear_value v2
  extract_lets +onlyGivenNames v3
  clear_value v3
  extract_lets +onlyGivenNames v4
  have h5 : Keeps s0 v4 := by
    dsimp only [v4]
    refine State.admitSdu_keeps ?_ _
    assumption
  clear_value v4
  refine keeps_ite ?_ ?_
  · refine State.completeTx_keeps ?_ _ _ _ _ _ _ _ _
    assumption
  · refine keeps_ite ?_ ?_
    · refine State.refuseTx_keeps ?_ _ _ _ _ _ _ _ _
      assumption
    · extract_lets +onlyGivenNames v6
      have h7 : Keeps s0 v6 := by
        dsimp only [v6]
        refine State.putB_keeps ?_ _ _
        assumption
      clear_value v6
      refine keeps_mk ?_ rfl rfl rfl
      assumption

theorem State.fetchTx_keeps {s0 s : State} (h : Keeps s0 s) (n : ℕ) (r : ℕ) (chain : List (List Byte)) (data : Option (List Byte)) :
    Keeps s0 (State.fetchTx s n r chain data) := by
  unfold State.fetchTx
  extract_lets +onlyGivenNames v1
  clear_value v1
  extract_lets +onlyGivenNames v2
  clear_value v2
  extract_lets +onlyGivenNames v3
  clear_value v3
  extract_lets +onlyGivenNames v4
  clear_value v4
  extract_lets +onlyGivenNames v5
  clear_value v5
  extract_lets +onlyGivenNames v6
  have h7 : Keeps s0 v6 := by
    dsimp only [v6]
    refine State.consume_keeps ?_ _ _ _
    assumption
  clear_value v6
  refine keeps_ite ?_ ?_
  · refine State.refuseTx_keeps ?_ _ _ _ _ _ _ _ _
    assumption
  · split
    · split
      · refine State.completeTx_keeps ?_ _ _ _ _ _ _ _ _
        refine State.ringError_keeps ?_ _ _
        assumption
      · refine State.admitTx_keeps ?_ _ _ _ _ _ _
        assumption
    · refine State.completeTx_keeps ?_ _ _ _ _ _ _ _ _
      refine State.countDenied_keeps ?_ _ _
      assumption
    · refine State.refuseTx_keeps ?_ _ _ _ _ _ _ _ _
      assumption

theorem execTxSduFetch_keeps {s0 s : State} (h : Keeps s0 s) (niche : Fin 16) (ring : Fin 64) (chain : List (List Byte)) (data : Option (List Byte)) :
    KeepsO s0 (execTxSduFetch niche ring chain data s) := by
  unfold execTxSduFetch
  refine keepsO_next ?_
  refine keeps_ite ?_ ?_
  · refine State.fetchTx_keeps ?_ _ _ _ _
    assumption
  · assumption

theorem execRingHoldoffExpiry_keeps {s0 s : State} (h : Keeps s0 s) (niche : Fin 16) (ring : Fin 64) :
    KeepsO s0 (execRingHoldoffExpiry niche ring s) := by
  unfold execRingHoldoffExpiry
  extract_lets +onlyGivenNames v1
  clear_value v1
  extract_lets +onlyGivenNames v2
  clear_value v2
  refine keepsO_next ?_
  split
  · refine keeps_ite ?_ ?_
    · refine State.signalRing_keeps ?_ _ _
      assumption
    · assumption
  · assumption

theorem State.rxAbort_keeps {s0 s : State} (h : Keeps s0 s) (n : ℕ) (r : ℕ) :
    Keeps s0 (State.rxAbort s n r) := by
  unfold State.rxAbort
  split
  · refine State.release_keeps ?_ _
    refine State.sat_keeps ?_ _
    assumption
  · assumption

theorem execDmaError_keeps {s0 s : State} (h : Keeps s0 s) (niche : Fin 16) (ring : Fin 64) (what : DmaFailure) :
    KeepsO s0 (execDmaError niche ring what s) := by
  unfold execDmaError
  extract_lets +onlyGivenNames v1
  clear_value v1
  extract_lets +onlyGivenNames v2
  clear_value v2
  refine keepsO_next ?_
  refine keeps_ite ?_ ?_
  · assumption
  · split
    · refine State.ringError_keeps ?_ _ _
      refine State.rxAbort_keeps ?_ _ _
      assumption
    · refine State.ringError_keeps ?_ _ _
      assumption

theorem execBusMasterDisable_keeps {s0 s : State} (h : Keeps s0 s) (fn : Fin 17) (rx : List (Fin 16 × Fin 64)) (tx : List (Fin 16 × Fin 64 × Fin 17)) :
    KeepsO s0 (execBusMasterDisable fn rx tx s) := by
  unfold execBusMasterDisable
  extract_lets +onlyGivenNames v1
  clear_value v1
  extract_lets +onlyGivenNames v2
  have h3 : Keeps s0 v2 := by
    dsimp only [v2]
    refine State.each_keeps ?_ ?_ _
    · assumption
    · intro y4 y5 y6
      refine State.rxAbort_keeps ?_ _ _
      assumption
  clear_value v2
  extract_lets +onlyGivenNames v7
  have h8 : Keeps s0 v7 := by
    dsimp only [v7]
    refine State.each_keeps ?_ ?_ _
    · assumption
    · intro y9 y10 y11
      refine keeps_ite ?_ ?_
      · refine State.consume_keeps ?_ _ _ _
        assumption
      · assumption
  clear_value v7
  refine keepsO_next ?_
  refine State.modFn_keeps ?_ _ _
  assumption

theorem State.sendPending_keeps {s0 s : State} (h : Keeps s0 s) (f : ℕ) :
    Keeps s0 (State.sendPending s f) := by
  unfold State.sendPending
  refine State.each_keeps ?_ ?_ _
  · assumption
  · intro y1 y2 y3
    refine State.modFn_keeps ?_ _ _
    refine State.send_keeps ?_ _
    assumption

theorem execBusMasterEnable_keeps {s0 s : State} (h : Keeps s0 s) (fn : Fin 17) (cfg : HostConfig) :
    KeepsO s0 (execBusMasterEnable fn cfg s) := by
  unfold execBusMasterEnable
  extract_lets +onlyGivenNames v1
  have h2 : Keeps s0 v1 := by
    dsimp only [v1]
    refine State.putB_keeps ?_ _ _
    refine State.putB_keeps ?_ _ _
    assumption
  clear_value v1
  extract_lets +onlyGivenNames v3
  have h4 : Keeps s0 v3 := by
    dsimp only [v3]
    refine State.put_keeps ?_ _ _
    refine State.put_keeps ?_ _ _
    assumption
  clear_value v3
  extract_lets +onlyGivenNames v5
  have h6 : Keeps s0 v5 := by
    dsimp only [v5]
    refine keeps_ite ?_ ?_
    · assumption
    · refine keeps_ite ?_ ?_
      · refine State.putB_keeps ?_ _ _
        refine State.put_keeps ?_ _ _
        assumption
      · assumption
  clear_value v5
  refine keepsO_next ?_
  refine keeps_ite ?_ ?_
  · assumption
  · refine State.sendPending_keeps ?_ _
    refine State.modFn_keeps ?_ _ _
    assumption

theorem execMsixUnmask_keeps {s0 s : State} (h : Keeps s0 s) (fn : Fin 17) (vec : Option (Fin 68)) :
    KeepsO s0 (execMsixUnmask fn vec s) := by
  unfold execMsixUnmask
  extract_lets +onlyGivenNames v1
  clear_value v1
  extract_lets +onlyGivenNames v2
  have h3 : Keeps s0 v2 := by
    dsimp only [v2]
    split
    · refine State.modFn_keeps ?_ _ _
      assumption
    · refine State.putMsix_keeps ?_ _ _ _
      assumption
  clear_value v2
  refine keepsO_next ?_
  refine State.sendPending_keeps ?_ _
  assumption

theorem State.resetFn_keeps {s0 s : State} (h : Keeps s0 s) (f : Nat) : Keeps s0 (s.resetFn f) :=
  keeps_table (t := s.modFn f (fun _ => ⟨false, false, false, 0⟩)) (u := s.resetFn f) rfl rfl rfl rfl rfl rfl
    (fun c => storeWf_filter c _) (State.modFn_keeps h _ _)

theorem State.resetRings_keeps {s0 s : State} (h : Keeps s0 s) (n : Nat) : Keeps s0 (s.resetRings n) :=
  keeps_regs (t := s) (u := s.resetRings n) rfl rfl rfl rfl rfl rfl (fun c => storeWf_filter c _) h

theorem execVfFlr_keeps {s0 s : State} (h : Keeps s0 s) (v : Fin 16) :
    KeepsO s0 (execVfFlr v s) := by
  unfold execVfFlr
  extract_lets +onlyGivenNames v1
  clear_value v1
  extract_lets +onlyGivenNames v2
  clear_value v2
  refine keepsO_next ?_
  refine keeps_ite ?_ ?_
  · extract_lets +onlyGivenNames v3
    have h4 : Keeps s0 v3 := by
      dsimp only [v3]
      refine State.raisePf_keeps ?_ _
      refine State.logDev_keeps ?_ _ _ _
      assumption
    clear_value v3
    extract_lets +onlyGivenNames v5
    have h6 : Keeps s0 v5 := by
      dsimp only [v5]
      refine State.resetRings_keeps ?_ _
      refine State.resetFn_keeps ?_ _
      refine State.requestReset_keeps ?_ _ _
      assumption
    clear_value v5
    refine keeps_ite ?_ ?_
    · refine keeps_mk ?_ rfl rfl rfl
      assumption
    · assumption
  · assumption

theorem pfSide_keeps {s0 s : State} (h : Keeps s0 s) (kind : PfReset) :
    Keeps s0 (pfSide kind s) := by
  unfold pfSide
  split
  · refine State.raisePf_keeps ?_ _
    refine State.logDev_keeps ?_ _ _ _
    assumption
  · assumption
  · refine State.putB_keeps ?_ _ _
    refine State.raisePf_keeps ?_ _
    refine State.logDev_keeps ?_ _ _ _
    assumption
  · refine State.putB_keeps ?_ _ _
    refine State.putB_keeps ?_ _ _
    refine State.raisePf_keeps ?_ _
    refine State.logDev_keeps ?_ _ _ _
    assumption

theorem execPfSideReset_keeps {s0 s : State} (h : Keeps s0 s) (kind : PfReset) :
    KeepsO s0 (execPfSideReset kind s) := by
  unfold execPfSideReset
  extract_lets +onlyGivenNames v1
  clear_value v1
  extract_lets +onlyGivenNames v2
  have h3 : Keeps s0 v2 := by
    dsimp only [v2]
    refine pfSide_keeps ?_ _
    assumption
  clear_value v2
  extract_lets +onlyGivenNames v4
  have h5 : Keeps s0 v4 := by
    dsimp only [v4]
    refine State.each_keeps ?_ ?_ _
    · assumption
    · intro y6 y7 y8
      refine State.resetRings_keeps ?_ _
      refine State.requestReset_keeps ?_ _ _
      assumption
  clear_value v4
  extract_lets +onlyGivenNames v9
  have h10 : Keeps s0 v9 := by
    dsimp only [v9]
    refine keeps_foldl ?_ ?_ _
    · assumption
    · intro y11 y12 y13
      refine State.resetFn_keeps ?_ _
      assumption
  clear_value v9
  extract_lets +onlyGivenNames v14
  have h15 : Keeps s0 v14 := by
    dsimp only [v14]
    refine State.put_keeps ?_ _ _
    refine State.putB_keeps ?_ _ _
    assumption
  clear_value v14
  extract_lets +onlyGivenNames v16
  clear_value v16
  refine keepsO_next ?_
  refine keeps_mk ?_ rfl rfl rfl
  assumption

end Sys2Proof.Machine
end

