-- ==== Sys2Proof/Laws/KeepsMbx.lean ====
section
/-!
SUPPORT. What Mbx.lean leaves untouched (Keeps), operation by operation.
-/

namespace Sys2Proof.Machine

open Sys2Proof

theorem State.supLoad_keeps {s0 s : State} (h : Keeps s0 s) :
    Keeps s0 (State.supLoad s) := by
  unfold State.supLoad
  extract_lets +onlyGivenNames v1
  clear_value v1
  extract_lets +onlyGivenNames v2
  clear_value v2
  refine keeps_mk ?_ rfl rfl rfl
  assumption

theorem execSupCsFall_keeps {s0 s : State} (h : Keeps s0 s) :
    KeepsO s0 (execSupCsFall s) := by
  unfold execSupCsFall
  refine keepsO_next ?_
  refine keeps_ite ?_ ?_
  · assumption
  · refine State.wakeEvent_keeps ?_ _
    refine State.supLoad_keeps ?_
    refine keeps_mk ?_ rfl rfl rfl
    assumption

theorem State.supTransmit_keeps {s0 s : State} (h : Keeps s0 s) :
    Keeps s0 (State.supTransmit s) := by
  unfold State.supTransmit
  extract_lets +onlyGivenNames v1
  clear_value v1
  extract_lets +onlyGivenNames v2
  have h3 : Keeps s0 v2 := by
    dsimp only [v2]
    refine State.send_keeps ?_ _
    assumption
  clear_value v2
  refine keeps_ite ?_ ?_
  · refine State.sat_keeps ?_ _
    refine State.setMbx_keeps ?_ _ _
    assumption
  · assumption

theorem State.supReceive_keeps {s0 s : State} (h : Keeps s0 s) (word : Word) :
    Keeps s0 (State.supReceive s word) := by
  unfold State.supReceive
  extract_lets +onlyGivenNames v1
  clear_value v1
  refine keeps_ite ?_ ?_
  · refine State.sat_keeps ?_ _
    assumption
  · refine keeps_ite ?_ ?_
    · assumption
    · refine keeps_ite ?_ ?_
      · extract_lets +onlyGivenNames v2
        have h3 : Keeps s0 v2 := by
          dsimp only [v2]
          refine State.limSup_keeps ?_ _ _
          refine State.sat_keeps ?_ _
          refine State.putB_keeps ?_ _ _
          assumption
        clear_value v2
        refine keeps_mk ?_ rfl rfl rfl
        assumption
      · extract_lets +onlyGivenNames v4
        have h5 : Keeps s0 v4 := by
          dsimp only [v4]
          refine State.sat_keeps ?_ _
          refine State.setMbx_keeps ?_ _ _
          assumption
        clear_value v4
        refine keeps_mk ?_ rfl rfl rfl
        assumption

theorem execSupWordEdge_keeps {s0 s : State} (h : Keeps s0 s) (word : Word) :
    KeepsO s0 (execSupWordEdge word s) := by
  unfold execSupWordEdge
  refine keepsO_next ?_
  refine keeps_ite ?_ ?_
  · assumption
  · refine State.supLoad_keeps ?_
    refine State.supReceive_keeps ?_ _
    refine State.supTransmit_keeps ?_
    assumption

theorem State.cutPeriod_keeps {s0 s : State} (h : Keeps s0 s) :
    Keeps s0 (State.cutPeriod s) := by
  unfold State.cutPeriod
  extract_lets +onlyGivenNames v1
  clear_value v1
  extract_lets +onlyGivenNames v2
  clear_value v2
  extract_lets +onlyGivenNames v3
  clear_value v3
  refine keeps_ite ?_ ?_
  · assumption
  · extract_lets +onlyGivenNames v4
    have h5 : Keeps s0 v4 := by
      dsimp only [v4]
      refine State.setMbx_keeps ?_ _ _
      assumption
    clear_value v4
    extract_lets +onlyGivenNames v6
    clear_value v6
    extract_lets +onlyGivenNames v7
    have h8 : Keeps s0 v7 := by
      dsimp only [v7]
      refine keeps_mk ?_ rfl rfl rfl
      assumption
    clear_value v7
    refine State.limSup_keeps ?_ _ _
    refine State.sat_keeps ?_ _
    assumption

theorem execSupCsRise_keeps {s0 s : State} (h : Keeps s0 s) (partialWord : Bool) :
    KeepsO s0 (execSupCsRise partialWord s) := by
  unfold execSupCsRise
  refine keepsO_next ?_
  refine keeps_ite ?_ ?_
  · assumption
  · extract_lets +onlyGivenNames v1
    have h2 : Keeps s0 v1 := by
      dsimp only [v1]
      refine keeps_ite ?_ ?_
      · refine State.limSup_keeps ?_ _ _
        refine State.sat_keeps ?_ _
        assumption
      · assumption
    clear_value v1
    extract_lets +onlyGivenNames v3
    have h4 : Keeps s0 v3 := by
      dsimp only [v3]
      refine State.cutPeriod_keeps ?_
      assumption
    clear_value v3
    refine keeps_mk ?_ rfl rfl rfl
    assumption

theorem execSupPfTxWrite_keeps {s0 s : State} (h : Keeps s0 s) (who : Agent) (box : Option (Fin 16)) (word : Word) :
    KeepsO s0 (execSupPfTxWrite who box word s) := by
  unfold execSupPfTxWrite
  extract_lets +onlyGivenNames v1
  clear_value v1
  extract_lets +onlyGivenNames v2
  clear_value v2
  refine keepsO_next ?_
  refine keeps_ite ?_ ?_
  · assumption
  · refine keeps_ite ?_ ?_
    · refine State.sat_keeps ?_ _
      assumption
    · refine keeps_ite ?_ ?_
      · assumption
      · refine keeps_ite ?_ ?_
        · refine State.setMbx_keeps ?_ _ _
          assumption
        · refine keeps_ite ?_ ?_
          · extract_lets +onlyGivenNames v3
            clear_value v3
            extract_lets +onlyGivenNames v4
            clear_value v4
            extract_lets +onlyGivenNames v5
            clear_value v5
            extract_lets +onlyGivenNames v6
            have h7 : Keeps s0 v6 := by
              dsimp only [v6]
              refine State.setMbx_keeps ?_ _ _
              assumption
            clear_value v6
            refine State.limSup_keeps ?_ _ _
            refine State.sat_keeps ?_ _
            refine State.putB_keeps ?_ _ _
            assumption
          · refine State.setMbx_keeps ?_ _ _
            assumption

theorem execSupPfRxRead_keeps {s0 s : State} (h : Keeps s0 s) (who : Agent) (box : Option (Fin 16)) :
    KeepsO s0 (execSupPfRxRead who box s) := by
  unfold execSupPfRxRead
  extract_lets +onlyGivenNames v1
  clear_value v1
  extract_lets +onlyGivenNames v2
  clear_value v2
  refine keepsO_next ?_
  refine keeps_ite ?_ ?_
  · assumption
  · split
    · refine State.answer_keeps ?_ _ _
      refine State.setMbx_keeps ?_ _ _
      assumption
    · refine State.answer_keeps ?_ _ _
      assumption

theorem execMbxFlush_keeps {s0 s : State} (h : Keeps s0 s) (who : Agent) (box : Option (Fin 16)) :
    KeepsO s0 (execMbxFlush who box s) := by
  unfold execMbxFlush
  extract_lets +onlyGivenNames v1
  clear_value v1
  refine keepsO_next ?_
  refine keeps_ite ?_ ?_
  · refine State.setMbx_keeps ?_ _ _
    assumption
  · assumption

theorem execMbxFrameBad_keeps {s0 s : State} (h : Keeps s0 s) (src : Agent) :
    KeepsO s0 (execMbxFrameBad src s) := by
  unfold execMbxFrameBad
  refine keepsO_next ?_
  refine keeps_ite ?_ ?_
  · assumption
  · split
    · assumption
    · refine keeps_ite ?_ ?_
      · refine State.dropRest_keeps ?_ _
        refine State.limSup_keeps ?_ _ _
        refine State.sat_keeps ?_ _
        assumption
      · split
        · assumption
        · refine keeps_ite ?_ ?_
          · refine State.dropRest_keeps ?_ _
            refine State.limSup_keeps ?_ _ _
            refine State.sat_keeps ?_ _
            assumption
          · refine keeps_ite ?_ ?_
            · assumption
            · split
              · refine State.respond_keeps ?_ _ _ _ _ _
                refine State.tookReq_keeps ?_ _ _
                assumption
              · refine State.place_keeps ?_ _ _
                refine State.limSup_keeps ?_ _ _
                refine State.sat_keeps ?_ _
                refine State.dropRest_keeps ?_ _
                assumption

theorem execMbxEcho_keeps {s0 s : State} (h : Keeps s0 s) (src : Agent) :
    KeepsO s0 (execMbxEcho src s) := by
  unfold execMbxEcho
  refine keepsO_next ?_
  refine State.serve_keeps ?_ ?_ _ _
  · assumption
  · intro y1 y2 y3
    assumption

theorem State.setTrust_keeps {s0 s : State} (h : Keeps s0 s) (k : Nat) (x : TrustSlot)
    (hd : ∀ d, (s.arm.trust.getD k ⟨none, false⟩).digest = some d → x.digest = some d)
    (hr : (s.arm.trust.getD k ⟨none, false⟩).revoked = true → x.revoked = true) : Keeps s0 (State.setTrust s k x) := by
  refine ⟨h.pending, h.fuse, h.clk, h.sent, anchored_trans h.anchored ?_, h.canonical⟩
  have e : ∀ j, ((s.setTrust k x).arm.trust.getD j ⟨none, false⟩) =
      if k = j ∧ k < s.arm.trust.length then x else s.arm.trust.getD j ⟨none, false⟩ := by
    intro j
    simp only [State.setTrust, List.getD_eq_getElem?_getD, List.getElem?_set]
    by_cases hk : k = j
    · subst hk
      by_cases hl : k < s.arm.trust.length
      · simp [hl]
      · simp [hl]
    · simp [hk]
  refine ⟨Nat.le_refl _, fun j d hj => ?_, fun j hj => ?_⟩ <;> rw [e j]
  · by_cases hk : k = j ∧ k < s.arm.trust.length
    · rw [if_pos hk]
      rw [← hk.1] at hj
      exact hd d hj
    · rw [if_neg hk]
      exact hj
  · by_cases hk : k = j ∧ k < s.arm.trust.length
    · rw [if_pos hk]
      rw [← hk.1] at hj
      exact hr hj
    · rw [if_neg hk]
      exact hj

theorem execMbxTrustEnrol_keeps {s0 s : State} (h : Keeps s0 s) (src : Agent) :
    KeepsO s0 (execMbxTrustEnrol src s) := by
  unfold execMbxTrustEnrol
  refine keepsO_next ?_
  refine State.serve_keeps h ?_ _ _
  intro r t ht
  dsimp only
  split
  · rename_i e
    refine State.setTrust_keeps ht _ _ ?_ ?_ <;> rw [e] <;> simp
  · exact ht

theorem execMbxTrustRevoke_keeps {s0 s : State} (h : Keeps s0 s) (src : Agent) :
    KeepsO s0 (execMbxTrustRevoke src s) := by
  unfold execMbxTrustRevoke
  refine keepsO_next ?_
  refine State.serve_keeps h ?_ _ _
  intro r t ht
  exact State.setTrust_keeps ht _ _ (fun d e => e) (fun _ => rfl)

theorem execMbxSecretEnrol_keeps {s0 s : State} (h : Keeps s0 s) (src : Agent) :
    KeepsO s0 (execMbxSecretEnrol src s) := by
  unfold execMbxSecretEnrol
  refine keepsO_next ?_
  refine State.serve_keeps ?_ ?_ _ _
  · assumption
  · intro y1 y2 y3
    dsimp only
    split
    · dsimp only
      refine State.enrol_keeps ?_ _ _
      assumption
    · dsimp only
      refine State.logDev_keeps ?_ _ _ _
      assumption

theorem execMbxSecretClear_keeps {s0 s : State} (h : Keeps s0 s) (src : Agent) :
    KeepsO s0 (execMbxSecretClear src s) := by
  unfold execMbxSecretClear
  refine keepsO_next ?_
  refine State.serve_keeps ?_ ?_ _ _
  · assumption
  · intro y1 y2 y3
    split
    · dsimp only
      refine State.logDev_keeps ?_ _ _ _
      assumption
    · dsimp only
      refine State.clearSecret_keeps ?_
      assumption

theorem execMbxNicheReset_keeps {s0 s : State} (h : Keeps s0 s) (src : Agent) :
    KeepsO s0 (execMbxNicheReset src s) := by
  unfold execMbxNicheReset
  refine keepsO_next ?_
  refine State.serve_keeps ?_ ?_ _ _
  · assumption
  · intro y1 y2 y3
    dsimp only
    refine State.requestReset_keeps ?_ _ _
    assumption

theorem execMbxDeviceReset_keeps {s0 s : State} (h : Keeps s0 s) (src : Agent) :
    KeepsO s0 (execMbxDeviceReset src s) := by
  unfold execMbxDeviceReset
  refine keepsO_next ?_
  refine State.serve_keeps ?_ ?_ _ _
  · assumption
  · intro y1 y2 y3
    dsimp only
    refine keeps_mk ?_ rfl rfl rfl
    assumption

theorem execMbxResetDeferred_keeps {s0 s : State} (h : Keeps s0 s) :
    KeepsO s0 (execMbxResetDeferred s) := by
  unfold execMbxResetDeferred
  refine keepsO_next ?_
  split
  · refine keeps_ite ?_ ?_
    · refine State.warmReset_keeps ?_ _
      assumption
    · assumption
  · assumption

end Sys2Proof.Machine
end

