-- ==== Sys2Proof/Laws/KeepsPwr.lean ====
section
/-!
SUPPORT. What Pwr.lean leaves untouched (Keeps), operation by operation.
-/

namespace Sys2Proof.Machine

open Sys2Proof

theorem State.groupOff_keeps {s0 s : State} (h : Keeps s0 s) (m : ℕ) (i : ℕ) :
    Keeps s0 (State.groupOff s m i) := by
  unfold State.groupOff
  refine State.each_keeps ?_ ?_ _
  · assumption
  · intro y1 y2 y3
    refine keeps_ite ?_ ?_
    · refine keeps_mk ?_ rfl rfl rfl
      assumption
    · refine State.domainOff_keeps ?_ _
      assumption

theorem State.modeRefused_keeps {s0 s : State} (h : Keeps s0 s) :
    Keeps s0 (State.modeRefused s) := by
  unfold State.modeRefused
  refine State.pwrLog_keeps ?_ _ _
  assumption

theorem State.askEntry_keeps {s0 s : State} (h : Keeps s0 s) (m : ℕ) :
    Keeps s0 (State.askEntry s m) := by
  unfold State.askEntry
  extract_lets +onlyGivenNames v1
  clear_value v1
  refine keeps_mk ?_ rfl rfl rfl
  assumption

theorem State.refreshMode_keeps {s0 s : State} (h : Keeps s0 s) :
    Keeps s0 (State.refreshMode s) := by
  unfold State.refreshMode
  refine keeps_ite ?_ ?_
  · refine State.askEntry_keeps ?_ _
    assumption
  · refine keeps_ite ?_ ?_
    · refine State.startRise_keeps ?_ _ _
      assumption
    · assumption

theorem execPowerModeRequest_keeps {s0 s : State} (h : Keeps s0 s) (target : Fin 8) :
    KeepsO s0 (execPowerModeRequest target s) := by
  unfold execPowerModeRequest
  extract_lets +onlyGivenNames v1
  clear_value v1
  refine keepsO_next ?_
  refine keeps_ite ?_ ?_
  · assumption
  · extract_lets +onlyGivenNames v2
    have h3 : Keeps s0 v2 := by
      dsimp only [v2]
      refine State.put_keeps ?_ _ _
      assumption
    clear_value v2
    refine keeps_ite ?_ ?_
    · refine State.modeRefused_keeps ?_
      assumption
    · refine keeps_ite ?_ ?_
      · refine State.leaveFor_keeps ?_ _
        assumption
      · refine keeps_ite ?_ ?_
        · refine State.refreshMode_keeps ?_
          assumption
        · refine keeps_ite ?_ ?_
          · refine State.modeRefused_keeps ?_
            assumption
          · refine State.askEntry_keeps ?_ _
            assumption

theorem State.askPartner_keeps {s0 s : State} (h : Keeps s0 s) (m : ℕ) :
    Keeps s0 (State.askPartner s m) := by
  unfold State.askPartner
  extract_lets +onlyGivenNames v1
  clear_value v1
  extract_lets +onlyGivenNames v2
  clear_value v2
  extract_lets +onlyGivenNames v3
  have h4 : Keeps s0 v3 := by
    dsimp only [v3]
    refine keeps_mk ?_ rfl rfl rfl
    assumption
  clear_value v3
  refine State.sendRecord_keeps ?_ _ _ _
  assumption

theorem State.pwrPoll_keeps {s0 s : State} (h : Keeps s0 s) :
    Keeps s0 (State.pwrPoll s) := by
  unfold State.pwrPoll
  split
  · assumption
  · split
    · refine keeps_ite ?_ ?_
      · refine State.askPartner_keeps ?_ _
        assumption
      · assumption
    · assumption
    · split
      · assumption
      · refine State.pwrAbort_keeps ?_ _ _
        assumption

theorem execPhasePwr_keeps {s0 s : State} (h : Keeps s0 s) (cycles : ℕ) :
    KeepsO s0 (execPhasePwr cycles s) := by
  unfold execPhasePwr
  refine keepsO_next ?_
  refine State.pwrPoll_keeps ?_
  refine State.phaseUsed_keeps ?_ _ _
  assumption

theorem State.refuseEntry_keeps {s0 s : State} (h : Keeps s0 s) (m : ℕ) (l : List (ℕ × ℕ)) (partner : ℕ) :
    Keeps s0 (State.refuseEntry s m l partner) := by
  unfold State.refuseEntry
  extract_lets +onlyGivenNames v1
  clear_value v1
  extract_lets +onlyGivenNames v2
  clear_value v2
  extract_lets +onlyGivenNames v3
  have h4 : Keeps s0 v3 := by
    dsimp only [v3]
    refine State.each_keeps ?_ ?_ _
    · assumption
    · intro y5 y6 y7
      refine State.pwrCnt_keeps ?_ _
      assumption
  clear_value v3
  extract_lets +onlyGivenNames v8
  clear_value v8
  extract_lets +onlyGivenNames v9
  have h10 : Keeps s0 v9 := by
    dsimp only [v9]
    refine State.put_keeps ?_ _ _
    refine State.put_keeps ?_ _ _
    assumption
  clear_value v9
  extract_lets +onlyGivenNames v11
  have h12 : Keeps s0 v11 := by
    dsimp only [v11]
    refine State.put_keeps ?_ _ _
    refine State.put_keeps ?_ _ _
    refine State.put_keeps ?_ _ _
    assumption
  clear_value v11
  extract_lets +onlyGivenNames v13
  have h14 : Keeps s0 v13 := by
    dsimp only [v13]
    refine State.put_keeps ?_ _ _
    assumption
  clear_value v13
  extract_lets +onlyGivenNames v15
  clear_value v15
  extract_lets +onlyGivenNames v16
  have h17 : Keeps s0 v16 := by
    dsimp only [v16]
    refine keeps_mk ?_ rfl rfl rfl
    assumption
  clear_value v16
  extract_lets +onlyGivenNames v18
  have h19 : Keeps s0 v18 := by
    dsimp only [v18]
    refine State.each_keeps ?_ ?_ _
    · assumption
    · intro y20 y21 y22
      refine State.logNiche_keeps ?_ _ _ _
      assumption
  clear_value v18
  refine State.pwrLog_keeps ?_ _ _
  assumption

theorem State.beginEntry_keeps {s0 s : State} (h : Keeps s0 s) (e : PwrEntry) :
    Keeps s0 (State.beginEntry s e) := by
  unfold State.beginEntry
  extract_lets +onlyGivenNames v1
  clear_value v1
  extract_lets +onlyGivenNames v2
  clear_value v2
  extract_lets +onlyGivenNames v3
  clear_value v3
  extract_lets +onlyGivenNames v4
  have h5 : Keeps s0 v4 := by
    dsimp only [v4]
    refine keeps_mk ?_ rfl rfl rfl
    assumption
  clear_value v4
  extract_lets +onlyGivenNames v6
  have h7 : Keeps s0 v6 := by
    dsimp only [v6]
    refine State.put_keeps ?_ _ _
    refine State.putB_keeps ?_ _ _
    assumption
  clear_value v6
  refine State.raisePf_keeps ?_ _
  refine State.pwrEvents_keeps ?_ _ _
  assumption

theorem execPowerDecision_keeps {s0 s : State} (h : Keeps s0 s) :
    KeepsO s0 (execPowerDecision s) := by
  unfold execPowerDecision
  refine keepsO_next ?_
  split
  · assumption
  · refine keeps_ite ?_ ?_
    · assumption
    · refine keeps_ite ?_ ?_
      · refine State.beginEntry_keeps ?_ _
        assumption
      · refine State.refuseEntry_keeps ?_ _ _ _
        assumption

theorem State.endGasp_keeps {s0 s : State} (h : Keeps s0 s) :
    Keeps s0 (State.endGasp s) := by
  unfold State.endGasp
  extract_lets +onlyGivenNames v1
  have h2 : Keeps s0 v1 := by
    dsimp only [v1]
    refine State.putB_keeps ?_ _ _
    assumption
  clear_value v1
  refine keeps_mk ?_ rfl rfl rfl
  assumption

theorem State.resumeCast_keeps {s0 s : State} (h : Keeps s0 s) :
    Keeps s0 (State.resumeCast s) := by
  unfold State.resumeCast
  refine keeps_ite ?_ ?_
  · extract_lets +onlyGivenNames v1
    clear_value v1
    extract_lets +onlyGivenNames v2
    clear_value v2
    refine State.castReport_keeps ?_ _
    refine State.setSecond_keeps ?_ _
    refine keeps_mk ?_ rfl rfl rfl
    assumption
  · assumption

theorem State.finishEntry_keeps {s0 s : State} (h : Keeps s0 s) (e : PwrEntry) :
    Keeps s0 (State.finishEntry s e) := by
  unfold State.finishEntry
  extract_lets +onlyGivenNames v1
  have h2 : Keeps s0 v1 := by
    dsimp only [v1]
    refine keeps_ite ?_ ?_
    · assumption
    · refine State.put_keeps ?_ _ _
      refine State.put_keeps ?_ _ _
      assumption
  clear_value v1
  extract_lets +onlyGivenNames v3
  clear_value v3
  extract_lets +onlyGivenNames v4
  clear_value v4
  extract_lets +onlyGivenNames v5
  clear_value v5
  extract_lets +onlyGivenNames v6
  clear_value v6
  extract_lets +onlyGivenNames v7
  have h8 : Keeps s0 v7 := by
    dsimp only [v7]
    refine keeps_mk ?_ rfl rfl rfl
    assumption
  clear_value v7
  extract_lets +onlyGivenNames v9
  have h10 : Keeps s0 v9 := by
    dsimp only [v9]
    refine State.put_keeps ?_ _ _
    refine State.putB_keeps ?_ _ _
    assumption
  clear_value v9
  extract_lets +onlyGivenNames v11
  have h12 : Keeps s0 v11 := by
    dsimp only [v11]
    refine State.put_keeps ?_ _ _
    refine State.put_keeps ?_ _ _
    refine State.put_keeps ?_ _ _
    refine State.put_keeps ?_ _ _
    assumption
  clear_value v11
  refine State.endGasp_keeps ?_
  refine State.pwrCnt_keeps ?_ _
  assumption

theorem State.setLp_keeps {s0 s : State} (h : Keeps s0 s) (b : Bool) :
    Keeps s0 (State.setLp s b) := by
  unfold State.setLp
  refine State.putB_keeps ?_ _ _
  refine State.putB_keeps ?_ _ _
  assumption

theorem State.endGroups_keeps {s0 s : State} (h : Keeps s0 s) (e : PwrEntry) :
    Keeps s0 (State.endGroups s e) := by
  unfold State.endGroups
  refine keeps_ite ?_ ?_
  · assumption
  · refine keeps_ite ?_ ?_
    · extract_lets +onlyGivenNames v1
      clear_value v1
      extract_lets +onlyGivenNames v2
      have h3 : Keeps s0 v2 := by
        dsimp only [v2]
        refine State.setLp_keeps ?_ _
        assumption
      clear_value v2
      refine keeps_mk ?_ rfl rfl rfl
      assumption
    · refine State.finishEntry_keeps ?_ _
      assumption

theorem execEntryNicheResets_keeps {s0 s : State} (h : Keeps s0 s) :
    KeepsO s0 (execEntryNicheResets s) := by
  unfold execEntryNicheResets
  refine keepsO_next ?_
  split
  · assumption
  · refine keeps_ite ?_ ?_
    · assumption
    · refine keeps_ite ?_ ?_
      · refine keeps_mk ?_ rfl rfl rfl
        assumption
      · extract_lets +onlyGivenNames v1
        clear_value v1
        extract_lets +onlyGivenNames v2
        clear_value v2
        extract_lets +onlyGivenNames v3
        clear_value v3
        extract_lets +onlyGivenNames v4
        have h5 : Keeps s0 v4 := by
          dsimp only [v4]
          refine keeps_mk ?_ rfl rfl rfl
          assumption
        clear_value v4
        refine State.setAct_keeps ?_ _
        refine State.each_keeps ?_ ?_ _
        · assumption
        · intro y6 y7 y8
          refine State.requestHeld_keeps ?_ _ _ _
          assumption

theorem execDomainGroupOff_keeps {s0 s : State} (h : Keeps s0 s) :
    KeepsO s0 (execDomainGroupOff s) := by
  unfold execDomainGroupOff
  refine keepsO_next ?_
  split
  · assumption
  · split
    · assumption
    · split
      · refine State.endGroups_keeps ?_ _
        assumption
      · extract_lets +onlyGivenNames v1
        clear_value v1
        refine State.endGroups_keeps ?_ _
        extract_lets +onlyGivenNames v2
        have h3 : Keeps s0 v2 := by
          dsimp only [v2]
          refine State.groupOff_keeps ?_ _ _
          assumption
        clear_value v2
        refine keeps_mk ?_ rfl rfl rfl
        assumption

theorem execWakeLossWindow_keeps {s0 s : State} (h : Keeps s0 s) (rose : Bool) :
    KeepsO s0 (execWakeLossWindow rose s) := by
  unfold execWakeLossWindow
  refine keepsO_next ?_
  split
  · assumption
  · refine keeps_ite ?_ ?_
    · assumption
    · extract_lets +onlyGivenNames v1
      have h2 : Keeps s0 v1 := by
        dsimp only [v1]
        refine State.finishEntry_keeps ?_ _
        assumption
      clear_value v1
      refine keeps_ite ?_ ?_
      · refine State.wakeEvent_keeps ?_ _
        assumption
      · refine keeps_ite ?_ ?_
        · refine State.wakeEvent_keeps ?_ _
          assumption
        · assumption

theorem State.forceEntry_keeps {s0 s : State} (h : Keeps s0 s) (m : ℕ) :
    Keeps s0 (State.forceEntry s m) := by
  unfold State.forceEntry
  extract_lets +onlyGivenNames v1
  have h2 : Keeps s0 v1 := by
    dsimp only [v1]
    refine State.pwrAbort_keeps ?_ _ _
    assumption
  clear_value v1
  extract_lets +onlyGivenNames v3
  clear_value v3
  extract_lets +onlyGivenNames v4
  have h5 : Keeps s0 v4 := by
    dsimp only [v4]
    refine keeps_mk ?_ rfl rfl rfl
    assumption
  clear_value v4
  extract_lets +onlyGivenNames v6
  have h7 : Keeps s0 v6 := by
    dsimp only [v6]
    refine State.pwrLog_keeps ?_ _ _
    refine State.pwrCnt_keeps ?_ _
    assumption
  clear_value v6
  extract_lets +onlyGivenNames v8
  have h9 : Keeps s0 v8 := by
    dsimp only [v8]
    refine State.each_keeps ?_ ?_ _
    · assumption
    · intro y10 y11 y12
      refine State.groupOff_keeps ?_ _ _
      assumption
  clear_value v8
  extract_lets +onlyGivenNames v13
  clear_value v13
  refine keeps_ite ?_ ?_
  · extract_lets +onlyGivenNames v14
    have h15 : Keeps s0 v14 := by
      dsimp only [v14]
      refine State.setLp_keeps ?_ _
      assumption
    clear_value v14
    refine keeps_mk ?_ rfl rfl rfl
    assumption
  · refine State.finishEntry_keeps ?_ _
    assumption

theorem execPowerExit_keeps {s0 s : State} (h : Keeps s0 s) :
    KeepsO s0 (execPowerExit s) := by
  unfold execPowerExit
  refine keepsO_next ?_
  split
  · assumption
  · refine keeps_ite ?_ ?_
    · assumption
    · refine keeps_ite ?_ ?_
      · extract_lets +onlyGivenNames v1
        clear_value v1
        refine State.pwrCnt_keeps ?_ _
        refine State.put_keeps ?_ _ _
        refine State.warmReset_keeps ?_ _
        assumption
      · extract_lets +onlyGivenNames v2
        clear_value v2
        extract_lets +onlyGivenNames v3
        have h4 : Keeps s0 v3 := by
          dsimp only [v3]
          refine keeps_ite ?_ ?_
          · refine keeps_mk ?_ rfl rfl rfl
            assumption
          · assumption
        clear_value v3
        refine State.startRise_keeps ?_ _ _
        refine State.pwrCnt_keeps ?_ _
        refine State.setLp_keeps ?_ _
        assumption

theorem State.resumeResends_keeps {s0 s : State} (h : Keeps s0 s) :
    Keeps s0 (State.resumeResends s) := by
  unfold State.resumeResends
  split
  · assumption
  · extract_lets +onlyGivenNames v1
    clear_value v1
    refine keeps_mk ?_ rfl rfl rfl
    assumption

theorem State.endRise_keeps {s0 s : State} (h : Keeps s0 s) (r : PwrRise) :
    Keeps s0 (State.endRise s r) := by
  unfold State.endRise
  extract_lets +onlyGivenNames v1
  have h2 : Keeps s0 v1 := by
    dsimp only [v1]
    refine keeps_ite ?_ ?_
    · refine State.resumeResends_keeps ?_
      assumption
    · assumption
  clear_value v1
  extract_lets +onlyGivenNames v3
  have h4 : Keeps s0 v3 := by
    dsimp only [v3]
    refine keeps_ite ?_ ?_
    · assumption
    · refine State.put_keeps ?_ _ _
      refine State.put_keeps ?_ _ _
      assumption
  clear_value v3
  extract_lets +onlyGivenNames v5
  clear_value v5
  extract_lets +onlyGivenNames v6
  have h7 : Keeps s0 v6 := by
    dsimp only [v6]
    refine keeps_mk ?_ rfl rfl rfl
    assumption
  clear_value v6
  refine keeps_ite ?_ ?_
  · refine State.each_keeps ?_ ?_ _
    · assumption
    · intro y8 y9 y10
      refine State.unhold_keeps ?_ _ _
      assumption
  · assumption

theorem State.riseStep_keeps {s0 s : State} (h : Keeps s0 s) (r : PwrRise) :
    Keeps s0 (State.riseStep s r) := by
  unfold State.riseStep
  split
  · refine State.endRise_keeps ?_ _
    assumption
  · extract_lets +onlyGivenNames v1
    have h2 : Keeps s0 v1 := by
      dsimp only [v1]
      refine State.each_keeps ?_ ?_ _
      · assumption
      · intro y3 y4 y5
        refine State.domainBack_keeps ?_ _
        assumption
    clear_value v1
    extract_lets +onlyGivenNames v6
    clear_value v6
    extract_lets +onlyGivenNames v7
    clear_value v7
    extract_lets +onlyGivenNames v8
    have h9 : Keeps s0 v8 := by
      dsimp only [v8]
      refine keeps_mk ?_ rfl rfl rfl
      assumption
    clear_value v8
    refine keeps_ite ?_ ?_
    · assumption
    · refine State.endRise_keeps ?_ _
      assumption

theorem execDomainGroupOn_keeps {s0 s : State} (h : Keeps s0 s) :
    KeepsO s0 (execDomainGroupOn s) := by
  unfold execDomainGroupOn
  refine keepsO_next ?_
  split
  · assumption
  · refine keeps_ite ?_ ?_
    · assumption
    · refine State.riseStep_keeps ?_ _
      assumption

theorem execWakeNAssert_keeps {s0 s : State} (h : Keeps s0 s) (low : Bool) :
    KeepsO s0 (execWakeNAssert low s) := by
  unfold execWakeNAssert
  extract_lets +onlyGivenNames v1
  clear_value v1
  extract_lets +onlyGivenNames v2
  clear_value v2
  extract_lets +onlyGivenNames v3
  have h4 : Keeps s0 v3 := by
    dsimp only [v3]
    refine keeps_mk ?_ rfl rfl rfl
    assumption
  clear_value v3
  refine keepsO_next ?_
  refine keeps_ite ?_ ?_
  · refine State.wakeEvent_keeps ?_ _
    assumption
  · assumption

theorem execPlinthAlarm_keeps {s0 s : State} (h : Keeps s0 s) :
    KeepsO s0 (execPlinthAlarm s) := by
  unfold execPlinthAlarm
  refine keepsO_next ?_
  split
  · refine keeps_ite ?_ ?_
    · refine State.wakeEvent_keeps ?_ _
      refine keeps_mk ?_ rfl rfl rfl
      assumption
    · assumption
  · assumption

theorem execMainsOkRise_keeps {s0 s : State} (h : Keeps s0 s) :
    KeepsO s0 (execMainsOkRise s) := by
  unfold execMainsOkRise
  refine keepsO_next ?_
  refine keeps_ite ?_ ?_
  · assumption
  · extract_lets +onlyGivenNames v1
    clear_value v1
    extract_lets +onlyGivenNames v2
    have h3 : Keeps s0 v2 := by
      dsimp only [v2]
      refine keeps_mk ?_ rfl rfl rfl
      assumption
    clear_value v2
    extract_lets +onlyGivenNames v4
    have h5 : Keeps s0 v4 := by
      dsimp only [v4]
      split
      · refine State.resumeCast_keeps ?_
        refine State.endGasp_keeps ?_
        assumption
      · assumption
    clear_value v4
    refine State.wakeEvent_keeps ?_ _
    assumption

theorem execMainsOkFall_keeps {s0 s : State} (h : Keeps s0 s) :
    KeepsO s0 (execMainsOkFall s) := by
  unfold execMainsOkFall
  refine keepsO_next ?_
  refine keeps_ite ?_ ?_
  · refine keeps_mk ?_ rfl rfl rfl
    assumption
  · assumption

theorem State.detectGasp_keeps {s0 s : State} (h : Keeps s0 s) (cause : ℕ) :
    Keeps s0 (State.detectGasp s cause) := by
  unfold State.detectGasp
  extract_lets +onlyGivenNames v1
  clear_value v1
  extract_lets +onlyGivenNames v2
  clear_value v2
  extract_lets +onlyGivenNames v3
  have h4 : Keeps s0 v3 := by
    dsimp only [v3]
    refine State.pwrAbort_keeps ?_ _ _
    assumption
  clear_value v3
  extract_lets +onlyGivenNames v5
  have h6 : Keeps s0 v5 := by
    dsimp only [v5]
    refine State.putB_keeps ?_ _ _
    assumption
  clear_value v5
  extract_lets +onlyGivenNames v7
  clear_value v7
  extract_lets +onlyGivenNames v8
  have h9 : Keeps s0 v8 := by
    dsimp only [v8]
    refine keeps_mk ?_ rfl rfl rfl
    assumption
  clear_value v8
  extract_lets +onlyGivenNames v10
  clear_value v10
  extract_lets +onlyGivenNames v11
  clear_value v11
  extract_lets +onlyGivenNames v12
  clear_value v12
  extract_lets +onlyGivenNames v13
  have h14 : Keeps s0 v13 := by
    dsimp only [v13]
    refine keeps_ite ?_ ?_
    · refine keeps_mk ?_ rfl rfl rfl
      assumption
    · assumption
  clear_value v13
  extract_lets +onlyGivenNames v15
  have h16 : Keeps s0 v15 := by
    dsimp only [v15]
    refine keeps_ite ?_ ?_
    · refine State.writePatina_keeps ?_ _
      assumption
    · assumption
  clear_value v15
  extract_lets +onlyGivenNames v17
  have h18 : Keeps s0 v17 := by
    dsimp only [v17]
    refine State.pwrLog_keeps ?_ _ _
    refine State.logDev_keeps ?_ _ _ _
    assumption
  clear_value v17
  refine keeps_ite ?_ ?_
  · refine State.leaveFor_keeps ?_ _
    assumption
  · assumption

theorem execPlinthSupplyLow_keeps {s0 s : State} (h : Keeps s0 s) :
    KeepsO s0 (execPlinthSupplyLow s) := by
  unfold execPlinthSupplyLow
  refine keepsO_next ?_
  refine keeps_ite ?_ ?_
  · assumption
  · refine State.detectGasp_keeps ?_ _
    refine keeps_mk ?_ rfl rfl rfl
    assumption

theorem execPlinthSupplyRecovery_keeps {s0 s : State} (h : Keeps s0 s) :
    KeepsO s0 (execPlinthSupplyRecovery s) := by
  unfold execPlinthSupplyRecovery
  extract_lets +onlyGivenNames v1
  clear_value v1
  extract_lets +onlyGivenNames v2
  have h3 : Keeps s0 v2 := by
    dsimp only [v2]
    refine keeps_mk ?_ rfl rfl rfl
    assumption
  clear_value v2
  refine keepsO_next ?_
  split
  · refine State.resumeCast_keeps ?_
    refine State.endGasp_keeps ?_
    assumption
  · assumption

theorem execPwrGaspCmd_keeps {s0 s : State} (h : Keeps s0 s) :
    KeepsO s0 (execPwrGaspCmd s) := by
  unfold execPwrGaspCmd
  refine keepsO_next ?_
  refine State.detectGasp_keeps ?_ _
  assumption

theorem execPwrGaspClr_keeps {s0 s : State} (h : Keeps s0 s) :
    KeepsO s0 (execPwrGaspClr s) := by
  unfold execPwrGaspClr
  refine keepsO_next ?_
  refine keeps_ite ?_ ?_
  · refine State.resumeCast_keeps ?_
    refine State.endGasp_keeps ?_
    assumption
  · assumption

theorem execGaspAct_keeps {s0 s : State} (h : Keeps s0 s) :
    KeepsO s0 (execGaspAct s) := by
  unfold execGaspAct
  refine keepsO_next ?_
  split
  · refine keeps_ite ?_ ?_
    · refine State.forceEntry_keeps ?_ _
      assumption
    · assumption
  · assumption

theorem State.beginOutage_keeps {s0 s : State} (h : Keeps s0 s) :
    Keeps s0 (State.beginOutage s) := by
  unfold State.beginOutage
  extract_lets +onlyGivenNames v1
  clear_value v1
  extract_lets +onlyGivenNames v2
  have h3 : Keeps s0 v2 := by
    dsimp only [v2]
    refine State.pwrAbort_keeps ?_ _ _
    assumption
  clear_value v2
  extract_lets +onlyGivenNames v4
  have h5 : Keeps s0 v4 := by
    dsimp only [v4]
    refine State.putB_keeps ?_ _ _
    refine State.putB_keeps ?_ _ _
    assumption
  clear_value v4
  extract_lets +onlyGivenNames v6
  clear_value v6
  extract_lets +onlyGivenNames v7
  have h8 : Keeps s0 v7 := by
    dsimp only [v7]
    refine keeps_mk ?_ rfl rfl rfl
    assumption
  clear_value v7
  extract_lets +onlyGivenNames v9
  have h10 : Keeps s0 v9 := by
    dsimp only [v9]
    refine State.pwrEvents_keeps ?_ _ _
    refine State.pwrLog_keeps ?_ _ _
    assumption
  clear_value v9
  refine keeps_ite ?_ ?_
  · refine State.forceEntry_keeps ?_ _
    assumption
  · assumption

theorem execMainsLossFiltered_keeps {s0 s : State} (h : Keeps s0 s) :
    KeepsO s0 (execMainsLossFiltered s) := by
  unfold execMainsLossFiltered
  refine keepsO_next ?_
  refine keeps_ite ?_ ?_
  · assumption
  · refine keeps_ite ?_ ?_
    · refine keeps_ite ?_ ?_
      · assumption
      · refine State.beginOutage_keeps ?_
        assumption
    · split
      · assumption
      · refine State.detectGasp_keeps ?_ _
        assumption

theorem execShedWarning_keeps {s0 s : State} (h : Keeps s0 s) :
    KeepsO s0 (execShedWarning s) := by
  unfold execShedWarning
  extract_lets +onlyGivenNames v1
  clear_value v1
  refine keepsO_next ?_
  refine keeps_ite ?_ ?_
  · extract_lets +onlyGivenNames v2
    have h3 : Keeps s0 v2 := by
      dsimp only [v2]
      refine State.pwrEvents_keeps ?_ _ _
      assumption
    clear_value v2
    refine keeps_mk ?_ rfl rfl rfl
    assumption
  · assumption

theorem State.shed_keeps {s0 s : State} (h : Keeps s0 s) (l : List ℕ) :
    Keeps s0 (State.shed s l) := by
  unfold State.shed
  extract_lets +onlyGivenNames v1
  clear_value v1
  extract_lets +onlyGivenNames v2
  have h3 : Keeps s0 v2 := by
    dsimp only [v2]
    refine State.each_keeps ?_ ?_ _
    · assumption
    · intro y4 y5 y6
      refine State.requestHeld_keeps ?_ _ _ _
      assumption
  clear_value v2
  extract_lets +onlyGivenNames v7
  have h8 : Keeps s0 v7 := by
    dsimp only [v7]
    refine State.put_keeps ?_ _ _
    refine State.pwrEvents_keeps ?_ _ _
    assumption
  clear_value v7
  extract_lets +onlyGivenNames v9
  clear_value v9
  extract_lets +onlyGivenNames v10
  have h11 : Keeps s0 v10 := by
    dsimp only [v10]
    refine keeps_mk ?_ rfl rfl rfl
    assumption
  clear_value v10
  refine State.pwrLog_keeps ?_ _ _
  refine State.pwrCnt_keeps ?_ _
  assumption

theorem execShedStep_keeps {s0 s : State} (h : Keeps s0 s) :
    KeepsO s0 (execShedStep s) := by
  unfold execShedStep
  refine keepsO_next ?_
  refine keeps_ite ?_ ?_
  · refine State.shed_keeps ?_ _
    assumption
  · assumption

theorem State.endOutage_keeps {s0 s : State} (h : Keeps s0 s) :
    Keeps s0 (State.endOutage s) := by
  unfold State.endOutage
  extract_lets +onlyGivenNames v1
  clear_value v1
  extract_lets +onlyGivenNames v2
  have h3 : Keeps s0 v2 := by
    dsimp only [v2]
    refine State.each_keeps ?_ ?_ _
    · assumption
    · intro y4 y5 y6
      refine State.unhold_keeps ?_ _ _
      assumption
  clear_value v2
  extract_lets +onlyGivenNames v7
  have h8 : Keeps s0 v7 := by
    dsimp only [v7]
    refine State.pwrAbort_keeps ?_ _ _
    refine State.put_keeps ?_ _ _
    assumption
  clear_value v7
  extract_lets +onlyGivenNames v9
  clear_value v9
  extract_lets +onlyGivenNames v10
  have h11 : Keeps s0 v10 := by
    dsimp only [v10]
    refine keeps_mk ?_ rfl rfl rfl
    assumption
  clear_value v10
  extract_lets +onlyGivenNames v12
  have h13 : Keeps s0 v12 := by
    dsimp only [v12]
    refine State.pwrLog_keeps ?_ _ _
    refine State.putB_keeps ?_ _ _
    refine State.putB_keeps ?_ _ _
    assumption
  clear_value v12
  extract_lets +onlyGivenNames v14
  have h15 : Keeps s0 v14 := by
    dsimp only [v14]
    refine State.pwrEvents_keeps ?_ _ _
    refine State.pwrEvents_keeps ?_ _ _
    assumption
  clear_value v14
  refine State.when_keeps ?_ ?_ _
  · assumption
  · intro y16 y17
    refine State.startRise_keeps ?_ _ _
    assumption

theorem execOutageEnd_keeps {s0 s : State} (h : Keeps s0 s) :
    KeepsO s0 (execOutageEnd s) := by
  unfold execOutageEnd
  refine keepsO_next ?_
  refine keeps_ite ?_ ?_
  · assumption
  · refine State.resumeCast_keeps ?_
    refine State.endOutage_keeps ?_
    assumption

theorem execSleepAllow_keeps {s0 s : State} (h : Keeps s0 s) (msg : List Byte) :
    KeepsO s0 (execSleepAllow msg s) := by
  unfold execSleepAllow
  extract_lets +onlyGivenNames v1
  clear_value v1
  refine keepsO_next ?_
  refine keeps_ite ?_ ?_
  · assumption
  · extract_lets +onlyGivenNames v2
    have h3 : Keeps s0 v2 := by
      dsimp only [v2]
      refine State.tookMsg_keeps ?_ _
      assumption
    clear_value v2
    refine keeps_ite ?_ ?_
    · refine State.pwrLog_keeps ?_ _ _
      refine State.ackMsg_keeps ?_ _ _ _
      assumption
    · extract_lets +onlyGivenNames v4
      have h5 : Keeps s0 v4 := by
        dsimp only [v4]
        refine State.putB_keeps ?_ _ _
        assumption
      clear_value v4
      extract_lets +onlyGivenNames v6
      clear_value v6
      extract_lets +onlyGivenNames v7
      have h8 : Keeps s0 v7 := by
        dsimp only [v7]
        refine keeps_mk ?_ rfl rfl rfl
        assumption
      clear_value v7
      refine State.ackMsg_keeps ?_ _ _ _
      assumption

theorem State.endAllow_keeps {s0 s : State} (h : Keeps s0 s) :
    Keeps s0 (State.endAllow s) := by
  unfold State.endAllow
  extract_lets +onlyGivenNames v1
  have h2 : Keeps s0 v1 := by
    dsimp only [v1]
    refine State.putB_keeps ?_ _ _
    assumption
  extract_lets +onlyGivenNames v3
  extract_lets +onlyGivenNames v4
  have h5 : Keeps s0 v4 := by
    dsimp only [v4]
    refine keeps_mk ?_ rfl rfl rfl
    assumption
  extract_lets +onlyGivenNames v6
  have h7 : Keeps s0 v6 := by
    dsimp only [v6]
    split
    · refine keeps_ite ?_ ?_
      · refine State.pwrAbort_keeps ?_ _ _
        assumption
      · assumption
    · assumption
  refine keeps_ite ?_ ?_
  · refine State.leaveFor_keeps ?_ _
    assumption
  · assumption

theorem execSleepWithdraw_keeps {s0 s : State} (h : Keeps s0 s) (msg : List Byte) :
    KeepsO s0 (execSleepWithdraw msg s) := by
  unfold execSleepWithdraw
  refine keepsO_next ?_
  refine keeps_ite ?_ ?_
  · refine State.ackMsg_keeps ?_ _ _ _
    refine State.endAllow_keeps ?_
    refine State.tookMsg_keeps ?_ _
    assumption
  · assumption

theorem execSleepAllowanceEnd_keeps {s0 s : State} (h : Keeps s0 s) :
    KeepsO s0 (execSleepAllowanceEnd s) := by
  unfold execSleepAllowanceEnd
  refine keepsO_next ?_
  split
  · refine keeps_ite ?_ ?_
    · refine State.endAllow_keeps ?_
      assumption
    · assumption
  · assumption

theorem execWatchExit_keeps {s0 s : State} (h : Keeps s0 s) :
    KeepsO s0 (execWatchExit s) := by
  unfold execWatchExit
  refine keepsO_next ?_
  split
  · refine keeps_ite ?_ ?_
    · refine State.leaveWatch_keeps ?_
      assumption
    · assumption
  · refine State.leaveWatch_keeps ?_
    assumption

theorem execPwrMaskWrite_keeps {s0 s : State} (h : Keeps s0 s) (m : Fin 4) (hi : Bool) (data : Word) :
    KeepsO s0 (execPwrMaskWrite m hi data s) := by
  unfold execPwrMaskWrite
  extract_lets +onlyGivenNames v1
  clear_value v1
  extract_lets +onlyGivenNames v2
  clear_value v2
  extract_lets +onlyGivenNames v3
  clear_value v3
  extract_lets +onlyGivenNames v4
  clear_value v4
  refine keepsO_next ?_
  refine keeps_ite ?_ ?_
  · refine State.pwrLog_keeps ?_ _ _
    assumption
  · extract_lets +onlyGivenNames v5
    have h6 : Keeps s0 v5 := by
      dsimp only [v5]
      refine State.put_keeps ?_ _ _
      refine State.put_keeps ?_ _ _
      assumption
    clear_value v5
    refine keeps_ite ?_ ?_
    · refine State.refreshMode_keeps ?_
      assumption
    · assumption

theorem execQuadrantPark_keeps {s0 s : State} (h : Keeps s0 s) (q : Fin 4) :
    KeepsO s0 (execQuadrantPark q s) := by
  unfold execQuadrantPark
  extract_lets +onlyGivenNames v1
  clear_value v1
  refine keepsO_next ?_
  refine keeps_ite ?_ ?_
  · refine keeps_mk ?_ rfl rfl rfl
    assumption
  · assumption

theorem State.quadEdge_keeps {s0 s : State} (h : Keeps s0 s) (q : ℕ) :
    Keeps s0 (State.quadEdge s q) := by
  unfold State.quadEdge
  extract_lets +onlyGivenNames v1
  clear_value v1
  extract_lets +onlyGivenNames v2
  clear_value v2
  refine keeps_ite ?_ ?_
  · refine State.domainOff_keeps ?_ _
    assumption
  · refine keeps_ite ?_ ?_
    · extract_lets +onlyGivenNames v3
      have h4 : Keeps s0 v3 := by
        dsimp only [v3]
        refine State.domainBack_keeps ?_ _
        assumption
      clear_value v3
      refine keeps_mk ?_ rfl rfl rfl
      assumption
    · assumption

theorem State.shedEdge_keeps {s0 s : State} (h : Keeps s0 s) (n : ℕ) :
    Keeps s0 (State.shedEdge s n) := by
  unfold State.shedEdge
  refine keeps_ite ?_ ?_
  · extract_lets +onlyGivenNames v1
    clear_value v1
    extract_lets +onlyGivenNames v2
    have h3 : Keeps s0 v2 := by
      dsimp only [v2]
      refine State.each_keeps ?_ ?_ _
      · assumption
      · intro y4 y5 y6
        refine State.domainOff_keeps ?_ _
        assumption
    clear_value v2
    refine keeps_mk ?_ rfl rfl rfl
    assumption
  · assumption

theorem State.pwrEdge_keeps {s0 s : State} (h : Keeps s0 s) :
    Keeps s0 (State.pwrEdge s) := by
  unfold State.pwrEdge
  extract_lets +onlyGivenNames v1
  have h2 : Keeps s0 v1 := by
    dsimp only [v1]
    refine State.each_keeps ?_ ?_ _
    · assumption
    · intro y3 y4 y5
      refine State.shedEdge_keeps ?_ _
      assumption
  clear_value v1
  extract_lets +onlyGivenNames v6
  have h7 : Keeps s0 v6 := by
    dsimp only [v6]
    refine State.each_keeps ?_ ?_ _
    · assumption
    · intro y8 y9 y10
      refine State.quadEdge_keeps ?_ _
      assumption
  clear_value v6
  extract_lets +onlyGivenNames v11
  have h12 : Keeps s0 v11 := by
    dsimp only [v11]
    refine keeps_ite ?_ ?_
    · refine State.each_keeps ?_ ?_ _
      · assumption
      · intro y13 y14 y15
        refine keeps_ite ?_ ?_
        · refine State.domainBack_keeps ?_ _
          assumption
        · assumption
    · assumption
  clear_value v11
  split
  · split
    · refine keeps_ite ?_ ?_
      · refine State.endGroups_keeps ?_ _
        assumption
      · assumption
    · assumption
  · assumption

end Sys2Proof.Machine
end

