-- ==== Sys2Proof/Laws/KeepsRst.lean ====
section
/-!
SUPPORT. What Rst.lean leaves untouched (Keeps), operation by operation.
-/

namespace Sys2Proof.Machine

open Sys2Proof

theorem execColdReset_keeps {s0 s : State} (h : Keeps s0 s) (lost : Bool) :
    KeepsO s0 (execColdReset lost s) := by
  unfold execColdReset
  extract_lets +onlyGivenNames v1
  clear_value v1
  extract_lets +onlyGivenNames v2
  have h3 : Keeps s0 v2 := by
    dsimp only [v2]
    refine keeps_ite ?_ ?_
    · refine keeps_mk ?_ rfl rfl rfl
      assumption
    · assumption
  clear_value v2
  refine keepsO_next ?_
  refine State.coldReset_keeps ?_ _
  assumption

theorem execPlinthBrownout_keeps {s0 s : State} (h : Keeps s0 s) (load : Bool) :
    KeepsO s0 (execPlinthBrownout load s) := by
  unfold execPlinthBrownout
  refine keepsO_next ?_
  refine keeps_ite ?_ ?_
  · assumption
  · extract_lets +onlyGivenNames v1
    clear_value v1
    extract_lets +onlyGivenNames v2
    have h3 : Keeps s0 v2 := by
      dsimp only [v2]
      refine keeps_mk ?_ rfl rfl rfl
      assumption
    clear_value v2
    refine State.coldReset_keeps ?_ _
    assumption

theorem execRstNAssert_keeps {s0 s : State} (h : Keeps s0 s) (low : Bool) (strap : Bool) :
    KeepsO s0 (execRstNAssert low strap s) := by
  unfold execRstNAssert
  refine keepsO_next ?_
  refine keeps_ite ?_ ?_
  · refine keeps_ite ?_ ?_
    · assumption
    · refine State.warmReset_keeps ?_ _
      refine keeps_mk ?_ rfl rfl rfl
      assumption
  · extract_lets +onlyGivenNames v1
    clear_value v1
    extract_lets +onlyGivenNames v2
    have h3 : Keeps s0 v2 := by
      dsimp only [v2]
      refine keeps_ite ?_ ?_
      · refine keeps_mk ?_ rfl rfl rfl
        assumption
      · assumption
    clear_value v2
    refine keeps_mk ?_ rfl rfl rfl
    assumption

theorem execTestEnAssert_keeps {s0 s : State} (h : Keeps s0 s) (active : Bool) :
    KeepsO s0 (execTestEnAssert active s) := by
  unfold execTestEnAssert
  refine keepsO_next ?_
  refine keeps_ite ?_ ?_
  · refine keeps_ite ?_ ?_
    · assumption
    · refine State.warmReset_keeps ?_ _
      refine keeps_mk ?_ rfl rfl rfl
      assumption
  · refine keeps_mk ?_ rfl rfl rfl
    assumption

theorem State.kick_keeps {s0 s : State} (h : Keeps s0 s) :
    Keeps s0 (State.kick s) := by
  unfold State.kick
  refine keeps_mk ?_ rfl rfl rfl
  assumption

theorem execWarmResetRelease_keeps {s0 s : State} (h : Keeps s0 s) :
    KeepsO s0 (execWarmResetRelease s) := by
  unfold execWarmResetRelease
  refine keepsO_next ?_
  refine keeps_ite ?_ ?_
  · refine State.kick_keeps ?_
    refine keeps_mk ?_ rfl rfl rfl
    assumption
  · assumption

theorem execMramEcc_keeps {s0 s : State} (h : Keeps s0 s) :
    KeepsO s0 (execMramEcc s) := by
  unfold execMramEcc
  refine keepsO_next ?_
  refine State.faultReset_keeps ?_ _
  refine State.logDev_keeps ?_ _ _ _
  assumption

theorem execFltCmdWarm_keeps {s0 s : State} (h : Keeps s0 s) :
    KeepsO s0 (execFltCmdWarm s) := by
  unfold execFltCmdWarm
  refine keepsO_next ?_
  refine State.warmReset_keeps ?_ _
  assumption

theorem execWatchdogKick_keeps {s0 s : State} (h : Keeps s0 s) (data : Word) :
    KeepsO s0 (execWatchdogKick data s) := by
  unfold execWatchdogKick
  refine keepsO_next ?_
  refine keeps_ite ?_ ?_
  · refine State.kick_keeps ?_
    assumption
  · assumption

theorem execWatchdogExpiry_keeps {s0 s : State} (h : Keeps s0 s) :
    KeepsO s0 (execWatchdogExpiry s) := by
  unfold execWatchdogExpiry
  refine keepsO_next ?_
  refine keeps_ite ?_ ?_
  · refine State.faultReset_keeps ?_ _
    refine State.logDev_keeps ?_ _ _ _
    assumption
  · assumption

theorem execFltLogAck_keeps {s0 s : State} (h : Keeps s0 s) (log : Fin 17) (data : Word) :
    KeepsO s0 (execFltLogAck log data s) := by
  unfold execFltLogAck
  extract_lets +onlyGivenNames v1
  clear_value v1
  refine keepsO_next ?_
  refine keeps_ite ?_ ?_
  · refine keeps_mk ?_ rfl rfl rfl
    assumption
  · refine keeps_mk ?_ rfl rfl rfl
    assumption

theorem execFltNcmdReset_keeps {s0 s : State} (h : Keeps s0 s) (n : Fin 16) :
    KeepsO s0 (execFltNcmdReset n s) := by
  unfold execFltNcmdReset
  refine keepsO_next ?_
  refine State.requestReset_keeps ?_ _ _
  assumption

theorem State.nicheRegs_keeps {s0 s : State} (h : Keeps s0 s) (n : ℕ) :
    Keeps s0 (State.nicheRegs s n) := by
  unfold State.nicheRegs
  extract_lets +onlyGivenNames v1
  have h2 : Keeps s0 v1 := by
    dsimp only [v1]
    refine State.resetRings_keeps ?_ _
    assumption
  clear_value v1
  extract_lets +onlyGivenNames v3
  clear_value v3
  extract_lets +onlyGivenNames v4
  have h5 : Keeps s0 v4 := by
    dsimp only [v4]
    refine keeps_mk ?_ rfl rfl rfl
    assumption
  clear_value v4
  extract_lets +onlyGivenNames v6
  clear_value v6
  extract_lets +onlyGivenNames v7
  have h8 : Keeps s0 v7 := by
    dsimp only [v7]
    refine State.each_keeps ?_ ?_ _
    · assumption
    · intro y9 y10 y11
      refine State.setCredit_keeps ?_ _ _
      assumption
  clear_value v7
  refine State.each_keeps ?_ ?_ _
  · assumption
  · intro y12 y13 y14
    refine State.modEth_keeps ?_ _ _
    refine State.settlePort_keeps ?_ _
    assumption

theorem State.endNicheReset_keeps {s0 s : State} (h : Keeps s0 s) (n : ℕ) :
    Keeps s0 (State.endNicheReset s n) := by
  unfold State.endNicheReset
  extract_lets +onlyGivenNames v1
  have h2 : Keeps s0 v1 := by
    dsimp only [v1]
    refine State.modNreset_keeps ?_ _ _
    refine State.nicheRegs_keeps ?_ _
    assumption
  clear_value v1
  extract_lets +onlyGivenNames v3
  clear_value v3
  extract_lets +onlyGivenNames v4
  extract_lets +onlyGivenNames v5
  have h6 : Keeps s0 v5 := by
    dsimp only [v5]
    refine keeps_mk ?_ rfl rfl rfl
    assumption
  clear_value v5
  extract_lets +onlyGivenNames v7
  extract_lets +onlyGivenNames v8
  have h9 : Keeps s0 v8 := by
    dsimp only [v8]
    refine keeps_ite ?_ ?_
    · assumption
    · refine keeps_mk ?_ rfl rfl rfl
      assumption
  clear_value v8
  split
  · refine keeps_ite ?_ ?_
    · refine State.requestCarve_keeps ?_ _
      assumption
    · assumption
  · assumption

theorem execNicheResetComplete_keeps {s0 s : State} (h : Keeps s0 s) (n : Fin 16) :
    KeepsO s0 (execNicheResetComplete n s) := by
  unfold execNicheResetComplete
  extract_lets +onlyGivenNames v1
  clear_value v1
  refine keepsO_next ?_
  refine keeps_ite ?_ ?_
  · refine State.endNicheReset_keeps ?_ _
    assumption
  · assumption

theorem execNresetSlow_keeps {s0 s : State} (h : Keeps s0 s) (n : Fin 16) :
    KeepsO s0 (execNresetSlow n s) := by
  unfold execNresetSlow
  extract_lets +onlyGivenNames v1
  clear_value v1
  refine keepsO_next ?_
  refine keeps_ite ?_ ?_
  · extract_lets +onlyGivenNames v2
    have h3 : Keeps s0 v2 := by
      dsimp only [v2]
      refine State.modNreset_keeps ?_ _ _
      assumption
    clear_value v2
    refine State.faultReset_keeps ?_ _
    refine State.logDev_keeps ?_ _ _ _
    assumption
  · assumption

theorem State.blockAsk_keeps {s0 s : State} (h : Keeps s0 s) (b : ℕ) :
    Keeps s0 (State.blockAsk s b) := by
  unfold State.blockAsk
  refine keeps_ite ?_ ?_
  · refine State.logDev_keeps ?_ _ _ _
    assumption
  · refine keeps_mk ?_ rfl rfl rfl
    assumption

theorem execFltBlkRstWrite_keeps {s0 s : State} (h : Keeps s0 s) (data : Word) :
    KeepsO s0 (execFltBlkRstWrite data s) := by
  unfold execFltBlkRstWrite
  refine keepsO_next ?_
  refine State.each_keeps ?_ ?_ _
  · assumption
  · intro y1 y2 y3
    refine State.blockAsk_keeps ?_ _
    assumption

theorem execBlockResetApply_keeps {s0 s : State} (h : Keeps s0 s) :
    KeepsO s0 (execBlockResetApply s) := by
  unfold execBlockResetApply
  extract_lets +onlyGivenNames v1
  clear_value v1
  extract_lets +onlyGivenNames v2
  clear_value v2
  extract_lets +onlyGivenNames v3
  have h4 : Keeps s0 v3 := by
    dsimp only [v3]
    refine keeps_mk ?_ rfl rfl rfl
    assumption
  clear_value v3
  refine keepsO_next ?_
  refine State.each_keeps ?_ ?_ _
  · assumption
  · intro y5 y6 y7
    refine State.blockReset_keeps ?_ _
    assumption

theorem execBlockResetDone_keeps {s0 s : State} (h : Keeps s0 s) (b : Fin 11) :
    KeepsO s0 (execBlockResetDone b s) := by
  unfold execBlockResetDone
  refine keepsO_next ?_
  refine keeps_ite ?_ ?_
  · extract_lets +onlyGivenNames v1
    clear_value v1
    extract_lets +onlyGivenNames v2
    have h3 : Keeps s0 v2 := by
      dsimp only [v2]
      refine keeps_mk ?_ rfl rfl rfl
      assumption
    clear_value v2
    refine State.logDev_keeps ?_ _ _ _
    assumption
  · assumption

theorem execRailExcursion_keeps {s0 s : State} (h : Keeps s0 s) (rail : Fin 10) (out : Bool) :
    KeepsO s0 (execRailExcursion rail out s) := by
  unfold execRailExcursion
  refine keepsO_next ?_
  refine keeps_ite ?_ ?_
  · refine State.raisePf_keeps ?_ _
    refine State.mark_keeps ?_ _ _
    refine State.unmark_keeps ?_ _ _
    assumption
  · refine State.mark_keeps ?_ _ _
    assumption

theorem execBankRailClassify_keeps {s0 s : State} (h : Keeps s0 s) (b : Fin 5) (v33 : Bool) (hiz : Bool) :
    KeepsO s0 (execBankRailClassify b v33 hiz s) := by
  unfold execBankRailClassify
  extract_lets +onlyGivenNames v1
  clear_value v1
  extract_lets +onlyGivenNames v2
  have h3 : Keeps s0 v2 := by
    dsimp only [v2]
    refine State.mark_keeps ?_ _ _
    assumption
  clear_value v2
  refine keepsO_next ?_
  refine keeps_ite ?_ ?_
  · refine State.put_keeps ?_ _ _
    assumption
  · assumption

end Sys2Proof.Machine
end

