-- ==== Sys2Proof/Laws/KeepsBus.lean ====
section
/-!
SUPPORT. What Bus.lean leaves untouched (Keeps), operation by operation.
-/

namespace Sys2Proof.Machine

open Sys2Proof

theorem State.via_keeps {s0 s : State} {o : Host.Outcome State Fault Refusal} (h : Keeps s0 s) (ho : KeepsO s0 o) :
    Keeps s0 (s.via o) := by
  cases o with
  | next t => exact ho t rfl
  | fault => exact h
  | refused => exact h

theorem State.plainWrite_keeps {s0 s : State} (h : Keeps s0 s) (a : ℕ) (w : Word) :
    Keeps s0 (State.plainWrite s a w) := by
  unfold State.plainWrite
  split
  · refine State.setWord_keeps ?_ _ _
    assumption
  · assumption

theorem State.writeArm_keeps {s0 s : State} (h : Keeps s0 s) (a : ℕ) (w : Word) :
    Keeps s0 (State.writeArm s a w) := by
  unfold State.writeArm
  refine keeps_ite ?_ ?_
  · split
    · assumption
    · refine State.via_keeps ?_ ?_
      · assumption
      · refine execArmCheck_keeps ?_
        assumption
    · refine State.via_keeps ?_ ?_
      · assumption
      · refine execArmAccept_keeps ?_
        assumption
    · refine State.via_keeps ?_ ?_
      · assumption
      · refine execArmRecarve_keeps ?_
        assumption
    · refine State.via_keeps ?_ ?_
      · assumption
      · refine execArmCmdMultiBit_keeps ?_
        assumption
  · refine keeps_ite ?_ ?_
    · refine State.via_keeps ?_ ?_
      · assumption
      · refine execArmLoadAddrWrite_keeps ?_ _
        assumption
    · refine keeps_ite ?_ ?_
      · refine State.via_keeps ?_ ?_
        · assumption
        · refine execArmLoadDataWrite_keeps ?_ _
          assumption
      · refine State.plainWrite_keeps ?_ _ _
        assumption

theorem State.writeTick_keeps {s0 s : State} (h : Keeps s0 s) (a : ℕ) (w : Word) :
    Keeps s0 (State.writeTick s a w) := by
  unfold State.writeTick
  refine keeps_ite ?_ ?_
  · refine State.via_keeps ?_ ?_
    · assumption
    · refine execTickForceHoldWrite_keeps ?_ _
      assumption
  · refine keeps_ite ?_ ?_
    · refine keeps_ite ?_ ?_
      · refine State.via_keeps ?_ ?_
        · assumption
        · refine execTickHwmClr_keeps ?_
          assumption
      · assumption
    · refine State.plainWrite_keeps ?_ _ _
      assumption

theorem State.dslEnvBad_keeps {s0 s : State} (h : Keeps s0 s) :
    Keeps s0 (State.dslEnvBad s) := by
  unfold State.dslEnvBad
  refine State.logDev_keeps ?_ _ _ _
  assumption

theorem State.writeDsl_keeps {s0 s : State} (h : Keeps s0 s) (a : Nat) (w : Word) :
    Keeps s0 (State.writeDsl s a w) := by
  unfold State.writeDsl
  split
  · refine State.via_keeps ?_ ?_
    · assumption
    · refine execDslFidWrite_keeps ?_ _ _
      assumption
  · refine keeps_ite ?_ ?_
    · extract_lets +onlyGivenNames v1
      have h2 : Keeps s0 v1 := by
        dsimp only [v1]
        refine State.plainWrite_keeps ?_ _ _
        assumption
      clear_value v1
      refine keeps_ite ?_ ?_
      · assumption
      · refine State.setFrame_keeps ?_ _
        assumption
    · refine keeps_ite ?_ ?_
      · refine keeps_ite ?_ ?_
        · refine State.plainWrite_keeps ?_ _ _
          assumption
        · refine State.dslEnvBad_keeps ?_
          assumption
      · refine keeps_ite ?_ ?_
        · refine keeps_ite ?_ ?_
          · refine State.plainWrite_keeps ?_ _ _
            assumption
          · refine State.dslEnvBad_keeps ?_
            assumption
        · refine keeps_ite ?_ ?_
          · extract_lets +onlyGivenNames v3
            have h4 : Keeps s0 v3 := by
              dsimp only [v3]
              refine State.via_keeps ?_ ?_
              · assumption
              · refine execLoopHoldWrite_keeps ?_ _ _
                assumption
            clear_value v3
            refine State.via_keeps ?_ ?_
            · assumption
            · refine execLoopHoldWrite_keeps ?_ _ _
              assumption
          · refine keeps_ite ?_ ?_
            · refine State.via_keeps ?_ ?_
              · assumption
              · refine execLoopEnvWrite_keeps ?_ _ _
                assumption
            · refine keeps_ite ?_ ?_
              · refine State.via_keeps ?_ ?_
                · assumption
                · refine execLoopManWrite_keeps ?_ _ _
                  assumption
              · refine keeps_ite ?_ ?_
                · refine State.via_keeps ?_ ?_
                  · assumption
                  · refine execLoopEnvWrite_keeps ?_ _ _
                    assumption
                · refine keeps_ite ?_ ?_
                  · refine State.via_keeps ?_ ?_
                    · assumption
                    · refine execLoopManWrite_keeps ?_ _ _
                      assumption
                  · refine State.plainWrite_keeps ?_ _ _
                    assumption

theorem State.writeAlloc_keeps {s0 s : State} (h : Keeps s0 s) (n : ℕ) (w : Word) :
    Keeps s0 (State.writeAlloc s n w) := by
  unfold State.writeAlloc
  extract_lets +onlyGivenNames v1
  clear_value v1
  extract_lets +onlyGivenNames v2
  clear_value v2
  extract_lets +onlyGivenNames v3
  clear_value v3
  extract_lets +onlyGivenNames v4
  clear_value v4
  refine keeps_ite ?_ ?_
  · refine State.logDev_keeps ?_ _ _ _
    assumption
  · refine keeps_ite ?_ ?_
    · refine State.logDev_keeps ?_ _ _ _
      assumption
    · extract_lets +onlyGivenNames v5
      have h6 : Keeps s0 v5 := by
        dsimp only [v5]
        refine State.putB_keeps ?_ _ _
        refine State.put_keeps ?_ _ _
        assumption
      clear_value v5
      refine State.syncBound_keeps ?_
      refine keeps_ite ?_ ?_
      · refine State.markRemovals_keeps ?_ _
        assumption
      · assumption

theorem State.writeUsl_keeps {s0 s : State} (h : Keeps s0 s) (x : Ambient) (a : ℕ) (w : Word) :
    Keeps s0 (State.writeUsl s x a w) := by
  unfold State.writeUsl
  split
  · refine State.via_keeps ?_ ?_
    · assumption
    · refine execUslFidWrite_keeps ?_ _ _
      assumption
  · refine State.writeAlloc_keeps ?_ _ _
    assumption
  · refine State.via_keeps ?_ ?_
    · assumption
    · refine execLoopEnvWrite_keeps ?_ _ _
      assumption
  · refine State.via_keeps ?_ ?_
    · assumption
    · refine execLoopManWrite_keeps ?_ _ _
      assumption
  · refine keeps_ite ?_ ?_
    · extract_lets +onlyGivenNames v1
      clear_value v1
      extract_lets +onlyGivenNames v2
      have h3 : Keeps s0 v2 := by
        dsimp only [v2]
        refine State.plainWrite_keeps ?_ _ _
        assumption
      clear_value v2
      refine keeps_ite ?_ ?_
      · refine State.setSafe_keeps ?_ _ _
        assumption
      · assumption
    · refine keeps_ite ?_ ?_
      · refine keeps_ite ?_ ?_
        · refine State.via_keeps ?_ ?_
          · assumption
          · refine execUslSafeClr_keeps ?_ _
            assumption
        · assumption
      · refine keeps_ite ?_ ?_
        · refine State.each_keeps ?_ ?_ _
          · assumption
          · intro y4 y5 y6
            refine State.via_keeps ?_ ?_
            · assumption
            · refine execLoopHoldWrite_keeps ?_ _ _
              assumption
        · refine State.plainWrite_keeps ?_ _ _
          assumption

theorem State.writeAct_keeps {s0 s : State} (h : Keeps s0 s) (a : ℕ) (w : Word) :
    Keeps s0 (State.writeAct s a w) := by
  unfold State.writeAct
  refine keeps_ite ?_ ?_
  · refine State.logDev_keeps ?_ _ _ _
    assumption
  · refine keeps_ite ?_ ?_
    · refine State.via_keeps ?_ ?_
      · assumption
      · refine execSilenceReleaseWrite_keeps ?_ _
        assumption
    · refine State.plainWrite_keeps ?_ _ _
      assumption

theorem State.writePnd_keeps {s0 s : State} (h : Keeps s0 s) (a : ℕ) (w : Word) :
    Keeps s0 (State.writePnd s a w) := by
  unfold State.writePnd
  split
  · refine State.via_keeps ?_ ?_
    · assumption
    · refine execPndGflowWrite_keeps ?_ _ _
      assumption
  · refine keeps_ite ?_ ?_
    · refine keeps_ite ?_ ?_
      · refine State.via_keeps ?_ ?_
        · assumption
        · refine execPndCmdUnbind_keeps ?_
          assumption
      · assumption
    · refine keeps_ite ?_ ?_
      · refine keeps_mk ?_ rfl rfl rfl
        assumption
      · refine State.plainWrite_keeps ?_ _ _
        assumption

theorem State.writeCel_keeps {s0 s : State} (h : Keeps s0 s) (a : ℕ) (w : Word) :
    Keeps s0 (State.writeCel s a w) := by
  unfold State.writeCel
  refine keeps_ite ?_ ?_
  · refine keeps_ite ?_ ?_
    · refine State.plainWrite_keeps ?_ _ _
      assumption
    · refine State.logDev_keeps ?_ _ _ _
      assumption
  · refine keeps_ite ?_ ?_
    · refine State.via_keeps ?_ ?_
      · assumption
      · refine execCalAckWrite_keeps ?_ _
        assumption
    · refine keeps_ite ?_ ?_
      · extract_lets +onlyGivenNames v1
        clear_value v1
        extract_lets +onlyGivenNames v2
        clear_value v2
        extract_lets +onlyGivenNames v3
        have h4 : Keeps s0 v3 := by
          dsimp only [v3]
          refine State.put_keeps ?_ _ _
          refine State.put_keeps ?_ _ _
          refine State.plainWrite_keeps ?_ _ _
          assumption
        clear_value v3
        refine State.tookFree_keeps ?_
        refine State.tookFree_keeps ?_
        assumption
      · split
        · refine keeps_ite ?_ ?_
          · refine State.plainWrite_keeps ?_ _ _
            assumption
          · refine State.logDev_keeps ?_ _ _ _
            assumption
        · refine State.plainWrite_keeps ?_ _ _
          assumption

theorem State.writeEth_keeps {s0 s : State} (h : Keeps s0 s) (a : Nat) (w : Word) :
    Keeps s0 (State.writeEth s a w) := by
  unfold State.writeEth
  split
  · assumption
  · extract_lets +onlyGivenNames v1
    clear_value v1
    refine keeps_ite ?_ ?_
    · refine State.modeBad_keeps ?_ _
      assumption
    · refine keeps_ite ?_ ?_
      · refine State.syncLink_keeps ?_ _
        refine State.plainWrite_keeps ?_ _ _
        assumption
      · refine keeps_ite ?_ ?_
        · refine keeps_ite ?_ ?_
          · refine State.plainWrite_keeps ?_ _ _
            assumption
          · refine State.modeBad_keeps ?_ _
            assumption
        · refine keeps_ite ?_ ?_
          · refine keeps_ite ?_ ?_
            · refine State.modeBad_keeps ?_ _
              assumption
            · refine State.ethPend_keeps ?_ _ _ _
              assumption
          · refine keeps_ite ?_ ?_
            · refine State.via_keeps ?_ ?_
              · assumption
              · refine execEthCbsWrite_keeps ?_ _ _ _
                assumption
            · refine keeps_ite ?_ ?_
              · refine State.via_keeps ?_ ?_
                · assumption
                · refine execEthWakeEnable_keeps ?_ _ _
                  assumption
              · split
                · refine State.via_keeps ?_ ?_
                  · assumption
                  · refine execEthCbsWrite_keeps ?_ _ _ _
                    assumption
                · split
                  · refine keeps_ite ?_ ?_
                    · refine State.plainWrite_keeps ?_ _ _
                      assumption
                    · refine State.modeBad_keeps ?_ _
                      assumption
                  · refine State.plainWrite_keeps ?_ _ _
                    assumption

theorem State.clsShadow_keeps {s0 s : State} (h : Keeps s0 s) (who : Agent) (named : Option ℕ) (a : ℕ) (w : Word) :
    Keeps s0 (State.clsShadow s who named a w) := by
  unfold State.clsShadow
  split
  · refine State.deny_keeps ?_ _ _ _
    assumption
  · extract_lets +onlyGivenNames v1
    clear_value v1
    refine keeps_mk ?_ rfl rfl rfl
    assumption

theorem State.writeCls_keeps {s0 s : State} (h : Keeps s0 s) (who : Agent) (a : Nat) (w : Word) :
    Keeps s0 (State.writeCls s who a w) := by
  unfold State.writeCls
  split
  · refine State.clsShadow_keeps ?_ _ _ _ _
    assumption
  · rename_i e1 e2 e3 e4 e5 e6 e7
    refine State.clsShadow_keeps ?_ _ _ _ _
    assumption
  · extract_lets +onlyGivenNames v8
    clear_value v8
    refine keeps_ite ?_ ?_
    · refine State.clsShadow_keeps ?_ _ _ _ _
      assumption
    · refine keeps_ite ?_ ?_
      · refine State.via_keeps ?_ ?_
        · assumption
        · refine execClsNtabWrite_keeps ?_ _ _
          assumption
      · refine keeps_ite ?_ ?_
        · split
          · refine State.via_keeps ?_ ?_
            · assumption
            · refine execClsUpdWrite_keeps ?_ _
              assumption
          · refine State.via_keeps ?_ ?_
            · assumption
            · refine execClsUpdRead_keeps ?_ _
              assumption
          · refine State.via_keeps ?_ ?_
            · assumption
            · refine execClsUpdHash_keeps ?_ _
              assumption
          · refine State.via_keeps ?_ ?_
            · assumption
            · refine execClsUpdInvalidate_keeps ?_ _
              assumption
          · refine keeps_ite ?_ ?_
            · refine State.updRefuse_keeps ?_ _ _
              assumption
            · assumption
        · refine keeps_ite ?_ ?_
          · refine State.via_keeps ?_ ?_
            · assumption
            · refine execClsTreeSelWrite_keeps ?_ _ _
              assumption
          · refine State.plainWrite_keeps ?_ _ _
            assumption
  · extract_lets +onlyGivenNames v9
    refine keeps_ite ?_ ?_
    · assumption
    · refine State.plainWrite_keeps ?_ _ _
      assumption
  · refine State.plainWrite_keeps ?_ _ _
    assumption

theorem State.writeTdm_keeps {s0 s : State} (h : Keeps s0 s) (a : ℕ) (w : Word) :
    Keeps s0 (State.writeTdm s a w) := by
  unfold State.writeTdm
  split
  · refine keeps_ite ?_ ?_
    · refine State.tdmQueue_keeps ?_ _ _
      assumption
    · refine State.tdmBad_keeps ?_ _ _
      assumption
  · refine State.via_keeps ?_ ?_
    · assumption
    · refine execTdmCirWrite_keeps ?_ _ _
      assumption
  · refine State.via_keeps ?_ ?_
    · assumption
    · refine execTdmMemWrite_keeps ?_ _ _
      assumption
  · refine keeps_ite ?_ ?_
    · refine keeps_ite ?_ ?_
      · refine keeps_mk ?_ rfl rfl rfl
        assumption
      · assumption
    · refine State.plainWrite_keeps ?_ _ _
      assumption

theorem State.writeView_keeps {s0 s : State} (h : Keeps s0 s) (who : Agent) (v : Nat) (o : Nat) (a : Nat) (w : Word) :
    Keeps s0 (State.writeView s who v o a w) := by
  unfold State.writeView
  extract_lets +onlyGivenNames v1
  clear_value v1
  refine keeps_ite ?_ ?_
  · refine State.refuseView_keeps ?_ _ _
    assumption
  · refine keeps_ite ?_ ?_
    · refine State.plainWrite_keeps ?_ _ _
      assumption
    · refine keeps_ite ?_ ?_
      · refine State.viewBad_keeps ?_
        assumption
      · extract_lets +onlyGivenNames v2
        have h3 : Keeps s0 v2 := by
          dsimp only [v2]
          refine State.when_keeps ?_ ?_ _
          · assumption
          · intro y4 y5
            refine State.via_keeps ?_ ?_
            · assumption
            · refine execViewOffsetCmd_keeps ?_ _ _
              assumption
        clear_value v2
        extract_lets +onlyGivenNames v6
        have h7 : Keeps s0 v6 := by
          dsimp only [v6]
          refine State.when_keeps ?_ ?_ _
          · assumption
          · intro y8 y9
            refine State.via_keeps ?_ ?_
            · assumption
            · refine execViewRateCmd_keeps ?_ _ _
              assumption
        clear_value v6
        refine State.when_keeps ?_ ?_ _
        · assumption
        · intro y10 y11
          refine State.via_keeps ?_ ?_
          · assumption
          · refine execViewStepCmd_keeps ?_ _ _
            assumption

theorem State.writeTim_keeps {s0 s : State} (h : Keeps s0 s) (who : Agent) (x : Ambient) (a : Nat) (w : Word) :
    Keeps s0 (State.writeTim s who x a w) := by
  unfold State.writeTim
  split
  · refine State.writeView_keeps ?_ _ _ _ _ _
    assumption
  · extract_lets +onlyGivenNames v1
    clear_value v1
    refine keeps_ite ?_ ?_
    · assumption
    · refine keeps_ite ?_ ?_
      · refine State.when_keeps ?_ ?_ _
        · refine State.when_keeps ?_ ?_ _
          · assumption
          · intro y2 y3
            refine State.via_keeps ?_ ?_
            · assumption
            · refine execToutDisarm_keeps ?_ _
              assumption
        · intro y4 y5
          refine State.via_keeps ?_ ?_
          · assumption
          · refine execToutArm_keeps ?_ _ _
            assumption
      · refine State.plainWrite_keeps ?_ _ _
        assumption
  · refine State.via_keeps ?_ ?_
    · assumption
    · refine execDinCfgWrite_keeps ?_ _ _ _
      assumption
  · extract_lets +onlyGivenNames v6
    clear_value v6
    extract_lets +onlyGivenNames v7
    have h8 : Keeps s0 v7 := by
      dsimp only [v7]
      refine State.when_keeps ?_ ?_ _
      · assumption
      · intro y9 y10
        refine State.via_keeps ?_ ?_
        · assumption
        · refine execDoutClear_keeps ?_ _
          assumption
    clear_value v7
    refine State.via_keeps ?_ ?_
    · assumption
    · refine execDoutCmd_keeps ?_ _ _
      assumption
  · refine keeps_ite ?_ ?_
    · refine keeps_ite ?_ ?_
      · refine State.via_keeps ?_ ?_
        · assumption
        · refine execTimSnap_keeps ?_
          assumption
      · assumption
    · refine keeps_ite ?_ ?_
      · refine keeps_ite ?_ ?_
        · refine State.viewBad_keeps ?_
          assumption
        · refine State.plainWrite_keeps ?_ _ _
          assumption
      · refine keeps_ite ?_ ?_
        · refine keeps_ite ?_ ?_
          · refine State.via_keeps ?_ ?_
            · assumption
            · refine execTimCalGo_keeps ?_ _ _
              assumption
          · assumption
        · refine State.plainWrite_keeps ?_ _ _
          assumption

theorem State.writeMsh_keeps {s0 s : State} (h : Keeps s0 s) (a : ℕ) (w : Word) :
    Keeps s0 (State.writeMsh s a w) := by
  unfold State.writeMsh
  extract_lets +onlyGivenNames v1
  have h2 : Keeps s0 v1 := by
    dsimp only [v1]
    refine State.mshLog_keeps ?_ _ _
    assumption
  clear_value v1
  extract_lets +onlyGivenNames v3
  clear_value v3
  split
  · refine State.via_keeps ?_ ?_
    · assumption
    · refine execMshNodeWrite_keeps ?_ _ _ _
      assumption
  · refine keeps_ite ?_ ?_
    · assumption
    · refine keeps_ite ?_ ?_
      · refine State.plainWrite_keeps ?_ _ _
        assumption
      · assumption
  · refine keeps_ite ?_ ?_
    · extract_lets +onlyGivenNames v4
      have h5 : Keeps s0 v4 := by
        dsimp only [v4]
        refine State.put_keeps ?_ _ _
        assumption
      clear_value v4
      refine keeps_ite ?_ ?_
      · refine State.via_keeps ?_ ?_
        · assumption
        · refine execMeshRun_keeps ?_
          assumption
      · refine keeps_ite ?_ ?_
        · refine State.via_keeps ?_ ?_
          · assumption
          · refine execMeshStop_keeps ?_
            assumption
        · assumption
    · refine keeps_ite ?_ ?_
      · refine keeps_ite ?_ ?_
        · assumption
        · refine keeps_ite ?_ ?_
          · assumption
          · refine State.plainWrite_keeps ?_ _ _
            assumption
      · refine keeps_ite ?_ ?_
        · extract_lets +onlyGivenNames v6
          clear_value v6
          refine keeps_ite ?_ ?_
          · refine State.plainWrite_keeps ?_ _ _
            assumption
          · assumption
        · refine keeps_ite ?_ ?_
          · extract_lets +onlyGivenNames v7
            have h8 : Keeps s0 v7 := by
              dsimp only [v7]
              refine State.plainWrite_keeps ?_ _ _
              assumption
            clear_value v7
            refine keeps_ite ?_ ?_
            · assumption
            · refine keeps_mk ?_ rfl rfl rfl
              assumption
          · refine keeps_ite ?_ ?_
            · refine State.put_keeps ?_ _ _
              refine State.via_keeps ?_ ?_
              · assumption
              · refine execLoopHoldWrite_keeps ?_ _ _
                assumption
            · refine keeps_ite ?_ ?_
              · refine State.via_keeps ?_ ?_
                · assumption
                · refine execLoopEnvWrite_keeps ?_ _ _
                  assumption
              · refine keeps_ite ?_ ?_
                · refine State.via_keeps ?_ ?_
                  · assumption
                  · refine execLoopManWrite_keeps ?_ _ _
                    assumption
                · refine keeps_ite ?_ ?_
                  · assumption
                  · refine State.plainWrite_keeps ?_ _ _
                    assumption

theorem State.writeFio_keeps {s0 s : State} (h : Keeps s0 s) (who : Agent) (a : ℕ) (w : Word) :
    Keeps s0 (State.writeFio s who a w) := by
  unfold State.writeFio
  extract_lets +onlyGivenNames v1
  clear_value v1
  refine keeps_ite ?_ ?_
  · refine State.dieDiscard_keeps ?_
    assumption
  · split
    · refine State.via_keeps ?_ ?_
      · assumption
      · refine execFioEnergyCfgWrite_keeps ?_ _ _
        assumption
    · refine keeps_ite ?_ ?_
      · refine State.fioCfgBad_keeps ?_ _ _
        assumption
      · refine State.plainWrite_keeps ?_ _ _
        assumption
    · refine State.via_keeps ?_ ?_
      · assumption
      · refine execFioEnergyCfgWrite_keeps ?_ _ _
        assumption
    · refine State.via_keeps ?_ ?_
      · assumption
      · refine execLoopTxmWrite_keeps ?_ _ _ _
        assumption
    · refine State.via_keeps ?_ ?_
      · assumption
      · refine execLoopSetWrite_keeps ?_ _ _
        assumption
    · extract_lets +onlyGivenNames v2
      clear_value v2
      refine keeps_ite ?_ ?_
      · refine State.fioCfgBad_keeps ?_ _ _
        assumption
      · refine State.plainWrite_keeps ?_ _ _
        assumption
    · refine State.setTabWord_keeps ?_ _ _ _
      assumption
    · refine keeps_ite ?_ ?_
      · refine keeps_ite ?_ ?_
        · refine State.via_keeps ?_ ?_
          · assumption
          · refine execCtabCommit_keeps ?_
            assumption
        · assumption
      · refine keeps_ite ?_ ?_
        · refine State.setTabWord_keeps ?_ _ _ _
          assumption
        · refine State.plainWrite_keeps ?_ _ _
          assumption

theorem State.writeCphSet_keeps {s0 s : State} (h : Keeps s0 s) (who : Agent) (o : ℕ) (r : ℕ) (a : ℕ) (w : Word) :
    Keeps s0 (State.writeCphSet s who o r a w) := by
  unfold State.writeCphSet
  extract_lets +onlyGivenNames v1
  clear_value v1
  refine keeps_ite ?_ ?_
  · extract_lets +onlyGivenNames v2
    clear_value v2
    refine keeps_ite ?_ ?_
    · refine State.plainWrite_keeps ?_ _ _
      assumption
    · split
      · refine State.deny_keeps ?_ _ _ _
        assumption
      · refine State.limDev_keeps ?_ _ _ _
        assumption
  · refine keeps_ite ?_ ?_
    · extract_lets +onlyGivenNames v3
      clear_value v3
      split
      · refine State.via_keeps ?_ ?_
        · assumption
        · refine execCphPlainLoad_keeps ?_ _ _
          assumption
      · refine State.via_keeps ?_ ?_
        · assumption
        · refine execCphUnwrapLoad_keeps ?_ _ _ _
          assumption
      · refine State.via_keeps ?_ ?_
        · assumption
        · refine execCphZero_keeps ?_ _ _
          assumption
      · assumption
    · refine keeps_ite ?_ ?_
      · refine State.setWord_keeps ?_ _ _
        assumption
      · refine State.plainWrite_keeps ?_ _ _
        assumption

theorem State.writeCph_keeps {s0 s : State} (h : Keeps s0 s) (who : Agent) (a : ℕ) (w : Word) :
    Keeps s0 (State.writeCph s who a w) := by
  unfold State.writeCph
  split
  · refine State.writeCphSet_keeps ?_ _ _ _ _ _
    assumption
  · extract_lets +onlyGivenNames v1
    clear_value v1
    refine State.via_keeps ?_ ?_
    · assumption
    · refine execCphSlotCfgWrite_keeps ?_ _ _ _
      assumption
  · refine keeps_ite ?_ ?_
    · refine keeps_ite ?_ ?_
      · refine State.via_keeps ?_ ?_
        · assumption
        · refine execCphEraseCmd_keeps ?_
          assumption
      · assumption
    · refine keeps_ite ?_ ?_
      · refine State.when_keeps ?_ ?_ _
        · refine State.when_keeps ?_ ?_ _
          · assumption
          · intro y2 y3
            refine State.via_keeps ?_ ?_
            · assumption
            · refine execSecretEnrolCmd_keeps ?_
              assumption
        · intro y4 y5
          refine State.via_keeps ?_ ?_
          · assumption
          · refine execSecretClearCmd_keeps ?_
            assumption
      · refine keeps_ite ?_ ?_
        · refine keeps_ite ?_ ?_
          · assumption
          · refine State.plainWrite_keeps ?_ _ _
            assumption
        · refine keeps_ite ?_ ?_
          · refine State.setWord_keeps ?_ _ _
            assumption
          · refine State.plainWrite_keeps ?_ _ _
            assumption

theorem State.writeRing_keeps {s0 s : State} (h : Keeps s0 s) (who : Agent) (n : ℕ) (r : ℕ) (o : ℕ) (a : ℕ) (w : Word) :
    Keeps s0 (State.writeRing s who n r o a w) := by
  unfold State.writeRing
  extract_lets +onlyGivenNames v1
  clear_value v1
  extract_lets +onlyGivenNames v2
  clear_value v2
  refine keeps_ite ?_ ?_
  · assumption
  · refine keeps_ite ?_ ?_
    · refine keeps_ite ?_ ?_
      · refine State.via_keeps ?_ ?_
        · assumption
        · refine execRingEnable_keeps ?_ _ _ _ _
          assumption
      · refine State.via_keeps ?_ ?_
        · assumption
        · refine execRingDisable_keeps ?_ _ _ _ _
          assumption
    · refine keeps_ite ?_ ?_
      · refine State.via_keeps ?_ ?_
        · assumption
        · refine execRingDoorbell_keeps ?_ _ _ _ _
          assumption
      · refine keeps_ite ?_ ?_
        · refine keeps_ite ?_ ?_
          · refine State.hifLog_keeps ?_ _ _ _
            assumption
          · refine State.plainWrite_keeps ?_ _ _
            assumption
        · assumption

theorem State.msixWrite_keeps {s0 s : State} (h : Keeps s0 s) (f : ℕ) (off : ℕ) (w : Word) :
    Keeps s0 (State.msixWrite s f off w) := by
  unfold State.msixWrite
  extract_lets +onlyGivenNames v1
  clear_value v1
  refine keeps_ite ?_ ?_
  · extract_lets +onlyGivenNames v2
    clear_value v2
    refine State.sendPending_keeps ?_ _
    refine State.putMsix_keeps ?_ _ _ _
    assumption
  · assumption

theorem State.writeHif_keeps {s0 s : State} (h : Keeps s0 s) (who : Agent) (a : ℕ) (w : Word) :
    Keeps s0 (State.writeHif s who a w) := by
  unfold State.writeHif
  split
  · refine State.writeRing_keeps ?_ _ _ _ _ _ _
    assumption
  · extract_lets +onlyGivenNames v1
    clear_value v1
    refine keeps_ite ?_ ?_
    · refine State.via_keeps ?_ ?_
      · assumption
      · refine execSupPfTxWrite_keeps ?_ _ _ _
        assumption
    · refine keeps_ite ?_ ?_
      · refine State.via_keeps ?_ ?_
        · assumption
        · refine execMbxFlush_keeps ?_ _ _
          assumption
      · assumption
  · refine keeps_ite ?_ ?_
    · refine State.plainWrite_keeps ?_ _ _
      assumption
    · assumption
  · refine keeps_ite ?_ ?_
    · refine State.msixWrite_keeps ?_ _ _ _
      assumption
    · refine State.plainWrite_keeps ?_ _ _
      assumption

theorem State.writeSup_keeps {s0 s : State} (h : Keeps s0 s) (who : Agent) (a : ℕ) (w : Word) :
    Keeps s0 (State.writeSup s who a w) := by
  unfold State.writeSup
  refine keeps_ite ?_ ?_
  · refine State.via_keeps ?_ ?_
    · assumption
    · refine execSupPfTxWrite_keeps ?_ _ _ _
      assumption
  · refine keeps_ite ?_ ?_
    · refine keeps_ite ?_ ?_
      · refine State.via_keeps ?_ ?_
        · assumption
        · refine execMbxFlush_keeps ?_ _ _
          assumption
      · assumption
    · refine State.plainWrite_keeps ?_ _ _
      assumption

theorem State.writeCrt_keeps {s0 s : State} (h : Keeps s0 s) (a : ℕ) (w : Word) :
    Keeps s0 (State.writeCrt s a w) := by
  unfold State.writeCrt
  refine keeps_ite ?_ ?_
  · refine State.crtLog_keeps ?_ _ _
    assumption
  · refine keeps_ite ?_ ?_
    · extract_lets +onlyGivenNames v1
      clear_value v1
      refine keeps_ite ?_ ?_
      · refine State.via_keeps ?_ ?_
        · assumption
        · refine execCrtRawGo_keeps ?_ _
          assumption
      · refine keeps_ite ?_ ?_
        · refine State.plainWrite_keeps ?_ _ _
          assumption
        · refine State.crtLog_keeps ?_ _ _
          assumption
    · refine State.plainWrite_keeps ?_ _ _
      assumption

theorem State.writePwr_keeps {s0 s : State} (h : Keeps s0 s) (a : ℕ) (w : Word) :
    Keeps s0 (State.writePwr s a w) := by
  unfold State.writePwr
  split
  · refine State.via_keeps ?_ ?_
    · assumption
    · refine execPwrMaskWrite_keeps ?_ _ _ _
      assumption
  · refine keeps_ite ?_ ?_
    · extract_lets +onlyGivenNames v1
      have h2 : Keeps s0 v1 := by
        dsimp only [v1]
        refine State.when_keeps ?_ ?_ _
        · assumption
        · intro y3 y4
          refine State.via_keeps ?_ ?_
          · assumption
          · refine execPwrGaspClr_keeps ?_
            assumption
      clear_value v1
      extract_lets +onlyGivenNames v5
      have h6 : Keeps s0 v5 := by
        dsimp only [v5]
        refine State.when_keeps ?_ ?_ _
        · assumption
        · intro y7 y8
          refine State.via_keeps ?_ ?_
          · assumption
          · refine execPwrGaspCmd_keeps ?_
            assumption
      clear_value v5
      refine State.when_keeps ?_ ?_ _
      · assumption
      · intro y9 y10
        refine State.via_keeps ?_ ?_
        · assumption
        · refine execPowerModeRequest_keeps ?_ _
          assumption
    · refine keeps_ite ?_ ?_
      · refine keeps_ite ?_ ?_
        · refine State.plainWrite_keeps ?_ _ _
          assumption
        · assumption
      · refine keeps_ite ?_ ?_
        · refine keeps_mk ?_ rfl rfl rfl
          assumption
        · refine State.plainWrite_keeps ?_ _ _
          assumption

theorem State.writeFlc_keeps {s0 s : State} (h : Keeps s0 s) (a : ℕ) (w : Word) :
    Keeps s0 (State.writeFlc s a w) := by
  unfold State.writeFlc
  split
  · refine keeps_ite ?_ ?_
    · assumption
    · refine keeps_ite ?_ ?_
      · split
        · refine State.via_keeps ?_ ?_
          · assumption
          · refine execFlashProgramCmd_keeps ?_ _
            assumption
        · refine State.via_keeps ?_ ?_
          · assumption
          · refine execFlashEraseCmd_keeps ?_ _
            assumption
        · refine State.via_keeps ?_ ?_
          · assumption
          · refine execFlashSuspendCmd_keeps ?_
            assumption
        · refine State.via_keeps ?_ ?_
          · assumption
          · refine execFlashResumeCmd_keeps ?_
            assumption
        · assumption
      · refine State.plainWrite_keeps ?_ _ _
        assumption
  · refine keeps_ite ?_ ?_
    · assumption
    · refine State.plainWrite_keeps ?_ _ _
      assumption

theorem State.writeCst_keeps {s0 s : State} (h : Keeps s0 s) (a : ℕ) (w : Word) :
    Keeps s0 (State.writeCst s a w) := by
  unfold State.writeCst
  refine keeps_ite ?_ ?_
  · assumption
  · refine State.plainWrite_keeps ?_ _ _
    assumption

theorem State.writeFlt_keeps {s0 s : State} (h : Keeps s0 s) (a : ℕ) (w : Word) :
    Keeps s0 (State.writeFlt s a w) := by
  unfold State.writeFlt
  split
  · refine State.via_keeps ?_ ?_
    · assumption
    · refine execFltLogAck_keeps ?_ _ _
      assumption
  · refine keeps_ite ?_ ?_
    · refine State.via_keeps ?_ ?_
      · assumption
      · refine execFltNcmdReset_keeps ?_ _
        assumption
    · assumption
  · refine keeps_ite ?_ ?_
    · refine keeps_ite ?_ ?_
      · refine State.via_keeps ?_ ?_
        · assumption
        · refine execFltCmdWarm_keeps ?_
          assumption
      · assumption
    · refine keeps_ite ?_ ?_
      · refine keeps_ite ?_ ?_
        · refine State.plainWrite_keeps ?_ _ _
          assumption
        · refine State.logDev_keeps ?_ _ _ _
          assumption
      · refine keeps_ite ?_ ?_
        · refine State.via_keeps ?_ ?_
          · assumption
          · refine execWatchdogKick_keeps ?_ _
            assumption
        · refine keeps_ite ?_ ?_
          · refine State.via_keeps ?_ ?_
            · assumption
            · refine execFltBlkRstWrite_keeps ?_ _
              assumption
          · refine keeps_ite ?_ ?_
            · refine keeps_mk ?_ rfl rfl rfl
              assumption
            · refine keeps_ite ?_ ?_
              · refine State.via_keeps ?_ ?_
                · assumption
                · refine execFltLogAck_keeps ?_ _ _
                  assumption
              · refine State.plainWrite_keeps ?_ _ _
                assumption

theorem State.writeBlock_keeps {s0 s : State} (h : Keeps s0 s) (who : Agent) (x : Ambient) (a : ℕ) (w : Word) :
    Keeps s0 (State.writeBlock s who x a w) := by
  unfold State.writeBlock
  refine keeps_ite ?_ ?_
  · refine State.plainWrite_keeps ?_ _ _
    assumption
  · refine keeps_ite ?_ ?_
    · refine State.writeArm_keeps ?_ _ _
      assumption
    · refine keeps_ite ?_ ?_
      · refine State.writeTick_keeps ?_ _ _
        assumption
      · refine keeps_ite ?_ ?_
        · refine State.writeDsl_keeps ?_ _ _
          assumption
        · refine keeps_ite ?_ ?_
          · refine State.writeUsl_keeps ?_ _ _ _
            assumption
          · refine keeps_ite ?_ ?_
            · refine State.writeAct_keeps ?_ _ _
              assumption
            · refine keeps_ite ?_ ?_
              · refine State.writePnd_keeps ?_ _ _
                assumption
              · refine keeps_ite ?_ ?_
                · refine State.writeCel_keeps ?_ _ _
                  assumption
                · refine keeps_ite ?_ ?_
                  · refine State.writeEth_keeps ?_ _ _
                    assumption
                  · refine keeps_ite ?_ ?_
                    · refine State.writeCls_keeps ?_ _ _ _
                      assumption
                    · refine keeps_ite ?_ ?_
                      · refine State.writeTdm_keeps ?_ _ _
                        assumption
                      · refine keeps_ite ?_ ?_
                        · refine State.writeTim_keeps ?_ _ _ _ _
                          assumption
                        · refine keeps_ite ?_ ?_
                          · refine State.writeMsh_keeps ?_ _ _
                            assumption
                          · refine keeps_ite ?_ ?_
                            · refine State.writeFio_keeps ?_ _ _ _
                              assumption
                            · refine keeps_ite ?_ ?_
                              · refine State.writeCph_keeps ?_ _ _ _
                                assumption
                              · refine keeps_ite ?_ ?_
                                · refine State.writeHif_keeps ?_ _ _ _
                                  assumption
                                · refine keeps_ite ?_ ?_
                                  · refine State.writeSup_keeps ?_ _ _ _
                                    assumption
                                  · refine keeps_ite ?_ ?_
                                    · refine State.writeCrt_keeps ?_ _ _
                                      assumption
                                    · refine keeps_ite ?_ ?_
                                      · refine State.writePwr_keeps ?_ _ _
                                        assumption
                                      · refine keeps_ite ?_ ?_
                                        · refine State.writeFlc_keeps ?_ _ _
                                          assumption
                                        · refine keeps_ite ?_ ?_
                                          · refine State.writeCst_keeps ?_ _ _
                                            assumption
                                          · refine State.writeFlt_keeps ?_ _ _
                                            assumption

theorem State.writeReg_keeps {s0 s : State} (h : Keeps s0 s) (who : Agent) (x : Ambient) (a : ℕ) (w : Word) :
    Keeps s0 (State.writeReg s who x a w) := by
  unfold State.writeReg
  refine keeps_ite ?_ ?_
  · assumption
  · refine keeps_ite ?_ ?_
    · refine State.via_keeps ?_ ?_
      · assumption
      · refine execTableWindowWrite_keeps ?_ _
        assumption
    · refine keeps_ite ?_ ?_
      · assumption
      · refine keeps_ite ?_ ?_
        · refine State.limDev_keeps ?_ _ _ _
          assumption
        · refine keeps_ite ?_ ?_
          · refine State.logDev_keeps ?_ _ _ _
            assumption
          · refine keeps_ite ?_ ?_
            · assumption
            · refine State.writeBlock_keeps ?_ _ _ _ _
              assumption

theorem State.readTemp_keeps {s0 s : State} (h : Keeps s0 s) :
    Keeps s0 (State.readTemp s).1 := by
  unfold State.readTemp
  dsimp only
  refine State.put_keeps ?_ _ _
  assumption

theorem State.readBox_keeps {s0 s : State} (h : Keeps s0 s) (box : Option (Fin 16)) :
    Keeps s0 (State.readBox s box).1 := by
  unfold State.readBox
  dsimp only
  split
  · dsimp only
    refine State.setMbx_keeps ?_ _ _
    assumption
  · assumption

theorem State.readReg_keeps {s0 s : State} (h : Keeps s0 s) (src : ℕ) (a : ℕ) :
    Keeps s0 (State.readReg s src a).1 := by
  unfold State.readReg
  dsimp only
  refine keeps_ite_fst ?_ ?_
  · dsimp only
    refine State.tookFree_keeps ?_
    refine State.flashRead_keeps ?_ _ _ _ _
    assumption
  · refine keeps_ite_fst ?_ ?_
    · assumption
    · refine keeps_ite_fst ?_ ?_
      · dsimp only
        refine State.limDev_keeps ?_ _ _ _
        assumption
      · refine keeps_ite_fst ?_ ?_
        · assumption
        · refine keeps_ite_fst ?_ ?_
          · assumption
          · refine keeps_ite_fst ?_ ?_
            · refine State.readTemp_keeps ?_
              assumption
            · refine keeps_ite_fst ?_ ?_
              · dsimp only
                refine State.readFcLo_keeps ?_ _
                assumption
              · refine keeps_ite_fst ?_ ?_
                · dsimp only
                  refine State.latchHi_keeps ?_ _ _ _
                  assumption
                · refine keeps_ite_fst ?_ ?_
                  · refine State.readBox_keeps ?_ _
                    assumption
                  · split
                    · refine keeps_ite_fst ?_ ?_
                      · dsimp only
                        refine State.readCelLo_keeps ?_ _ _ _
                        assumption
                      · assumption
                    · refine keeps_ite_fst ?_ ?_
                      · dsimp only
                        refine State.latchHi_keeps ?_ _ _ _
                        assumption
                      · refine keeps_ite_fst ?_ ?_
                        · dsimp only
                          refine State.latchHi_keeps ?_ _ _ _
                          assumption
                        · assumption
                    · refine State.readTsq_keeps ?_ _ _
                      assumption
                    · refine State.readTin_keeps ?_ _ _
                      assumption
                    · refine State.readDin_keeps ?_ _ _
                      assumption
                    · dsimp only
                      refine State.putB_keeps ?_ _ _
                      assumption
                    · refine State.readBox_keeps ?_ _
                      assumption
                    · assumption

end Sys2Proof.Machine
end

