-- ==== Sys2Proof/Laws/KeepsEdge.lean ====
section
/-!
SUPPORT. What Edge.lean leaves untouched (Keeps), operation by operation.
-/

namespace Sys2Proof.Machine

open Sys2Proof

theorem State.sampleTemp_keeps {s0 s : State} (h : Keeps s0 s) (temp : BitVec 16) :
    Keeps s0 (State.sampleTemp s temp) := by
  unfold State.sampleTemp
  extract_lets +onlyGivenNames v1
  have h2 : Keeps s0 v1 := by
    dsimp only [v1]
    refine State.put_keeps ?_ _ _
    assumption
  clear_value v1
  refine keeps_ite ?_ ?_
  · refine State.put_keeps ?_ _ _
    assumption
  · assumption

theorem State.countTrial_keeps {s0 s : State} (h : Keeps s0 s) :
    Keeps s0 (State.countTrial s) := by
  unfold State.countTrial
  refine keeps_ite ?_ ?_
  · assumption
  · refine keeps_ite ?_ ?_
    · refine keeps_mk ?_ rfl rfl rfl
      assumption
    · refine keeps_ite ?_ ?_
      · assumption
      · refine keeps_mk ?_ rfl rfl rfl
        assumption

theorem execTickEdge_keeps {s0 s : State} (h : Keeps s0 s) (xo : Int) (e : Option Int) (cycles : Nat) (frac : Fin 16) (link : LinkSample) (temp : BitVec 16) :
    KeepsO s0 (execTickEdge xo e cycles frac link temp s) := by
  unfold execTickEdge
  refine keepsO_next ?_
  refine keeps_ite ?_ ?_
  · assumption
  · extract_lets +onlyGivenNames v1
    have h2 : Keeps s0 v1 := by
      dsimp only [v1]
      refine State.tickEdge_keeps ?_ _ _ _ _
      assumption
    clear_value v1
    refine keeps_ite ?_ ?_
    · assumption
    · refine State.countTrial_keeps ?_
      refine State.pndEdge_keeps ?_ _
      refine State.pwrEdge_keeps ?_
      refine State.ethEdge_keeps ?_
      refine State.meshEdge_keeps ?_
      refine State.sampleTemp_keeps ?_ _
      refine State.uslEdge_keeps ?_
      assumption

end Sys2Proof.Machine
end

