-- ==== Sys2Proof/Laws/KeepsFrag.lean ====
section
/-!
SUPPORT. What Frag.lean leaves untouched (Keeps), operation by operation.
-/

namespace Sys2Proof.Machine

open Sys2Proof

theorem State.setFlow_keeps {s0 s : State} (h : Keeps s0 s) (n : ℕ) (x : Option Flow) :
    Keeps s0 (State.setFlow s n x) := by
  unfold State.setFlow
  refine keeps_mk ?_ rfl rfl rfl
  assumption

theorem State.breakFlow_keeps {s0 s : State} (h : Keeps s0 s) (n : Nat) :
    Keeps s0 (State.breakFlow s n) := by
  unfold State.breakFlow
  split
  · refine State.setFlow_keeps ?_ _ _
    assumption
  · refine State.setFlow_keeps ?_ _ _
    assumption

theorem State.breakPartials_keeps {s0 s : State} (h : Keeps s0 s) :
    Keeps s0 (State.breakPartials s) := by
  unfold State.breakPartials
  refine State.each_keeps ?_ ?_ _
  · assumption
  · intro y1 y2 y3
    refine State.breakFlow_keeps ?_ _
    assumption

theorem State.dropPartial_keeps {s0 s : State} (h : Keeps s0 s) (x : Flow) :
    Keeps s0 (State.dropPartial s x) := by
  unfold State.dropPartial
  split
  · refine State.release_keeps ?_ _
    assumption
  · assumption

theorem State.appendTo_keeps {s0 s : State} (h : Keeps s0 s) (id : Nat) (b : List Byte) :
    Keeps s0 (State.appendTo s id b) := by
  unfold State.appendTo
  split
  · assumption
  · extract_lets +onlyGivenNames v1
    clear_value v1
    extract_lets +onlyGivenNames v2
    clear_value v2
    extract_lets +onlyGivenNames v3
    have h4 : Keeps s0 v3 := by
      dsimp only [v3]
      refine State.modSdu_keeps ?_ _ _
      assumption
    clear_value v3
    refine keeps_ite ?_ ?_
    · refine keeps_mk ?_ rfl rfl rfl
      assumption
    · refine State.writeCells_keeps ?_ _ _
      assumption

theorem State.beginPartial_keeps {s0 s : State} (h : Keeps s0 s) :
    Keeps s0 (State.beginPartial s).2 := by
  unfold State.beginPartial
  dsimp only
  refine State.newSdu_keeps ?_ _
  assumption

theorem State.takeFragment_keeps {s0 s : State} (h : Keeps s0 s) (n : Nat) (last : Bool) (b : List Byte) :
    Keeps s0 (State.takeFragment s n last b) := by
  unfold State.takeFragment
  extract_lets +onlyGivenNames v1
  clear_value v1
  refine keeps_ite ?_ ?_
  · refine State.setFlow_keeps ?_ _ _
    assumption
  · refine keeps_ite ?_ ?_
    · refine keeps_ite ?_ ?_
      · refine State.setFlow_keeps ?_ _ _
        refine State.sat_keeps ?_ _
        refine State.dropPartial_keeps ?_ _
        assumption
      · assumption
    · extract_lets +onlyGivenNames v2
      have h3 : Keeps s0 v2.2 := by
        dsimp only [v2]
        split
        · dsimp only
          assumption
        · refine State.beginPartial_keeps ?_
          assumption
      clear_value v2
      extract_lets +onlyGivenNames v4
      have h5 : Keeps s0 v4 := by
        dsimp only [v4]
        assumption
      clear_value v4
      extract_lets +onlyGivenNames v6
      clear_value v6
      split
      · refine State.setFlow_keeps ?_ _ _
        assumption
      · refine keeps_ite ?_ ?_
        · refine State.setFlow_keeps ?_ _ _
          refine State.dropAs_keeps ?_ _ _
          assumption
        · refine keeps_ite ?_ ?_
          · refine State.setFlow_keeps ?_ _ _
            refine State.sat_keeps ?_ _
            refine State.release_keeps ?_ _
            assumption
          · extract_lets +onlyGivenNames v7
            have h8 : Keeps s0 v7 := by
              dsimp only [v7]
              refine State.appendTo_keeps ?_ _ _
              assumption
            clear_value v7
            refine keeps_ite ?_ ?_
            · refine State.setFlow_keeps ?_ _ _
              assumption
            · refine keeps_ite ?_ ?_
              · refine State.forward_keeps ?_ _ _
                refine State.setFlow_keeps ?_ _ _
                assumption
              · refine State.setFlow_keeps ?_ _ _
                assumption

theorem State.loseFragment_keeps {s0 s : State} (h : Keeps s0 s) (n : ℕ) (k : ℕ) :
    Keeps s0 (State.loseFragment s n k) := by
  unfold State.loseFragment
  refine State.breakFlow_keeps ?_ _
  refine State.sat_keeps ?_ _
  assumption

theorem State.keyStale_keeps {s0 s : State} (h : Keeps s0 s) (n : Nat) :
    Keeps s0 (State.keyStale s n) := by
  unfold State.keyStale
  refine State.limitKind_keeps ?_ _ _ _ _ _
  refine State.loseFragment_keeps ?_ _ _
  assumption

theorem State.takeSealed_keeps {s0 s : State} (h : Keeps s0 s) (n : Nat) (v : Nat) (i : Nat) (text : List Byte) (tag : List Byte) :
    Keeps s0 (State.takeSealed s n v i text tag) := by
  unfold State.takeSealed
  extract_lets +onlyGivenNames v1
  clear_value v1
  extract_lets +onlyGivenNames v2
  clear_value v2
  extract_lets +onlyGivenNames v3
  clear_value v3
  extract_lets +onlyGivenNames v4
  clear_value v4
  extract_lets +onlyGivenNames v5
  have h6 : Keeps s0 v5 := by
    dsimp only [v5]
    refine State.limDev_keeps ?_ _ _ _
    refine State.loseFragment_keeps ?_ _ _
    assumption
  clear_value v5
  split
  · refine State.keyStale_keeps ?_ _
    assumption
  · assumption
  · assumption
  · refine State.limDev_keeps ?_ _ _ _
    refine State.loseFragment_keeps ?_ _ _
    assumption
  · split
    · refine State.limDev_keeps ?_ _ _ _
      refine State.loseFragment_keeps ?_ _ _
      assumption
    · extract_lets +onlyGivenNames v7
      have h8 : Keeps s0 v7 := by
        dsimp only [v7]
        refine keeps_ite ?_ ?_
        · refine State.modPair_keeps ?_ _ _
          assumption
        · assumption
      clear_value v7
      refine State.takeFragment_keeps ?_ _ _ _
      assumption

theorem State.truncFrame_keeps {s0 s : State} (h : Keeps s0 s) :
    Keeps s0 (State.truncFrame s) := by
  unfold State.truncFrame
  extract_lets +onlyGivenNames v1
  have h2 : Keeps s0 v1 := by
    dsimp only [v1]
    refine State.breakPartials_keeps ?_
    refine State.sat_keeps ?_ _
    assumption
  clear_value v1
  refine keeps_mk ?_ rfl rfl rfl
  assumption

theorem State.downFragment_keeps {s0 s : State} (h : Keeps s0 s) (start : ℕ) (i : ℕ) (v : ℕ) (payload : List Byte) (tag : List Byte) (bad : List ℕ) :
    Keeps s0 (State.downFragment s start i v payload tag bad) := by
  unfold State.downFragment
  extract_lets +onlyGivenNames v1
  clear_value v1
  extract_lets +onlyGivenNames v2
  clear_value v2
  extract_lets +onlyGivenNames v3
  clear_value v3
  extract_lets +onlyGivenNames v4
  clear_value v4
  refine keeps_ite ?_ ?_
  · refine keeps_mk ?_ rfl rfl rfl
    assumption
  · refine keeps_ite ?_ ?_
    · refine State.truncFrame_keeps ?_
      assumption
    · split
      · assumption
      · extract_lets +onlyGivenNames v5
        have h6 : Keeps s0 v5 := by
          dsimp only [v5]
          refine State.sat_keeps ?_ _
          assumption
        clear_value v5
        refine keeps_ite ?_ ?_
        · refine State.breakFlow_keeps ?_ _
          assumption
        · refine keeps_ite ?_ ?_
          · refine State.takeSealed_keeps ?_ _ _ _ _ _
            assumption
          · refine keeps_ite ?_ ?_
            · refine State.loseFragment_keeps ?_ _ _
              assumption
            · refine State.takeFragment_keeps ?_ _ _ _
              assumption

theorem State.fragmentAt_keeps {s0 s : State} (h : Keeps s0 s) (d : Nat) (v : Nat) :
    Keeps s0 (State.fragmentAt s d v) := by
  unfold State.fragmentAt
  extract_lets +onlyGivenNames v1
  clear_value v1
  extract_lets +onlyGivenNames v2
  clear_value v2
  extract_lets +onlyGivenNames v3
  clear_value v3
  extract_lets +onlyGivenNames v4
  clear_value v4
  refine State.downFragment_keeps ?_ _ _ _ _ _ _
  refine keeps_mk ?_ rfl rfl rfl
  assumption

theorem execFragmentRx_keeps {s0 s : State} (h : Keeps s0 s) :
    KeepsO s0 (execFragmentRx s) := by
  unfold execFragmentRx
  refine keepsO_next ?_
  refine keeps_ite ?_ ?_
  · assumption
  · split
    · refine keeps_mk ?_ rfl rfl rfl
      assumption
    · refine keeps_ite ?_ ?_
      · refine keeps_mk ?_ rfl rfl rfl
        assumption
      · split
        · refine State.truncFrame_keeps ?_
          refine State.sat_keeps ?_ _
          assumption
        · refine State.fragmentAt_keeps ?_ _ _
          refine State.when_keeps ?_ ?_ _
          · assumption
          · intro y1 y2
            refine State.sat_keeps ?_ _
            assumption

theorem execSduTimeout_keeps {s0 s : State} (h : Keeps s0 s) (flow : Fin 1024) :
    KeepsO s0 (execSduTimeout flow s) := by
  unfold execSduTimeout
  refine keepsO_next ?_
  split
  · refine keeps_ite ?_ ?_
    · refine State.setFlow_keeps ?_ _ _
      refine State.sat_keeps ?_ _
      refine State.dropPartial_keeps ?_ _
      assumption
    · assumption
  · assumption

theorem execKeyEpoch_keeps {s0 s : State} (h : Keeps s0 s) (msg : List Byte) :
    KeepsO s0 (execKeyEpoch msg s) := by
  unfold execKeyEpoch
  refine keepsO_next ?_
  refine keeps_ite ?_ ?_
  · refine State.keyEpoch_keeps ?_ _
    refine State.tookMsg_keeps ?_ _
    assumption
  · assumption

theorem execKeySlotRetire_keeps {s0 s : State} (h : Keeps s0 s) (pair : Fin 32) :
    KeepsO s0 (execKeySlotRetire pair s) := by
  unfold execKeySlotRetire
  extract_lets +onlyGivenNames v1
  clear_value v1
  refine keepsO_next ?_
  split
  · refine keeps_ite ?_ ?_
    · extract_lets +onlyGivenNames v2
      have h3 : Keeps s0 v2 := by
        dsimp only [v2]
        refine State.modPair_keeps ?_ _ _
        refine State.emptySlot_keeps ?_ _
        assumption
      clear_value v2
      refine State.when_keeps ?_ ?_ _
      · assumption
      · intro y4 y5
        refine State.fillLine_keeps ?_ _ _
        assumption
    · assumption
  · assumption

theorem State.applyFid_keeps {s0 s : State} (h : Keeps s0 s) (n : ℕ) (w : Word) :
    Keeps s0 (State.applyFid s n w) := by
  unfold State.applyFid
  extract_lets +onlyGivenNames v1
  have h2 : Keeps s0 v1 := by
    dsimp only [v1]
    refine keeps_ite ?_ ?_
    · assumption
    · split
      · refine State.setFlow_keeps ?_ _ _
        refine State.when_keeps ?_ ?_ _
        · refine State.dropPartial_keeps ?_ _
          assumption
        · intro y3 y4
          refine State.sat_keeps ?_ _
          assumption
      · assumption
  clear_value v1
  refine State.setWord_keeps ?_ _ _
  assumption

theorem execFidChangeApply_keeps {s0 s : State} (h : Keeps s0 s) :
    KeepsO s0 (execFidChangeApply s) := by
  unfold execFidChangeApply
  extract_lets +onlyGivenNames v1
  clear_value v1
  extract_lets +onlyGivenNames v2
  clear_value v2
  extract_lets +onlyGivenNames v3
  clear_value v3
  extract_lets +onlyGivenNames v4
  have h5 : Keeps s0 v4 := by
    dsimp only [v4]
    refine keeps_mk ?_ rfl rfl rfl
    assumption
  clear_value v4
  extract_lets +onlyGivenNames v6
  have h7 : Keeps s0 v6 := by
    dsimp only [v6]
    refine State.each_keeps ?_ ?_ _
    · assumption
    · intro y8 y9 y10
      refine State.applyFid_keeps ?_ _ _
      assumption
  clear_value v6
  extract_lets +onlyGivenNames v11
  have h12 : Keeps s0 v11 := by
    dsimp only [v11]
    refine State.each_keeps ?_ ?_ _
    · assumption
    · intro y13 y14 y15
      refine State.setWord_keeps ?_ _ _
      assumption
  clear_value v11
  refine keepsO_next ?_
  refine State.fillLines_keeps ?_
  assumption

end Sys2Proof.Machine
end

