-- ==== Sys2Proof/Laws/KeepsReg.lean ====
section
/-!
SUPPORT. What Reg.lean leaves untouched (Keeps), operation by operation.
-/

namespace Sys2Proof.Machine

open Sys2Proof

theorem State.narrow_keeps {s0 s : State} (h : Keeps s0 s) (who : Agent) (off : ℕ) :
    Keeps s0 (State.narrow s who off) := by
  unfold State.narrow
  split
  · refine keeps_ite ?_ ?_
    · assumption
    · refine State.limDev_keeps ?_ _ _ _
      assumption
  · refine keeps_ite ?_ ?_
    · refine State.limNiche_keeps ?_ _ _ _
      assumption
    · assumption
  · assumption

theorem execNarrowAccess_keeps {s0 s : State} (h : Keeps s0 s) (who : Agent) (addr : BitVec 26) (write : Bool) :
    KeepsO s0 (execNarrowAccess who addr write s) := by
  unfold execNarrowAccess
  refine keepsO_next ?_
  refine State.when_keeps ?_ ?_ _
  · refine State.narrow_keeps ?_ _ _
    assumption
  · intro y1 y2
    split
    · refine State.answer_keeps ?_ _ _
      assumption
    · refine keeps_ite ?_ ?_
      · refine State.answer_keeps ?_ _ _
        assumption
      · assumption
    · assumption

theorem State.vfUnmapped_keeps {s0 s : State} (h : Keeps s0 s) (n : ℕ) (off : ℕ) :
    Keeps s0 (State.vfUnmapped s n off) := by
  unfold State.vfUnmapped
  refine State.logNiche_keeps ?_ _ _ _
  assumption

theorem State.windowWrite_keeps {s0 s : State} (h : Keeps s0 s) (n : Fin 16) (x : Ambient) (off : ℕ) (w : Word) :
    Keeps s0 (State.windowWrite s n x off w) := by
  unfold State.windowWrite
  refine keeps_ite ?_ ?_
  · assumption
  · refine keeps_ite ?_ ?_
    · refine State.msixWrite_keeps ?_ _ _ _
      assumption
    · refine keeps_ite ?_ ?_
      · assumption
      · split
        · refine State.vfUnmapped_keeps ?_ _ _
          assumption
        · refine State.deny_keeps ?_ _ _ _
          assumption
        · refine State.writeReg_keeps ?_ _ _ _ _
          assumption

theorem execRegisterWrite_keeps {s0 s : State} (h : Keeps s0 s) (who : Agent) (addr : BitVec 26) (data : Word) (x : Ambient) :
    KeepsO s0 (execRegisterWrite who addr data x s) := by
  unfold execRegisterWrite
  extract_lets +onlyGivenNames v1
  clear_value v1
  refine keepsO_next ?_
  split
  · refine keeps_ite ?_ ?_
    · refine State.narrow_keeps ?_ _ _
      assumption
    · refine State.writeReg_keeps ?_ _ _ _ _
      assumption
  · refine keeps_ite ?_ ?_
    · assumption
    · refine keeps_ite ?_ ?_
      · refine State.narrow_keeps ?_ _ _
        assumption
      · refine State.windowWrite_keeps ?_ _ _ _ _
        assumption
  · refine keeps_ite ?_ ?_
    · assumption
    · refine State.writeReg_keeps ?_ _ _ _ _
      assumption
  · assumption

theorem execAbsentBlockWrite_keeps {s0 s : State} (h : Keeps s0 s) (addr : BitVec 26) :
    KeepsO s0 (execAbsentBlockWrite addr s) := by
  unfold execAbsentBlockWrite
  extract_lets +onlyGivenNames v1
  clear_value v1
  refine keepsO_next ?_
  refine keeps_ite ?_ ?_
  · refine State.logDev_keeps ?_ _ _ _
    assumption
  · assumption

theorem execVfUnmappedAccess_keeps {s0 s : State} (h : Keeps s0 s) (n : Fin 16) (off : BitVec 18) (write : Bool) :
    KeepsO s0 (execVfUnmappedAccess n off write s) := by
  unfold execVfUnmappedAccess
  extract_lets +onlyGivenNames v1
  clear_value v1
  refine keepsO_next ?_
  refine keeps_ite ?_ ?_
  · assumption
  · refine State.when_keeps ?_ ?_ _
    · refine State.vfUnmapped_keeps ?_ _ _
      assumption
    · intro y2 y3
      refine State.answer_keeps ?_ _ _
      assumption

theorem execPfUnmappedAccess_keeps {s0 s : State} (h : Keeps s0 s) (addr : BitVec 26) (write : Bool) :
    KeepsO s0 (execPfUnmappedAccess addr write s) := by
  unfold execPfUnmappedAccess
  extract_lets +onlyGivenNames v1
  clear_value v1
  refine keepsO_next ?_
  refine keeps_ite ?_ ?_
  · assumption
  · refine State.when_keeps ?_ ?_ _
    · refine State.when_keeps ?_ ?_ _
      · assumption
      · intro y2 y3
        refine State.limDev_keeps ?_ _ _ _
        assumption
    · intro y4 y5
      refine State.answer_keeps ?_ _ _
      assumption

theorem execCrossNicheAccess_keeps {s0 s : State} (h : Keeps s0 s) (n : Fin 16) (off : BitVec 18) :
    KeepsO s0 (execCrossNicheAccess n off s) := by
  unfold execCrossNicheAccess
  refine keepsO_next ?_
  refine keeps_ite ?_ ?_
  · assumption
  · split
    · refine State.deny_keeps ?_ _ _ _
      assumption
    · assumption

theorem execDeniedCompletion_keeps {s0 s : State} (h : Keeps s0 s) :
    KeepsO s0 (execDeniedCompletion s) := by
  unfold execDeniedCompletion
  refine keepsO_next ?_
  split
  · assumption
  · refine keeps_ite ?_ ?_
    · refine State.send_keeps ?_ _
      refine State.countDenied_keeps ?_ _ _
      refine keeps_mk ?_ rfl rfl rfl
      assumption
    · assumption

theorem execGlbTempRead_keeps {s0 s : State} (h : Keeps s0 s) :
    KeepsO s0 (execGlbTempRead s) := by
  unfold execGlbTempRead
  refine keepsO_next ?_
  refine keeps_ite ?_ ?_
  · refine State.answer_keeps ?_ _ _
    assumption
  · refine State.answer_keeps ?_ _ _
    refine State.readTemp_keeps ?_
    assumption

theorem readAll_keeps {s0 s : State} (h : Keeps s0 s) (src : Nat) (l : List Nat) : Keeps s0 (readAll src l s).1 := by
  induction l generalizing s with
  | nil => exact h
  | cons a l ih => exact ih (State.readReg_keeps h _ _)

theorem writeAll_keeps {s0 s : State} (h : Keeps s0 s) (src : Agent) (x : Ambient) (a : Nat) (l : List Word) :
    Keeps s0 (writeAll src x a l s) := by
  induction l generalizing s a with
  | nil => exact h
  | cons w l ih => exact ih (State.writeReg_keeps h _ _ _ _) _

theorem execMbxRegRead_keeps {s0 s : State} (h : Keeps s0 s) (src : Agent) :
    KeepsO s0 (execMbxRegRead src s) := by
  unfold execMbxRegRead
  refine keepsO_next ?_
  refine State.serve_keeps ?_ ?_ _ _
  · assumption
  · intro y1 y2 y3
    refine keeps_ite_fst ?_ ?_
    · dsimp only
      refine readAll_keeps ?_ _ _
      assumption
    · assumption

theorem execMbxRegWrite_keeps {s0 s : State} (h : Keeps s0 s) (src : Agent) (x : Ambient) :
    KeepsO s0 (execMbxRegWrite src x s) := by
  unfold execMbxRegWrite
  refine keepsO_next ?_
  refine State.serve_keeps ?_ ?_ _ _
  · assumption
  · intro y1 y2 y3
    refine keeps_ite_fst ?_ ?_
    · dsimp only
      refine writeAll_keeps ?_ _ _ _ _
      assumption
    · assumption

theorem execMbxStatus_keeps {s0 s : State} (h : Keeps s0 s) (src : Agent) :
    KeepsO s0 (execMbxStatus src s) := by
  unfold execMbxStatus
  refine keepsO_next ?_
  refine State.serve_keeps ?_ ?_ _ _
  · assumption
  · intro y1 y2 y3
    assumption

end Sys2Proof.Machine
end

