-- ==== Sys2Proof/Laws/Records.lean ====
section
/-!
SUPPORT. What reading a record of the Pendant link, and what a write of a part that may be absent, can do.
-/

namespace Sys2Proof.Machine

/-- A record that is read changes nothing by being read (R180, R181). -/
theorem State.readRecord_some {s : State} {line : List Byte} {type : Nat} {p : Nat × List Byte}
    (h : (s.readRecord line type).1 = some p) : s.readRecord line type = (some p, s) := by
  revert h
  unfold State.readRecord
  dsimp only
  repeat' split
  all_goals intro h; cases h <;> rfl

/-- A loop's registers answer writes where the part has the loop (R3, R110). -/
theorem State.ifLoop_present {s : State} {l a : Nat} {f : State → State} (h : l = 6 → s.fuse.is7401 = false) :
    s.ifLoop l a f = f s := by
  unfold State.ifLoop State.ifPresent
  split <;> simp_all

/-- An access by the owner, the PF or the supervisor is served (R222). -/
theorem State.ifOwned_owner {s : State} {who : Agent} {o : Option Nat} {a : Nat} {f : State → State}
    (h : ∀ n, agentNiche who = some n → o = some n) : s.ifOwned who o a f = f s := by
  unfold State.ifOwned
  split <;> simp_all

/-- An access by a niche that does not own the target is denied, with nothing else done (R222, R573). -/
theorem State.ifOwned_foreign {s : State} {who : Agent} {o : Option Nat} {a n : Nat} {f : State → State}
    (h : agentNiche who = some n) (hn : o ≠ some n) : s.ifOwned who o a f = s.deny n (agentId who) a := by
  unfold State.ifOwned
  simp_all

end Sys2Proof.Machine
end

