-- ==== Sys2Proof/Laws/State.lean ====
section
/-!
SUPPORT. Laws of the State record: one lemma per field for every named update, and what a read of a register or a field
gives after a write.
-/

namespace Sys2Proof.Machine

open Sys2Proof

/-! ### setWord -/

@[simp] theorem State.setWord_pending (s : State) (a : Nat) (w : Word) : (s.setWord a w).pending = s.pending := rfl
@[simp] theorem State.setWord_fuse (s : State) (a : Nat) (w : Word) : (s.setWord a w).fuse = s.fuse := rfl
@[simp] theorem State.setWord_clk (s : State) (a : Nat) (w : Word) : (s.setWord a w).clk = s.clk := rfl
@[simp] theorem State.setWord_freeCount (s : State) (a : Nat) (w : Word) : (s.setWord a w).freeCount = s.freeCount := rfl
@[simp] theorem State.setWord_sent (s : State) (a : Nat) (w : Word) : (s.setWord a w).sent = s.sent := rfl
@[simp] theorem State.setWord_latch (s : State) (a : Nat) (w : Word) : (s.setWord a w).latch = s.latch := rfl
@[simp] theorem State.setWord_flt (s : State) (a : Nat) (w : Word) : (s.setWord a w).flt = s.flt := rfl
@[simp] theorem State.setWord_tick (s : State) (a : Nat) (w : Word) : (s.setWord a w).tick = s.tick := rfl
@[simp] theorem State.setWord_nres (s : State) (a : Nat) (w : Word) : (s.setWord a w).nres = s.nres := rfl
@[simp] theorem State.setWord_cel (s : State) (a : Nat) (w : Word) : (s.setWord a w).cel = s.cel := rfl
@[simp] theorem State.setWord_hif (s : State) (a : Nat) (w : Word) : (s.setWord a w).hif = s.hif := rfl
@[simp] theorem State.setWord_sup (s : State) (a : Nat) (w : Word) : (s.setWord a w).sup = s.sup := rfl
@[simp] theorem State.setWord_arm (s : State) (a : Nat) (w : Word) : (s.setWord a w).arm = s.arm := rfl
@[simp] theorem State.setWord_dsl (s : State) (a : Nat) (w : Word) : (s.setWord a w).dsl = s.dsl := rfl
@[simp] theorem State.setWord_usl (s : State) (a : Nat) (w : Word) : (s.setWord a w).usl = s.usl := rfl
@[simp] theorem State.setWord_act (s : State) (a : Nat) (w : Word) : (s.setWord a w).act = s.act := rfl
@[simp] theorem State.setWord_cph (s : State) (a : Nat) (w : Word) : (s.setWord a w).cph = s.cph := rfl
@[simp] theorem State.setWord_crt (s : State) (a : Nat) (w : Word) : (s.setWord a w).crt = s.crt := rfl
@[simp] theorem State.setWord_flc (s : State) (a : Nat) (w : Word) : (s.setWord a w).flc = s.flc := rfl
@[simp] theorem State.setWord_cst (s : State) (a : Nat) (w : Word) : (s.setWord a w).cst = s.cst := rfl
@[simp] theorem State.setWord_pwr (s : State) (a : Nat) (w : Word) : (s.setWord a w).pwr = s.pwr := rfl
@[simp] theorem State.setWord_cls (s : State) (a : Nat) (w : Word) : (s.setWord a w).cls = s.cls := rfl
@[simp] theorem State.setWord_eth (s : State) (a : Nat) (w : Word) : (s.setWord a w).eth = s.eth := rfl
@[simp] theorem State.setWord_pnd (s : State) (a : Nat) (w : Word) : (s.setWord a w).pnd = s.pnd := rfl
@[simp] theorem State.setWord_tim (s : State) (a : Nat) (w : Word) : (s.setWord a w).tim = s.tim := rfl
@[simp] theorem State.setWord_tdm (s : State) (a : Nat) (w : Word) : (s.setWord a w).tdm = s.tdm := rfl
@[simp] theorem State.setWord_msh (s : State) (a : Nat) (w : Word) : (s.setWord a w).msh = s.msh := rfl
@[simp] theorem State.setWord_fio (s : State) (a : Nat) (w : Word) : (s.setWord a w).fio = s.fio := rfl

/-! ### put -/

@[simp] theorem State.put_pending (s : State) (f : Field) (v : Nat) : (s.put f v).pending = s.pending := rfl
@[simp] theorem State.put_fuse (s : State) (f : Field) (v : Nat) : (s.put f v).fuse = s.fuse := rfl
@[simp] theorem State.put_clk (s : State) (f : Field) (v : Nat) : (s.put f v).clk = s.clk := rfl
@[simp] theorem State.put_freeCount (s : State) (f : Field) (v : Nat) : (s.put f v).freeCount = s.freeCount := rfl
@[simp] theorem State.put_sent (s : State) (f : Field) (v : Nat) : (s.put f v).sent = s.sent := rfl
@[simp] theorem State.put_latch (s : State) (f : Field) (v : Nat) : (s.put f v).latch = s.latch := rfl
@[simp] theorem State.put_flt (s : State) (f : Field) (v : Nat) : (s.put f v).flt = s.flt := rfl
@[simp] theorem State.put_tick (s : State) (f : Field) (v : Nat) : (s.put f v).tick = s.tick := rfl
@[simp] theorem State.put_nres (s : State) (f : Field) (v : Nat) : (s.put f v).nres = s.nres := rfl
@[simp] theorem State.put_cel (s : State) (f : Field) (v : Nat) : (s.put f v).cel = s.cel := rfl
@[simp] theorem State.put_hif (s : State) (f : Field) (v : Nat) : (s.put f v).hif = s.hif := rfl
@[simp] theorem State.put_sup (s : State) (f : Field) (v : Nat) : (s.put f v).sup = s.sup := rfl
@[simp] theorem State.put_arm (s : State) (f : Field) (v : Nat) : (s.put f v).arm = s.arm := rfl
@[simp] theorem State.put_dsl (s : State) (f : Field) (v : Nat) : (s.put f v).dsl = s.dsl := rfl
@[simp] theorem State.put_usl (s : State) (f : Field) (v : Nat) : (s.put f v).usl = s.usl := rfl
@[simp] theorem State.put_act (s : State) (f : Field) (v : Nat) : (s.put f v).act = s.act := rfl
@[simp] theorem State.put_cph (s : State) (f : Field) (v : Nat) : (s.put f v).cph = s.cph := rfl
@[simp] theorem State.put_crt (s : State) (f : Field) (v : Nat) : (s.put f v).crt = s.crt := rfl
@[simp] theorem State.put_flc (s : State) (f : Field) (v : Nat) : (s.put f v).flc = s.flc := rfl
@[simp] theorem State.put_cst (s : State) (f : Field) (v : Nat) : (s.put f v).cst = s.cst := rfl
@[simp] theorem State.put_pwr (s : State) (f : Field) (v : Nat) : (s.put f v).pwr = s.pwr := rfl
@[simp] theorem State.put_cls (s : State) (f : Field) (v : Nat) : (s.put f v).cls = s.cls := rfl
@[simp] theorem State.put_eth (s : State) (f : Field) (v : Nat) : (s.put f v).eth = s.eth := rfl
@[simp] theorem State.put_pnd (s : State) (f : Field) (v : Nat) : (s.put f v).pnd = s.pnd := rfl
@[simp] theorem State.put_tim (s : State) (f : Field) (v : Nat) : (s.put f v).tim = s.tim := rfl
@[simp] theorem State.put_tdm (s : State) (f : Field) (v : Nat) : (s.put f v).tdm = s.tdm := rfl
@[simp] theorem State.put_msh (s : State) (f : Field) (v : Nat) : (s.put f v).msh = s.msh := rfl
@[simp] theorem State.put_fio (s : State) (f : Field) (v : Nat) : (s.put f v).fio = s.fio := rfl

/-! ### putS -/

@[simp] theorem State.putS_pending (s : State) (f : Field) (v : Int) : (s.putS f v).pending = s.pending := rfl
@[simp] theorem State.putS_fuse (s : State) (f : Field) (v : Int) : (s.putS f v).fuse = s.fuse := rfl
@[simp] theorem State.putS_clk (s : State) (f : Field) (v : Int) : (s.putS f v).clk = s.clk := rfl
@[simp] theorem State.putS_freeCount (s : State) (f : Field) (v : Int) : (s.putS f v).freeCount = s.freeCount := rfl
@[simp] theorem State.putS_sent (s : State) (f : Field) (v : Int) : (s.putS f v).sent = s.sent := rfl
@[simp] theorem State.putS_latch (s : State) (f : Field) (v : Int) : (s.putS f v).latch = s.latch := rfl
@[simp] theorem State.putS_flt (s : State) (f : Field) (v : Int) : (s.putS f v).flt = s.flt := rfl
@[simp] theorem State.putS_tick (s : State) (f : Field) (v : Int) : (s.putS f v).tick = s.tick := rfl
@[simp] theorem State.putS_nres (s : State) (f : Field) (v : Int) : (s.putS f v).nres = s.nres := rfl
@[simp] theorem State.putS_cel (s : State) (f : Field) (v : Int) : (s.putS f v).cel = s.cel := rfl
@[simp] theorem State.putS_hif (s : State) (f : Field) (v : Int) : (s.putS f v).hif = s.hif := rfl
@[simp] theorem State.putS_sup (s : State) (f : Field) (v : Int) : (s.putS f v).sup = s.sup := rfl
@[simp] theorem State.putS_arm (s : State) (f : Field) (v : Int) : (s.putS f v).arm = s.arm := rfl
@[simp] theorem State.putS_dsl (s : State) (f : Field) (v : Int) : (s.putS f v).dsl = s.dsl := rfl
@[simp] theorem State.putS_usl (s : State) (f : Field) (v : Int) : (s.putS f v).usl = s.usl := rfl
@[simp] theorem State.putS_act (s : State) (f : Field) (v : Int) : (s.putS f v).act = s.act := rfl
@[simp] theorem State.putS_cph (s : State) (f : Field) (v : Int) : (s.putS f v).cph = s.cph := rfl
@[simp] theorem State.putS_crt (s : State) (f : Field) (v : Int) : (s.putS f v).crt = s.crt := rfl
@[simp] theorem State.putS_flc (s : State) (f : Field) (v : Int) : (s.putS f v).flc = s.flc := rfl
@[simp] theorem State.putS_cst (s : State) (f : Field) (v : Int) : (s.putS f v).cst = s.cst := rfl
@[simp] theorem State.putS_pwr (s : State) (f : Field) (v : Int) : (s.putS f v).pwr = s.pwr := rfl
@[simp] theorem State.putS_cls (s : State) (f : Field) (v : Int) : (s.putS f v).cls = s.cls := rfl
@[simp] theorem State.putS_eth (s : State) (f : Field) (v : Int) : (s.putS f v).eth = s.eth := rfl
@[simp] theorem State.putS_pnd (s : State) (f : Field) (v : Int) : (s.putS f v).pnd = s.pnd := rfl
@[simp] theorem State.putS_tim (s : State) (f : Field) (v : Int) : (s.putS f v).tim = s.tim := rfl
@[simp] theorem State.putS_tdm (s : State) (f : Field) (v : Int) : (s.putS f v).tdm = s.tdm := rfl
@[simp] theorem State.putS_msh (s : State) (f : Field) (v : Int) : (s.putS f v).msh = s.msh := rfl
@[simp] theorem State.putS_fio (s : State) (f : Field) (v : Int) : (s.putS f v).fio = s.fio := rfl

/-! ### putB -/

@[simp] theorem State.putB_pending (s : State) (f : Field) (b : Bool) : (s.putB f b).pending = s.pending := rfl
@[simp] theorem State.putB_fuse (s : State) (f : Field) (b : Bool) : (s.putB f b).fuse = s.fuse := rfl
@[simp] theorem State.putB_clk (s : State) (f : Field) (b : Bool) : (s.putB f b).clk = s.clk := rfl
@[simp] theorem State.putB_freeCount (s : State) (f : Field) (b : Bool) : (s.putB f b).freeCount = s.freeCount := rfl
@[simp] theorem State.putB_sent (s : State) (f : Field) (b : Bool) : (s.putB f b).sent = s.sent := rfl
@[simp] theorem State.putB_latch (s : State) (f : Field) (b : Bool) : (s.putB f b).latch = s.latch := rfl
@[simp] theorem State.putB_flt (s : State) (f : Field) (b : Bool) : (s.putB f b).flt = s.flt := rfl
@[simp] theorem State.putB_tick (s : State) (f : Field) (b : Bool) : (s.putB f b).tick = s.tick := rfl
@[simp] theorem State.putB_nres (s : State) (f : Field) (b : Bool) : (s.putB f b).nres = s.nres := rfl
@[simp] theorem State.putB_cel (s : State) (f : Field) (b : Bool) : (s.putB f b).cel = s.cel := rfl
@[simp] theorem State.putB_hif (s : State) (f : Field) (b : Bool) : (s.putB f b).hif = s.hif := rfl
@[simp] theorem State.putB_sup (s : State) (f : Field) (b : Bool) : (s.putB f b).sup = s.sup := rfl
@[simp] theorem State.putB_arm (s : State) (f : Field) (b : Bool) : (s.putB f b).arm = s.arm := rfl
@[simp] theorem State.putB_dsl (s : State) (f : Field) (b : Bool) : (s.putB f b).dsl = s.dsl := rfl
@[simp] theorem State.putB_usl (s : State) (f : Field) (b : Bool) : (s.putB f b).usl = s.usl := rfl
@[simp] theorem State.putB_act (s : State) (f : Field) (b : Bool) : (s.putB f b).act = s.act := rfl
@[simp] theorem State.putB_cph (s : State) (f : Field) (b : Bool) : (s.putB f b).cph = s.cph := rfl
@[simp] theorem State.putB_crt (s : State) (f : Field) (b : Bool) : (s.putB f b).crt = s.crt := rfl
@[simp] theorem State.putB_flc (s : State) (f : Field) (b : Bool) : (s.putB f b).flc = s.flc := rfl
@[simp] theorem State.putB_cst (s : State) (f : Field) (b : Bool) : (s.putB f b).cst = s.cst := rfl
@[simp] theorem State.putB_pwr (s : State) (f : Field) (b : Bool) : (s.putB f b).pwr = s.pwr := rfl
@[simp] theorem State.putB_cls (s : State) (f : Field) (b : Bool) : (s.putB f b).cls = s.cls := rfl
@[simp] theorem State.putB_eth (s : State) (f : Field) (b : Bool) : (s.putB f b).eth = s.eth := rfl
@[simp] theorem State.putB_pnd (s : State) (f : Field) (b : Bool) : (s.putB f b).pnd = s.pnd := rfl
@[simp] theorem State.putB_tim (s : State) (f : Field) (b : Bool) : (s.putB f b).tim = s.tim := rfl
@[simp] theorem State.putB_tdm (s : State) (f : Field) (b : Bool) : (s.putB f b).tdm = s.tdm := rfl
@[simp] theorem State.putB_msh (s : State) (f : Field) (b : Bool) : (s.putB f b).msh = s.msh := rfl
@[simp] theorem State.putB_fio (s : State) (f : Field) (b : Bool) : (s.putB f b).fio = s.fio := rfl

/-! ### satBy -/

@[simp] theorem State.satBy_pending (s : State) (f : Field) (n : Nat) : (s.satBy f n).pending = s.pending := rfl
@[simp] theorem State.satBy_fuse (s : State) (f : Field) (n : Nat) : (s.satBy f n).fuse = s.fuse := rfl
@[simp] theorem State.satBy_clk (s : State) (f : Field) (n : Nat) : (s.satBy f n).clk = s.clk := rfl
@[simp] theorem State.satBy_freeCount (s : State) (f : Field) (n : Nat) : (s.satBy f n).freeCount = s.freeCount := rfl
@[simp] theorem State.satBy_sent (s : State) (f : Field) (n : Nat) : (s.satBy f n).sent = s.sent := rfl
@[simp] theorem State.satBy_latch (s : State) (f : Field) (n : Nat) : (s.satBy f n).latch = s.latch := rfl
@[simp] theorem State.satBy_flt (s : State) (f : Field) (n : Nat) : (s.satBy f n).flt = s.flt := rfl
@[simp] theorem State.satBy_tick (s : State) (f : Field) (n : Nat) : (s.satBy f n).tick = s.tick := rfl
@[simp] theorem State.satBy_nres (s : State) (f : Field) (n : Nat) : (s.satBy f n).nres = s.nres := rfl
@[simp] theorem State.satBy_cel (s : State) (f : Field) (n : Nat) : (s.satBy f n).cel = s.cel := rfl
@[simp] theorem State.satBy_hif (s : State) (f : Field) (n : Nat) : (s.satBy f n).hif = s.hif := rfl
@[simp] theorem State.satBy_sup (s : State) (f : Field) (n : Nat) : (s.satBy f n).sup = s.sup := rfl
@[simp] theorem State.satBy_arm (s : State) (f : Field) (n : Nat) : (s.satBy f n).arm = s.arm := rfl
@[simp] theorem State.satBy_dsl (s : State) (f : Field) (n : Nat) : (s.satBy f n).dsl = s.dsl := rfl
@[simp] theorem State.satBy_usl (s : State) (f : Field) (n : Nat) : (s.satBy f n).usl = s.usl := rfl
@[simp] theorem State.satBy_act (s : State) (f : Field) (n : Nat) : (s.satBy f n).act = s.act := rfl
@[simp] theorem State.satBy_cph (s : State) (f : Field) (n : Nat) : (s.satBy f n).cph = s.cph := rfl
@[simp] theorem State.satBy_crt (s : State) (f : Field) (n : Nat) : (s.satBy f n).crt = s.crt := rfl
@[simp] theorem State.satBy_flc (s : State) (f : Field) (n : Nat) : (s.satBy f n).flc = s.flc := rfl
@[simp] theorem State.satBy_cst (s : State) (f : Field) (n : Nat) : (s.satBy f n).cst = s.cst := rfl
@[simp] theorem State.satBy_pwr (s : State) (f : Field) (n : Nat) : (s.satBy f n).pwr = s.pwr := rfl
@[simp] theorem State.satBy_cls (s : State) (f : Field) (n : Nat) : (s.satBy f n).cls = s.cls := rfl
@[simp] theorem State.satBy_eth (s : State) (f : Field) (n : Nat) : (s.satBy f n).eth = s.eth := rfl
@[simp] theorem State.satBy_pnd (s : State) (f : Field) (n : Nat) : (s.satBy f n).pnd = s.pnd := rfl
@[simp] theorem State.satBy_tim (s : State) (f : Field) (n : Nat) : (s.satBy f n).tim = s.tim := rfl
@[simp] theorem State.satBy_tdm (s : State) (f : Field) (n : Nat) : (s.satBy f n).tdm = s.tdm := rfl
@[simp] theorem State.satBy_msh (s : State) (f : Field) (n : Nat) : (s.satBy f n).msh = s.msh := rfl
@[simp] theorem State.satBy_fio (s : State) (f : Field) (n : Nat) : (s.satBy f n).fio = s.fio := rfl

/-! ### sat -/

@[simp] theorem State.sat_pending (s : State) (f : Field) : (s.sat f).pending = s.pending := rfl
@[simp] theorem State.sat_fuse (s : State) (f : Field) : (s.sat f).fuse = s.fuse := rfl
@[simp] theorem State.sat_clk (s : State) (f : Field) : (s.sat f).clk = s.clk := rfl
@[simp] theorem State.sat_freeCount (s : State) (f : Field) : (s.sat f).freeCount = s.freeCount := rfl
@[simp] theorem State.sat_sent (s : State) (f : Field) : (s.sat f).sent = s.sent := rfl
@[simp] theorem State.sat_latch (s : State) (f : Field) : (s.sat f).latch = s.latch := rfl
@[simp] theorem State.sat_flt (s : State) (f : Field) : (s.sat f).flt = s.flt := rfl
@[simp] theorem State.sat_tick (s : State) (f : Field) : (s.sat f).tick = s.tick := rfl
@[simp] theorem State.sat_nres (s : State) (f : Field) : (s.sat f).nres = s.nres := rfl
@[simp] theorem State.sat_cel (s : State) (f : Field) : (s.sat f).cel = s.cel := rfl
@[simp] theorem State.sat_hif (s : State) (f : Field) : (s.sat f).hif = s.hif := rfl
@[simp] theorem State.sat_sup (s : State) (f : Field) : (s.sat f).sup = s.sup := rfl
@[simp] theorem State.sat_arm (s : State) (f : Field) : (s.sat f).arm = s.arm := rfl
@[simp] theorem State.sat_dsl (s : State) (f : Field) : (s.sat f).dsl = s.dsl := rfl
@[simp] theorem State.sat_usl (s : State) (f : Field) : (s.sat f).usl = s.usl := rfl
@[simp] theorem State.sat_act (s : State) (f : Field) : (s.sat f).act = s.act := rfl
@[simp] theorem State.sat_cph (s : State) (f : Field) : (s.sat f).cph = s.cph := rfl
@[simp] theorem State.sat_crt (s : State) (f : Field) : (s.sat f).crt = s.crt := rfl
@[simp] theorem State.sat_flc (s : State) (f : Field) : (s.sat f).flc = s.flc := rfl
@[simp] theorem State.sat_cst (s : State) (f : Field) : (s.sat f).cst = s.cst := rfl
@[simp] theorem State.sat_pwr (s : State) (f : Field) : (s.sat f).pwr = s.pwr := rfl
@[simp] theorem State.sat_cls (s : State) (f : Field) : (s.sat f).cls = s.cls := rfl
@[simp] theorem State.sat_eth (s : State) (f : Field) : (s.sat f).eth = s.eth := rfl
@[simp] theorem State.sat_pnd (s : State) (f : Field) : (s.sat f).pnd = s.pnd := rfl
@[simp] theorem State.sat_tim (s : State) (f : Field) : (s.sat f).tim = s.tim := rfl
@[simp] theorem State.sat_tdm (s : State) (f : Field) : (s.sat f).tdm = s.tdm := rfl
@[simp] theorem State.sat_msh (s : State) (f : Field) : (s.sat f).msh = s.msh := rfl
@[simp] theorem State.sat_fio (s : State) (f : Field) : (s.sat f).fio = s.fio := rfl

/-! ### wrap -/

@[simp] theorem State.wrap_pending (s : State) (f : Field) : (s.wrap f).pending = s.pending := rfl
@[simp] theorem State.wrap_fuse (s : State) (f : Field) : (s.wrap f).fuse = s.fuse := rfl
@[simp] theorem State.wrap_clk (s : State) (f : Field) : (s.wrap f).clk = s.clk := rfl
@[simp] theorem State.wrap_freeCount (s : State) (f : Field) : (s.wrap f).freeCount = s.freeCount := rfl
@[simp] theorem State.wrap_sent (s : State) (f : Field) : (s.wrap f).sent = s.sent := rfl
@[simp] theorem State.wrap_latch (s : State) (f : Field) : (s.wrap f).latch = s.latch := rfl
@[simp] theorem State.wrap_flt (s : State) (f : Field) : (s.wrap f).flt = s.flt := rfl
@[simp] theorem State.wrap_tick (s : State) (f : Field) : (s.wrap f).tick = s.tick := rfl
@[simp] theorem State.wrap_nres (s : State) (f : Field) : (s.wrap f).nres = s.nres := rfl
@[simp] theorem State.wrap_cel (s : State) (f : Field) : (s.wrap f).cel = s.cel := rfl
@[simp] theorem State.wrap_hif (s : State) (f : Field) : (s.wrap f).hif = s.hif := rfl
@[simp] theorem State.wrap_sup (s : State) (f : Field) : (s.wrap f).sup = s.sup := rfl
@[simp] theorem State.wrap_arm (s : State) (f : Field) : (s.wrap f).arm = s.arm := rfl
@[simp] theorem State.wrap_dsl (s : State) (f : Field) : (s.wrap f).dsl = s.dsl := rfl
@[simp] theorem State.wrap_usl (s : State) (f : Field) : (s.wrap f).usl = s.usl := rfl
@[simp] theorem State.wrap_act (s : State) (f : Field) : (s.wrap f).act = s.act := rfl
@[simp] theorem State.wrap_cph (s : State) (f : Field) : (s.wrap f).cph = s.cph := rfl
@[simp] theorem State.wrap_crt (s : State) (f : Field) : (s.wrap f).crt = s.crt := rfl
@[simp] theorem State.wrap_flc (s : State) (f : Field) : (s.wrap f).flc = s.flc := rfl
@[simp] theorem State.wrap_cst (s : State) (f : Field) : (s.wrap f).cst = s.cst := rfl
@[simp] theorem State.wrap_pwr (s : State) (f : Field) : (s.wrap f).pwr = s.pwr := rfl
@[simp] theorem State.wrap_cls (s : State) (f : Field) : (s.wrap f).cls = s.cls := rfl
@[simp] theorem State.wrap_eth (s : State) (f : Field) : (s.wrap f).eth = s.eth := rfl
@[simp] theorem State.wrap_pnd (s : State) (f : Field) : (s.wrap f).pnd = s.pnd := rfl
@[simp] theorem State.wrap_tim (s : State) (f : Field) : (s.wrap f).tim = s.tim := rfl
@[simp] theorem State.wrap_tdm (s : State) (f : Field) : (s.wrap f).tdm = s.tdm := rfl
@[simp] theorem State.wrap_msh (s : State) (f : Field) : (s.wrap f).msh = s.msh := rfl
@[simp] theorem State.wrap_fio (s : State) (f : Field) : (s.wrap f).fio = s.fio := rfl

/-! ### mark -/

@[simp] theorem State.mark_pending (s : State) (f : Field) (i : Nat) : (s.mark f i).pending = s.pending := rfl
@[simp] theorem State.mark_fuse (s : State) (f : Field) (i : Nat) : (s.mark f i).fuse = s.fuse := rfl
@[simp] theorem State.mark_clk (s : State) (f : Field) (i : Nat) : (s.mark f i).clk = s.clk := rfl
@[simp] theorem State.mark_freeCount (s : State) (f : Field) (i : Nat) : (s.mark f i).freeCount = s.freeCount := rfl
@[simp] theorem State.mark_sent (s : State) (f : Field) (i : Nat) : (s.mark f i).sent = s.sent := rfl
@[simp] theorem State.mark_latch (s : State) (f : Field) (i : Nat) : (s.mark f i).latch = s.latch := rfl
@[simp] theorem State.mark_flt (s : State) (f : Field) (i : Nat) : (s.mark f i).flt = s.flt := rfl
@[simp] theorem State.mark_tick (s : State) (f : Field) (i : Nat) : (s.mark f i).tick = s.tick := rfl
@[simp] theorem State.mark_nres (s : State) (f : Field) (i : Nat) : (s.mark f i).nres = s.nres := rfl
@[simp] theorem State.mark_cel (s : State) (f : Field) (i : Nat) : (s.mark f i).cel = s.cel := rfl
@[simp] theorem State.mark_hif (s : State) (f : Field) (i : Nat) : (s.mark f i).hif = s.hif := rfl
@[simp] theorem State.mark_sup (s : State) (f : Field) (i : Nat) : (s.mark f i).sup = s.sup := rfl
@[simp] theorem State.mark_arm (s : State) (f : Field) (i : Nat) : (s.mark f i).arm = s.arm := rfl
@[simp] theorem State.mark_dsl (s : State) (f : Field) (i : Nat) : (s.mark f i).dsl = s.dsl := rfl
@[simp] theorem State.mark_usl (s : State) (f : Field) (i : Nat) : (s.mark f i).usl = s.usl := rfl
@[simp] theorem State.mark_act (s : State) (f : Field) (i : Nat) : (s.mark f i).act = s.act := rfl
@[simp] theorem State.mark_cph (s : State) (f : Field) (i : Nat) : (s.mark f i).cph = s.cph := rfl
@[simp] theorem State.mark_crt (s : State) (f : Field) (i : Nat) : (s.mark f i).crt = s.crt := rfl
@[simp] theorem State.mark_flc (s : State) (f : Field) (i : Nat) : (s.mark f i).flc = s.flc := rfl
@[simp] theorem State.mark_cst (s : State) (f : Field) (i : Nat) : (s.mark f i).cst = s.cst := rfl
@[simp] theorem State.mark_pwr (s : State) (f : Field) (i : Nat) : (s.mark f i).pwr = s.pwr := rfl
@[simp] theorem State.mark_cls (s : State) (f : Field) (i : Nat) : (s.mark f i).cls = s.cls := rfl
@[simp] theorem State.mark_eth (s : State) (f : Field) (i : Nat) : (s.mark f i).eth = s.eth := rfl
@[simp] theorem State.mark_pnd (s : State) (f : Field) (i : Nat) : (s.mark f i).pnd = s.pnd := rfl
@[simp] theorem State.mark_tim (s : State) (f : Field) (i : Nat) : (s.mark f i).tim = s.tim := rfl
@[simp] theorem State.mark_tdm (s : State) (f : Field) (i : Nat) : (s.mark f i).tdm = s.tdm := rfl
@[simp] theorem State.mark_msh (s : State) (f : Field) (i : Nat) : (s.mark f i).msh = s.msh := rfl
@[simp] theorem State.mark_fio (s : State) (f : Field) (i : Nat) : (s.mark f i).fio = s.fio := rfl

/-! ### unmark -/

@[simp] theorem State.unmark_pending (s : State) (f : Field) (i : Nat) : (s.unmark f i).pending = s.pending := rfl
@[simp] theorem State.unmark_fuse (s : State) (f : Field) (i : Nat) : (s.unmark f i).fuse = s.fuse := rfl
@[simp] theorem State.unmark_clk (s : State) (f : Field) (i : Nat) : (s.unmark f i).clk = s.clk := rfl
@[simp] theorem State.unmark_freeCount (s : State) (f : Field) (i : Nat) : (s.unmark f i).freeCount = s.freeCount := rfl
@[simp] theorem State.unmark_sent (s : State) (f : Field) (i : Nat) : (s.unmark f i).sent = s.sent := rfl
@[simp] theorem State.unmark_latch (s : State) (f : Field) (i : Nat) : (s.unmark f i).latch = s.latch := rfl
@[simp] theorem State.unmark_flt (s : State) (f : Field) (i : Nat) : (s.unmark f i).flt = s.flt := rfl
@[simp] theorem State.unmark_tick (s : State) (f : Field) (i : Nat) : (s.unmark f i).tick = s.tick := rfl
@[simp] theorem State.unmark_nres (s : State) (f : Field) (i : Nat) : (s.unmark f i).nres = s.nres := rfl
@[simp] theorem State.unmark_cel (s : State) (f : Field) (i : Nat) : (s.unmark f i).cel = s.cel := rfl
@[simp] theorem State.unmark_hif (s : State) (f : Field) (i : Nat) : (s.unmark f i).hif = s.hif := rfl
@[simp] theorem State.unmark_sup (s : State) (f : Field) (i : Nat) : (s.unmark f i).sup = s.sup := rfl
@[simp] theorem State.unmark_arm (s : State) (f : Field) (i : Nat) : (s.unmark f i).arm = s.arm := rfl
@[simp] theorem State.unmark_dsl (s : State) (f : Field) (i : Nat) : (s.unmark f i).dsl = s.dsl := rfl
@[simp] theorem State.unmark_usl (s : State) (f : Field) (i : Nat) : (s.unmark f i).usl = s.usl := rfl
@[simp] theorem State.unmark_act (s : State) (f : Field) (i : Nat) : (s.unmark f i).act = s.act := rfl
@[simp] theorem State.unmark_cph (s : State) (f : Field) (i : Nat) : (s.unmark f i).cph = s.cph := rfl
@[simp] theorem State.unmark_crt (s : State) (f : Field) (i : Nat) : (s.unmark f i).crt = s.crt := rfl
@[simp] theorem State.unmark_flc (s : State) (f : Field) (i : Nat) : (s.unmark f i).flc = s.flc := rfl
@[simp] theorem State.unmark_cst (s : State) (f : Field) (i : Nat) : (s.unmark f i).cst = s.cst := rfl
@[simp] theorem State.unmark_pwr (s : State) (f : Field) (i : Nat) : (s.unmark f i).pwr = s.pwr := rfl
@[simp] theorem State.unmark_cls (s : State) (f : Field) (i : Nat) : (s.unmark f i).cls = s.cls := rfl
@[simp] theorem State.unmark_eth (s : State) (f : Field) (i : Nat) : (s.unmark f i).eth = s.eth := rfl
@[simp] theorem State.unmark_pnd (s : State) (f : Field) (i : Nat) : (s.unmark f i).pnd = s.pnd := rfl
@[simp] theorem State.unmark_tim (s : State) (f : Field) (i : Nat) : (s.unmark f i).tim = s.tim := rfl
@[simp] theorem State.unmark_tdm (s : State) (f : Field) (i : Nat) : (s.unmark f i).tdm = s.tdm := rfl
@[simp] theorem State.unmark_msh (s : State) (f : Field) (i : Nat) : (s.unmark f i).msh = s.msh := rfl
@[simp] theorem State.unmark_fio (s : State) (f : Field) (i : Nat) : (s.unmark f i).fio = s.fio := rfl

/-! ### tookFree -/

@[simp] theorem State.tookFree_pending (s : State) : (s.tookFree).pending = s.pending := rfl
@[simp] theorem State.tookFree_regs (s : State) : (s.tookFree).regs = s.regs := rfl
@[simp] theorem State.tookFree_fuse (s : State) : (s.tookFree).fuse = s.fuse := rfl
@[simp] theorem State.tookFree_clk (s : State) : (s.tookFree).clk = s.clk := rfl
@[simp] theorem State.tookFree_sent (s : State) : (s.tookFree).sent = s.sent := rfl
@[simp] theorem State.tookFree_latch (s : State) : (s.tookFree).latch = s.latch := rfl
@[simp] theorem State.tookFree_flt (s : State) : (s.tookFree).flt = s.flt := rfl
@[simp] theorem State.tookFree_tick (s : State) : (s.tookFree).tick = s.tick := rfl
@[simp] theorem State.tookFree_nres (s : State) : (s.tookFree).nres = s.nres := rfl
@[simp] theorem State.tookFree_cel (s : State) : (s.tookFree).cel = s.cel := rfl
@[simp] theorem State.tookFree_hif (s : State) : (s.tookFree).hif = s.hif := rfl
@[simp] theorem State.tookFree_sup (s : State) : (s.tookFree).sup = s.sup := rfl
@[simp] theorem State.tookFree_arm (s : State) : (s.tookFree).arm = s.arm := rfl
@[simp] theorem State.tookFree_dsl (s : State) : (s.tookFree).dsl = s.dsl := rfl
@[simp] theorem State.tookFree_usl (s : State) : (s.tookFree).usl = s.usl := rfl
@[simp] theorem State.tookFree_act (s : State) : (s.tookFree).act = s.act := rfl
@[simp] theorem State.tookFree_cph (s : State) : (s.tookFree).cph = s.cph := rfl
@[simp] theorem State.tookFree_crt (s : State) : (s.tookFree).crt = s.crt := rfl
@[simp] theorem State.tookFree_flc (s : State) : (s.tookFree).flc = s.flc := rfl
@[simp] theorem State.tookFree_cst (s : State) : (s.tookFree).cst = s.cst := rfl
@[simp] theorem State.tookFree_pwr (s : State) : (s.tookFree).pwr = s.pwr := rfl
@[simp] theorem State.tookFree_cls (s : State) : (s.tookFree).cls = s.cls := rfl
@[simp] theorem State.tookFree_eth (s : State) : (s.tookFree).eth = s.eth := rfl
@[simp] theorem State.tookFree_pnd (s : State) : (s.tookFree).pnd = s.pnd := rfl
@[simp] theorem State.tookFree_tim (s : State) : (s.tookFree).tim = s.tim := rfl
@[simp] theorem State.tookFree_tdm (s : State) : (s.tookFree).tdm = s.tdm := rfl
@[simp] theorem State.tookFree_msh (s : State) : (s.tookFree).msh = s.msh := rfl
@[simp] theorem State.tookFree_fio (s : State) : (s.tookFree).fio = s.fio := rfl

/-! ### send -/

@[simp] theorem State.send_pending (s : State) (e : Emit) : (s.send e).pending = s.pending := rfl
@[simp] theorem State.send_regs (s : State) (e : Emit) : (s.send e).regs = s.regs := rfl
@[simp] theorem State.send_fuse (s : State) (e : Emit) : (s.send e).fuse = s.fuse := rfl
@[simp] theorem State.send_clk (s : State) (e : Emit) : (s.send e).clk = s.clk := rfl
@[simp] theorem State.send_freeCount (s : State) (e : Emit) : (s.send e).freeCount = s.freeCount := rfl
@[simp] theorem State.send_latch (s : State) (e : Emit) : (s.send e).latch = s.latch := rfl
@[simp] theorem State.send_flt (s : State) (e : Emit) : (s.send e).flt = s.flt := rfl
@[simp] theorem State.send_tick (s : State) (e : Emit) : (s.send e).tick = s.tick := rfl
@[simp] theorem State.send_nres (s : State) (e : Emit) : (s.send e).nres = s.nres := rfl
@[simp] theorem State.send_cel (s : State) (e : Emit) : (s.send e).cel = s.cel := rfl
@[simp] theorem State.send_hif (s : State) (e : Emit) : (s.send e).hif = s.hif := rfl
@[simp] theorem State.send_sup (s : State) (e : Emit) : (s.send e).sup = s.sup := rfl
@[simp] theorem State.send_arm (s : State) (e : Emit) : (s.send e).arm = s.arm := rfl
@[simp] theorem State.send_dsl (s : State) (e : Emit) : (s.send e).dsl = s.dsl := rfl
@[simp] theorem State.send_usl (s : State) (e : Emit) : (s.send e).usl = s.usl := rfl
@[simp] theorem State.send_act (s : State) (e : Emit) : (s.send e).act = s.act := rfl
@[simp] theorem State.send_cph (s : State) (e : Emit) : (s.send e).cph = s.cph := rfl
@[simp] theorem State.send_crt (s : State) (e : Emit) : (s.send e).crt = s.crt := rfl
@[simp] theorem State.send_flc (s : State) (e : Emit) : (s.send e).flc = s.flc := rfl
@[simp] theorem State.send_cst (s : State) (e : Emit) : (s.send e).cst = s.cst := rfl
@[simp] theorem State.send_pwr (s : State) (e : Emit) : (s.send e).pwr = s.pwr := rfl
@[simp] theorem State.send_cls (s : State) (e : Emit) : (s.send e).cls = s.cls := rfl
@[simp] theorem State.send_eth (s : State) (e : Emit) : (s.send e).eth = s.eth := rfl
@[simp] theorem State.send_pnd (s : State) (e : Emit) : (s.send e).pnd = s.pnd := rfl
@[simp] theorem State.send_tim (s : State) (e : Emit) : (s.send e).tim = s.tim := rfl
@[simp] theorem State.send_tdm (s : State) (e : Emit) : (s.send e).tdm = s.tdm := rfl
@[simp] theorem State.send_msh (s : State) (e : Emit) : (s.send e).msh = s.msh := rfl
@[simp] theorem State.send_fio (s : State) (e : Emit) : (s.send e).fio = s.fio := rfl

/-! ### modFn -/

@[simp] theorem State.modFn_pending (s : State) (f : Nat) (g : FnState → FnState) : (s.modFn f g).pending = s.pending := rfl
@[simp] theorem State.modFn_regs (s : State) (f : Nat) (g : FnState → FnState) : (s.modFn f g).regs = s.regs := rfl
@[simp] theorem State.modFn_fuse (s : State) (f : Nat) (g : FnState → FnState) : (s.modFn f g).fuse = s.fuse := rfl
@[simp] theorem State.modFn_clk (s : State) (f : Nat) (g : FnState → FnState) : (s.modFn f g).clk = s.clk := rfl
@[simp] theorem State.modFn_freeCount (s : State) (f : Nat) (g : FnState → FnState) : (s.modFn f g).freeCount = s.freeCount := rfl
@[simp] theorem State.modFn_sent (s : State) (f : Nat) (g : FnState → FnState) : (s.modFn f g).sent = s.sent := rfl
@[simp] theorem State.modFn_latch (s : State) (f : Nat) (g : FnState → FnState) : (s.modFn f g).latch = s.latch := rfl
@[simp] theorem State.modFn_flt (s : State) (f : Nat) (g : FnState → FnState) : (s.modFn f g).flt = s.flt := rfl
@[simp] theorem State.modFn_tick (s : State) (f : Nat) (g : FnState → FnState) : (s.modFn f g).tick = s.tick := rfl
@[simp] theorem State.modFn_nres (s : State) (f : Nat) (g : FnState → FnState) : (s.modFn f g).nres = s.nres := rfl
@[simp] theorem State.modFn_cel (s : State) (f : Nat) (g : FnState → FnState) : (s.modFn f g).cel = s.cel := rfl
@[simp] theorem State.modFn_sup (s : State) (f : Nat) (g : FnState → FnState) : (s.modFn f g).sup = s.sup := rfl
@[simp] theorem State.modFn_arm (s : State) (f : Nat) (g : FnState → FnState) : (s.modFn f g).arm = s.arm := rfl
@[simp] theorem State.modFn_dsl (s : State) (f : Nat) (g : FnState → FnState) : (s.modFn f g).dsl = s.dsl := rfl
@[simp] theorem State.modFn_usl (s : State) (f : Nat) (g : FnState → FnState) : (s.modFn f g).usl = s.usl := rfl
@[simp] theorem State.modFn_act (s : State) (f : Nat) (g : FnState → FnState) : (s.modFn f g).act = s.act := rfl
@[simp] theorem State.modFn_cph (s : State) (f : Nat) (g : FnState → FnState) : (s.modFn f g).cph = s.cph := rfl
@[simp] theorem State.modFn_crt (s : State) (f : Nat) (g : FnState → FnState) : (s.modFn f g).crt = s.crt := rfl
@[simp] theorem State.modFn_flc (s : State) (f : Nat) (g : FnState → FnState) : (s.modFn f g).flc = s.flc := rfl
@[simp] theorem State.modFn_cst (s : State) (f : Nat) (g : FnState → FnState) : (s.modFn f g).cst = s.cst := rfl
@[simp] theorem State.modFn_pwr (s : State) (f : Nat) (g : FnState → FnState) : (s.modFn f g).pwr = s.pwr := rfl
@[simp] theorem State.modFn_cls (s : State) (f : Nat) (g : FnState → FnState) : (s.modFn f g).cls = s.cls := rfl
@[simp] theorem State.modFn_eth (s : State) (f : Nat) (g : FnState → FnState) : (s.modFn f g).eth = s.eth := rfl
@[simp] theorem State.modFn_pnd (s : State) (f : Nat) (g : FnState → FnState) : (s.modFn f g).pnd = s.pnd := rfl
@[simp] theorem State.modFn_tim (s : State) (f : Nat) (g : FnState → FnState) : (s.modFn f g).tim = s.tim := rfl
@[simp] theorem State.modFn_tdm (s : State) (f : Nat) (g : FnState → FnState) : (s.modFn f g).tdm = s.tdm := rfl
@[simp] theorem State.modFn_msh (s : State) (f : Nat) (g : FnState → FnState) : (s.modFn f g).msh = s.msh := rfl
@[simp] theorem State.modFn_fio (s : State) (f : Nat) (g : FnState → FnState) : (s.modFn f g).fio = s.fio := rfl

/-! ### putMsix -/

@[simp] theorem State.putMsix_pending (s : State) (f off : Nat) (w : Word) : (s.putMsix f off w).pending = s.pending := rfl
@[simp] theorem State.putMsix_regs (s : State) (f off : Nat) (w : Word) : (s.putMsix f off w).regs = s.regs := rfl
@[simp] theorem State.putMsix_fuse (s : State) (f off : Nat) (w : Word) : (s.putMsix f off w).fuse = s.fuse := rfl
@[simp] theorem State.putMsix_clk (s : State) (f off : Nat) (w : Word) : (s.putMsix f off w).clk = s.clk := rfl
@[simp] theorem State.putMsix_freeCount (s : State) (f off : Nat) (w : Word) : (s.putMsix f off w).freeCount = s.freeCount := rfl
@[simp] theorem State.putMsix_sent (s : State) (f off : Nat) (w : Word) : (s.putMsix f off w).sent = s.sent := rfl
@[simp] theorem State.putMsix_latch (s : State) (f off : Nat) (w : Word) : (s.putMsix f off w).latch = s.latch := rfl
@[simp] theorem State.putMsix_flt (s : State) (f off : Nat) (w : Word) : (s.putMsix f off w).flt = s.flt := rfl
@[simp] theorem State.putMsix_tick (s : State) (f off : Nat) (w : Word) : (s.putMsix f off w).tick = s.tick := rfl
@[simp] theorem State.putMsix_nres (s : State) (f off : Nat) (w : Word) : (s.putMsix f off w).nres = s.nres := rfl
@[simp] theorem State.putMsix_cel (s : State) (f off : Nat) (w : Word) : (s.putMsix f off w).cel = s.cel := rfl
@[simp] theorem State.putMsix_sup (s : State) (f off : Nat) (w : Word) : (s.putMsix f off w).sup = s.sup := rfl
@[simp] theorem State.putMsix_arm (s : State) (f off : Nat) (w : Word) : (s.putMsix f off w).arm = s.arm := rfl
@[simp] theorem State.putMsix_dsl (s : State) (f off : Nat) (w : Word) : (s.putMsix f off w).dsl = s.dsl := rfl
@[simp] theorem State.putMsix_usl (s : State) (f off : Nat) (w : Word) : (s.putMsix f off w).usl = s.usl := rfl
@[simp] theorem State.putMsix_act (s : State) (f off : Nat) (w : Word) : (s.putMsix f off w).act = s.act := rfl
@[simp] theorem State.putMsix_cph (s : State) (f off : Nat) (w : Word) : (s.putMsix f off w).cph = s.cph := rfl
@[simp] theorem State.putMsix_crt (s : State) (f off : Nat) (w : Word) : (s.putMsix f off w).crt = s.crt := rfl
@[simp] theorem State.putMsix_flc (s : State) (f off : Nat) (w : Word) : (s.putMsix f off w).flc = s.flc := rfl
@[simp] theorem State.putMsix_cst (s : State) (f off : Nat) (w : Word) : (s.putMsix f off w).cst = s.cst := rfl
@[simp] theorem State.putMsix_pwr (s : State) (f off : Nat) (w : Word) : (s.putMsix f off w).pwr = s.pwr := rfl
@[simp] theorem State.putMsix_cls (s : State) (f off : Nat) (w : Word) : (s.putMsix f off w).cls = s.cls := rfl
@[simp] theorem State.putMsix_eth (s : State) (f off : Nat) (w : Word) : (s.putMsix f off w).eth = s.eth := rfl
@[simp] theorem State.putMsix_pnd (s : State) (f off : Nat) (w : Word) : (s.putMsix f off w).pnd = s.pnd := rfl
@[simp] theorem State.putMsix_tim (s : State) (f off : Nat) (w : Word) : (s.putMsix f off w).tim = s.tim := rfl
@[simp] theorem State.putMsix_tdm (s : State) (f off : Nat) (w : Word) : (s.putMsix f off w).tdm = s.tdm := rfl
@[simp] theorem State.putMsix_msh (s : State) (f off : Nat) (w : Word) : (s.putMsix f off w).msh = s.msh := rfl
@[simp] theorem State.putMsix_fio (s : State) (f off : Nat) (w : Word) : (s.putMsix f off w).fio = s.fio := rfl

/-! ### sendNotice -/

@[simp] theorem State.sendNotice_pending (s : State) : (s.sendNotice).pending = s.pending := by unfold State.sendNotice; split <;> rfl
@[simp] theorem State.sendNotice_regs (s : State) : (s.sendNotice).regs = s.regs := by unfold State.sendNotice; split <;> rfl
@[simp] theorem State.sendNotice_fuse (s : State) : (s.sendNotice).fuse = s.fuse := by unfold State.sendNotice; split <;> rfl
@[simp] theorem State.sendNotice_clk (s : State) : (s.sendNotice).clk = s.clk := by unfold State.sendNotice; split <;> rfl
@[simp] theorem State.sendNotice_freeCount (s : State) : (s.sendNotice).freeCount = s.freeCount := by unfold State.sendNotice; split <;> rfl
@[simp] theorem State.sendNotice_sent (s : State) : (s.sendNotice).sent = s.sent := by unfold State.sendNotice; split <;> rfl
@[simp] theorem State.sendNotice_latch (s : State) : (s.sendNotice).latch = s.latch := by unfold State.sendNotice; split <;> rfl
@[simp] theorem State.sendNotice_flt (s : State) : (s.sendNotice).flt = s.flt := by unfold State.sendNotice; split <;> rfl
@[simp] theorem State.sendNotice_tick (s : State) : (s.sendNotice).tick = s.tick := by unfold State.sendNotice; split <;> rfl
@[simp] theorem State.sendNotice_nres (s : State) : (s.sendNotice).nres = s.nres := by unfold State.sendNotice; split <;> rfl
@[simp] theorem State.sendNotice_cel (s : State) : (s.sendNotice).cel = s.cel := by unfold State.sendNotice; split <;> rfl
@[simp] theorem State.sendNotice_hif (s : State) : (s.sendNotice).hif = s.hif := by unfold State.sendNotice; split <;> rfl
@[simp] theorem State.sendNotice_arm (s : State) : (s.sendNotice).arm = s.arm := by unfold State.sendNotice; split <;> rfl
@[simp] theorem State.sendNotice_dsl (s : State) : (s.sendNotice).dsl = s.dsl := by unfold State.sendNotice; split <;> rfl
@[simp] theorem State.sendNotice_usl (s : State) : (s.sendNotice).usl = s.usl := by unfold State.sendNotice; split <;> rfl
@[simp] theorem State.sendNotice_act (s : State) : (s.sendNotice).act = s.act := by unfold State.sendNotice; split <;> rfl
@[simp] theorem State.sendNotice_cph (s : State) : (s.sendNotice).cph = s.cph := by unfold State.sendNotice; split <;> rfl
@[simp] theorem State.sendNotice_crt (s : State) : (s.sendNotice).crt = s.crt := by unfold State.sendNotice; split <;> rfl
@[simp] theorem State.sendNotice_flc (s : State) : (s.sendNotice).flc = s.flc := by unfold State.sendNotice; split <;> rfl
@[simp] theorem State.sendNotice_cst (s : State) : (s.sendNotice).cst = s.cst := by unfold State.sendNotice; split <;> rfl
@[simp] theorem State.sendNotice_pwr (s : State) : (s.sendNotice).pwr = s.pwr := by unfold State.sendNotice; split <;> rfl
@[simp] theorem State.sendNotice_cls (s : State) : (s.sendNotice).cls = s.cls := by unfold State.sendNotice; split <;> rfl
@[simp] theorem State.sendNotice_eth (s : State) : (s.sendNotice).eth = s.eth := by unfold State.sendNotice; split <;> rfl
@[simp] theorem State.sendNotice_pnd (s : State) : (s.sendNotice).pnd = s.pnd := by unfold State.sendNotice; split <;> rfl
@[simp] theorem State.sendNotice_tim (s : State) : (s.sendNotice).tim = s.tim := by unfold State.sendNotice; split <;> rfl
@[simp] theorem State.sendNotice_tdm (s : State) : (s.sendNotice).tdm = s.tdm := by unfold State.sendNotice; split <;> rfl
@[simp] theorem State.sendNotice_msh (s : State) : (s.sendNotice).msh = s.msh := by unfold State.sendNotice; split <;> rfl
@[simp] theorem State.sendNotice_fio (s : State) : (s.sendNotice).fio = s.fio := by unfold State.sendNotice; split <;> rfl

/-! ### raiseFn -/

@[simp] theorem State.raiseFn_pending (s : State) (f v : Nat) : (s.raiseFn f v).pending = s.pending := by unfold State.raiseFn; split <;> rfl
@[simp] theorem State.raiseFn_regs (s : State) (f v : Nat) : (s.raiseFn f v).regs = s.regs := by unfold State.raiseFn; split <;> rfl
@[simp] theorem State.raiseFn_fuse (s : State) (f v : Nat) : (s.raiseFn f v).fuse = s.fuse := by unfold State.raiseFn; split <;> rfl
@[simp] theorem State.raiseFn_clk (s : State) (f v : Nat) : (s.raiseFn f v).clk = s.clk := by unfold State.raiseFn; split <;> rfl
@[simp] theorem State.raiseFn_freeCount (s : State) (f v : Nat) : (s.raiseFn f v).freeCount = s.freeCount := by unfold State.raiseFn; split <;> rfl
@[simp] theorem State.raiseFn_latch (s : State) (f v : Nat) : (s.raiseFn f v).latch = s.latch := by unfold State.raiseFn; split <;> rfl
@[simp] theorem State.raiseFn_flt (s : State) (f v : Nat) : (s.raiseFn f v).flt = s.flt := by unfold State.raiseFn; split <;> rfl
@[simp] theorem State.raiseFn_tick (s : State) (f v : Nat) : (s.raiseFn f v).tick = s.tick := by unfold State.raiseFn; split <;> rfl
@[simp] theorem State.raiseFn_nres (s : State) (f v : Nat) : (s.raiseFn f v).nres = s.nres := by unfold State.raiseFn; split <;> rfl
@[simp] theorem State.raiseFn_cel (s : State) (f v : Nat) : (s.raiseFn f v).cel = s.cel := by unfold State.raiseFn; split <;> rfl
@[simp] theorem State.raiseFn_sup (s : State) (f v : Nat) : (s.raiseFn f v).sup = s.sup := by unfold State.raiseFn; split <;> rfl
@[simp] theorem State.raiseFn_arm (s : State) (f v : Nat) : (s.raiseFn f v).arm = s.arm := by unfold State.raiseFn; split <;> rfl
@[simp] theorem State.raiseFn_dsl (s : State) (f v : Nat) : (s.raiseFn f v).dsl = s.dsl := by unfold State.raiseFn; split <;> rfl
@[simp] theorem State.raiseFn_usl (s : State) (f v : Nat) : (s.raiseFn f v).usl = s.usl := by unfold State.raiseFn; split <;> rfl
@[simp] theorem State.raiseFn_act (s : State) (f v : Nat) : (s.raiseFn f v).act = s.act := by unfold State.raiseFn; split <;> rfl
@[simp] theorem State.raiseFn_cph (s : State) (f v : Nat) : (s.raiseFn f v).cph = s.cph := by unfold State.raiseFn; split <;> rfl
@[simp] theorem State.raiseFn_crt (s : State) (f v : Nat) : (s.raiseFn f v).crt = s.crt := by unfold State.raiseFn; split <;> rfl
@[simp] theorem State.raiseFn_flc (s : State) (f v : Nat) : (s.raiseFn f v).flc = s.flc := by unfold State.raiseFn; split <;> rfl
@[simp] theorem State.raiseFn_cst (s : State) (f v : Nat) : (s.raiseFn f v).cst = s.cst := by unfold State.raiseFn; split <;> rfl
@[simp] theorem State.raiseFn_pwr (s : State) (f v : Nat) : (s.raiseFn f v).pwr = s.pwr := by unfold State.raiseFn; split <;> rfl
@[simp] theorem State.raiseFn_cls (s : State) (f v : Nat) : (s.raiseFn f v).cls = s.cls := by unfold State.raiseFn; split <;> rfl
@[simp] theorem State.raiseFn_eth (s : State) (f v : Nat) : (s.raiseFn f v).eth = s.eth := by unfold State.raiseFn; split <;> rfl
@[simp] theorem State.raiseFn_pnd (s : State) (f v : Nat) : (s.raiseFn f v).pnd = s.pnd := by unfold State.raiseFn; split <;> rfl
@[simp] theorem State.raiseFn_tim (s : State) (f v : Nat) : (s.raiseFn f v).tim = s.tim := by unfold State.raiseFn; split <;> rfl
@[simp] theorem State.raiseFn_tdm (s : State) (f v : Nat) : (s.raiseFn f v).tdm = s.tdm := by unfold State.raiseFn; split <;> rfl
@[simp] theorem State.raiseFn_msh (s : State) (f v : Nat) : (s.raiseFn f v).msh = s.msh := by unfold State.raiseFn; split <;> rfl
@[simp] theorem State.raiseFn_fio (s : State) (f v : Nat) : (s.raiseFn f v).fio = s.fio := by unfold State.raiseFn; split <;> rfl

/-! ### raisePf -/

@[simp] theorem State.raisePf_pending (s : State) (v : Nat) : (s.raisePf v).pending = s.pending := by unfold State.raisePf; dsimp only; split <;> simp
@[simp] theorem State.raisePf_regs (s : State) (v : Nat) : (s.raisePf v).regs = s.regs := by unfold State.raisePf; dsimp only; split <;> simp
@[simp] theorem State.raisePf_fuse (s : State) (v : Nat) : (s.raisePf v).fuse = s.fuse := by unfold State.raisePf; dsimp only; split <;> simp
@[simp] theorem State.raisePf_clk (s : State) (v : Nat) : (s.raisePf v).clk = s.clk := by unfold State.raisePf; dsimp only; split <;> simp
@[simp] theorem State.raisePf_freeCount (s : State) (v : Nat) : (s.raisePf v).freeCount = s.freeCount := by unfold State.raisePf; dsimp only; split <;> simp
@[simp] theorem State.raisePf_latch (s : State) (v : Nat) : (s.raisePf v).latch = s.latch := by unfold State.raisePf; dsimp only; split <;> simp
@[simp] theorem State.raisePf_flt (s : State) (v : Nat) : (s.raisePf v).flt = s.flt := by unfold State.raisePf; dsimp only; split <;> simp
@[simp] theorem State.raisePf_tick (s : State) (v : Nat) : (s.raisePf v).tick = s.tick := by unfold State.raisePf; dsimp only; split <;> simp
@[simp] theorem State.raisePf_nres (s : State) (v : Nat) : (s.raisePf v).nres = s.nres := by unfold State.raisePf; dsimp only; split <;> simp
@[simp] theorem State.raisePf_cel (s : State) (v : Nat) : (s.raisePf v).cel = s.cel := by unfold State.raisePf; dsimp only; split <;> simp
@[simp] theorem State.raisePf_arm (s : State) (v : Nat) : (s.raisePf v).arm = s.arm := by unfold State.raisePf; dsimp only; split <;> simp
@[simp] theorem State.raisePf_dsl (s : State) (v : Nat) : (s.raisePf v).dsl = s.dsl := by unfold State.raisePf; dsimp only; split <;> simp
@[simp] theorem State.raisePf_usl (s : State) (v : Nat) : (s.raisePf v).usl = s.usl := by unfold State.raisePf; dsimp only; split <;> simp
@[simp] theorem State.raisePf_act (s : State) (v : Nat) : (s.raisePf v).act = s.act := by unfold State.raisePf; dsimp only; split <;> simp
@[simp] theorem State.raisePf_cph (s : State) (v : Nat) : (s.raisePf v).cph = s.cph := by unfold State.raisePf; dsimp only; split <;> simp
@[simp] theorem State.raisePf_crt (s : State) (v : Nat) : (s.raisePf v).crt = s.crt := by unfold State.raisePf; dsimp only; split <;> simp
@[simp] theorem State.raisePf_flc (s : State) (v : Nat) : (s.raisePf v).flc = s.flc := by unfold State.raisePf; dsimp only; split <;> simp
@[simp] theorem State.raisePf_cst (s : State) (v : Nat) : (s.raisePf v).cst = s.cst := by unfold State.raisePf; dsimp only; split <;> simp
@[simp] theorem State.raisePf_pwr (s : State) (v : Nat) : (s.raisePf v).pwr = s.pwr := by unfold State.raisePf; dsimp only; split <;> simp
@[simp] theorem State.raisePf_cls (s : State) (v : Nat) : (s.raisePf v).cls = s.cls := by unfold State.raisePf; dsimp only; split <;> simp
@[simp] theorem State.raisePf_eth (s : State) (v : Nat) : (s.raisePf v).eth = s.eth := by unfold State.raisePf; dsimp only; split <;> simp
@[simp] theorem State.raisePf_pnd (s : State) (v : Nat) : (s.raisePf v).pnd = s.pnd := by unfold State.raisePf; dsimp only; split <;> simp
@[simp] theorem State.raisePf_tim (s : State) (v : Nat) : (s.raisePf v).tim = s.tim := by unfold State.raisePf; dsimp only; split <;> simp
@[simp] theorem State.raisePf_tdm (s : State) (v : Nat) : (s.raisePf v).tdm = s.tdm := by unfold State.raisePf; dsimp only; split <;> simp
@[simp] theorem State.raisePf_msh (s : State) (v : Nat) : (s.raisePf v).msh = s.msh := by unfold State.raisePf; dsimp only; split <;> simp
@[simp] theorem State.raisePf_fio (s : State) (v : Nat) : (s.raisePf v).fio = s.fio := by unfold State.raisePf; dsimp only; split <;> simp

/-! ### raiseNiche -/

@[simp] theorem State.raiseNiche_pending (s : State) (n v : Nat) : (s.raiseNiche n v).pending = s.pending := by unfold State.raiseNiche; rcases s.servedBy n with _ | _ | f <;> simp only [] <;> (try split) <;> (try split) <;> simp
@[simp] theorem State.raiseNiche_regs (s : State) (n v : Nat) : (s.raiseNiche n v).regs = s.regs := by unfold State.raiseNiche; rcases s.servedBy n with _ | _ | f <;> simp only [] <;> (try split) <;> (try split) <;> simp
@[simp] theorem State.raiseNiche_fuse (s : State) (n v : Nat) : (s.raiseNiche n v).fuse = s.fuse := by unfold State.raiseNiche; rcases s.servedBy n with _ | _ | f <;> simp only [] <;> (try split) <;> (try split) <;> simp
@[simp] theorem State.raiseNiche_clk (s : State) (n v : Nat) : (s.raiseNiche n v).clk = s.clk := by unfold State.raiseNiche; rcases s.servedBy n with _ | _ | f <;> simp only [] <;> (try split) <;> (try split) <;> simp
@[simp] theorem State.raiseNiche_freeCount (s : State) (n v : Nat) : (s.raiseNiche n v).freeCount = s.freeCount := by unfold State.raiseNiche; rcases s.servedBy n with _ | _ | f <;> simp only [] <;> (try split) <;> (try split) <;> simp
@[simp] theorem State.raiseNiche_latch (s : State) (n v : Nat) : (s.raiseNiche n v).latch = s.latch := by unfold State.raiseNiche; rcases s.servedBy n with _ | _ | f <;> simp only [] <;> (try split) <;> (try split) <;> simp
@[simp] theorem State.raiseNiche_flt (s : State) (n v : Nat) : (s.raiseNiche n v).flt = s.flt := by unfold State.raiseNiche; rcases s.servedBy n with _ | _ | f <;> simp only [] <;> (try split) <;> (try split) <;> simp
@[simp] theorem State.raiseNiche_tick (s : State) (n v : Nat) : (s.raiseNiche n v).tick = s.tick := by unfold State.raiseNiche; rcases s.servedBy n with _ | _ | f <;> simp only [] <;> (try split) <;> (try split) <;> simp
@[simp] theorem State.raiseNiche_nres (s : State) (n v : Nat) : (s.raiseNiche n v).nres = s.nres := by unfold State.raiseNiche; rcases s.servedBy n with _ | _ | f <;> simp only [] <;> (try split) <;> (try split) <;> simp
@[simp] theorem State.raiseNiche_cel (s : State) (n v : Nat) : (s.raiseNiche n v).cel = s.cel := by unfold State.raiseNiche; rcases s.servedBy n with _ | _ | f <;> simp only [] <;> (try split) <;> (try split) <;> simp
@[simp] theorem State.raiseNiche_sup (s : State) (n v : Nat) : (s.raiseNiche n v).sup = s.sup := by unfold State.raiseNiche; rcases s.servedBy n with _ | _ | f <;> simp only [] <;> (try split) <;> (try split) <;> simp
@[simp] theorem State.raiseNiche_arm (s : State) (n v : Nat) : (s.raiseNiche n v).arm = s.arm := by unfold State.raiseNiche; rcases s.servedBy n with _ | _ | f <;> simp only [] <;> (try split) <;> (try split) <;> simp
@[simp] theorem State.raiseNiche_dsl (s : State) (n v : Nat) : (s.raiseNiche n v).dsl = s.dsl := by unfold State.raiseNiche; rcases s.servedBy n with _ | _ | f <;> simp only [] <;> (try split) <;> (try split) <;> simp
@[simp] theorem State.raiseNiche_usl (s : State) (n v : Nat) : (s.raiseNiche n v).usl = s.usl := by unfold State.raiseNiche; rcases s.servedBy n with _ | _ | f <;> simp only [] <;> (try split) <;> (try split) <;> simp
@[simp] theorem State.raiseNiche_act (s : State) (n v : Nat) : (s.raiseNiche n v).act = s.act := by unfold State.raiseNiche; rcases s.servedBy n with _ | _ | f <;> simp only [] <;> (try split) <;> (try split) <;> simp
@[simp] theorem State.raiseNiche_cph (s : State) (n v : Nat) : (s.raiseNiche n v).cph = s.cph := by unfold State.raiseNiche; rcases s.servedBy n with _ | _ | f <;> simp only [] <;> (try split) <;> (try split) <;> simp
@[simp] theorem State.raiseNiche_crt (s : State) (n v : Nat) : (s.raiseNiche n v).crt = s.crt := by unfold State.raiseNiche; rcases s.servedBy n with _ | _ | f <;> simp only [] <;> (try split) <;> (try split) <;> simp
@[simp] theorem State.raiseNiche_flc (s : State) (n v : Nat) : (s.raiseNiche n v).flc = s.flc := by unfold State.raiseNiche; rcases s.servedBy n with _ | _ | f <;> simp only [] <;> (try split) <;> (try split) <;> simp
@[simp] theorem State.raiseNiche_cst (s : State) (n v : Nat) : (s.raiseNiche n v).cst = s.cst := by unfold State.raiseNiche; rcases s.servedBy n with _ | _ | f <;> simp only [] <;> (try split) <;> (try split) <;> simp
@[simp] theorem State.raiseNiche_pwr (s : State) (n v : Nat) : (s.raiseNiche n v).pwr = s.pwr := by unfold State.raiseNiche; rcases s.servedBy n with _ | _ | f <;> simp only [] <;> (try split) <;> (try split) <;> simp
@[simp] theorem State.raiseNiche_cls (s : State) (n v : Nat) : (s.raiseNiche n v).cls = s.cls := by unfold State.raiseNiche; rcases s.servedBy n with _ | _ | f <;> simp only [] <;> (try split) <;> (try split) <;> simp
@[simp] theorem State.raiseNiche_eth (s : State) (n v : Nat) : (s.raiseNiche n v).eth = s.eth := by unfold State.raiseNiche; rcases s.servedBy n with _ | _ | f <;> simp only [] <;> (try split) <;> (try split) <;> simp
@[simp] theorem State.raiseNiche_pnd (s : State) (n v : Nat) : (s.raiseNiche n v).pnd = s.pnd := by unfold State.raiseNiche; rcases s.servedBy n with _ | _ | f <;> simp only [] <;> (try split) <;> (try split) <;> simp
@[simp] theorem State.raiseNiche_tim (s : State) (n v : Nat) : (s.raiseNiche n v).tim = s.tim := by unfold State.raiseNiche; rcases s.servedBy n with _ | _ | f <;> simp only [] <;> (try split) <;> (try split) <;> simp
@[simp] theorem State.raiseNiche_tdm (s : State) (n v : Nat) : (s.raiseNiche n v).tdm = s.tdm := by unfold State.raiseNiche; rcases s.servedBy n with _ | _ | f <;> simp only [] <;> (try split) <;> (try split) <;> simp
@[simp] theorem State.raiseNiche_msh (s : State) (n v : Nat) : (s.raiseNiche n v).msh = s.msh := by unfold State.raiseNiche; rcases s.servedBy n with _ | _ | f <;> simp only [] <;> (try split) <;> (try split) <;> simp
@[simp] theorem State.raiseNiche_fio (s : State) (n v : Nat) : (s.raiseNiche n v).fio = s.fio := by unfold State.raiseNiche; rcases s.servedBy n with _ | _ | f <;> simp only [] <;> (try split) <;> (try split) <;> simp

/-! ### raiseFlt -/

@[simp] theorem State.raiseFlt_pending (s : State) (code : Nat) : (s.raiseFlt code).pending = s.pending := by unfold State.raiseFlt; split_ifs <;> simp
@[simp] theorem State.raiseFlt_regs (s : State) (code : Nat) : (s.raiseFlt code).regs = s.regs := by unfold State.raiseFlt; split_ifs <;> simp
@[simp] theorem State.raiseFlt_fuse (s : State) (code : Nat) : (s.raiseFlt code).fuse = s.fuse := by unfold State.raiseFlt; split_ifs <;> simp
@[simp] theorem State.raiseFlt_clk (s : State) (code : Nat) : (s.raiseFlt code).clk = s.clk := by unfold State.raiseFlt; split_ifs <;> simp
@[simp] theorem State.raiseFlt_freeCount (s : State) (code : Nat) : (s.raiseFlt code).freeCount = s.freeCount := by unfold State.raiseFlt; split_ifs <;> simp
@[simp] theorem State.raiseFlt_latch (s : State) (code : Nat) : (s.raiseFlt code).latch = s.latch := by unfold State.raiseFlt; split_ifs <;> simp
@[simp] theorem State.raiseFlt_tick (s : State) (code : Nat) : (s.raiseFlt code).tick = s.tick := by unfold State.raiseFlt; split_ifs <;> simp
@[simp] theorem State.raiseFlt_nres (s : State) (code : Nat) : (s.raiseFlt code).nres = s.nres := by unfold State.raiseFlt; split_ifs <;> simp
@[simp] theorem State.raiseFlt_cel (s : State) (code : Nat) : (s.raiseFlt code).cel = s.cel := by unfold State.raiseFlt; split_ifs <;> simp
@[simp] theorem State.raiseFlt_arm (s : State) (code : Nat) : (s.raiseFlt code).arm = s.arm := by unfold State.raiseFlt; split_ifs <;> simp
@[simp] theorem State.raiseFlt_dsl (s : State) (code : Nat) : (s.raiseFlt code).dsl = s.dsl := by unfold State.raiseFlt; split_ifs <;> simp
@[simp] theorem State.raiseFlt_usl (s : State) (code : Nat) : (s.raiseFlt code).usl = s.usl := by unfold State.raiseFlt; split_ifs <;> simp
@[simp] theorem State.raiseFlt_act (s : State) (code : Nat) : (s.raiseFlt code).act = s.act := by unfold State.raiseFlt; split_ifs <;> simp
@[simp] theorem State.raiseFlt_cph (s : State) (code : Nat) : (s.raiseFlt code).cph = s.cph := by unfold State.raiseFlt; split_ifs <;> simp
@[simp] theorem State.raiseFlt_crt (s : State) (code : Nat) : (s.raiseFlt code).crt = s.crt := by unfold State.raiseFlt; split_ifs <;> simp
@[simp] theorem State.raiseFlt_flc (s : State) (code : Nat) : (s.raiseFlt code).flc = s.flc := by unfold State.raiseFlt; split_ifs <;> simp
@[simp] theorem State.raiseFlt_cst (s : State) (code : Nat) : (s.raiseFlt code).cst = s.cst := by unfold State.raiseFlt; split_ifs <;> simp
@[simp] theorem State.raiseFlt_pwr (s : State) (code : Nat) : (s.raiseFlt code).pwr = s.pwr := by unfold State.raiseFlt; split_ifs <;> simp
@[simp] theorem State.raiseFlt_cls (s : State) (code : Nat) : (s.raiseFlt code).cls = s.cls := by unfold State.raiseFlt; split_ifs <;> simp
@[simp] theorem State.raiseFlt_eth (s : State) (code : Nat) : (s.raiseFlt code).eth = s.eth := by unfold State.raiseFlt; split_ifs <;> simp
@[simp] theorem State.raiseFlt_pnd (s : State) (code : Nat) : (s.raiseFlt code).pnd = s.pnd := by unfold State.raiseFlt; split_ifs <;> simp
@[simp] theorem State.raiseFlt_tim (s : State) (code : Nat) : (s.raiseFlt code).tim = s.tim := by unfold State.raiseFlt; split_ifs <;> simp
@[simp] theorem State.raiseFlt_tdm (s : State) (code : Nat) : (s.raiseFlt code).tdm = s.tdm := by unfold State.raiseFlt; split_ifs <;> simp
@[simp] theorem State.raiseFlt_msh (s : State) (code : Nat) : (s.raiseFlt code).msh = s.msh := by unfold State.raiseFlt; split_ifs <;> simp
@[simp] theorem State.raiseFlt_fio (s : State) (code : Nat) : (s.raiseFlt code).fio = s.fio := by unfold State.raiseFlt; split_ifs <;> simp

/-! ### logDevN -/

@[simp] theorem State.logDevN_pending (s : State) (code niche count data : Nat) : (s.logDevN code niche count data).pending = s.pending := by simp only [State.logDevN, State.when, State.raiseFlt_pending]; split <;> simp
@[simp] theorem State.logDevN_regs (s : State) (code niche count data : Nat) : (s.logDevN code niche count data).regs = s.regs := by simp only [State.logDevN, State.when, State.raiseFlt_regs]; split <;> simp
@[simp] theorem State.logDevN_fuse (s : State) (code niche count data : Nat) : (s.logDevN code niche count data).fuse = s.fuse := by simp only [State.logDevN, State.when, State.raiseFlt_fuse]; split <;> simp
@[simp] theorem State.logDevN_clk (s : State) (code niche count data : Nat) : (s.logDevN code niche count data).clk = s.clk := by simp only [State.logDevN, State.when, State.raiseFlt_clk]; split <;> simp
@[simp] theorem State.logDevN_freeCount (s : State) (code niche count data : Nat) : (s.logDevN code niche count data).freeCount = s.freeCount := by simp only [State.logDevN, State.when, State.raiseFlt_freeCount]; split <;> simp
@[simp] theorem State.logDevN_latch (s : State) (code niche count data : Nat) : (s.logDevN code niche count data).latch = s.latch := by simp only [State.logDevN, State.when, State.raiseFlt_latch]; split <;> simp
@[simp] theorem State.logDevN_tick (s : State) (code niche count data : Nat) : (s.logDevN code niche count data).tick = s.tick := by simp only [State.logDevN, State.when, State.raiseFlt_tick]; split <;> simp
@[simp] theorem State.logDevN_nres (s : State) (code niche count data : Nat) : (s.logDevN code niche count data).nres = s.nres := by simp only [State.logDevN, State.when, State.raiseFlt_nres]; split <;> simp
@[simp] theorem State.logDevN_cel (s : State) (code niche count data : Nat) : (s.logDevN code niche count data).cel = s.cel := by simp only [State.logDevN, State.when, State.raiseFlt_cel]; split <;> simp
@[simp] theorem State.logDevN_arm (s : State) (code niche count data : Nat) : (s.logDevN code niche count data).arm = s.arm := by simp only [State.logDevN, State.when, State.raiseFlt_arm]; split <;> simp
@[simp] theorem State.logDevN_dsl (s : State) (code niche count data : Nat) : (s.logDevN code niche count data).dsl = s.dsl := by simp only [State.logDevN, State.when, State.raiseFlt_dsl]; split <;> simp
@[simp] theorem State.logDevN_usl (s : State) (code niche count data : Nat) : (s.logDevN code niche count data).usl = s.usl := by simp only [State.logDevN, State.when, State.raiseFlt_usl]; split <;> simp
@[simp] theorem State.logDevN_act (s : State) (code niche count data : Nat) : (s.logDevN code niche count data).act = s.act := by simp only [State.logDevN, State.when, State.raiseFlt_act]; split <;> simp
@[simp] theorem State.logDevN_cph (s : State) (code niche count data : Nat) : (s.logDevN code niche count data).cph = s.cph := by simp only [State.logDevN, State.when, State.raiseFlt_cph]; split <;> simp
@[simp] theorem State.logDevN_crt (s : State) (code niche count data : Nat) : (s.logDevN code niche count data).crt = s.crt := by simp only [State.logDevN, State.when, State.raiseFlt_crt]; split <;> simp
@[simp] theorem State.logDevN_flc (s : State) (code niche count data : Nat) : (s.logDevN code niche count data).flc = s.flc := by simp only [State.logDevN, State.when, State.raiseFlt_flc]; split <;> simp
@[simp] theorem State.logDevN_cst (s : State) (code niche count data : Nat) : (s.logDevN code niche count data).cst = s.cst := by simp only [State.logDevN, State.when, State.raiseFlt_cst]; split <;> simp
@[simp] theorem State.logDevN_pwr (s : State) (code niche count data : Nat) : (s.logDevN code niche count data).pwr = s.pwr := by simp only [State.logDevN, State.when, State.raiseFlt_pwr]; split <;> simp
@[simp] theorem State.logDevN_cls (s : State) (code niche count data : Nat) : (s.logDevN code niche count data).cls = s.cls := by simp only [State.logDevN, State.when, State.raiseFlt_cls]; split <;> simp
@[simp] theorem State.logDevN_eth (s : State) (code niche count data : Nat) : (s.logDevN code niche count data).eth = s.eth := by simp only [State.logDevN, State.when, State.raiseFlt_eth]; split <;> simp
@[simp] theorem State.logDevN_pnd (s : State) (code niche count data : Nat) : (s.logDevN code niche count data).pnd = s.pnd := by simp only [State.logDevN, State.when, State.raiseFlt_pnd]; split <;> simp
@[simp] theorem State.logDevN_tim (s : State) (code niche count data : Nat) : (s.logDevN code niche count data).tim = s.tim := by simp only [State.logDevN, State.when, State.raiseFlt_tim]; split <;> simp
@[simp] theorem State.logDevN_tdm (s : State) (code niche count data : Nat) : (s.logDevN code niche count data).tdm = s.tdm := by simp only [State.logDevN, State.when, State.raiseFlt_tdm]; split <;> simp
@[simp] theorem State.logDevN_msh (s : State) (code niche count data : Nat) : (s.logDevN code niche count data).msh = s.msh := by simp only [State.logDevN, State.when, State.raiseFlt_msh]; split <;> simp
@[simp] theorem State.logDevN_fio (s : State) (code niche count data : Nat) : (s.logDevN code niche count data).fio = s.fio := by simp only [State.logDevN, State.when, State.raiseFlt_fio]; split <;> simp

/-! ### logDev -/

@[simp] theorem State.logDev_pending (s : State) (code niche data : Nat) : (s.logDev code niche data).pending = s.pending := by simp [State.logDev]
@[simp] theorem State.logDev_regs (s : State) (code niche data : Nat) : (s.logDev code niche data).regs = s.regs := by simp [State.logDev]
@[simp] theorem State.logDev_fuse (s : State) (code niche data : Nat) : (s.logDev code niche data).fuse = s.fuse := by simp [State.logDev]
@[simp] theorem State.logDev_clk (s : State) (code niche data : Nat) : (s.logDev code niche data).clk = s.clk := by simp [State.logDev]
@[simp] theorem State.logDev_freeCount (s : State) (code niche data : Nat) : (s.logDev code niche data).freeCount = s.freeCount := by simp [State.logDev]
@[simp] theorem State.logDev_latch (s : State) (code niche data : Nat) : (s.logDev code niche data).latch = s.latch := by simp [State.logDev]
@[simp] theorem State.logDev_tick (s : State) (code niche data : Nat) : (s.logDev code niche data).tick = s.tick := by simp [State.logDev]
@[simp] theorem State.logDev_nres (s : State) (code niche data : Nat) : (s.logDev code niche data).nres = s.nres := by simp [State.logDev]
@[simp] theorem State.logDev_cel (s : State) (code niche data : Nat) : (s.logDev code niche data).cel = s.cel := by simp [State.logDev]
@[simp] theorem State.logDev_arm (s : State) (code niche data : Nat) : (s.logDev code niche data).arm = s.arm := by simp [State.logDev]
@[simp] theorem State.logDev_dsl (s : State) (code niche data : Nat) : (s.logDev code niche data).dsl = s.dsl := by simp [State.logDev]
@[simp] theorem State.logDev_usl (s : State) (code niche data : Nat) : (s.logDev code niche data).usl = s.usl := by simp [State.logDev]
@[simp] theorem State.logDev_act (s : State) (code niche data : Nat) : (s.logDev code niche data).act = s.act := by simp [State.logDev]
@[simp] theorem State.logDev_cph (s : State) (code niche data : Nat) : (s.logDev code niche data).cph = s.cph := by simp [State.logDev]
@[simp] theorem State.logDev_crt (s : State) (code niche data : Nat) : (s.logDev code niche data).crt = s.crt := by simp [State.logDev]
@[simp] theorem State.logDev_flc (s : State) (code niche data : Nat) : (s.logDev code niche data).flc = s.flc := by simp [State.logDev]
@[simp] theorem State.logDev_cst (s : State) (code niche data : Nat) : (s.logDev code niche data).cst = s.cst := by simp [State.logDev]
@[simp] theorem State.logDev_pwr (s : State) (code niche data : Nat) : (s.logDev code niche data).pwr = s.pwr := by simp [State.logDev]
@[simp] theorem State.logDev_cls (s : State) (code niche data : Nat) : (s.logDev code niche data).cls = s.cls := by simp [State.logDev]
@[simp] theorem State.logDev_eth (s : State) (code niche data : Nat) : (s.logDev code niche data).eth = s.eth := by simp [State.logDev]
@[simp] theorem State.logDev_pnd (s : State) (code niche data : Nat) : (s.logDev code niche data).pnd = s.pnd := by simp [State.logDev]
@[simp] theorem State.logDev_tim (s : State) (code niche data : Nat) : (s.logDev code niche data).tim = s.tim := by simp [State.logDev]
@[simp] theorem State.logDev_tdm (s : State) (code niche data : Nat) : (s.logDev code niche data).tdm = s.tdm := by simp [State.logDev]
@[simp] theorem State.logDev_msh (s : State) (code niche data : Nat) : (s.logDev code niche data).msh = s.msh := by simp [State.logDev]
@[simp] theorem State.logDev_fio (s : State) (code niche data : Nat) : (s.logDev code niche data).fio = s.fio := by simp [State.logDev]

/-! ### logNicheRaw -/

@[simp] theorem State.logNicheRaw_pending (s : State) (n code count data : Nat) (esc : Bool) : (s.logNicheRaw n code count data esc).pending = s.pending := by simp only [State.logNicheRaw, State.when]; split <;> simp
@[simp] theorem State.logNicheRaw_regs (s : State) (n code count data : Nat) (esc : Bool) : (s.logNicheRaw n code count data esc).regs = s.regs := by simp only [State.logNicheRaw, State.when]; split <;> simp
@[simp] theorem State.logNicheRaw_fuse (s : State) (n code count data : Nat) (esc : Bool) : (s.logNicheRaw n code count data esc).fuse = s.fuse := by simp only [State.logNicheRaw, State.when]; split <;> simp
@[simp] theorem State.logNicheRaw_clk (s : State) (n code count data : Nat) (esc : Bool) : (s.logNicheRaw n code count data esc).clk = s.clk := by simp only [State.logNicheRaw, State.when]; split <;> simp
@[simp] theorem State.logNicheRaw_freeCount (s : State) (n code count data : Nat) (esc : Bool) : (s.logNicheRaw n code count data esc).freeCount = s.freeCount := by simp only [State.logNicheRaw, State.when]; split <;> simp
@[simp] theorem State.logNicheRaw_latch (s : State) (n code count data : Nat) (esc : Bool) : (s.logNicheRaw n code count data esc).latch = s.latch := by simp only [State.logNicheRaw, State.when]; split <;> simp
@[simp] theorem State.logNicheRaw_tick (s : State) (n code count data : Nat) (esc : Bool) : (s.logNicheRaw n code count data esc).tick = s.tick := by simp only [State.logNicheRaw, State.when]; split <;> simp
@[simp] theorem State.logNicheRaw_nres (s : State) (n code count data : Nat) (esc : Bool) : (s.logNicheRaw n code count data esc).nres = s.nres := by simp only [State.logNicheRaw, State.when]; split <;> simp
@[simp] theorem State.logNicheRaw_cel (s : State) (n code count data : Nat) (esc : Bool) : (s.logNicheRaw n code count data esc).cel = s.cel := by simp only [State.logNicheRaw, State.when]; split <;> simp
@[simp] theorem State.logNicheRaw_sup (s : State) (n code count data : Nat) (esc : Bool) : (s.logNicheRaw n code count data esc).sup = s.sup := by simp only [State.logNicheRaw, State.when]; split <;> simp
@[simp] theorem State.logNicheRaw_arm (s : State) (n code count data : Nat) (esc : Bool) : (s.logNicheRaw n code count data esc).arm = s.arm := by simp only [State.logNicheRaw, State.when]; split <;> simp
@[simp] theorem State.logNicheRaw_dsl (s : State) (n code count data : Nat) (esc : Bool) : (s.logNicheRaw n code count data esc).dsl = s.dsl := by simp only [State.logNicheRaw, State.when]; split <;> simp
@[simp] theorem State.logNicheRaw_usl (s : State) (n code count data : Nat) (esc : Bool) : (s.logNicheRaw n code count data esc).usl = s.usl := by simp only [State.logNicheRaw, State.when]; split <;> simp
@[simp] theorem State.logNicheRaw_act (s : State) (n code count data : Nat) (esc : Bool) : (s.logNicheRaw n code count data esc).act = s.act := by simp only [State.logNicheRaw, State.when]; split <;> simp
@[simp] theorem State.logNicheRaw_cph (s : State) (n code count data : Nat) (esc : Bool) : (s.logNicheRaw n code count data esc).cph = s.cph := by simp only [State.logNicheRaw, State.when]; split <;> simp
@[simp] theorem State.logNicheRaw_crt (s : State) (n code count data : Nat) (esc : Bool) : (s.logNicheRaw n code count data esc).crt = s.crt := by simp only [State.logNicheRaw, State.when]; split <;> simp
@[simp] theorem State.logNicheRaw_flc (s : State) (n code count data : Nat) (esc : Bool) : (s.logNicheRaw n code count data esc).flc = s.flc := by simp only [State.logNicheRaw, State.when]; split <;> simp
@[simp] theorem State.logNicheRaw_cst (s : State) (n code count data : Nat) (esc : Bool) : (s.logNicheRaw n code count data esc).cst = s.cst := by simp only [State.logNicheRaw, State.when]; split <;> simp
@[simp] theorem State.logNicheRaw_pwr (s : State) (n code count data : Nat) (esc : Bool) : (s.logNicheRaw n code count data esc).pwr = s.pwr := by simp only [State.logNicheRaw, State.when]; split <;> simp
@[simp] theorem State.logNicheRaw_cls (s : State) (n code count data : Nat) (esc : Bool) : (s.logNicheRaw n code count data esc).cls = s.cls := by simp only [State.logNicheRaw, State.when]; split <;> simp
@[simp] theorem State.logNicheRaw_eth (s : State) (n code count data : Nat) (esc : Bool) : (s.logNicheRaw n code count data esc).eth = s.eth := by simp only [State.logNicheRaw, State.when]; split <;> simp
@[simp] theorem State.logNicheRaw_pnd (s : State) (n code count data : Nat) (esc : Bool) : (s.logNicheRaw n code count data esc).pnd = s.pnd := by simp only [State.logNicheRaw, State.when]; split <;> simp
@[simp] theorem State.logNicheRaw_tim (s : State) (n code count data : Nat) (esc : Bool) : (s.logNicheRaw n code count data esc).tim = s.tim := by simp only [State.logNicheRaw, State.when]; split <;> simp
@[simp] theorem State.logNicheRaw_tdm (s : State) (n code count data : Nat) (esc : Bool) : (s.logNicheRaw n code count data esc).tdm = s.tdm := by simp only [State.logNicheRaw, State.when]; split <;> simp
@[simp] theorem State.logNicheRaw_msh (s : State) (n code count data : Nat) (esc : Bool) : (s.logNicheRaw n code count data esc).msh = s.msh := by simp only [State.logNicheRaw, State.when]; split <;> simp
@[simp] theorem State.logNicheRaw_fio (s : State) (n code count data : Nat) (esc : Bool) : (s.logNicheRaw n code count data esc).fio = s.fio := by simp only [State.logNicheRaw, State.when]; split <;> simp

/-! ### limit -/

@[simp] theorem State.limit_pending (s : State) (log code niche data : Nat) : (s.limit log code niche data).pending = s.pending := rfl
@[simp] theorem State.limit_regs (s : State) (log code niche data : Nat) : (s.limit log code niche data).regs = s.regs := rfl
@[simp] theorem State.limit_fuse (s : State) (log code niche data : Nat) : (s.limit log code niche data).fuse = s.fuse := rfl
@[simp] theorem State.limit_clk (s : State) (log code niche data : Nat) : (s.limit log code niche data).clk = s.clk := rfl
@[simp] theorem State.limit_freeCount (s : State) (log code niche data : Nat) : (s.limit log code niche data).freeCount = s.freeCount := rfl
@[simp] theorem State.limit_sent (s : State) (log code niche data : Nat) : (s.limit log code niche data).sent = s.sent := rfl
@[simp] theorem State.limit_latch (s : State) (log code niche data : Nat) : (s.limit log code niche data).latch = s.latch := rfl
@[simp] theorem State.limit_tick (s : State) (log code niche data : Nat) : (s.limit log code niche data).tick = s.tick := rfl
@[simp] theorem State.limit_nres (s : State) (log code niche data : Nat) : (s.limit log code niche data).nres = s.nres := rfl
@[simp] theorem State.limit_cel (s : State) (log code niche data : Nat) : (s.limit log code niche data).cel = s.cel := rfl
@[simp] theorem State.limit_hif (s : State) (log code niche data : Nat) : (s.limit log code niche data).hif = s.hif := rfl
@[simp] theorem State.limit_sup (s : State) (log code niche data : Nat) : (s.limit log code niche data).sup = s.sup := rfl
@[simp] theorem State.limit_arm (s : State) (log code niche data : Nat) : (s.limit log code niche data).arm = s.arm := rfl
@[simp] theorem State.limit_dsl (s : State) (log code niche data : Nat) : (s.limit log code niche data).dsl = s.dsl := rfl
@[simp] theorem State.limit_usl (s : State) (log code niche data : Nat) : (s.limit log code niche data).usl = s.usl := rfl
@[simp] theorem State.limit_act (s : State) (log code niche data : Nat) : (s.limit log code niche data).act = s.act := rfl
@[simp] theorem State.limit_cph (s : State) (log code niche data : Nat) : (s.limit log code niche data).cph = s.cph := rfl
@[simp] theorem State.limit_crt (s : State) (log code niche data : Nat) : (s.limit log code niche data).crt = s.crt := rfl
@[simp] theorem State.limit_flc (s : State) (log code niche data : Nat) : (s.limit log code niche data).flc = s.flc := rfl
@[simp] theorem State.limit_cst (s : State) (log code niche data : Nat) : (s.limit log code niche data).cst = s.cst := rfl
@[simp] theorem State.limit_pwr (s : State) (log code niche data : Nat) : (s.limit log code niche data).pwr = s.pwr := rfl
@[simp] theorem State.limit_cls (s : State) (log code niche data : Nat) : (s.limit log code niche data).cls = s.cls := rfl
@[simp] theorem State.limit_eth (s : State) (log code niche data : Nat) : (s.limit log code niche data).eth = s.eth := rfl
@[simp] theorem State.limit_pnd (s : State) (log code niche data : Nat) : (s.limit log code niche data).pnd = s.pnd := rfl
@[simp] theorem State.limit_tim (s : State) (log code niche data : Nat) : (s.limit log code niche data).tim = s.tim := rfl
@[simp] theorem State.limit_tdm (s : State) (log code niche data : Nat) : (s.limit log code niche data).tdm = s.tdm := rfl
@[simp] theorem State.limit_msh (s : State) (log code niche data : Nat) : (s.limit log code niche data).msh = s.msh := rfl
@[simp] theorem State.limit_fio (s : State) (log code niche data : Nat) : (s.limit log code niche data).fio = s.fio := rfl

/-! ### limDev -/

@[simp] theorem State.limDev_pending (s : State) (code niche data : Nat) : (s.limDev code niche data).pending = s.pending := rfl
@[simp] theorem State.limDev_regs (s : State) (code niche data : Nat) : (s.limDev code niche data).regs = s.regs := rfl
@[simp] theorem State.limDev_fuse (s : State) (code niche data : Nat) : (s.limDev code niche data).fuse = s.fuse := rfl
@[simp] theorem State.limDev_clk (s : State) (code niche data : Nat) : (s.limDev code niche data).clk = s.clk := rfl
@[simp] theorem State.limDev_freeCount (s : State) (code niche data : Nat) : (s.limDev code niche data).freeCount = s.freeCount := rfl
@[simp] theorem State.limDev_sent (s : State) (code niche data : Nat) : (s.limDev code niche data).sent = s.sent := rfl
@[simp] theorem State.limDev_latch (s : State) (code niche data : Nat) : (s.limDev code niche data).latch = s.latch := rfl
@[simp] theorem State.limDev_tick (s : State) (code niche data : Nat) : (s.limDev code niche data).tick = s.tick := rfl
@[simp] theorem State.limDev_nres (s : State) (code niche data : Nat) : (s.limDev code niche data).nres = s.nres := rfl
@[simp] theorem State.limDev_cel (s : State) (code niche data : Nat) : (s.limDev code niche data).cel = s.cel := rfl
@[simp] theorem State.limDev_hif (s : State) (code niche data : Nat) : (s.limDev code niche data).hif = s.hif := rfl
@[simp] theorem State.limDev_sup (s : State) (code niche data : Nat) : (s.limDev code niche data).sup = s.sup := rfl
@[simp] theorem State.limDev_arm (s : State) (code niche data : Nat) : (s.limDev code niche data).arm = s.arm := rfl
@[simp] theorem State.limDev_dsl (s : State) (code niche data : Nat) : (s.limDev code niche data).dsl = s.dsl := rfl
@[simp] theorem State.limDev_usl (s : State) (code niche data : Nat) : (s.limDev code niche data).usl = s.usl := rfl
@[simp] theorem State.limDev_act (s : State) (code niche data : Nat) : (s.limDev code niche data).act = s.act := rfl
@[simp] theorem State.limDev_cph (s : State) (code niche data : Nat) : (s.limDev code niche data).cph = s.cph := rfl
@[simp] theorem State.limDev_crt (s : State) (code niche data : Nat) : (s.limDev code niche data).crt = s.crt := rfl
@[simp] theorem State.limDev_flc (s : State) (code niche data : Nat) : (s.limDev code niche data).flc = s.flc := rfl
@[simp] theorem State.limDev_cst (s : State) (code niche data : Nat) : (s.limDev code niche data).cst = s.cst := rfl
@[simp] theorem State.limDev_pwr (s : State) (code niche data : Nat) : (s.limDev code niche data).pwr = s.pwr := rfl
@[simp] theorem State.limDev_cls (s : State) (code niche data : Nat) : (s.limDev code niche data).cls = s.cls := rfl
@[simp] theorem State.limDev_eth (s : State) (code niche data : Nat) : (s.limDev code niche data).eth = s.eth := rfl
@[simp] theorem State.limDev_pnd (s : State) (code niche data : Nat) : (s.limDev code niche data).pnd = s.pnd := rfl
@[simp] theorem State.limDev_tim (s : State) (code niche data : Nat) : (s.limDev code niche data).tim = s.tim := rfl
@[simp] theorem State.limDev_tdm (s : State) (code niche data : Nat) : (s.limDev code niche data).tdm = s.tdm := rfl
@[simp] theorem State.limDev_msh (s : State) (code niche data : Nat) : (s.limDev code niche data).msh = s.msh := rfl
@[simp] theorem State.limDev_fio (s : State) (code niche data : Nat) : (s.limDev code niche data).fio = s.fio := rfl

/-! ### limNiche -/

@[simp] theorem State.limNiche_pending (s : State) (n code data : Nat) : (s.limNiche n code data).pending = s.pending := rfl
@[simp] theorem State.limNiche_regs (s : State) (n code data : Nat) : (s.limNiche n code data).regs = s.regs := rfl
@[simp] theorem State.limNiche_fuse (s : State) (n code data : Nat) : (s.limNiche n code data).fuse = s.fuse := rfl
@[simp] theorem State.limNiche_clk (s : State) (n code data : Nat) : (s.limNiche n code data).clk = s.clk := rfl
@[simp] theorem State.limNiche_freeCount (s : State) (n code data : Nat) : (s.limNiche n code data).freeCount = s.freeCount := rfl
@[simp] theorem State.limNiche_sent (s : State) (n code data : Nat) : (s.limNiche n code data).sent = s.sent := rfl
@[simp] theorem State.limNiche_latch (s : State) (n code data : Nat) : (s.limNiche n code data).latch = s.latch := rfl
@[simp] theorem State.limNiche_tick (s : State) (n code data : Nat) : (s.limNiche n code data).tick = s.tick := rfl
@[simp] theorem State.limNiche_nres (s : State) (n code data : Nat) : (s.limNiche n code data).nres = s.nres := rfl
@[simp] theorem State.limNiche_cel (s : State) (n code data : Nat) : (s.limNiche n code data).cel = s.cel := rfl
@[simp] theorem State.limNiche_hif (s : State) (n code data : Nat) : (s.limNiche n code data).hif = s.hif := rfl
@[simp] theorem State.limNiche_sup (s : State) (n code data : Nat) : (s.limNiche n code data).sup = s.sup := rfl
@[simp] theorem State.limNiche_arm (s : State) (n code data : Nat) : (s.limNiche n code data).arm = s.arm := rfl
@[simp] theorem State.limNiche_dsl (s : State) (n code data : Nat) : (s.limNiche n code data).dsl = s.dsl := rfl
@[simp] theorem State.limNiche_usl (s : State) (n code data : Nat) : (s.limNiche n code data).usl = s.usl := rfl
@[simp] theorem State.limNiche_act (s : State) (n code data : Nat) : (s.limNiche n code data).act = s.act := rfl
@[simp] theorem State.limNiche_cph (s : State) (n code data : Nat) : (s.limNiche n code data).cph = s.cph := rfl
@[simp] theorem State.limNiche_crt (s : State) (n code data : Nat) : (s.limNiche n code data).crt = s.crt := rfl
@[simp] theorem State.limNiche_flc (s : State) (n code data : Nat) : (s.limNiche n code data).flc = s.flc := rfl
@[simp] theorem State.limNiche_cst (s : State) (n code data : Nat) : (s.limNiche n code data).cst = s.cst := rfl
@[simp] theorem State.limNiche_pwr (s : State) (n code data : Nat) : (s.limNiche n code data).pwr = s.pwr := rfl
@[simp] theorem State.limNiche_cls (s : State) (n code data : Nat) : (s.limNiche n code data).cls = s.cls := rfl
@[simp] theorem State.limNiche_eth (s : State) (n code data : Nat) : (s.limNiche n code data).eth = s.eth := rfl
@[simp] theorem State.limNiche_pnd (s : State) (n code data : Nat) : (s.limNiche n code data).pnd = s.pnd := rfl
@[simp] theorem State.limNiche_tim (s : State) (n code data : Nat) : (s.limNiche n code data).tim = s.tim := rfl
@[simp] theorem State.limNiche_tdm (s : State) (n code data : Nat) : (s.limNiche n code data).tdm = s.tdm := rfl
@[simp] theorem State.limNiche_msh (s : State) (n code data : Nat) : (s.limNiche n code data).msh = s.msh := rfl
@[simp] theorem State.limNiche_fio (s : State) (n code data : Nat) : (s.limNiche n code data).fio = s.fio := rfl

/-! ### modNreset -/

@[simp] theorem State.modNreset_pending (s : State) (n : Nat) (g : NicheReset → NicheReset) : (s.modNreset n g).pending = s.pending := rfl
@[simp] theorem State.modNreset_regs (s : State) (n : Nat) (g : NicheReset → NicheReset) : (s.modNreset n g).regs = s.regs := rfl
@[simp] theorem State.modNreset_fuse (s : State) (n : Nat) (g : NicheReset → NicheReset) : (s.modNreset n g).fuse = s.fuse := rfl
@[simp] theorem State.modNreset_clk (s : State) (n : Nat) (g : NicheReset → NicheReset) : (s.modNreset n g).clk = s.clk := rfl
@[simp] theorem State.modNreset_freeCount (s : State) (n : Nat) (g : NicheReset → NicheReset) : (s.modNreset n g).freeCount = s.freeCount := rfl
@[simp] theorem State.modNreset_sent (s : State) (n : Nat) (g : NicheReset → NicheReset) : (s.modNreset n g).sent = s.sent := rfl
@[simp] theorem State.modNreset_latch (s : State) (n : Nat) (g : NicheReset → NicheReset) : (s.modNreset n g).latch = s.latch := rfl
@[simp] theorem State.modNreset_flt (s : State) (n : Nat) (g : NicheReset → NicheReset) : (s.modNreset n g).flt = s.flt := rfl
@[simp] theorem State.modNreset_tick (s : State) (n : Nat) (g : NicheReset → NicheReset) : (s.modNreset n g).tick = s.tick := rfl
@[simp] theorem State.modNreset_cel (s : State) (n : Nat) (g : NicheReset → NicheReset) : (s.modNreset n g).cel = s.cel := rfl
@[simp] theorem State.modNreset_hif (s : State) (n : Nat) (g : NicheReset → NicheReset) : (s.modNreset n g).hif = s.hif := rfl
@[simp] theorem State.modNreset_sup (s : State) (n : Nat) (g : NicheReset → NicheReset) : (s.modNreset n g).sup = s.sup := rfl
@[simp] theorem State.modNreset_arm (s : State) (n : Nat) (g : NicheReset → NicheReset) : (s.modNreset n g).arm = s.arm := rfl
@[simp] theorem State.modNreset_dsl (s : State) (n : Nat) (g : NicheReset → NicheReset) : (s.modNreset n g).dsl = s.dsl := rfl
@[simp] theorem State.modNreset_usl (s : State) (n : Nat) (g : NicheReset → NicheReset) : (s.modNreset n g).usl = s.usl := rfl
@[simp] theorem State.modNreset_act (s : State) (n : Nat) (g : NicheReset → NicheReset) : (s.modNreset n g).act = s.act := rfl
@[simp] theorem State.modNreset_cph (s : State) (n : Nat) (g : NicheReset → NicheReset) : (s.modNreset n g).cph = s.cph := rfl
@[simp] theorem State.modNreset_crt (s : State) (n : Nat) (g : NicheReset → NicheReset) : (s.modNreset n g).crt = s.crt := rfl
@[simp] theorem State.modNreset_flc (s : State) (n : Nat) (g : NicheReset → NicheReset) : (s.modNreset n g).flc = s.flc := rfl
@[simp] theorem State.modNreset_cst (s : State) (n : Nat) (g : NicheReset → NicheReset) : (s.modNreset n g).cst = s.cst := rfl
@[simp] theorem State.modNreset_pwr (s : State) (n : Nat) (g : NicheReset → NicheReset) : (s.modNreset n g).pwr = s.pwr := rfl
@[simp] theorem State.modNreset_cls (s : State) (n : Nat) (g : NicheReset → NicheReset) : (s.modNreset n g).cls = s.cls := rfl
@[simp] theorem State.modNreset_eth (s : State) (n : Nat) (g : NicheReset → NicheReset) : (s.modNreset n g).eth = s.eth := rfl
@[simp] theorem State.modNreset_pnd (s : State) (n : Nat) (g : NicheReset → NicheReset) : (s.modNreset n g).pnd = s.pnd := rfl
@[simp] theorem State.modNreset_tim (s : State) (n : Nat) (g : NicheReset → NicheReset) : (s.modNreset n g).tim = s.tim := rfl
@[simp] theorem State.modNreset_tdm (s : State) (n : Nat) (g : NicheReset → NicheReset) : (s.modNreset n g).tdm = s.tdm := rfl
@[simp] theorem State.modNreset_msh (s : State) (n : Nat) (g : NicheReset → NicheReset) : (s.modNreset n g).msh = s.msh := rfl
@[simp] theorem State.modNreset_fio (s : State) (n : Nat) (g : NicheReset → NicheReset) : (s.modNreset n g).fio = s.fio := rfl

/-! ### deny -/

@[simp] theorem State.deny_pending (s : State) (n source target : Nat) : (s.deny n source target).pending = s.pending := rfl
@[simp] theorem State.deny_regs (s : State) (n source target : Nat) : (s.deny n source target).regs = s.regs := rfl
@[simp] theorem State.deny_fuse (s : State) (n source target : Nat) : (s.deny n source target).fuse = s.fuse := rfl
@[simp] theorem State.deny_clk (s : State) (n source target : Nat) : (s.deny n source target).clk = s.clk := rfl
@[simp] theorem State.deny_freeCount (s : State) (n source target : Nat) : (s.deny n source target).freeCount = s.freeCount := rfl
@[simp] theorem State.deny_sent (s : State) (n source target : Nat) : (s.deny n source target).sent = s.sent := rfl
@[simp] theorem State.deny_latch (s : State) (n source target : Nat) : (s.deny n source target).latch = s.latch := rfl
@[simp] theorem State.deny_flt (s : State) (n source target : Nat) : (s.deny n source target).flt = s.flt := rfl
@[simp] theorem State.deny_tick (s : State) (n source target : Nat) : (s.deny n source target).tick = s.tick := rfl
@[simp] theorem State.deny_nres (s : State) (n source target : Nat) : (s.deny n source target).nres = s.nres := rfl
@[simp] theorem State.deny_hif (s : State) (n source target : Nat) : (s.deny n source target).hif = s.hif := rfl
@[simp] theorem State.deny_sup (s : State) (n source target : Nat) : (s.deny n source target).sup = s.sup := rfl
@[simp] theorem State.deny_arm (s : State) (n source target : Nat) : (s.deny n source target).arm = s.arm := rfl
@[simp] theorem State.deny_dsl (s : State) (n source target : Nat) : (s.deny n source target).dsl = s.dsl := rfl
@[simp] theorem State.deny_usl (s : State) (n source target : Nat) : (s.deny n source target).usl = s.usl := rfl
@[simp] theorem State.deny_act (s : State) (n source target : Nat) : (s.deny n source target).act = s.act := rfl
@[simp] theorem State.deny_cph (s : State) (n source target : Nat) : (s.deny n source target).cph = s.cph := rfl
@[simp] theorem State.deny_crt (s : State) (n source target : Nat) : (s.deny n source target).crt = s.crt := rfl
@[simp] theorem State.deny_flc (s : State) (n source target : Nat) : (s.deny n source target).flc = s.flc := rfl
@[simp] theorem State.deny_cst (s : State) (n source target : Nat) : (s.deny n source target).cst = s.cst := rfl
@[simp] theorem State.deny_pwr (s : State) (n source target : Nat) : (s.deny n source target).pwr = s.pwr := rfl
@[simp] theorem State.deny_cls (s : State) (n source target : Nat) : (s.deny n source target).cls = s.cls := rfl
@[simp] theorem State.deny_eth (s : State) (n source target : Nat) : (s.deny n source target).eth = s.eth := rfl
@[simp] theorem State.deny_pnd (s : State) (n source target : Nat) : (s.deny n source target).pnd = s.pnd := rfl
@[simp] theorem State.deny_tim (s : State) (n source target : Nat) : (s.deny n source target).tim = s.tim := rfl
@[simp] theorem State.deny_tdm (s : State) (n source target : Nat) : (s.deny n source target).tdm = s.tdm := rfl
@[simp] theorem State.deny_msh (s : State) (n source target : Nat) : (s.deny n source target).msh = s.msh := rfl
@[simp] theorem State.deny_fio (s : State) (n source target : Nat) : (s.deny n source target).fio = s.fio := rfl

/-! ### Reads of registers through updates that write none -/

@[simp] theorem State.tookFree_word (s : State) (x : Nat) : (s.tookFree).word x = s.word x := by simp [State.word]
@[simp] theorem State.tookFree_get (s : State) (x : Field) : (s.tookFree).get x = s.get x := by simp [State.get]
@[simp] theorem State.tookFree_on (s : State) (x : Field) : (s.tookFree).on x = s.on x := by simp [State.on]
@[simp] theorem State.send_word (s : State) (e : Emit) (x : Nat) : (s.send e).word x = s.word x := by simp [State.word]
@[simp] theorem State.send_get (s : State) (e : Emit) (x : Field) : (s.send e).get x = s.get x := by simp [State.get]
@[simp] theorem State.send_on (s : State) (e : Emit) (x : Field) : (s.send e).on x = s.on x := by simp [State.on]
@[simp] theorem State.modFn_word (s : State) (f : Nat) (g : FnState → FnState) (x : Nat) : (s.modFn f g).word x = s.word x := by simp [State.word]
@[simp] theorem State.modFn_get (s : State) (f : Nat) (g : FnState → FnState) (x : Field) : (s.modFn f g).get x = s.get x := by simp [State.get]
@[simp] theorem State.modFn_on (s : State) (f : Nat) (g : FnState → FnState) (x : Field) : (s.modFn f g).on x = s.on x := by simp [State.on]
@[simp] theorem State.putMsix_word (s : State) (f off : Nat) (w : Word) (x : Nat) : (s.putMsix f off w).word x = s.word x := by simp [State.word]
@[simp] theorem State.putMsix_get (s : State) (f off : Nat) (w : Word) (x : Field) : (s.putMsix f off w).get x = s.get x := by simp [State.get]
@[simp] theorem State.putMsix_on (s : State) (f off : Nat) (w : Word) (x : Field) : (s.putMsix f off w).on x = s.on x := by simp [State.on]
@[simp] theorem State.sendNotice_word (s : State) (x : Nat) : (s.sendNotice).word x = s.word x := by simp [State.word]
@[simp] theorem State.sendNotice_get (s : State) (x : Field) : (s.sendNotice).get x = s.get x := by simp [State.get]
@[simp] theorem State.sendNotice_on (s : State) (x : Field) : (s.sendNotice).on x = s.on x := by simp [State.on]
@[simp] theorem State.raiseFn_word (s : State) (f v : Nat) (x : Nat) : (s.raiseFn f v).word x = s.word x := by simp [State.word]
@[simp] theorem State.raiseFn_get (s : State) (f v : Nat) (x : Field) : (s.raiseFn f v).get x = s.get x := by simp [State.get]
@[simp] theorem State.raiseFn_on (s : State) (f v : Nat) (x : Field) : (s.raiseFn f v).on x = s.on x := by simp [State.on]
@[simp] theorem State.raisePf_word (s : State) (v : Nat) (x : Nat) : (s.raisePf v).word x = s.word x := by simp [State.word]
@[simp] theorem State.raisePf_get (s : State) (v : Nat) (x : Field) : (s.raisePf v).get x = s.get x := by simp [State.get]
@[simp] theorem State.raisePf_on (s : State) (v : Nat) (x : Field) : (s.raisePf v).on x = s.on x := by simp [State.on]
@[simp] theorem State.raiseNiche_word (s : State) (n v : Nat) (x : Nat) : (s.raiseNiche n v).word x = s.word x := by simp [State.word]
@[simp] theorem State.raiseNiche_get (s : State) (n v : Nat) (x : Field) : (s.raiseNiche n v).get x = s.get x := by simp [State.get]
@[simp] theorem State.raiseNiche_on (s : State) (n v : Nat) (x : Field) : (s.raiseNiche n v).on x = s.on x := by simp [State.on]
@[simp] theorem State.raiseFlt_word (s : State) (code : Nat) (x : Nat) : (s.raiseFlt code).word x = s.word x := by simp [State.word]
@[simp] theorem State.raiseFlt_get (s : State) (code : Nat) (x : Field) : (s.raiseFlt code).get x = s.get x := by simp [State.get]
@[simp] theorem State.raiseFlt_on (s : State) (code : Nat) (x : Field) : (s.raiseFlt code).on x = s.on x := by simp [State.on]
@[simp] theorem State.logDevN_word (s : State) (code niche count data : Nat) (x : Nat) : (s.logDevN code niche count data).word x = s.word x := by simp [State.word]
@[simp] theorem State.logDevN_get (s : State) (code niche count data : Nat) (x : Field) : (s.logDevN code niche count data).get x = s.get x := by simp [State.get]
@[simp] theorem State.logDevN_on (s : State) (code niche count data : Nat) (x : Field) : (s.logDevN code niche count data).on x = s.on x := by simp [State.on]
@[simp] theorem State.logDev_word (s : State) (code niche data : Nat) (x : Nat) : (s.logDev code niche data).word x = s.word x := by simp [State.word]
@[simp] theorem State.logDev_get (s : State) (code niche data : Nat) (x : Field) : (s.logDev code niche data).get x = s.get x := by simp [State.get]
@[simp] theorem State.logDev_on (s : State) (code niche data : Nat) (x : Field) : (s.logDev code niche data).on x = s.on x := by simp [State.on]
@[simp] theorem State.logNicheRaw_word (s : State) (n code count data : Nat) (esc : Bool) (x : Nat) : (s.logNicheRaw n code count data esc).word x = s.word x := by simp [State.word]
@[simp] theorem State.logNicheRaw_get (s : State) (n code count data : Nat) (esc : Bool) (x : Field) : (s.logNicheRaw n code count data esc).get x = s.get x := by simp [State.get]
@[simp] theorem State.logNicheRaw_on (s : State) (n code count data : Nat) (esc : Bool) (x : Field) : (s.logNicheRaw n code count data esc).on x = s.on x := by simp [State.on]
@[simp] theorem State.limit_word (s : State) (log code niche data : Nat) (x : Nat) : (s.limit log code niche data).word x = s.word x := by simp [State.word]
@[simp] theorem State.limit_get (s : State) (log code niche data : Nat) (x : Field) : (s.limit log code niche data).get x = s.get x := by simp [State.get]
@[simp] theorem State.limit_on (s : State) (log code niche data : Nat) (x : Field) : (s.limit log code niche data).on x = s.on x := by simp [State.on]
@[simp] theorem State.limDev_word (s : State) (code niche data : Nat) (x : Nat) : (s.limDev code niche data).word x = s.word x := by simp [State.word]
@[simp] theorem State.limDev_get (s : State) (code niche data : Nat) (x : Field) : (s.limDev code niche data).get x = s.get x := by simp [State.get]
@[simp] theorem State.limDev_on (s : State) (code niche data : Nat) (x : Field) : (s.limDev code niche data).on x = s.on x := by simp [State.on]
@[simp] theorem State.limNiche_word (s : State) (n code data : Nat) (x : Nat) : (s.limNiche n code data).word x = s.word x := by simp [State.word]
@[simp] theorem State.limNiche_get (s : State) (n code data : Nat) (x : Field) : (s.limNiche n code data).get x = s.get x := by simp [State.get]
@[simp] theorem State.limNiche_on (s : State) (n code data : Nat) (x : Field) : (s.limNiche n code data).on x = s.on x := by simp [State.on]
@[simp] theorem State.modNreset_word (s : State) (n : Nat) (g : NicheReset → NicheReset) (x : Nat) : (s.modNreset n g).word x = s.word x := by simp [State.word]
@[simp] theorem State.modNreset_get (s : State) (n : Nat) (g : NicheReset → NicheReset) (x : Field) : (s.modNreset n g).get x = s.get x := by simp [State.get]
@[simp] theorem State.modNreset_on (s : State) (n : Nat) (g : NicheReset → NicheReset) (x : Field) : (s.modNreset n g).on x = s.on x := by simp [State.on]
@[simp] theorem State.deny_word (s : State) (n source target : Nat) (x : Nat) : (s.deny n source target).word x = s.word x := by simp [State.word]
@[simp] theorem State.deny_get (s : State) (n source target : Nat) (x : Field) : (s.deny n source target).get x = s.get x := by simp [State.get]
@[simp] theorem State.deny_on (s : State) (n source target : Nat) (x : Field) : (s.deny n source target).on x = s.on x := by simp [State.on]
/-! ### Reads through a record update that leaves what they read -/

@[simp] theorem State.mk_word (s : State) (pending' : List Instr) (fuse' : Fuses) (clk' : Nat) (freeCount' : Nat) (sent' : List Emit) (latch' : List (Nat × Word)) (flt' : FltState) (tick' : TickState) (nres' : List NicheReset) (cel' : CelState) (hif' : HifState) (sup' : SupState) (arm' : ArmState) (dsl' : DslState) (usl' : UslState) (act' : ActState) (cph' : CphState) (crt' : CrtState) (flc' : FlcState) (cst' : CstState) (pwr' : PwrState) (cls' : ClsState) (eth' : EthState) (pnd' : PndState) (tim' : TimState) (tdm' : TdmState) (msh' : MshState) (fio' : FioState) (x : Nat) :
    (State.mk pending' s.regs fuse' clk' freeCount' sent' latch' flt' tick' nres' cel' hif' sup' arm' dsl' usl' act' cph' crt' flc' cst' pwr' cls' eth' pnd' tim' tdm' msh' fio').word x = s.word x := rfl
@[simp] theorem State.mk_get (s : State) (pending' : List Instr) (fuse' : Fuses) (clk' : Nat) (freeCount' : Nat) (sent' : List Emit) (latch' : List (Nat × Word)) (flt' : FltState) (tick' : TickState) (nres' : List NicheReset) (cel' : CelState) (hif' : HifState) (sup' : SupState) (arm' : ArmState) (dsl' : DslState) (usl' : UslState) (act' : ActState) (cph' : CphState) (crt' : CrtState) (flc' : FlcState) (cst' : CstState) (pwr' : PwrState) (cls' : ClsState) (eth' : EthState) (pnd' : PndState) (tim' : TimState) (tdm' : TdmState) (msh' : MshState) (fio' : FioState) (x : Field) :
    (State.mk pending' s.regs fuse' clk' freeCount' sent' latch' flt' tick' nres' cel' hif' sup' arm' dsl' usl' act' cph' crt' flc' cst' pwr' cls' eth' pnd' tim' tdm' msh' fio').get x = s.get x := rfl
@[simp] theorem State.mk_on (s : State) (pending' : List Instr) (fuse' : Fuses) (clk' : Nat) (freeCount' : Nat) (sent' : List Emit) (latch' : List (Nat × Word)) (flt' : FltState) (tick' : TickState) (nres' : List NicheReset) (cel' : CelState) (hif' : HifState) (sup' : SupState) (arm' : ArmState) (dsl' : DslState) (usl' : UslState) (act' : ActState) (cph' : CphState) (crt' : CrtState) (flc' : FlcState) (cst' : CstState) (pwr' : PwrState) (cls' : ClsState) (eth' : EthState) (pnd' : PndState) (tim' : TimState) (tdm' : TdmState) (msh' : MshState) (fio' : FioState) (x : Field) :
    (State.mk pending' s.regs fuse' clk' freeCount' sent' latch' flt' tick' nres' cel' hif' sup' arm' dsl' usl' act' cph' crt' flc' cst' pwr' cls' eth' pnd' tim' tdm' msh' fio').on x = s.on x := rfl
@[simp] theorem State.mk_getS (s : State) (pending' : List Instr) (fuse' : Fuses) (clk' : Nat) (freeCount' : Nat) (sent' : List Emit) (latch' : List (Nat × Word)) (flt' : FltState) (tick' : TickState) (nres' : List NicheReset) (cel' : CelState) (hif' : HifState) (sup' : SupState) (arm' : ArmState) (dsl' : DslState) (usl' : UslState) (act' : ActState) (cph' : CphState) (crt' : CrtState) (flc' : FlcState) (cst' : CstState) (pwr' : PwrState) (cls' : ClsState) (eth' : EthState) (pnd' : PndState) (tim' : TimState) (tdm' : TdmState) (msh' : MshState) (fio' : FioState) (x : Field) :
    (State.mk pending' s.regs fuse' clk' freeCount' sent' latch' flt' tick' nres' cel' hif' sup' arm' dsl' usl' act' cph' crt' flc' cst' pwr' cls' eth' pnd' tim' tdm' msh' fio').getS x = s.getS x := rfl
@[simp] theorem State.mk_marked (s : State) (pending' : List Instr) (fuse' : Fuses) (clk' : Nat) (freeCount' : Nat) (sent' : List Emit) (latch' : List (Nat × Word)) (flt' : FltState) (tick' : TickState) (nres' : List NicheReset) (cel' : CelState) (hif' : HifState) (sup' : SupState) (arm' : ArmState) (dsl' : DslState) (usl' : UslState) (act' : ActState) (cph' : CphState) (crt' : CrtState) (flc' : FlcState) (cst' : CstState) (pwr' : PwrState) (cls' : ClsState) (eth' : EthState) (pnd' : PndState) (tim' : TimState) (tdm' : TdmState) (msh' : MshState) (fio' : FioState) (x : Field) (i : Nat) :
    (State.mk pending' s.regs fuse' clk' freeCount' sent' latch' flt' tick' nres' cel' hif' sup' arm' dsl' usl' act' cph' crt' flc' cst' pwr' cls' eth' pnd' tim' tdm' msh' fio').marked x i = s.marked x i := rfl
@[simp] theorem State.mk_domainOn (s : State) (pending' : List Instr) (regs' : List (Nat × Word)) (fuse' : Fuses) (clk' : Nat) (freeCount' : Nat) (sent' : List Emit) (latch' : List (Nat × Word)) (flt' : FltState) (tick' : TickState) (nres' : List NicheReset) (cel' : CelState) (hif' : HifState) (sup' : SupState) (arm' : ArmState) (dsl' : DslState) (usl' : UslState) (act' : ActState) (cph' : CphState) (crt' : CrtState) (flc' : FlcState) (cst' : CstState) (cls' : ClsState) (eth' : EthState) (pnd' : PndState) (tim' : TimState) (tdm' : TdmState) (msh' : MshState) (fio' : FioState) (d : Nat) :
    (State.mk pending' regs' fuse' clk' freeCount' sent' latch' flt' tick' nres' cel' hif' sup' arm' dsl' usl' act' cph' crt' flc' cst' s.pwr cls' eth' pnd' tim' tdm' msh' fio').domainOn d = s.domainOn d := rfl
@[simp] theorem State.mk_nreset (s : State) (pending' : List Instr) (regs' : List (Nat × Word)) (fuse' : Fuses) (clk' : Nat) (freeCount' : Nat) (sent' : List Emit) (latch' : List (Nat × Word)) (flt' : FltState) (tick' : TickState) (cel' : CelState) (hif' : HifState) (sup' : SupState) (arm' : ArmState) (dsl' : DslState) (usl' : UslState) (act' : ActState) (cph' : CphState) (crt' : CrtState) (flc' : FlcState) (cst' : CstState) (pwr' : PwrState) (cls' : ClsState) (eth' : EthState) (pnd' : PndState) (tim' : TimState) (tdm' : TdmState) (msh' : MshState) (fio' : FioState) (n : Nat) :
    (State.mk pending' regs' fuse' clk' freeCount' sent' latch' flt' tick' s.nres cel' hif' sup' arm' dsl' usl' act' cph' crt' flc' cst' pwr' cls' eth' pnd' tim' tdm' msh' fio').nreset n = s.nreset n := rfl

/-! ### Reads of registers after a write -/

@[simp] theorem State.setWord_word_self (s : State) (a : Nat) (w : Word) : (s.setWord a w).word a = w := by
  simp [State.word, State.setWord, storeGet_set_self]

theorem State.setWord_word_ne (s : State) {a b : Nat} (w : Word) (h : b ≠ a) : (s.setWord a w).word b = s.word b := by
  simp [State.word, State.setWord, storeGet_set_ne, h]

/-- A number below 2 to the k + n + m in three parts: the low k bits, the next n, the rest. -/
theorem nat_parts (x k n : Nat) : x = x % 2 ^ k + 2 ^ k * (x / 2 ^ k % 2 ^ n) + 2 ^ (k + n) * (x / 2 ^ (k + n)) := by
  have h1 := Nat.mod_add_div x (2 ^ k)
  have h2 := Nat.mod_add_div (x / 2 ^ k) (2 ^ n)
  rw [Nat.div_div_eq_div_mul, ← Nat.pow_add] at h2
  have h3 : 2 ^ k * (x / 2 ^ k) = 2 ^ k * (x / 2 ^ k % 2 ^ n) + 2 ^ (k + n) * (x / 2 ^ (k + n)) := by
    conv_lhs => rw [← h2]
    rw [Nat.mul_add, ← Nat.mul_assoc, ← Nat.pow_add]
  omega

theorem nat_mod_div (y : Nat) {lo hi : Nat} (h : lo ≤ hi) : y % 2 ^ (hi + 1) / 2 ^ lo = y / 2 ^ lo % 2 ^ (hi + 1 - lo) := by
  rw [show 2 ^ (hi + 1) = 2 ^ lo * 2 ^ (hi + 1 - lo) by rw [← Nat.pow_add]; congr 1; omega, Nat.mod_mul_right_div_self]

theorem putBits_parts (w : Word) (hi lo v : Nat) (h : lo ≤ hi) (h32 : hi < 32) :
    (putBits w hi lo v).toNat = w.toNat % 2 ^ lo + 2 ^ lo * (v % 2 ^ (hi + 1 - lo)) + 2 ^ (hi + 1) * (w.toNat / 2 ^ (hi + 1)) := by
  have hp := nat_parts w.toNat lo (hi + 1 - lo)
  have e : lo + (hi + 1 - lo) = hi + 1 := by omega
  rw [e] at hp
  have hw : w.toNat < 2 ^ 32 := w.isLt
  have hs : w.toNat - w.toNat / 2 ^ lo % 2 ^ (hi + 1 - lo) * 2 ^ lo + v % 2 ^ (hi + 1 - lo) * 2 ^ lo =
      w.toNat % 2 ^ lo + 2 ^ lo * (v % 2 ^ (hi + 1 - lo)) + 2 ^ (hi + 1) * (w.toNat / 2 ^ (hi + 1)) := by
    rw [Nat.mul_comm _ (2 ^ lo), Nat.mul_comm _ (2 ^ lo)]
    omega
  unfold putBits
  rw [BitVec.toNat_ofNat, hs, Nat.mod_eq_of_lt]
  have hl : w.toNat % 2 ^ lo < 2 ^ lo := Nat.mod_lt _ (by positivity)
  have hv : v % 2 ^ (hi + 1 - lo) < 2 ^ (hi + 1 - lo) := Nat.mod_lt _ (by positivity)
  have ht : w.toNat / 2 ^ (hi + 1) < 2 ^ (32 - (hi + 1)) := by
    rw [Nat.div_lt_iff_lt_mul (by positivity), ← Nat.pow_add]
    rwa [show 32 - (hi + 1) + (hi + 1) = 32 by omega]
  have h1 : 2 ^ lo * (v % 2 ^ (hi + 1 - lo)) + 2 ^ lo ≤ 2 ^ (hi + 1) := by
    have := Nat.mul_le_mul_left (2 ^ lo) (Nat.succ_le_of_lt hv)
    rw [Nat.mul_succ, ← Nat.pow_add, e] at this
    exact this
  have h2 : 2 ^ (hi + 1) * (w.toNat / 2 ^ (hi + 1)) + 2 ^ (hi + 1) ≤ 2 ^ 32 := by
    have := Nat.mul_le_mul_left (2 ^ (hi + 1)) (Nat.succ_le_of_lt ht)
    rw [Nat.mul_succ, ← Nat.pow_add, show hi + 1 + (32 - (hi + 1)) = 32 by omega] at this
    exact this
  omega

/-- A field reads as it was written. -/
theorem State.get_put_self (s : State) (f : Field) (v : Nat) (h : f.lo ≤ f.hi) (h32 : f.hi < 32) :
    (s.put f v).get f = v % 2 ^ (f.hi + 1 - f.lo) := by
  unfold State.get State.put bits
  rw [State.setWord_word_self, putBits_parts _ _ _ _ h h32]
  have hl : (s.word f.addr).toNat % 2 ^ f.lo < 2 ^ f.lo := Nat.mod_lt _ (by positivity)
  rw [show 2 ^ (f.hi + 1) = 2 ^ f.lo * 2 ^ (f.hi + 1 - f.lo) by rw [← Nat.pow_add]; congr 1; omega, Nat.mul_assoc, Nat.add_assoc,
    ← Nat.mul_add, Nat.add_mul_div_left _ _ (by positivity), Nat.div_eq_of_lt hl, Nat.zero_add, Nat.add_mul_mod_self_left,
    Nat.mod_mod]

/-- A write of a field leaves every field of every other register alone. -/
theorem State.get_put_ne (s : State) (f g : Field) (v : Nat) (h : g.addr ≠ f.addr) : (s.put f v).get g = s.get g := by
  unfold State.get State.put
  rw [State.setWord_word_ne _ _ h]

/-- A write of a field leaves the fields below and above it in its register alone. -/
theorem State.get_put_beside (s : State) (f g : Field) (v : Nat) (h : f.lo ≤ f.hi) (h32 : f.hi < 32) (hg : g.lo ≤ g.hi)
    (hd : g.hi < f.lo ∨ f.hi < g.lo) : (s.put f v).get g = s.get g := by
  by_cases ha : g.addr = f.addr
  · unfold State.get State.put bits
    rw [ha, State.setWord_word_self, putBits_parts _ _ _ _ h h32]
    generalize (s.word f.addr).toNat = x
    rcases hd with hd | hd
    · have hx := nat_parts x f.lo (f.hi + 1 - f.lo)
      rw [show f.lo + (f.hi + 1 - f.lo) = f.hi + 1 by omega] at hx
      have e1 : 2 ^ f.lo = 2 ^ (g.hi + 1) * 2 ^ (f.lo - (g.hi + 1)) := by rw [← Nat.pow_add]; congr 1; omega
      have e2 : 2 ^ (f.hi + 1) = 2 ^ (g.hi + 1) * 2 ^ (f.hi - g.hi) := by rw [← Nat.pow_add]; congr 1; omega
      have key : ∀ y : Nat, y / 2 ^ g.lo % 2 ^ (g.hi + 1 - g.lo) = y % 2 ^ (g.hi + 1) / 2 ^ g.lo := by
        intro y
        exact (nat_mod_div y hg).symm
      rw [key, key]
      congr 1
      conv_rhs => rw [hx]
      rw [e2, e1]
      simp only [Nat.mul_assoc, Nat.add_mul_mod_self_left]
    · have hl : x % 2 ^ f.lo < 2 ^ f.lo := Nat.mod_lt _ (by positivity)
      have hv : v % 2 ^ (f.hi + 1 - f.lo) < 2 ^ (f.hi + 1 - f.lo) := Nat.mod_lt _ (by positivity)
      have h1 : x % 2 ^ f.lo + 2 ^ f.lo * (v % 2 ^ (f.hi + 1 - f.lo)) < 2 ^ (f.hi + 1) := by
        have := Nat.mul_le_mul_left (2 ^ f.lo) (Nat.succ_le_of_lt hv)
        rw [Nat.mul_succ, ← Nat.pow_add, show f.lo + (f.hi + 1 - f.lo) = f.hi + 1 by omega] at this
        omega
      have e : 2 ^ g.lo = 2 ^ (f.hi + 1) * 2 ^ (g.lo - (f.hi + 1)) := by rw [← Nat.pow_add]; congr 1; omega
      rw [e, ← Nat.div_div_eq_div_mul, ← Nat.div_div_eq_div_mul, Nat.add_mul_div_left _ _ (by positivity), Nat.div_eq_of_lt h1,
        Nat.zero_add]
  · exact State.get_put_ne s f g v ha

end Sys2Proof.Machine
end

