-- ==== Sys2Proof/Laws/Serve.lean ====
section
/-!
SUPPORT. What serving a mailbox request comes to where the request passes every check of Table 17.3 (State.serves).
-/

namespace Sys2Proof.Machine

open Sys2Proof

theorem State.setMbx_flt (s : State) (a : Agent) (m : Mbx) : (s.setMbx a m).flt = s.flt := by
  cases a <;> rfl

theorem State.tookReq_flt (s : State) (a : Agent) (r : Req) : (s.tookReq a r).flt = s.flt := by
  cases a <;> rfl

/-- The source is served: the firmware is up. -/
theorem State.serves_up {s : State} {a : Agent} {r : Req} (h : s.serves a r) : s.flt.phase = .up := by
  have h1 := h.2.1
  simp only [State.mbxReady, Bool.and_eq_true, beq_iff_eq] at h1
  exact h1.1

/-- A request that passes every check is run on the state after it was taken, and its response is placed, but where the
request itself reset the device. -/
theorem State.serve_of_serves {s : State} {a : Agent} {r : Req} {p : Req → Bool} {run : Req → State → State × Nat × List Word}
    (h : s.serves a r) (hp : p r = true) :
    s.serve a p run =
      if (run r (s.tookReq a r)).1.flt.phase = .held then (run r (s.tookReq a r)).1
      else (run r (s.tookReq a r)).1.respond a r true (run r (s.tookReq a r)).2.1 (run r (s.tookReq a r)).2.2 := by
  obtain ⟨h1, h2, h3, h4, h5, h6, h7, h8⟩ := h
  simp only [State.serve, h1, h2, h3, h4, h5, h6, h7, h8, hp, Bool.not_true, Bool.or_self, Bool.false_eq_true, if_false]

/-- The same, where what the request runs leaves the device up. -/
theorem State.serve_responds {s : State} {a : Agent} {r : Req} {p : Req → Bool} {run : Req → State → State × Nat × List Word}
    (h : s.serves a r) (hp : p r = true) (hu : (run r (s.tookReq a r)).1.flt.phase ≠ .held) :
    s.serve a p run =
      (run r (s.tookReq a r)).1.respond a r true (run r (s.tookReq a r)).2.1 (run r (s.tookReq a r)).2.2 := by
  rw [State.serve_of_serves h hp, if_neg hu]

end Sys2Proof.Machine
end

