-- ==== Sys2Proof/WellFormed.lean ====
section
/-!
DEFINITION. Which commands are well formed: their operands have the shape that the spec gives the thing they carry. exec gives
every command an effect, well formed or not.
-/

namespace Sys2Proof

/-- A line message is 48 bytes (spec/04, Line messages). -/
def msgOk (m : List Byte) : Bool := m.length == 48

/-- A Pendant record as the lane brings it: the 8 octets of the block before it, which start the descrambler (R179), its 8-byte
header, and no more than the greatest payload, its FCS and the padding (R180, Table 7.4). -/
def recordOk (r : List Byte) : Bool := decide (16 ≤ r.length) && decide (r.length ≤ 16 + 12296) && r.length % 8 == 0

/-- A marker block as the lane brings it, after the 8 octets of the block before it (R179). -/
def markerOk (r : List Byte) : Bool := r.length == 16

/-- A downstream frame is 155,520 line bytes (R73). -/
def lineOk (l : List Byte) : Bool := l.length == 155520

/-- An alignment error lies in its range (R581). -/
def errorOk (e : Option Int) : Bool := e.all (fun v => decide (-9719 ≤ v) && decide (v ≤ 9720))

/-- A lookaside descriptor is 64 bytes (R417). -/
def lookasideOk (d : List Byte) : Bool := d.length == 64

/-- A transmit descriptor is 32 bytes, and an SDU has 1 to 16 of them (spec/16, Transmit rings). -/
def chainOk (c : List (List Byte)) : Bool := c.all (fun d => d.length == 32) && decide (c.length ≤ 16)

/-- Both memories of a cartridge hold 512 bytes (Table 18.1). -/
def cartridgeOk (identity patina : List Byte) : Bool := identity.length == 512 && patina.length == 512

/-- A register write meets the levels of DIN0 to DIN7. -/
def ambientOk (x : Ambient) : Bool := x.dins.length == 8

/-- A register access is aligned, and a niche window has 256 KiB (R7, spec/25). -/
def accessOk (who : Agent) (addr : BitVec 26) : Bool :=
  addr.toNat % 4 == 0 && (match who with | .vf _ => decide (addr.toNat < 0x40000) | _ => true)

/-- An Ethernet frame has at least its two addresses, its EtherType and its FCS. -/
def frameOk (f : List Byte) : Bool := decide (18 ≤ f.length)

/-- The loop of R358 takes 64 energies. -/
def energiesOk (l : List Int) : Bool := l.length == 64

/-- The command is well formed. -/
def Instr.wf (i : Instr) : Bool :=
  match i with
  | .registerWrite who addr _ x => accessOk who addr && ambientOk x
  | .mbxRegWrite _ x => ambientOk x
  | .counterBlock line => lineOk line
  | .tickEdge _ e _ _ _ _ => errorOk e
  | .keyEpoch msg | .standingGrant msg | .assignTn msg | .rangeSet msg | .silenceRelease msg | .silenceSilence msg
  | .silenceQuarantine msg | .silenceDeregister msg | .ackDownstream msg | .pendantBindSpan msg | .pendantBindGuard msg
  | .pendantUnbind msg | .timeOfDay msg | .castAtSchedule msg | .castAtCancel msg | .requestPatina msg | .sleepAllow msg
  | .sleepWithdraw msg => msgOk msg
  | .stateRecord r | .consentReq r | .consentReply r | .todRecord r | .dupUpRecord r | .dupDownRecord r | .spanUpRecord r
  | .spanDownRecord r | .memberRecord r | .castRecord r => recordOk r
  | .linkMarkerBlock r _ => markerOk r
  | .ethFrameRx _ f _ | .ptpFrameRx _ f _ _ => frameOk f
  | .ccaLoopStep l => energiesOk l
  | .laRequestFetch _ d => lookasideOk d
  | .txSduFetch _ _ c _ => chainOk c
  | .cartAcceptance a b _ => cartridgeOk a b
  | _ => true

end Sys2Proof
end

