-- ==== Sys2Proof/Tests/Slice0.lean ====
section
/-!
SUPPORT. Small tests: the WellFormed checks, the worked examples of the spec, and for every statement with hypotheses a state and
operands that meet them together (met_...).
-/

namespace Sys2Proof.Tests

open Sys2Proof Sys2Proof.Machine

/-! ### Small states -/

/-- Nothing arrives from the partner. -/
def linkRest : LinkSample := ⟨none, 0⟩
/-- ARM_DIGEST holds the digest of no bytes (FIPS 180-4). -/
def digestState : State :=
  [0x38b060a7, 0x51ac9638, 0x4cd9327e, 0xb1b1e36a, 0x21fdb711, 0x14be0743, 0x4c0cc7bf, 0x63f6e1da, 0x274edebf, 0xe76f65fb, 0xd51ad2f1,
    0x4898b95b].zipIdx.foldl (fun (s : State) x => s.put (ARM_DIGEST_digest x.2) x.1) State.reset
/-- A line message to every terminal. -/
def lineTo (addr type : Byte) (body : List Byte) : List Byte := (([addr, type, 1, 0] : List Byte) ++ body ++ zeros 44).take 48
/-- The state after reset with a line message that awaits its command. -/
def withMsg (m : List Byte) : State := { State.reset with act := { ActState.reset with inbox := [m] } }
def keyEpochMsg : List Byte := lineTo 0xFF 0x04 []
/-- A grant of the AID of the announce window. -/
def grant0 : MapGrant := ⟨0x10, 0, 10, false, false, 0, false, false, 0, false⟩
/-- A burst with one grant. -/
def burst0 : Burst :=
  { id := 0, frame := 0, grants := [⟨grant0, false⟩], pre := 128, start := 1000, announce := none, locked := false,
    content := none, running := false }
/-- The state after reset, locked, serving, with a cartridge accepted and the transmitter enabled. -/
def serving : State :=
  ((((State.reset.put TICK_STATUS_state 1).put ACT_STATUS_state 4).put USL_SAFE_cause 0).put USL_CTRL_tx_en 1).putB
    GLB_SERVICE_cart true
/-- serving, with one burst in the schedule. -/
def withBurst (b : Burst) : State := { serving with usl := { UslState.reset with plan := [b] } }
/-- Octets as the lane brings them after a block of zeros. -/
def lane (b : List Byte) : List Byte := zeros 8 ++ (linkScramble 0 b).1
/-- A Pendant record with a payload, and one without. -/
def recOf (type arg : Nat) (b : List Byte) : List Byte := lane (pndRecord type arg b)
def rec0 (type arg : Nat) : List Byte := recOf type arg []
/-- A PENDANT_BIND of an op to serial 0, pair_id 9, frame 2, and the terminal that accepts it. -/
def bindMsg (op : Byte) : List Byte := lineTo 0 9 (op :: zeros 12 ++ [9] ++ zeros 6 ++ [2])
/-- The Pendant link UP. -/
def linked : State := State.reset.put PND_STATUS_link 2
/-- Bound and paired in a form (1 span, 2 guard) and role, the Pendant link UP. -/
def paired (form role : Nat) : State :=
  (((linked.put PND_STATUS_bound 1).put PND_STATUS_form form).put PND_STATUS_role role).put PND_STATUS_paired 1
/-- What a partner's STATE record shows. -/
def peer0 : Peer := readPeer []
/-- A niche section with something of everything. -/
def sec0 : NicheSec :=
  { vf := true, veto := false, policers := 1, cellMin := 16, cellMax := 64, clsBlocks := 1,
    queues := [⟨0, 8, 0, 0⟩, ⟨64, 8, 1, 0⟩, ⟨72, 8, 2, 0⟩, ⟨80, 8, 3, 0⟩], allocs := [(1, 64)], keys := [(64, 32)], eth := 1, trib := 1,
    c37 := 1, tout := 1, tin := 1, ptp := 1, circuits := 1, members := 1, nodes := 1, children := 1, ain := 255, exc := 3, loops := 3,
    txm := 3, din := 255, dout := 15, profiles := 1 }
/-- A device section with something of everything. -/
def dev0 : DevSec :=
  { niches := 1, ranks := List.replicate 16 0, eth := List.replicate 6 1, tribEn := 255, tribT1 := 0, c37 := 15, tout := 15, tin := 15,
    band := 1, slotframes := 1, budget := List.replicate 12 0, energy := List.replicate 8 ⟨5900, 48000, 70, 48000⟩, portPo := 560,
    loopEn := 3 }
/-- s with N0 as the owner of that section. -/
def carvedState (s : State) : State :=
  { s.put GLB_SERVICE_arm 1 with arm := { s.arm with accepted := some ⟨dev0, [(0, sec0)], []⟩ } }
/-- Port 0 is N0's, its link up at 1 Gb/s full duplex. -/
def ethUp : State := (((carvedState State.reset).put (ETH_STATUS_link 0) 1).put (ETH_STATUS_speed 0) 2).put (ETH_STATUS_duplex 0) 1
/-- ethUp, with a frame in transmission on port 0. -/
def sending (t : EthTx) (s : State) : State := { s with eth := { s.eth with ports := s.eth.ports.set 0 { EthPort.reset with tx := some t } } }
/-- FLT_STATUS.up after reset, with the supervisor permitted everything. -/
def upState : State := { State.reset.put SUP_PERMIT_class 0x1F with flt := { FltState.reset with phase := .up } }
/-- The request of a type with a payload. -/
def reqOf (type : Nat) (ws : List Word) : Req :=
  let h : Word := BitVec.ofNat 32 (type * 2 ^ 26 + ws.length)
  ⟨h.toNat, ws, (withCrc (h :: ws)).getD (ws.length + 1) 0⟩
/-- The same for a niche. -/
def reqFor (type niche : Nat) (ws : List Word) : Req :=
  let h : Word := BitVec.ofNat 32 (type * 2 ^ 26 + niche * 2 ^ 22 + ws.length)
  ⟨h.toNat, ws, (withCrc (h :: ws)).getD (ws.length + 1) 0⟩
/-- s with a request in the PF mailbox. -/
def asking (r : Req) (s : State) : State :=
  s.setMbx .mbxPf { Mbx.empty with rx := BitVec.ofNat 32 r.hdr :: r.payload ++ [r.crc] }
/-- The structure of carvedState. -/
def struct0 : Structure := ⟨dev0, [(0, sec0)], []⟩
/-- A terminal that accepts bindMsg op. -/
def bindable (op : Byte) : State :=
  { (withMsg (bindMsg op)).put ACT_STATUS_state 4 |>.put PND_STATUS_link 2 with pnd := { PndState.reset with peer := some peer0 } }
/-- One usable virtual function, which serves N0. -/
def oneVf (s : State) : State :=
  { ((carvedState s).put HIF_STATUS_num_vfs 1).put HIF_STATUS_vf_enable 1 with flt := { s.flt with phase := .up } }
/-- Tributary 0 is N0's, an E1, with its domain on. -/
def tribUp : State :=
  let s := carvedState State.reset
  { s with pwr := { s.pwr with on := setBit s.pwr.on 23 } }
/-- Member 0 is up and has had no SDU for long. -/
def memberLate : State :=
  ({ (State.reset.put (TDM_MEM_CFG_valid 0) 1).put (TDM_MEM_STATUS_up 0) 1 with
    tick := { TickState.reset with edges := 100 } }).setMem 0 ⟨[], 1, some 0, some 0, none, false⟩
/-- The PTP service on port 0. -/
def ptpUp : State := ((carvedState State.reset).put TIM_PTP_CFG_en 1).put TIM_PTP_CFG_domain 0
/-- s with TOUT k holding x. -/
def toutWith (k : Nat) (x : Tout) (s : State) : State := s.setTout k x
/-- A schedule of the level mode on view 0, whose target has come. -/
def sched0 : Sched := ⟨1, 0, true, false, 0, 0, 0, 0, none⟩
/-- The mesh may start. -/
def meshReady : State := ((carvedState State.reset).put MSH_ASN_BASE_LO_asn 1).put MSH_TS_slot 50000
/-- A mesh frame that waits for its cell. -/
def meshTx0 : MeshTx := ⟨0, 0, 0, true, 0, 0, none, 0, 0, 3, 0, false, false⟩
/-- A plain data frame from node address 0 to everyone. -/
def radio0 : RadioFrame := ⟨true, 2, 0, false, 1, false, 0, 0xFFFF, false, 0, false, 0, 0, [], [], [], 0, 0⟩
/-- s with the mesh state changed. -/
def msh (f : MshState → MshState) (s : State) : State := { s with msh := f s.msh }
/-- Port A runs, its points N0's. -/
def fioUp : State :=
  let s := (carvedState State.reset).put FIO_STATUS_link 1
  { s with pwr := { s.pwr with on := setBit (setBit (setBit s.pwr.on 29) 30) 26 } }
/-- The binary inputs are read. -/
def dinUp : State := fioUp.put GLB_STRAP_bank4 2
/-- Ring 0 of N0 runs with a kind, and one descriptor is posted. -/
def ringUp (kind : Nat) : State :=
  let s := (((oneVf State.reset).put (HIF_RING_CFG_en 0 0) 1).put (HIF_RING_CFG_kind 0 0) kind).put (HIF_RING_PROD_index 0 0) 1
  { (s.put (HIF_RING_CFG_buf 0 0) 8).put (HIF_RING_CFG_log2size 0 0) 4 with
    hif := { s.hif with fns := s.hif.fns.set 1 ⟨true, true, false, 0⟩ } }
/-- s with a lookaside operation in progress. -/
def withLa (j : LaJob) (s : State) : State := { s with cph := { s.cph with la := [j] } }
/-- A lookaside operation that may end. -/
def la0 : LaJob := ⟨0, 0, 0, zeros 64, 0, 0, [], 0, false⟩
/-- upState in a Cast state. -/
def castIn (n : Nat) : State := upState.put CST_STATUS_state n
/-- The flash of both banks may be written. -/
def banksOn (s : State) : State := { s with pwr := { s.pwr with on := setBit (setBit s.pwr.on 35) 36 } }
/-- The command line of a CAST_CMD. -/
def castReq (ws : List Word) : Req := reqOf 10 ws
/-- ARMED with a second that has come, and a valid commit record. -/
def armedState : State :=
  let s := banksOn (castIn 3)
  { s.setUnit s.commitAddr s.commitRecord with cst := { CstState.reset with second := some 0 } }
/-- s with the power controller changed. -/
def pwr (f : PwrState → PwrState) (s : State) : State := { s with pwr := f s.pwr }
/-- An entry to DORMANT in a stage. -/
def entry0 (stage : EntryStage) : PwrEntry := ⟨3, false, stage, 0, 0, 0, 0, 0, 0⟩
/-- N0 may be shed, and the step has come. -/
def shedUp : State :=
  pwr (fun p => { p with outage := some 0, step := 0 })
    { (carvedState State.reset).put ARM_NICHES_niches 3 with
      arm := { (carvedState State.reset).arm with
        accepted := some ⟨{ dev0 with niches := 3, ranks := [0, 5] ++ List.replicate 14 0 }, [(0, sec0)], []⟩ } }
/-- s with the resets and logs block changed. -/
def flt (f : FltState → FltState) (s : State) : State := { s with flt := f s.flt }
/-- s with the flash controller changed. -/
def flc (f : FlcState → FlcState) (s : State) : State := { s with flc := f s.flc }
/-- A flash operation of the host port. -/
def flashOp0 (erase : Bool) : FlashOp := ⟨2, erase, 0, zeros 32, 0, 0, 0, false⟩

/-! ### WellFormed refuses an ill-formed term of each check -/

theorem test_wf_msg : (Instr.keyEpoch (zeros 48)).wf = true ∧ (Instr.keyEpoch (zeros 47)).wf = false := by decide
theorem test_wf_record : (Instr.stateRecord (zeros 16)).wf = true ∧ (Instr.stateRecord (zeros 17)).wf = false := by decide
theorem test_wf_marker : (Instr.linkMarkerBlock (zeros 16) true).wf = true ∧ (Instr.linkMarkerBlock (zeros 8) true).wf = false := by decide
theorem test_wf_line : (Instr.counterBlock (zeros 155520)).wf = true ∧ (Instr.counterBlock []).wf = false :=
  ⟨(congrArg (· == 155520) (List.length_replicate (n := 155520) (a := (0 : Byte))) : _), rfl⟩
theorem test_wf_error : (Instr.tickEdge 0 (some 9720) 0 0 linkRest 0).wf = true ∧ (Instr.tickEdge 0 (some 9721) 0 0 linkRest 0).wf = false := by
  decide
theorem test_wf_frame : (Instr.ethFrameRx 0 (zeros 18) 0).wf = true ∧ (Instr.ethFrameRx 0 (zeros 17) 0).wf = false := by decide
theorem test_wf_chain : (Instr.txSduFetch 0 0 [zeros 32] none).wf = true ∧ (Instr.txSduFetch 0 0 [zeros 31] none).wf = false := by decide
theorem test_wf_lookaside : (Instr.laRequestFetch 0 (zeros 63)).wf = false := by decide
theorem test_wf_cartridge : (Instr.cartAcceptance (zeros 2) (zeros 2) false).wf = false := by decide
theorem test_wf_ambient : (Instr.mbxRegWrite .sup ⟨[], false⟩).wf = false := by decide
theorem test_wf_access : (Instr.registerWrite (.vf 0) 0x40000 0 ⟨List.replicate 8 0, false⟩).wf = false ∧
    (Instr.registerWrite .pf 2 0 ⟨List.replicate 8 0, false⟩).wf = false := by decide
theorem test_wf_energies : (Instr.ccaLoopStep [0]).wf = false := by decide

/-! ### The spec's worked examples -/

/-- 02, worked example: e = −196 gives a stretched tick of 19,636 cycles. -/
theorem test_stretch_early : (State.reset.realign (some (-196))).tick.len = 19636 := by decide
/-- 02 and 23, worked examples: e = +196 gives 38,684 cycles. -/
theorem test_stretch_late : (State.reset.realign (some 196)).tick.len = 38684 := by decide
/-- 02, worked example: e = −40 slews by ticks of 19,441 cycles. -/
theorem test_slew : (State.reset.realign (some (-40))).tick.len = 19441 := by decide
/-- 04, worked example: the IV of the sixth fragment of frame 0x6E1B_8003 on FID 0x0412. -/
theorem test_fragment_iv : ({ State.reset with dsl := { DslState.reset with count := 0x6E1B8003 } } : State).fragIv 0x0412 5 =
    [0x00, 0x00, 0x0D, 0xC3, 0x70, 0x00, 0x60, 0x82, 0x40, 0x02, 0x80, 0x00] := by decide
set_option maxRecDepth 20000 in
set_option exponentiation.threshold 1100 in
/-- 07, worked example: after 40,117 from the partner the own copy is a duplicate, and 40,118 is accepted. -/
theorem test_guard_window : GuardWin.accepted ⟨true, 40116, 1, 0⟩ [40117, 40117, 40118] = [40117, 40118] := by decide
set_option maxRecDepth 20000 in
set_option exponentiation.threshold 1100 in
/-- R201: the edges of the window. -/
theorem test_guard_edges : (GuardWin.take ⟨true, 0, 1, 0⟩ 32767).1 = .accept ∧ (GuardWin.take ⟨true, 0, 1, 0⟩ 32768).1 = .stale ∧
    (GuardWin.take ⟨true, 1023, 1, 0⟩ 0).1 = .accept ∧ (GuardWin.take ⟨true, 1024, 1, 0⟩ 0).1 = .stale := by decide
/-- 12, worked example: the second of TAI 1,782,905,413 with utc_off 37 is 2026-07-01 11:29:36 UTC, a Wednesday. -/
theorem test_calendar : calOf (1782905413 - 37) = ⟨2026, 7, 1, 3, 11, 29, 36, 20635⟩ := by decide
/-- 12, worked example: 2100 is no leap year. -/
theorem test_no_leap_2100 : monthDays 2100 2 = 28 ∧ monthDays 2000 2 = 29 := by decide
/-- 13, worked example: the largest PSDU of band 1, mode 1 with S = 20,000 µs is 158 bytes. -/
theorem test_psdu : (({ State.reset with arm := { ArmState.reset with accepted := some ⟨{ dev0 with band := 1 }, [], []⟩ } } : State).put
    MSH_TS_slot 20000 |>.put MSH_PHY_mode 1).maxPsdu = 158 := by decide
/-- 17, worked example: the header of REG_READ with tag 0x0312 and length 2. -/
theorem test_header : (⟨0x0800C482, [], 0⟩ : Req).type = 2 ∧ (⟨0x0800C482, [], 0⟩ : Req).tag = 0x312 ∧ (⟨0x0800C482, [], 0⟩ : Req).len = 2 := by
  decide
set_option maxRecDepth 20000 in
/-- 25, worked example: HIF_RING_DB of ring 3 of N9 and CEL_QDEPTH of QID 0x11F of N1 in their windows. -/
theorem test_windows : (State.reset.windowAt 9 0x300DC).map (fun p => p.1) = some 0x2CA0DC ∧
    (State.reset.windowAt 1 0x647C).map (fun p => p.1) = some 0xCA47C ∧ (State.reset.windowAt 1 0x1060).map (fun p => p.1) = some 0xC2060 := by
  decide
/-- 10, worked example: MASKA 0x0000_0FFB over the key of relay 21. -/
theorem test_mask : maskKey 0xFFB ([0x08, 0, 1, 0, 1, 0x0C, 0xCD, 1, 0, 0x21, 1, 1, 9] ++ zeros 19) =
    [0x08, 0, 0, 0, 1, 0x0C, 0xCD, 1, 0, 0x21, 1, 1, 0] ++ zeros 19 := by decide
/-- 22, worked example: the second ALERT is nested under the first, 0x41, which is still open. -/
theorem test_nested_link : (((⟨[], 0x41, []⟩ : FaultLog).add 32 ⟨0x0F03, 9, 0, false, false, 0, 0, 0, 0, 1, 0⟩).add 32
    ⟨0x0F03, 9, 0, false, true, 0, 0, 0, 0, 1, 0⟩).recs.head? =
    some ⟨0x0F03, 9, 1, true, true, 0x42, 0x41, 0, 0, 1, 0⟩ := by decide
/-- R76: the first bits of the sequence, all of whose predecessors are 1, are 0. -/
theorem test_scrambler_start : (scramble (zeros 4)).take 4 = [0, 0, 0, 0] := by decide
set_option maxRecDepth 20000 in
/-- R78: a field of zeros carries zeros, and one inverted bit is corrected. -/
theorem test_hec : hecEncode 0 = 0 ∧ hecDecode 2 = some (0, true) ∧ hecDecode 1 = some (0, true) := by decide
/-- R545: the comparison is taken modulo 2³² within 2³¹. -/
theorem test_ack_wraps : (⟨[], 3, [0xFFFFFFFE, 0, 2]⟩ : FaultLog).ack 1 = ⟨[], 3, [2]⟩ := by decide
/-- R13, R579: key slot 0 has no offset in a niche window. -/
theorem test_key_slot_offset : State.reset.windowAt 0 0x29000 = none := by decide

/-! ### Steps -/

/-- The front of the queue runs first, and the rest waits. -/
theorem test_queue_order :
    (step { State.reset with pending := [.tickHwmClr, .tickForceHoldWrite 1] } = .next
      { State.reset with pending := [.tickForceHoldWrite 1], tick := { TickState.reset with hwmClr := true } }) := rfl
/-- No word spells a command. -/
theorem test_no_words : decodeTableWord 32 0 = none ∧ State.reset.withFetchWord 32 0 = State.reset := ⟨rfl, rfl⟩

/-! ### Hypotheses that are met: statements on every step and on shared operations -/

set_option maxRecDepth 20000 in
theorem met_EmptyQueueLetsANanosecondPass : ∃ s : State, s.pending = [] :=
  ⟨State.reset, rfl⟩
set_option maxRecDepth 20000 in
theorem met_EveryStepKeepsTheStores : ∃ s t : State, s.canonical ∧ step s = .next t :=
  ⟨State.reset, State.reset.idle, ⟨rfl, rfl⟩, rfl⟩
set_option maxRecDepth 20000 in
theorem met_EveryStepKeepsTheAnchorsOfTrust : ∃ s t : State, step s = .next t :=
  ⟨State.reset, State.reset.idle, rfl⟩
set_option maxRecDepth 20000 in
theorem met_EveryStepKeepsQueueFusesAndTrace : ∃ s t : State, step s = .next t :=
  ⟨State.reset, State.reset.idle, rfl⟩
set_option maxRecDepth 20000 in
theorem met_OverBudgetPhaseIsLoggedAndFlagged : ∃ (p : Fin 12) (cycles : Nat) (s : State), s.phaseBudget p.val < cycles ∧ cycles ≤ phaseLen p.val :=
  ⟨11, 480, (State.reset.put GLB_SERVICE_arm 1).put (TICK_PHASE_BUDGET_budget 11) 479, by decide⟩
set_option maxRecDepth 20000 in
theorem met_AbsentBlocksReadZeroAndRefuseWrites : ∃ (addr : BitVec 26) (s : State), s.fuse.is7401 = true ∧ absentBlock addr.toNat = true ∧ assigned addr.toNat = true ∧ addr.toNat % 4 = 0 ∧ s.flt.fatal = false ∧ s.flt.phase ≠ .held :=
  ⟨0x200000, { State.reset with fuse := { State.reset.fuse with is7401 := true } }, by decide⟩
set_option maxRecDepth 20000 in
theorem met_AcknowledgedRecordsAreClosed : ∃ s : State, s.flt.nicheLogs.length = 16 :=
  ⟨State.reset, rfl⟩
set_option maxRecDepth 20000 in
theorem met_AcknowledgedRecordsAreClosed_reset : ∃ (n : Fin 16) (s : State), (s.nreset n.val).active = true ∧ (s.nreset n.val).tick < s.tick.edges ∧ s.scrubbed n.val = true :=
  ⟨15, { State.reset with tick := { TickState.reset with edges := 1 }, cel := { CelState.reset with scrub := [] }, nres := List.replicate 16 { NicheReset.none with active := true } }, by decide⟩
set_option maxRecDepth 20000 in
theorem met_TickLengthStaysWithinItsBounds : ∃ (s : State), s.tick.slew.natAbs ≤ 1 ∧ (19439 ≤ s.tick.len ∧ s.tick.len ≤ 38879) :=
  ⟨State.reset, by decide⟩
set_option maxRecDepth 20000 in
theorem met_HoldFrequencyIsClamped : ∃ s : State, ((s.tick.meas.drop 16).take 8192) ≠ [] :=
  ⟨{ State.reset with tick := { TickState.reset with meas := List.replicate 17 0 } }, by decide⟩
set_option maxRecDepth 20000 in
theorem met_GuardWindowDeliversEachNumberOnce : ∃ ks : List Nat, ∀ k ∈ ks, k ≤ 1023 :=
  ⟨[1023, 0, 1023], by decide⟩
set_option maxRecDepth 20000 in
theorem met_HecCorrectsOneError : ∃ v : Nat, v < 2 ^ 51 :=
  ⟨2 ^ 51 - 1, by decide⟩
set_option maxRecDepth 20000 in
theorem met_CrossNicheRequestChangesOnlyItsOwnAccount : ∃ (n : Fin 16) (off : BitVec 18) (s : State) (a : Nat), s.vfOpen n.val = true ∧ off.toNat % 4 = 0 ∧ off.toNat < 0x3E000 ∧ s.windowAt n.val off.toNat = some (a, false) :=
  ⟨0, 0x10A0, oneVf State.reset, 0xC20A0, by decide⟩
set_option maxRecDepth 20000 in
theorem met_CrossNicheRequestChangesOnlyItsOwnAccount_answer : ∃ (d : DeniedReq) (rest : List DeniedReq) (s : State), s.cel.denied = d :: rest ∧ s.since d.arrived 64 = true :=
  ⟨⟨0, 1, 0, 0⟩, [], { State.reset with clk := 64, cel := { State.reset.cel with denied := [⟨0, 1, 0, 0⟩] } }, rfl, rfl⟩
set_option maxRecDepth 20000 in
theorem met_WarmResetReturnsRegisters : ∃ (a : Nat) (s : State), a ≠ FLT_CAUSE_boot.addr ∧ (∀ k, k < 8 → a ≠ (FLT_CAUSE_HIST_boot k).addr) ∧ a ≠ GLB_RAIL_within.addr ∧ s.canonical ∧ (s.flt.fatal = true ∨ s.on USL_SAFE_rogue_latched = true → a ≠ USL_SAFE_cause.addr ∧ a ≠ USL_STATUS_laser.addr) :=
  ⟨0x80014, { State.reset with flt := { FltState.reset with fatal := true } }, by decide, by decide, by decide, ⟨rfl, rfl⟩, by decide⟩
set_option maxRecDepth 20000 in
theorem met_WarmResetKeepsWhatSurvives : ∃ s : State, s.canonical :=
  ⟨State.reset, rfl, rfl⟩
set_option maxRecDepth 20000 in
theorem met_LoopOutputStaysInItsEnvelope : ∃ (l : Fin 7) (s : State), s.loopLo (loopDesc l.val) ≤ s.loopOut (loopDesc l.val) ∧ s.loopOut (loopDesc l.val) ≤ s.loopHi (loopDesc l.val) :=
  ⟨0, (State.reset.put (loopDesc 0).lo 0x80).put (loopDesc 0).hi 0x7F, by decide⟩
set_option maxRecDepth 20000 in
theorem met_ResetOfAnAbsentNicheOnlyLogs : ∃ (n : Fin 16) (s : State), s.exists_ n.val = false :=
  ⟨15, State.reset, by decide⟩
set_option maxRecDepth 20000 in
theorem met_ResetOfAnAbsentNicheOnlyLogs_mailbox : ∃ (src : Agent) (r : Req) (s : State), s.serves src r ∧ r.type = 11 ∧ bits (r.word 0) 1 0 = 1 ∧ (s.tookReq src r).exists_ r.niche = false :=
  ⟨.mbxPf, reqFor 11 5 [1], asking (reqFor 11 5 [1]) upState, by decide⟩
set_option maxRecDepth 20000 in
theorem met_HeldIndirectEntryRefusesPowerEntry : ∃ (e : PwrEntry) (s : State), s.pwr.entry = some e ∧ e.stage = .consent ∧ e.asked < s.tick.edges ∧ s.awaitsPartner = false ∧ s.msh.ind ≠ [] :=
  ⟨entry0 .consent, { State.reset with tick := { TickState.reset with edges := 1 }, pwr := { PwrState.reset with entry := some (entry0 .consent) }, msh := { MshState.reset with ind := [meshTx0] } }, by decide⟩
set_option maxRecDepth 20000 in
theorem met_LaserIsDisabledWhereItMustBe : ∃ s : State, bit (s.get USL_SAFE_cause) 0 = false :=
  ⟨State.reset, by decide⟩

/-! ### TickEdgeCompletes -/

set_option maxRecDepth 20000 in
theorem met_tickEdge : ∃ (xo : Int) (e : Option Int) (cycles : Nat) (frac : Fin 16) (s : State), s.flt.phase ≠ .held ∧ s.domainOn 4 = true ∧ (s.tickEdge xo e cycles frac.val).flt.phase ≠ .held :=
  ⟨0, none, 0, 0, State.reset, by decide⟩
set_option maxRecDepth 20000 in
theorem met_phaseWindowEnd : ∃ (phase : Fin 12) (s : State), s.tick.phaseEnd.any (fun p => p.1 == phase.val && decide (phaseLimit phase.val < p.2)) = true :=
  ⟨3, { State.reset with tick := { TickState.reset with phaseEnd := [(3, 3401)] } }, by decide⟩
set_option maxRecDepth 20000 in
theorem met_xoLost : ∃ (s : State), s.get TICK_STATUS_state = 1 :=
  ⟨State.reset.put TICK_STATUS_state 1, by decide⟩

/-! ### PhasesComplete -/

set_option maxRecDepth 20000 in
theorem met_phaseMap : ∃ (s : State), s.get TICK_STATUS_state = 1 ∧ s.isWing = false :=
  ⟨State.reset.put TICK_STATUS_state 1, by decide⟩
set_option maxRecDepth 20000 in
theorem met_phaseCaliper : ∃ (s : State), s.domainOn 5 = true :=
  ⟨State.reset, by decide⟩

/-! ### FrameAlignmentCompletes -/

set_option maxRecDepth 20000 in
theorem met_markerWindowCheck : ∃ (window : BitVec 64) (s : State), s.get DSL_STATUS_frame = 1 ∧ s.markerMatch window = true ∧ s.get DSL_ALIGN_CFG_presync_n ≤ s.dsl.run + 1 :=
  ⟨0xB6AB31E0C4A95D27, { State.reset.put DSL_STATUS_frame 1 with dsl := { DslState.reset with run := 3 } }, by decide⟩
set_option maxRecDepth 20000 in
theorem met_markerWindowCheck_2 : ∃ (window : BitVec 64) (s : State), s.get DSL_STATUS_frame = 2 ∧ s.markerMatch window = true :=
  ⟨0xB6AB31E0C4A95D27, State.reset.put DSL_STATUS_frame 2, by decide⟩
set_option maxRecDepth 20000 in
theorem met_huntMarkerMatch : ∃ (window : BitVec 64) (s : State), s.get DSL_STATUS_frame = 0 ∧ s.on DSL_CTRL_rx_en = true ∧ s.get DSL_DEFECT_raw % 4 = 0 ∧ s.markerMatch window = true :=
  ⟨0xB6AB31E0C4A95D27, (State.reset.put DSL_CTRL_rx_en 1).put DSL_DEFECT_raw 4, by decide⟩
set_option maxRecDepth 20000 in
theorem met_counterBlock : ∃ (s : State), s.get DSL_STATUS_frame = 2 :=
  ⟨State.reset.put DSL_STATUS_frame 2, by decide⟩
set_option maxRecDepth 20000 in
theorem met_counterBlock_2 : ∃ (s : State), s.get DSL_STATUS_frame = 1 ∧ s.dsl.run = 0 :=
  ⟨State.reset.put DSL_STATUS_frame 1, by decide⟩
set_option maxRecDepth 20000 in
theorem met_berWindowEnd : ∃ (s : State), s.dsl.sfValid = true ∧ s.dsl.sdValid = true :=
  ⟨{ State.reset with dsl := { DslState.reset with sfValid := true, sdValid := true } }, by decide⟩

/-! ### DownstreamFlowsComplete -/

set_option maxRecDepth 20000 in
theorem met_fragmentRx : ∃ (d : Nat) (v : Nat) (s : State), s.aligned = true ∧ s.isWing = false ∧ s.dsl.ended = false ∧ s.dsl.data ≠ [] ∧ s.dsl.pos.or s.fragStart = some d ∧ d + 8 ≤ 145152 ∧ hecDecode (beAt s.dsl.data d 8) = some (v, false) :=
  ⟨0, 0, { (State.reset.put DSL_STATUS_frame 2).put DSL_STATUS_cnt_sync 1 with dsl := { DslState.reset with data := [0], pos := some 0 } }, by decide⟩
set_option maxRecDepth 20000 in
theorem met_sduTimeout : ∃ (flow : Fin 1024) (x : Flow) (s : State), s.flow flow.val = some x ∧ x.sdu.isSome = true ∧ x.broken = false ∧ 16 ≤ (s.dsl.count + 2 ^ 51 - x.first) % 2 ^ 51 :=
  ⟨1023, ⟨1023, some 0, 0, false, false⟩, { State.reset with dsl := { DslState.reset with count := 16, flows := [⟨1023, some 0, 0, false, false⟩] } }, by decide⟩
set_option maxRecDepth 20000 in
theorem met_keyEpoch : ∃ (msg : List Byte) (s : State), s.inInbox msg 0x04 = true :=
  ⟨keyEpochMsg, { State.reset with act := { ActState.reset with inbox := [keyEpochMsg] } }, by decide⟩
set_option maxRecDepth 20000 in
theorem met_keyEpochSwitch : ∃ (pair : Fin 32) (f : Nat) (p : Nat) (s : State), (s.pair pair.val).pending = some (f, p) ∧ f ≤ s.tick.fc :=
  ⟨31, 8192, 1, { State.reset with tick := { TickState.reset with fc := 8192 }, dsl := { DslState.reset with pairs := List.replicate 32 ⟨some (8192, 1), none, none⟩ } }, by decide⟩
set_option maxRecDepth 20000 in
theorem met_keySlotRetire : ∃ (pair : Fin 32) (f : Nat) (p : Nat) (s : State), (s.pair pair.val).old = some (p, f) ∧ f + 16 ≤ s.tick.fc ∧ s.pairInUse pair.val = false :=
  ⟨31, 8192, 0, { State.reset with tick := { TickState.reset with fc := 8208 }, dsl := { DslState.reset with pairs := List.replicate 32 ⟨none, none, some (0, 8192)⟩ } }, by decide⟩
set_option maxRecDepth 20000 in
theorem met_keyImplicit : ∃ (pair : Fin 32) (p : Nat) (s : State), (s.pair pair.val).implicit = some p :=
  ⟨0, 1, { State.reset with dsl := { DslState.reset with pairs := List.replicate 32 ⟨none, some 1, none⟩ } }, by decide⟩
set_option maxRecDepth 20000 in
theorem met_dslFidWrite : ∃ (n : Fin 1024) (data : Word) (s : State), bits data.toNat 8 7 ≠ 3 ∧ fidTaken (fidAfter (fun i => s.word (0x41000 + 4 * i)) s.dsl.fidWrites) n.val (data &&& 0xFFFFFF80) = false :=
  ⟨1023, 0, State.reset, by decide⟩
set_option maxRecDepth 20000 in
theorem met_multiframeEnd : ∃ (r : LimRec) (s : State), s.flt.limited = [r] ∧ r.log = 16 ∧ r.code = 0x030B :=
  ⟨⟨16, 0x030B, 15, 0, 9, 0⟩, { State.reset with flt := { FltState.reset with limited := [⟨16, 0x030B, 15, 0, 9, 0⟩] } }, by decide⟩

/-! ### LoopsComplete -/

set_option maxRecDepth 20000 in
theorem met_thresholdLoopStep : ∃ (s : State), s.dsl.rose + 8 < s.dsl.fell :=
  ⟨{ State.reset with dsl := { DslState.reset with fell := 9 } }, by decide⟩
set_option maxRecDepth 20000 in
theorem met_loopEnvWrite : ∃ (loop : Fin 7) (data : Word) (s : State), (loop.val = 6 → s.fuse.is7401 = false) ∧ (loopDesc loop.val).value (bits data.toNat (loopDesc loop.val).lo.hi (loopDesc loop.val).lo.lo) ≤ (loopDesc loop.val).value (bits data.toNat (loopDesc loop.val).hi.hi (loopDesc loop.val).hi.lo) :=
  ⟨6, 0, State.reset, by decide⟩
set_option maxRecDepth 20000 in
theorem met_loopManWrite : ∃ (loop : Fin 7) (data : Word) (s : State), (loop.val = 6 → s.fuse.is7401 = false) ∧ s.loopHeld (loopDesc loop.val) = true ∧ s.loopLo (loopDesc loop.val) ≤ (loopDesc loop.val).value (bits data.toNat (loopDesc loop.val).man.hi (loopDesc loop.val).man.lo) ∧ (loopDesc loop.val).value (bits data.toNat (loopDesc loop.val).man.hi (loopDesc loop.val).man.lo) ≤ s.loopHi (loopDesc loop.val) :=
  ⟨0, 0, ((State.reset.put (loopDesc 0).hold 1).put (loopDesc 0).lo 0x80).put (loopDesc 0).hi 0x7F, by decide⟩
set_option maxRecDepth 20000 in
theorem met_loopHoldWrite : ∃ (loop : Fin 7) (s : State), (loop.val = 6 → s.fuse.is7401 = false) :=
  ⟨6, State.reset, by decide⟩
set_option maxRecDepth 20000 in
theorem met_loopEnvWrite_2 : ∃ (s : State), s.fuse.is7401 = true :=
  ⟨{ State.reset with fuse := { State.reset.fuse with is7401 := true } }, by decide⟩

/-! ### BurstsComplete -/

set_option maxRecDepth 20000 in
theorem met_phaseGrant : ∃ (s : State), (s.govern s.tick.fc).get TICK_STATUS_state = 1 :=
  ⟨serving, by decide⟩
set_option maxRecDepth 20000 in
theorem met_pllLockTest : ∃ (b : Burst) (id : Nat) (s : State), s.burst id = some b ∧ b.locked = false ∧ (s.guard b).isNone = true ∧ s.on USL_STATUS_pll_lock = true ∧ s.get USL_STATUS_colour = b.colour :=
  ⟨burst0, 0, (withBurst burst0).put USL_STATUS_pll_lock 1, by decide⟩
set_option maxRecDepth 20000 in
theorem met_burstCut : ∃ (b : Burst) (id : Nat) (s : State), s.burst id = some b ∧ b.locked = true ∧ b.content = none ∧ (s.guard b).isNone = true ∧ s.shifted b = false ∧ s.dying = false :=
  ⟨{ burst0 with locked := true }, 0, withBurst { burst0 with locked := true }, by decide⟩
set_option maxRecDepth 20000 in
theorem met_burstStart : ∃ (b : Burst) (id : Nat) (s : State), s.burst id = some b ∧ b.content.isSome = true ∧ b.running = false ∧ (s.guard b).isNone = true ∧ s.shifted b = false ∧ b.announce = none ∧ b.held = none :=
  ⟨{ burst0 with locked := true, content := some [] }, 0, withBurst { burst0 with locked := true, content := some [] }, by decide⟩
set_option maxRecDepth 20000 in
theorem met_burstEnd : ∃ (b : Burst) (id : Nat) (s : State), s.burst id = some b ∧ b.running = true :=
  ⟨{ burst0 with locked := true, content := some [], running := true }, 0, withBurst { burst0 with locked := true, content := some [], running := true }, by decide⟩
set_option maxRecDepth 20000 in
theorem met_pllRelockDone : ∃ (s : State), s.usl.relock.isSome = true :=
  ⟨{ State.reset with usl := { UslState.reset with relock := some 0 } }, by decide⟩
set_option maxRecDepth 20000 in
theorem met_lolRaw : ∃ (s : State), bit (s.get DSL_DEFECT_raw) 1 = true :=
  ⟨State.reset.put DSL_DEFECT_raw 2, by decide⟩
set_option maxRecDepth 20000 in
theorem met_uslFidWrite : ∃ (n : Fin 1024) (data : Word) (s : State), fidTaken (fidAfter (fun i => s.word (0x61000 + 4 * i)) s.dsl.ufidWrites) n.val data = false ∧ classTaken (fidAfter (fun i => s.word (0x61000 + 4 * i)) s.dsl.ufidWrites) s.namedFlow n.val data = false :=
  ⟨0, 0, State.reset, by decide⟩

/-! ### StandingGrantsComplete -/

set_option maxRecDepth 20000 in
theorem met_standingGrant : ∃ (msg : List Byte) (s : State), s.inInbox msg 3 = true ∧ (s.tookMsg msg).standSame msg = false ∧ (s.tookMsg msg).standRefused msg = false :=
  ⟨lineTo 0 3 [0, 1, 0, 7, 1, 0, 0, 0, 2, 0, 0, 0, 0, 0, 0, 0, 2], ((withMsg (lineTo 0 3 [0, 1, 0, 7, 1, 0, 0, 0, 2, 0, 0, 0, 0, 0, 0, 0, 2])).put (USL_ALLOC_aid 0) 7).put (USL_ALLOC_valid 0) 1, by decide⟩
set_option maxRecDepth 20000 in
theorem met_standingGrantApply : ∃ (index : Fin 8) (c : StandChange) (s : State), s.usl.changes.getD index.val none = some c ∧ c.frame ≤ s.tick.fc :=
  ⟨7, ⟨0, none⟩, { State.reset with usl := { UslState.reset with changes := List.replicate 8 (some ⟨0, none⟩) } }, by decide⟩
set_option maxRecDepth 20000 in
theorem met_standingRemoveOnAlloc : ∃ (index : Fin 8) (s : State), s.usl.removals.contains (index.val, true) = true ∧ s.usl.removals.contains (index.val, false) = false :=
  ⟨7, { State.reset with usl := { UslState.reset with removals := [(7, true)] } }, by decide⟩
set_option maxRecDepth 20000 in
theorem met_standingRemoveOnAlloc_2 : ∃ (index : Fin 8) (s : State), s.usl.removals.contains (index.val, true) = false ∧ s.usl.removals.contains (index.val, false) = true :=
  ⟨7, { State.reset with usl := { UslState.reset with removals := [(7, false)] } }, by decide⟩
/-! ### RogueGuardAndLaserLoopsComplete -/

set_option maxRecDepth 20000 in
theorem met_rogueDetect : ∃ (s : State), bit (s.get USL_SAFE_cause) 0 = false :=
  ⟨State.reset, by decide⟩
set_option maxRecDepth 20000 in
theorem met_laserLoopStep : ∃ (s : State), s.on GLB_SERVICE_cart = false :=
  ⟨State.reset, by decide⟩
set_option maxRecDepth 20000 in
theorem met_laserLoopStep_2 : ∃ (loop : Fin 4), loop.val % 2 = 1 :=
  ⟨3, by decide⟩
set_option maxRecDepth 20000 in
theorem met_apcCalibration : ∃ (colour : Fin 2) (s : State), s.noGrant = true ∧ s.usl.apcEpoch.getD colour.val none ≠ some (s.tick.fc / 8192) :=
  ⟨1, State.reset, by decide⟩
set_option maxRecDepth 20000 in
theorem met_apcStarved : ∃ (colour : Fin 2) (s : State), s.since (s.usl.apcSince.getD colour.val 0) (60 * sec) = true ∧ s.usl.apcLogged.getD colour.val true = false :=
  ⟨0, { State.reset with clk := 60000000000 }, by decide⟩

/-! ### ActivationComplete -/

set_option maxRecDepth 20000 in
theorem met_phaseAct : ∃ (s : State), s.isWing = false :=
  ⟨State.reset, by decide⟩
set_option maxRecDepth 20000 in
theorem met_assignTn : ∃ (msg : List Byte) (s : State), s.inInbox msg 1 = true ∧ byteAt msg 0 = 0xFE ∧ beAt msg 4 8 = s.fuse.serial.toNat ∧ byteAt msg 12 ≤ 127 ∧ s.get ACT_STATUS_state = 2 ∧ s.judgedState = 2 ∧ s.on ACT_STATUS_tn_valid = false :=
  ⟨lineTo 0xFE 1 [0, 0, 0, 0, 0, 0, 0, 0, 127], (withMsg (lineTo 0xFE 1 [0, 0, 0, 0, 0, 0, 0, 0, 127])).put ACT_STATUS_state 2, by decide⟩
set_option maxRecDepth 20000 in
theorem met_rangeSet : ∃ (msg : List Byte) (s : State), s.inInbox msg 2 = true ∧ byteAt msg 0 ≤ 0x7F ∧ rangeRefused (s.tookMsg msg) msg = false ∧ s.judgedState = 2 ∧ bit (byteAt msg 5) 1 = false :=
  ⟨lineTo 0x7F 2 [0, 1, 0, 0, 0, 0, 0, 0, 0, 9, 4, 16], (((withMsg (lineTo 0x7F 2 [0, 1, 0, 0, 0, 0, 0, 0, 0, 9, 4, 16])).put ACT_STATUS_state 2).put ACT_STATUS_tn_valid 1), by decide⟩
set_option maxRecDepth 20000 in
theorem met_rangeSet_2 : ∃ (msg : List Byte) (s : State), s.inInbox msg 2 = true ∧ byteAt msg 0 ≤ 0x7F ∧ rangeRefused (s.tookMsg msg) msg = false ∧ s.judgedState = 2 ∧ s.get ACT_STATUS_state = 2 ∧ bit (byteAt msg 5) 1 = true :=
  ⟨lineTo 0x7F 2 [0, 2, 0, 0, 0, 0, 0, 0, 0, 9, 4, 16], (((withMsg (lineTo 0x7F 2 [0, 2, 0, 0, 0, 0, 0, 0, 0, 9, 4, 16])).put ACT_STATUS_state 2).put ACT_STATUS_tn_valid 1), by decide⟩
set_option maxRecDepth 20000 in
theorem met_silenceRelease : ∃ (msg : List Byte) (s : State), s.silenceDue msg 0 = true ∧ s.get ACT_STATUS_state = 5 ∧ s.judgedState = 5 :=
  ⟨lineTo 0 7 [], (withMsg (lineTo 0 7 [])).put ACT_STATUS_state 5, by decide⟩
set_option maxRecDepth 20000 in
theorem met_silenceSilence : ∃ (msg : List Byte) (s : State), s.silenceDue msg 1 = true ∧ s.get ACT_STATUS_state = 4 ∧ s.judgedState = 4 ∧ beAt msg 6 2 ≠ 0 :=
  ⟨lineTo 0 7 [1, 0, 0, 1], (withMsg (lineTo 0 7 [1, 0, 0, 1])).put ACT_STATUS_state 4, by decide⟩
set_option maxRecDepth 20000 in
theorem met_silenceQuarantine : ∃ (msg : List Byte) (s : State), s.silenceDue msg 2 = true ∧ s.get ACT_STATUS_state = 4 ∧ s.judgedState = 4 :=
  ⟨lineTo 0 7 [2], (withMsg (lineTo 0 7 [2])).put ACT_STATUS_state 4, by decide⟩
set_option maxRecDepth 20000 in
theorem met_silenceDeregister : ∃ (msg : List Byte) (s : State), s.silenceDue msg 3 = true ∧ s.get ACT_STATUS_state = 4 ∧ s.judgedState = 4 :=
  ⟨lineTo 0 7 [3], (withMsg (lineTo 0 7 [3])).put ACT_STATUS_state 4, by decide⟩
set_option maxRecDepth 20000 in
theorem met_silenceReleaseWrite : ∃ (data : Word), bit data.toNat 0 = false :=
  ⟨0, by decide⟩

/-! ### ActivationTimersComplete -/

set_option maxRecDepth 20000 in
theorem met_ackDownstream : ∃ (msg : List Byte) (h : HeldMsg) (s : State), s.inInbox msg 0x0B = true ∧ (s.tookMsg msg).heldMsg (byteAt msg 4) (byteAt msg 5) = some h ∧ h.msg.type ≠ 0x83 :=
  ⟨lineTo 0 0x0B [0x85, 3], ⟨⟨0x85, 3, []⟩, 1, 0, false⟩, { State.reset with act := { ActState.reset with inbox := [lineTo 0 0x0B [0x85, 3]], held := [⟨⟨0x85, 3, []⟩, 1, 0, false⟩] } }, by decide⟩
set_option maxRecDepth 20000 in
theorem met_t1Expiry : ∃ (s : State), s.due s.act.t1 = true :=
  ⟨{ State.reset with act := { ActState.reset with t1 := some 0 } }, by decide⟩
set_option maxRecDepth 20000 in
theorem met_t2Expiry : ∃ (s : State), s.due s.act.t2 = true :=
  ⟨{ State.reset with act := { ActState.reset with t2 := some 0 } }, by decide⟩
set_option maxRecDepth 20000 in
theorem met_t3Expiry : ∃ (s : State), s.due s.act.t3 = true :=
  ⟨{ State.reset with act := { ActState.reset with t3 := some 0 } }, by decide⟩
set_option maxRecDepth 20000 in
theorem met_t4Expiry : ∃ (s : State), s.due s.act.t4 = true :=
  ⟨{ State.reset with act := { ActState.reset with t4 := some 0 } }, by decide⟩
set_option maxRecDepth 20000 in
theorem met_upstreamMsgResend : ∃ (type : Byte) (seq : Byte) (h : HeldMsg) (s : State), s.heldMsg type.toNat seq.toNat = some h ∧ 0 < h.sends ∧ h.sends < 8 ∧ h.dormant = false ∧ h.last + 16 ≤ s.tick.fc ∧ s.act.queue.contains h.msg = false ∧ s.get PWR_STATUS_mode ≠ 2 :=
  ⟨0x85, 3, ⟨⟨0x85, 3, []⟩, 7, 0, false⟩, { State.reset with tick := { TickState.reset with fc := 16 }, act := { ActState.reset with held := [⟨⟨0x85, 3, []⟩, 7, 0, false⟩] } }, by decide⟩
set_option maxRecDepth 20000 in
theorem met_keyReportReseries : ∃ (seq : Byte) (h : HeldMsg) (s : State), s.heldMsg 0x83 seq.toNat = some h ∧ h.dormant = true ∧ h.last / 8192 < s.tick.fc / 8192 :=
  ⟨3, ⟨⟨0x83, 3, []⟩, 8, 0, true⟩, { State.reset with tick := { TickState.reset with fc := 8192 }, act := { ActState.reset with held := [⟨⟨0x83, 3, []⟩, 8, 0, true⟩] } }, by decide⟩

/-! ### PendantLinkComplete -/

set_option maxRecDepth 20000 in
theorem met_linkTrainStart : ∃ (s : State), s.get PND_STATUS_link = 0 ∧ s.on PND_CTRL_link_en = true ∧ s.domainOn 37 = true ∧ s.pnd.since ≤ s.clk :=
  ⟨State.reset.put PND_CTRL_link_en 1, by decide⟩
set_option maxRecDepth 20000 in
theorem met_linkTrainTimeout : ∃ (s : State), s.get PND_STATUS_link = 1 ∧ s.since s.pnd.since (100 * ms) = true :=
  ⟨{ State.reset.put PND_STATUS_link 1 with clk := 100000000 }, by decide⟩
set_option maxRecDepth 20000 in
theorem met_linkDown : ∃ (lost : Bool) (s : State), s.get PND_STATUS_link ≠ 0 ∧ ((s.linkUp = true ∧ (lost = true ∨ 4 ≤ s.pnd.missing)) ∨ s.on PND_CTRL_link_en = false ∨ s.domainOn 37 = false) :=
  ⟨true, linked, by decide⟩
set_option maxRecDepth 20000 in
theorem met_linkMarkerBlock : ∃ (line : List Byte) (s : State), s.get PND_STATUS_link ≠ 0 ∧ bits (beAt (linkOctets line) 0 8) 63 48 = 0x4BA5 :=
  ⟨lane [0x4B, 0xA5, 0, 0, 0, 0, 0, 0], linked, by decide⟩
set_option maxRecDepth 20000 in
theorem met_pendantBindSpan : ∃ (msg : List Byte) (s : State), s.inInbox msg 0x09 = true ∧ byteAt msg 4 = 1 ∧ (s.tookMsg msg).bindingNow ≠ some (bindBody msg) ∧ (s.tookMsg msg).bindCode msg = none :=
  ⟨bindMsg 1, bindable 1, by decide⟩
set_option maxRecDepth 20000 in
theorem met_pendantBindGuard : ∃ (msg : List Byte) (s : State), s.inInbox msg 0x09 = true ∧ byteAt msg 4 = 2 ∧ (s.tookMsg msg).bindingNow ≠ some (bindBody msg) ∧ (s.tookMsg msg).bindCode msg = none :=
  ⟨bindMsg 2, bindable 2, by decide⟩
set_option maxRecDepth 20000 in
theorem met_pendantUnbind : ∃ (msg : List Byte) (s : State), s.inInbox msg 0x09 = true ∧ byteAt msg 4 = 0 ∧ (s.tookMsg msg).bindingNow.isSome = true ∧ (s.tookMsg msg).bindCode msg = none :=
  ⟨bindMsg 0, ((bindable 0).put PND_STATUS_bound 1).put PND_STATUS_form 1 |>.put PND_PAIR_ID_pair_id 9, by decide⟩
set_option maxRecDepth 20000 in
theorem met_pendantBindApply : ∃ (f : Nat) (b : BindBody) (s : State), s.pnd.pend = [(f, b)] ∧ f ≤ s.tick.fc ∧ b.op = 1 ∧ s.on PND_STATUS_bound = false :=
  ⟨0, ⟨1, 0, 7, 9⟩, { State.reset with pnd := { PndState.reset with pend := [(0, ⟨1, 0, 7, 9⟩)] } }, by decide⟩
set_option maxRecDepth 20000 in
theorem met_pndGflowWrite : ∃ (n : Fin 256) (data : Word) (s : State), s.gflowBad n.val (data &&& 0xE7FF03FF#32).toNat = false :=
  ⟨255, 0, State.reset, by decide⟩

/-! ### PendantRecordsComplete -/

set_option maxRecDepth 20000 in
theorem met_stateRecord : ∃ (record : List Byte) (a : Nat) (b : List Byte) (s : State), (s.readRecord record 1).1 = some (a, b) :=
  ⟨rec0 1 0, 0, [], linked, by decide⟩
set_option maxRecDepth 20000 in
theorem met_consentReq : ∃ (record : List Byte) (a : Nat) (b : List Byte) (s : State), (s.readRecord record 2).1 = some (a, b) :=
  ⟨rec0 2 7, 7, [], linked, by decide⟩
set_option maxRecDepth 20000 in
theorem met_consentReply : ∃ (record : List Byte) (a : Nat) (b : List Byte) (q : ConsentReq) (s : State), (s.readRecord record 3).1 = some (a, b) ∧ s.pnd.req = some q ∧ q.number = a ∧ q.answer = none ∧ byteAt b 0 = 0 :=
  ⟨rec0 3 7, 7, [], ⟨7, 0, 0, none⟩, { linked with pnd := { PndState.reset with req := some ⟨7, 0, 0, none⟩ } }, by decide⟩
set_option maxRecDepth 20000 in
theorem met_consentTimeout : ∃ (q : ConsentReq) (s : State), s.pnd.req = some q ∧ q.answer = none ∧ q.tick + 8 ≤ s.tick.edges :=
  ⟨⟨7, 0, 0, none⟩, { linked with tick := { TickState.reset with edges := 8 }, pnd := { PndState.reset with req := some ⟨7, 0, 0, none⟩ } }, by decide⟩
set_option maxRecDepth 20000 in
theorem met_todRecord : ∃ (record : List Byte) (a : Nat) (b : List Byte) (s : State), (s.readRecord record 5).1 = some (a, b) ∧ s.isWing = true ∧ s.pairedAs 1 = true :=
  ⟨rec0 5 0, 0, [], paired 1 1, by decide⟩
set_option maxRecDepth 20000 in
theorem met_dupUpRecord : ∃ (record : List Byte) (a : Nat) (b : List Byte) (s : State), (s.readRecord record 0x10).1 = some (a, b) ∧ s.on GLB_SERVICE_up_ok = true ∧ s.pairedAs 2 = true ∧ s.on (PND_GFLOW_valid (a % 256)) = true ∧ s.on (PND_GFLOW_dir (a % 256)) = true :=
  ⟨rec0 0x10 255, 255, [], (((paired 2 0).put GLB_SERVICE_up_ok 1).put (PND_GFLOW_valid 255) 1).put (PND_GFLOW_dir 255) 1, by decide⟩
set_option maxRecDepth 20000 in
theorem met_dupDownRecord : ∃ (record : List Byte) (a : Nat) (b : List Byte) (s : State), (s.readRecord record 0x11).1 = some (a, b) ∧ s.pairedAs 2 = true ∧ s.on (PND_GFLOW_valid (a % 256)) = true ∧ s.on (PND_GFLOW_dir (a % 256)) = false ∧ s.on (PND_GFLOW_egress (a % 256)) = true ∧ s.on (DSL_FID_valid (s.get (PND_GFLOW_flow (a % 256)))) = true ∧ tagGood (a % 256) b = true :=
  ⟨recOf 0x11 0 [0, 0, 0, 0], 0, [0, 0, 0, 0], (((paired 2 0).put (PND_GFLOW_valid 0) 1).put (PND_GFLOW_egress 0) 1).put (DSL_FID_valid 0) 1, by decide⟩
set_option maxRecDepth 20000 in
theorem met_spanUpRecord : ∃ (record : List Byte) (a : Nat) (q : Nat) (b : List Byte) (s : State), (s.readRecord record 0x12).1 = some (a, b) ∧ s.pairedAs 1 = true ∧ s.on PND_STATUS_role = false ∧ s.on (USL_ALLOC_valid (bits a 13 8)) = true ∧ s.allocBase (bits a 13 8) = some q :=
  ⟨rec0 0x12 0x105, 0x105, 64, [], ((carvedState (paired 1 0)).put (USL_ALLOC_valid 1) 1), by decide⟩
set_option maxRecDepth 20000 in
theorem met_spanDownRecord : ∃ (record : List Byte) (a : Nat) (b : List Byte) (s : State), (s.readRecord record 0x13).1 = some (a, b) ∧ s.isWing = true ∧ s.pairedAs 1 = true ∧ s.on (DSL_FID_valid (a % 1024)) = true :=
  ⟨rec0 0x13 1023, 1023, [], (paired 1 1).put (DSL_FID_valid 1023) 1, by decide⟩
set_option maxRecDepth 20000 in
theorem met_memberRecord : ∃ (record : List Byte) (a : Nat) (b : List Byte) (s : State), (s.readRecord record 0x14).1 = some (a, b) ∧ s.pairedAs 2 = true ∧ bit a 15 = true :=
  ⟨rec0 0x14 0x802F, 0x802F, [], paired 2 0, by decide⟩
set_option maxRecDepth 20000 in
theorem met_castRecord : ∃ (record : List Byte) (a : Nat) (b : List Byte) (s : State), (s.readRecord record 4).1 = some (a, b) ∧ byteAt b 0 = 2 :=
  ⟨recOf 4 0 [2], 0, [2], linked, by decide⟩

/-! ### PacketMemoryComplete -/

set_option maxRecDepth 20000 in
theorem met_cellWaitGrant : ∃ (id : Nat) (w : CellWait) (s : State), s.waitOf id = some w ∧ s.since w.since (4 * us + 1) = false :=
  ⟨0, ⟨0, 1, 0⟩, { State.reset with cel := { CelState.reset with waits := [⟨0, 1, 0⟩] } }, by decide⟩
set_option maxRecDepth 20000 in
theorem met_cellWaitTimeout : ∃ (id : Nat) (w : CellWait) (s : State), s.waitOf id = some w ∧ s.since w.since (4 * us) = true :=
  ⟨0, ⟨0, 1, 0⟩, { State.reset with clk := 4000, cel := { CelState.reset with waits := [⟨0, 1, 0⟩] } }, by decide⟩
set_option maxRecDepth 20000 in
theorem met_descEccError : ∃ (cell : Fin 393216) (s : State), s.cel.lost.contains cell.val = false :=
  ⟨393215, State.reset, by decide⟩
set_option maxRecDepth 20000 in
theorem met_quadrantPark : ∃ (q : Fin 4) (s : State), (s.quad q.val).draining = true ∧ (s.quad q.val).parked = false ∧ (List.range' (98304 * q.val) 98304).all s.isFree = true :=
  ⟨3, { State.reset with cel := { CelState.reset with scrub := [], quads := List.replicate 4 ⟨true, false⟩ } }, by decide, by decide, List.all_eq_true.mpr (fun _ _ => rfl)⟩
set_option maxRecDepth 20000 in
theorem met_nicheQueueFlush : ∃ (n : Fin 16) (s : State), (s.nreset n.val).active = true :=
  ⟨15, { State.reset with nres := List.replicate 16 { NicheReset.none with active := true } }, by decide⟩
set_option maxRecDepth 20000 in
theorem met_nicheResetTxAbort : ∃ (n : Fin 16) (s : State), (s.nreset n.val).active = true ∧ s.since (s.nreset n.val).at_ (2 * ms) = true :=
  ⟨0, { State.reset with clk := 2000000, nres := List.replicate 16 { NicheReset.none with active := true } }, by decide⟩
set_option maxRecDepth 20000 in
theorem met_calAckWrite : ∃ (data : Word), bit data.toNat 0 = true :=
  ⟨1, by decide⟩
set_option maxRecDepth 20000 in
theorem met_celCountLoRead : ∃ (who : Agent) (a : Fin 64) (s : State), (∀ n, agentNiche who = some n → s.allocOwner a.val = some n) :=
  ⟨.vf 0, 1, carvedState State.reset, by intro n h; simp [agentNiche] at h; subst h; decide⟩

/-! ### EthernetComplete -/

set_option maxRecDepth 20000 in
theorem met_ethFrameRx : ∃ (port : Fin 6) (s : State), s.on (ETH_STATUS_link port.val) = true ∧ s.flt.fatal = false ∧ s.mode ≠ 3 :=
  ⟨0, ethUp, by decide⟩
set_option maxRecDepth 20000 in
theorem met_pauseExpiry : ∃ (port : Fin 6) (t : Nat) (s : State), (s.ethPort port.val).pause = some t ∧ t ≤ s.clk :=
  ⟨0, 0, { ethUp with eth := { EthState.reset with ports := [{ EthPort.reset with pause := some 0 }] } }, by decide⟩
set_option maxRecDepth 20000 in
theorem met_ethTxStart : ∃ (port : Fin 6) (clear : Option Nat) (s : State), (s.ethGroup port.val).isSome = true ∧ s.ethClocked port.val = true ∧ s.flt.fatal = false ∧ s.mode ≠ 3 ∧ s.mayStart port.val = true ∧ s.mediumFree port.val clear = true ∧ (s.ethPort port.val).ptp = [] :=
  ⟨0, none, ethUp, by decide⟩
set_option maxRecDepth 20000 in
theorem met_ethTxStart_2 : ∃ (port : Fin 6) (clear : Option Nat) (s : State), s.ethClocked port.val = true ∧ s.flt.fatal = false ∧ s.mode ≠ 3 ∧ s.mayStart port.val = true ∧ s.mediumFree port.val clear = true ∧ (s.ethPort port.val).ptp ≠ [] :=
  ⟨0, none, { ethUp with eth := { EthState.reset with ports := [{ EthPort.reset with ptp := [[0]] }] } }, by decide⟩
set_option maxRecDepth 20000 in
theorem met_ethTxComplete : ∃ (port : Fin 6) (id : Nat) (x : EthTx) (s : State), (s.ethPort port.val).tx = some x ∧ x.sdu = some id ∧ s.txOver port.val x = true :=
  ⟨0, 0, ⟨some 0, zeros 64, 0, 0, 0, false⟩, sending ⟨some 0, zeros 64, 0, 0, 0, false⟩ { ethUp with clk := 1000 }, by decide⟩
set_option maxRecDepth 20000 in
theorem met_ethTxComplete_2 : ∃ (port : Fin 6) (x : EthTx) (s : State), (s.ethPort port.val).tx = some x ∧ x.sdu = none ∧ s.txOver port.val x = true :=
  ⟨0, ⟨none, zeros 64, 0, 0, 0, false⟩, sending ⟨none, zeros 64, 0, 0, 0, false⟩ { ethUp with clk := 1000 }, by decide⟩
set_option maxRecDepth 20000 in
theorem met_ethCollision : ∃ (port : Fin 6) (after : Nat) (x : EthTx) (s : State), (s.ethPort port.val).tx = some x ∧ s.on (ETH_STATUS_duplex port.val) = false ∧ after ≤ 512 ∧ x.collisions + 1 < 16 :=
  ⟨0, 512, ⟨some 0, zeros 64, 0, 0, 14, false⟩, sending ⟨some 0, zeros 64, 0, 0, 14, false⟩ (ethUp.put (ETH_STATUS_duplex 0) 0), by decide⟩
set_option maxRecDepth 20000 in
theorem met_ethBackoffExpiry : ∃ (port : Fin 6) (clear : Option Nat) (x : EthTx) (s : State), (s.ethPort port.val).again = some x ∧ x.at_ ≤ s.clk ∧ s.mediumFree port.val clear = true :=
  ⟨0, none, ⟨some 0, zeros 64, 0, 0, 1, false⟩, { ethUp with eth := { EthState.reset with ports := [{ EthPort.reset with again := some ⟨some 0, zeros 64, 0, 0, 1, false⟩ }] } }, by decide⟩
set_option maxRecDepth 20000 in
theorem met_ethCbsWrite : ∃ (port : Fin 6) (reg : Fin 9) (data : Word) (s : State), s.ethMux port.val ≠ 0 ∧ reg.val ≠ 8 ∧ bits data.toNat 23 0 ≤ 10000000 ∧ (s.ethPend port.val (0x100000 + 0x4000 * port.val + (0x20 + 4 * reg.val)) (BitVec.ofNat 32 (bits data.toNat 23 0))).idleSum port.val ≤ s.portRate port.val :=
  ⟨0, 7, 0, ethUp, by decide⟩
set_option maxRecDepth 20000 in
theorem met_ethWakeEnable : ∃ (port : Fin 6) (data : Word) (s : State), s.ethMux port.val ≠ 0 ∧ (onesOf 8 (bits data.toNat 7 0)).any ((s.put (ETH_WAKE_CTRL_pat_en port.val) (bits data.toNat 7 0)).wakeBad port.val) = false :=
  ⟨0, 0x100, ethUp, by decide⟩
set_option maxRecDepth 20000 in
theorem met_ethBytesLoRead : ∃ (who : Agent) (port : Fin 6) (s : State), (∀ n, agentNiche who = some n → s.ethOwner port.val = some n) :=
  ⟨.vf 0, 0, ethUp, by intro n h; simp [agentNiche] at h; subst h; decide⟩

/-! ### RegisterAccessComplete -/

set_option maxRecDepth 20000 in
theorem met_registerWrite : ∃ (addr : BitVec 26) (s : State), addr.toNat % 4 = 0 ∧ addr.toNat < 0x1000000 ∧ s.flt.fatal = false ∧ s.flt.phase ≠ .held ∧ assigned addr.toNat = true ∧ absentBlock addr.toNat = false ∧ s.blockOff addr.toNat = false :=
  ⟨8, State.reset, by decide⟩
set_option maxRecDepth 20000 in
theorem met_registerWrite_vf : ∃ (addr : BitVec 26), addr.toNat < 0x40000 ∧ addr.toNat % 4 = 0 :=
  ⟨0x3FFFC, by decide⟩
set_option maxRecDepth 20000 in
theorem met_registerWrite_sup : ∃ (addr : BitVec 26) (s : State), addr.toNat % 4 = 0 ∧ addr.toNat ≠ SUP_PERMIT_class.addr ∧ s.mbxReady = true ∧ s.marked SUP_PERMIT_class 1 = true :=
  ⟨8, upState, by decide⟩
set_option maxRecDepth 20000 in
theorem met_narrowAccess : ∃ (s : State), s.flt.fatal = false :=
  ⟨State.reset, by decide⟩
set_option maxRecDepth 20000 in
theorem met_narrowAccess_vf : ∃ (n : Fin 16) (s : State), s.vfOpen n.val = true :=
  ⟨0, oneVf State.reset, by decide⟩
set_option maxRecDepth 20000 in
theorem met_absentBlockWrite : ∃ (addr : BitVec 26) (s : State), s.fuse.is7401 = true ∧ absentBlock addr.toNat = true ∧ assigned addr.toNat = true ∧ s.flt.fatal = false :=
  ⟨0x240000, { State.reset with fuse := { State.reset.fuse with is7401 := true } }, by decide⟩
set_option maxRecDepth 20000 in
theorem met_vfUnmappedAccess : ∃ (n : Fin 16) (off : BitVec 18) (s : State), s.vfOpen n.val = true ∧ within 0x3E000 0x3E440 off.toNat = false ∧ within 0x3F000 0x3F00C off.toNat = false ∧ s.windowAt n.val off.toNat = none :=
  ⟨0, 0x3FFFC, oneVf State.reset, by decide⟩
set_option maxRecDepth 20000 in
theorem met_pfUnmappedAccess : ∃ (addr : BitVec 26) (s : State), addr.toNat < 0x1000000 ∧ assigned addr.toNat = false ∧ s.flt.fatal = false :=
  ⟨0xFFFFFC, State.reset, by decide⟩
set_option maxRecDepth 20000 in
theorem met_crossNicheAccess : ∃ (n : Fin 16) (off : BitVec 18) (a : Nat) (s : State), s.vfOpen n.val = true ∧ s.windowAt n.val off.toNat = some (a, false) :=
  ⟨0, 0x10A0, 0xC20A0, oneVf State.reset, by decide⟩
set_option maxRecDepth 20000 in
theorem met_deniedCompletion : ∃ (d : DeniedReq) (rest : List DeniedReq) (s : State), s.cel.denied = d :: rest ∧ s.since d.arrived 64 = true :=
  ⟨⟨0, 1, 0, 0⟩, [], { State.reset with clk := 64, cel := { CelState.reset with denied := [⟨0, 1, 0, 0⟩] } }, by decide⟩
set_option maxRecDepth 20000 in
theorem met_glbTempRead : ∃ (s : State), s.flt.fatal = false :=
  ⟨State.reset, by decide⟩

/-! ### ArmatureComplete -/

set_option maxRecDepth 20000 in
theorem met_armCheck : ∃ (s : State), s.armBusy .check = false :=
  ⟨State.reset, by decide⟩
set_option maxRecDepth 20000 in
theorem met_armAccept : ∃ (s : State), s.armBusy .accept = false ∧ s.on GLB_SERVICE_arm = false :=
  ⟨State.reset, by decide⟩
set_option maxRecDepth 20000 in
theorem met_armRecarve : ∃ (s : State), s.armBusy .recarve = false :=
  ⟨State.reset, by decide⟩
set_option maxRecDepth 20000 in
theorem met_armChecksDone : ∃ (j : ArmJob) (s : State), s.arm.job = some j ∧ j.compare = false :=
  ⟨⟨.check, false⟩, { State.reset with arm := { ArmState.reset with job := some ⟨.check, false⟩ } }, by decide⟩
set_option maxRecDepth 20000 in
theorem met_armDigestCompareDone : ∃ (j : ArmJob) (s : State), s.arm.job = some j ∧ j.compare = true ∧ s.badSource = true :=
  ⟨⟨.accept, true⟩, { State.reset with arm := { ArmState.reset with job := some ⟨.accept, true⟩, badWords := [0] } }, by decide⟩
set_option maxRecDepth 20000 in
theorem met_armDigestCompareDone_2 : ∃ (j : ArmJob) (s : State), s.arm.job = some j ∧ j.compare = true ∧ beAt (s.staged 32) 12 4 ≤ 262144 ∧ sha384 (s.armIdle.staged (beAt (s.staged 32) 12 4)) = s.armIdle.armDigest ∧ s.armIdle.badSource = false :=
  ⟨⟨.check, true⟩, { digestState with arm := { ArmState.reset with job := some ⟨.check, true⟩ } }, by decide⟩
set_option maxRecDepth 20000 in
theorem met_armatureAcceptance : ∃ (a : ReadyImage) (s : State), s.arm.ready = some a :=
  ⟨⟨struct0, 1, 2, [], []⟩, { State.reset with arm := { ArmState.reset with ready := some ⟨struct0, 1, 2, [], []⟩ } }, by decide⟩
set_option maxRecDepth 20000 in
theorem met_recarveApply : ∃ (c : ReadyCarve) (s : State), s.arm.carve = some c ∧ c.requested = true ∧ s.closed c.niche = true ∧ s.scrubbed c.niche = true :=
  ⟨⟨1, struct0, true⟩, { (carvedState State.reset) with cst := { CstState.reset with freezing := true }, arm := { (carvedState State.reset).arm with carve := some ⟨1, struct0, true⟩ } }, by decide⟩
set_option maxRecDepth 20000 in
theorem met_armLoadDataWrite : ∃ (s : State), s.on ARM_STATUS_busy = false ∧ s.on ARM_LOAD_ADDR_end = false :=
  ⟨State.reset.put ARM_LOAD_ADDR_word 0xFFFF, by decide⟩
set_option maxRecDepth 20000 in
theorem met_armLoadAddrWrite : ∃ (s : State), s.on ARM_STATUS_busy = false :=
  ⟨State.reset, by decide⟩

/-! ### ClassifierComplete -/

set_option maxRecDepth 20000 in
theorem met_classifySdu : ∃ (id : Nat) (d : Sdu) (k : List Byte) (s : State), s.sdu id = some d ∧ s.cls.waiting.contains id = true ∧ s.written id = true ∧ s.closed d.owner = false ∧ ((s.endWaiting id).startLookup id d).profileOwned (((s.endWaiting id).startLookup id d).clsOwner d) (((s.endWaiting id).startLookup id d).profileOf d) = true ∧ ((s.endWaiting id).startLookup id d).keyOf d (((s.endWaiting id).startLookup id d).profileOf d) = .ok k :=
  ⟨0, { id := 0, owner := 0, data := [], source := 6 }, 0 :: 6 :: zeros 30, { State.reset with cls := { ClsState.reset with waiting := [0] }, cel := { CelState.reset with sdus := [{ id := 0, owner := 0, data := [], source := 6 }] } }, by decide⟩
set_option maxRecDepth 20000 in
theorem met_clsUpdWrite : ∃ (o : Fin 17) (s : State), s.updOutside o.val = false ∧ s.updBad o.val = false :=
  ⟨16, State.reset.put (CLS_NTAB_hash_a 16) 4, by decide⟩
set_option maxRecDepth 20000 in
theorem met_clsUpdRead : ∃ (o : Fin 17) (s : State), s.updOutside o.val = false :=
  ⟨16, State.reset.put (CLS_NTAB_hash_a 16) 4, by decide⟩
set_option maxRecDepth 20000 in
theorem met_clsUpdHash : ∃ (o : Fin 17) (s : State), s.updOutside o.val = false ∧ s.updTable o.val ≠ 2 :=
  ⟨16, State.reset.put (CLS_NTAB_hash_a 16) 4, by decide⟩
set_option maxRecDepth 20000 in
theorem met_clsUpdInvalidate : ∃ (o : Fin 17) (s : State), s.updOutside o.val = false :=
  ⟨16, State.reset.put (CLS_NTAB_hash_a 16) 4, by decide⟩
set_option maxRecDepth 20000 in
theorem met_clsUpdComplete : ∃ (o : Fin 17) (j : ClsJob) (s : State), s.clsJob o.val = some j ∧ j.op = 1 :=
  ⟨16, ⟨1, 0, 0, zeros 64⟩, { State.reset with cls := { ClsState.reset with jobs := [(16, ⟨1, 0, 0, zeros 64⟩)] } }, by decide⟩
set_option maxRecDepth 20000 in
theorem met_clsNtabWrite : ∃ (o : Fin 17) (data : Word) (s : State), s.on (CLS_UPD_STATUS_busy o.val) = false ∧ bits data.toNat 11 0 + bits data.toNat 23 12 ≤ s.clsBlocks o.val :=
  ⟨16, 0x400800, State.reset, by decide⟩
set_option maxRecDepth 20000 in
theorem met_ntabClearDone : ∃ (o : Fin 17) (s : State), s.clearing o.val = true :=
  ⟨16, { State.reset with cls := { ClsState.reset with jobs := [(16, ⟨5, 0, 0, []⟩)] } }, by decide⟩

/-! ### TdmComplete -/

set_option maxRecDepth 20000 in
theorem met_tdmRxFrame : ∃ (trib : Fin 12) (s : State), s.framed trib.val = true :=
  ⟨0, tribUp, by decide⟩
set_option maxRecDepth 20000 in
theorem met_tdmTxFrame : ∃ (trib : Fin 12) (s : State), s.framed trib.val = true :=
  ⟨0, tribUp, by decide⟩
set_option maxRecDepth 20000 in
theorem met_tdmDefectChange : ∃ (trib : Fin 12) (s : State), s.framed trib.val = true :=
  ⟨0, tribUp, by decide⟩
set_option maxRecDepth 20000 in
theorem met_memberSduAccept : ∃ (id : Nat) (r : ReadySdu) (d : Sdu) (s : State), s.dsl.ready.find? (fun x => x.sdu == id) = some r ∧ s.sdu id = some d ∧ s.membersOn false r.flow ≠ [] :=
  ⟨0, ⟨0, 0⟩, { id := 0, owner := 0, data := [] }, { State.reset.put (TDM_MEM_CFG_valid 47) 1 with dsl := { DslState.reset with ready := [⟨0, 0⟩] }, cel := { CelState.reset with sdus := [{ id := 0, owner := 0, data := [] }] } }, by decide⟩
set_option maxRecDepth 20000 in
theorem met_memberDown : ∃ (m : Fin 48) (l : Nat) (s : State), s.on (TDM_MEM_CFG_valid m.val) = true ∧ s.on (TDM_MEM_STATUS_up m.val) = true ∧ (s.mem m.val).last = some l ∧ l + 2 * (s.mem m.val).k + 8 ≤ s.tick.edges :=
  ⟨0, 0, memberLate, by decide⟩
set_option maxRecDepth 20000 in
theorem met_pmSecondEnd : ∃ (s : State), s.tick.fc % 8000 = 0 ∧ s.tdm.second ≠ some s.tick.edges :=
  ⟨State.reset, by decide⟩
set_option maxRecDepth 20000 in
theorem met_tdmCirWrite : ∃ (c : Fin 12) (data : Word) (s : State), s.cirRefused c.val (data &&& 0x8F1FFFFF#32) = false ∧ s.tdmLimit (0x180800 + 0x10 * c.val) (data &&& 0x8F1FFFFF#32) = false :=
  ⟨11, 0, State.reset, by decide⟩
set_option maxRecDepth 20000 in
theorem met_tdmMemWrite : ∃ (m : Fin 48) (data : Word) (s : State), (fieldOf (data &&& 0xFFEFFFFF#32) (TDM_MEM_CFG_valid 0) == 1 && s.memRefused m.val (data &&& 0xFFEFFFFF#32)) = false ∧ s.tdmLimit (0x181000 + 0x40 * m.val) (data &&& 0xFFEFFFFF#32) = false :=
  ⟨47, 0, State.reset, by decide⟩
set_option maxRecDepth 20000 in
theorem met_tdmConfigApply : ∃ (c : Fin 12) (w : Word) (s : State), s.tdm.writes = [(0x180800 + 0x10 * c.val, w)] :=
  ⟨11, 5, { State.reset with tdm := { TdmState.reset with writes := [(0x1808B0, 5)] } }, by decide⟩

/-! ### TimeComplete -/

set_option maxRecDepth 20000 in
theorem met_twinColourApply : ∃ (r : TwinResult) (s : State), s.act.twin = some r :=
  ⟨⟨1, 2, 3, 4, false⟩, { State.reset with act := { ActState.reset with twin := some ⟨1, 2, 3, 4, false⟩ } }, by decide⟩
set_option maxRecDepth 20000 in
theorem met_viewOffsetCmd : ∃ (who : Agent) (view : Fin 4) (s : State), s.mayWriteView who view.val = true ∧ s.get (TIM_VIEW_OFS_NS_ons view.val) < 1000000000 :=
  ⟨.pf, 3, State.reset, by decide⟩
set_option maxRecDepth 20000 in
theorem met_viewRateCmd : ∃ (who : Agent) (view : Fin 4) (s : State), s.mayWriteView who view.val = true :=
  ⟨.pf, 3, State.reset, by decide⟩
set_option maxRecDepth 20000 in
theorem met_viewStepCmd : ∃ (who : Agent) (view : Fin 4) (s : State), s.mayWriteView who view.val = true :=
  ⟨.pf, 3, State.reset, by decide⟩
set_option maxRecDepth 20000 in
theorem met_timeOfDay : ∃ (msg : List Byte) (s : State), s.inInbox msg 0x05 = true ∧ (s.tookMsg msg).todRefused (todBody msg) = false :=
  ⟨lineTo 0xFF 5 [], withMsg (lineTo 0xFF 5 []), by decide⟩
set_option maxRecDepth 20000 in
theorem met_todApply : ∃ (x : TodBody) (tick : Nat) (s : State), s.tim.todNext = some (x, tick) ∧ tick < s.tick.edges :=
  ⟨todBody (zeros 48), 0, { State.reset with tick := { TickState.reset with edges := 1 }, tim := { TimState.reset with todNext := some (todBody (zeros 48), 0) } }, by decide⟩
set_option maxRecDepth 20000 in
theorem met_leapAdopt : ∃ (x : TodBody) (s : State), s.tim.tod = some x ∧ (x.leap61 = true ∨ x.leap59 = true) ∧ x.leapTai ≤ (s.readView 0 (s.stampAt 0)).1 :=
  ⟨{ todBody (zeros 48) with leap61 := true }, { State.reset with tim := { TimState.reset with tod := some { todBody (zeros 48) with leap61 := true } } }, by decide⟩
set_option maxRecDepth 20000 in
theorem met_servoUpdate : ∃ (servo : Fin 2) (s : State), s.servoInterval servo.val ≤ (s.servo servo.val).ticks :=
  ⟨1, State.setServo State.reset 1 ⟨0, 0, 2048, 0, true, 0⟩, by decide⟩
set_option maxRecDepth 20000 in
theorem met_ptpFrameRx : ∃ (port : Fin 6) (frame : List Byte) (s : State), s.ptpTakes port.val frame = true :=
  ⟨0, zeros 12 ++ [0x88, 0xF7] ++ zeros 60, ptpUp, by decide⟩
set_option maxRecDepth 20000 in
theorem met_ptpMsgSend : ∃ (port : Fin 6) (body : List Byte) (s : State), s.ptpPort port.val = true ∧ s.ptpSends (ptpType body) = true ∧ s.on (ETH_STATUS_link port.val) = true :=
  ⟨0, [0], ptpUp.put (ETH_STATUS_link 0) 1, by decide⟩
set_option maxRecDepth 20000 in
theorem met_timCalGo : ∃ (who : Agent) (target : Fin 4) (w : Int) (s : State), s.calNamed = some (some w) ∧ s.get TIM_CAL_WNS_ns < 1000000000 ∧ (target.val = 0 ∨ s.mayWriteView who target.val = true) :=
  ⟨.pf, 0, 946684800, (State.reset.put TIM_CAL_WDATE_month 1).put TIM_CAL_WDATE_day 1, by decide⟩

/-! ### PortBComplete -/

set_option maxRecDepth 20000 in
theorem met_tsqE0Read : ∃ (who : Agent) (port : Fin 6) (s : State), (∀ n, agentNiche who = some n → s.ethOwner port.val = some n) :=
  ⟨.vf 0, 0, ethUp, by intro n h; simp [agentNiche] at h; subst h; decide⟩
set_option maxRecDepth 20000 in
theorem met_tinEdge : ∃ (tin : Fin 4) (rise : Bool) (held : Nat) (s : State), s.tinOn tin.val = true ∧ (s.on (if rise then TIM_TIN_CFG_rise tin.val else TIM_TIN_CFG_fall tin.val) = true) ∧ s.get (TIM_TIN_CFG_filt tin.val) * 8 ≤ held ∧ (s.tin tin.val).last = none :=
  ⟨0, true, 0, (carvedState State.reset).put (TIM_TIN_CFG_rise 0) 1, by decide⟩
set_option maxRecDepth 20000 in
theorem met_tinE0Read : ∃ (who : Agent) (tin : Fin 4) (s : State), (∀ n, agentNiche who = some n → s.tinOwner tin.val = some n) :=
  ⟨.vf 0, 0, carvedState State.reset, by intro n h; simp [agentNiche] at h; subst h; decide⟩
set_option maxRecDepth 20000 in
theorem met_toutArm : ∃ (who : Agent) (k : Fin 4) (s : State), (∀ n, agentNiche who = some n → s.toutOwner k.val = some n) :=
  ⟨.vf 0, 0, carvedState State.reset, by intro n h; simp [agentNiche] at h; subst h; decide⟩
set_option maxRecDepth 20000 in
theorem met_toutFire : ∃ (k : Fin 4) (x : Sched) (s : State), (s.toutAt k.val).armed = some x ∧ 0 ≤ s.dNow x.view x.s x.ns :=
  ⟨3, sched0, toutWith 3 { State.reset.toutAt 3 with armed := some sched0 } State.reset, by decide⟩
set_option maxRecDepth 20000 in
theorem met_toutPulseEnd : ∃ (k : Fin 4) (g : Nat × Nat × Nat) (s : State), (s.toutAt k.val).fall = some g ∧ 0 ≤ s.dNow g.1 g.2.1 g.2.2 :=
  ⟨3, (0, 0, 0), toutWith 3 { State.reset.toutAt 3 with fall := some (0, 0, 0) } State.reset, by decide⟩

/-! ### MeshComplete -/

set_option maxRecDepth 20000 in
theorem met_meshRun : ∃ (s : State), s.fuse.is7401 = false ∧ s.on MSH_CTRL_run = false ∧ s.asnReuse = false ∧ 10000 ≤ s.get MSH_TS_slot ∧ s.get MSH_TS_slot ≤ 50000 ∧ 64 ≤ s.maxPsdu ∧ (List.range (s.get MSH_HOP_CTRL_len)).all (fun k => decide (s.hopEntry k < s.phy.channels)) = true :=
  ⟨meshReady, by decide⟩
set_option maxRecDepth 20000 in
theorem met_meshSlotStart : ∃ (t0 : Nat) (s : State), s.msh.t0 = some t0 ∧ s.slotAt t0 ≤ s.stampAt 15 :=
  ⟨0, msh (fun m => { m with t0 := some 0 }) State.reset, by decide⟩
set_option maxRecDepth 20000 in
theorem met_meshAckTimeout : ∃ (a : MeshAir) (x : MeshTx) (s : State), s.msh.air = some a ∧ a.indirect = true ∧ s.msh.store = [] ∧ s.msh.ind = [x] ∧ x.sdu = a.sdu ∧ s.get MSH_BACKOFF_retries ≤ x.tries :=
  ⟨⟨0, 0, 0, false, true, 0, 0⟩, { meshTx0 with tries := 7 }, msh (fun m => { m with air := some ⟨0, 0, 0, false, true, 0, 0⟩, ind := [{ meshTx0 with tries := 7 }] }) State.reset, by decide⟩
set_option maxRecDepth 20000 in
theorem met_meshAckTimeout_2 : ∃ (a : MeshAir) (x : MeshTx) (s : State), s.msh.air = some a ∧ a.indirect = false ∧ s.msh.store = [x] ∧ x.sdu = a.sdu ∧ s.get MSH_BACKOFF_retries ≤ x.tries :=
  ⟨⟨0, 0, 0, false, false, 0, 0⟩, { meshTx0 with tries := 7 }, msh (fun m => { m with air := some ⟨0, 0, 0, false, false, 0, 0⟩, store := [{ meshTx0 with tries := 7 }] }) State.reset, by decide⟩
set_option maxRecDepth 20000 in
theorem met_meshFrameRx : ∃ (frame : RadioFrame) (l : MeshListen) (s : State), frame.kind ≠ 0 ∧ s.msh.listen = some l ∧ l.shared = true ∧ frame.late.natAbs * 1000000 ≤ s.get MSH_GUARD_base * 1000000000 :=
  ⟨radio0, ⟨0, true, 0, 0, 0, 0⟩, msh (fun m => { m with listen := some ⟨0, true, 0, 0, 0, 0⟩ }) State.reset, by decide⟩
set_option maxRecDepth 20000 in
theorem met_meshDequeue : ∃ (q : Nat) (d : Sdu) (s : State), s.msh.t0 ≠ none ∧ s.msh.store.length < 256 ∧ s.nextMeshQid = some q ∧ s.headOf q = some d :=
  ⟨80, { id := 0, owner := 0, data := [], queue := some 80 }, { (msh (fun m => { m with t0 := some 0 }) (carvedState State.reset)) with cel := { CelState.reset with sdus := [{ id := 0, owner := 0, data := [], queue := some 80 }] } }, by decide⟩
set_option maxRecDepth 20000 in
theorem met_nodeLost : ∃ (n : Fin 512) (s : State), s.silent n.val = true :=
  ⟨511, { msh (fun m => { m with heard := [(511, 0)] }) (((carvedState State.reset).put (MSH_NODE_CFG_valid 511) 1).put (MSH_NODE_CFG_child 511) 1) with clk := 10000000000000 }, by decide⟩
set_option maxRecDepth 20000 in
theorem met_radioCalibration : ∃ (s : State), s.msh.idle = true ∧ s.msh.calDue ≠ none :=
  ⟨msh (fun m => { m with idle := true, calDue := some 0 }) State.reset, by decide⟩
set_option maxRecDepth 20000 in
theorem met_calStarved : ∃ (at_ : Nat) (s : State), s.msh.calDue = some at_ ∧ s.since at_ (60 * sec) = true ∧ s.msh.starved = false :=
  ⟨0, { msh (fun m => { m with calDue := some 0 }) State.reset with clk := 60000000000 }, by decide⟩
set_option maxRecDepth 20000 in
theorem met_ccaLoopStep : ∃ (energies : List Int), energies.length = 64 :=
  ⟨List.replicate 64 0, by decide⟩
set_option maxRecDepth 20000 in
theorem met_mshNodeWrite : ∃ (n : Fin 512) (data : Word) (s : State), s.fuse.is7401 = false ∧ s.nodeOver n.val data = false :=
  ⟨511, 0x1FFFFFFF, State.reset, by decide⟩
set_option maxRecDepth 20000 in
theorem met_mshNodeWrite_link : ∃ (reg : Fin 4) (s : State), s.fuse.is7401 = false ∧ reg.val = 1 ∨ reg.val = 2 :=
  ⟨2, State.reset, by decide⟩
set_option maxRecDepth 20000 in
theorem met_mshNodeWrite_3 : ∃ (s : State), s.fuse.is7401 = false :=
  ⟨State.reset, by decide⟩
set_option maxRecDepth 20000 in
theorem met_mshNodeWrite_4 : ∃ (s : State), s.fuse.is7401 = true :=
  ⟨{ State.reset with fuse := { State.reset.fuse with is7401 := true } }, by decide⟩

/-! ### PortAComplete -/

set_option maxRecDepth 20000 in
theorem met_ainSettleStart : ∃ (c : Nat) (s : State), s.dieRuns = true ∧ s.fio.cur = none ∧ s.device.isSome = true ∧ s.nextChannel s.fio.last = some c :=
  ⟨7, fioUp.put (FIO_AIN_CFG_en 7) 1, by decide⟩
set_option maxRecDepth 20000 in
theorem met_ainConversionEnd : ∃ (c : Nat) (s : State), s.dieRuns = true ∧ s.fio.cur = some c :=
  ⟨7, { fioUp with fio := { FioState.reset with cur := some 7 } }, by decide⟩
set_option maxRecDepth 20000 in
theorem met_ainValRead : ∃ (who : Agent) (n : Fin 8) (s : State), (∀ m, agentNiche who = some m → s.ainOwner n.val = some m) :=
  ⟨.vf 0, 7, carvedState State.reset, by intro n h; simp [agentNiche] at h; subst h; decide⟩
set_option maxRecDepth 20000 in
theorem met_fioEnergyCfgWrite : ∃ (n : Fin 8) (data : Word) (s : State), s.fuse.is7401 = false ∧ s.on FIO_STATUS_link = true ∧ s.ainBad n.val data = false ∧ s.energyBad n.val data [s.word 0x240200, s.word 0x240204, s.word 0x240208] = false :=
  ⟨7, 0, fioUp, by decide⟩
set_option maxRecDepth 20000 in
theorem met_fioEnergyCfgWrite_exc : ∃ (k : Fin 2) (data : Word) (s : State), s.fuse.is7401 = false ∧ s.on FIO_STATUS_link = true ∧ 1 ≤ wfield (data &&& 0x7F#32) (FIO_EXC_CFG_cur 0) ∧ wfield (data &&& 0x7F#32) (FIO_EXC_CFG_cur 0) ≤ 100 ∧ (List.range 8).find? (fun n => s.energyBad n (s.word (0x240100 + 0x20 * n)) ([s.word 0x240200, s.word 0x240204, s.word 0x240208].set k.val (data &&& 0x7F#32))) = none :=
  ⟨1, 100, fioUp, by decide⟩
set_option maxRecDepth 20000 in
theorem met_fioEnergyCfgWrite_brg : ∃ (data : Word) (s : State), s.fuse.is7401 = false ∧ s.on FIO_STATUS_link = true ∧ 5 ≤ wfield (data &&& 0x01FF003F#32) FIO_BRG_CFG_volt ∧ wfield (data &&& 0x01FF003F#32) FIO_BRG_CFG_volt ≤ 59 ∧ 1 ≤ wfield (data &&& 0x01FF003F#32) FIO_BRG_CFG_ilim ∧ wfield (data &&& 0x01FF003F#32) FIO_BRG_CFG_ilim ≤ 480 ∧ (List.range 8).find? (fun n => s.energyBad n (s.word (0x240100 + 0x20 * n)) ([s.word 0x240200, s.word 0x240204, s.word 0x240208].set 2 (data &&& 0x01FF003F#32))) = none :=
  ⟨0x10005, fioUp, by decide⟩
set_option maxRecDepth 20000 in
theorem met_loopSetWrite : ∃ (j : Fin 2) (data : Word) (s : State), s.fuse.is7401 = false ∧ s.on FIO_STATUS_link = true ∧ s.on (FIO_LOOP_CFG_txm j.val) = false ∧ 3600 ≤ bits data.toNat 14 0 ∧ bits data.toNat 14 0 ≤ 21000 :=
  ⟨1, 21000, fioUp, by decide⟩
set_option maxRecDepth 20000 in
theorem met_loopTxmWrite : ∃ (j : Fin 2) (data : Word) (s : State), s.fuse.is7401 = false ∧ s.on FIO_STATUS_link = true ∧ wfield (data &&& 0xFFFC0000#32) (FIO_LOOP_CFG_txm 0) ≠ 1 ∧ s.on (FIO_LOOP_CFG_txm j.val) = false :=
  ⟨1, 0, fioUp, by decide⟩
set_option maxRecDepth 20000 in
theorem met_loopTxmWrite_2 : ∃ (j : Fin 2) (data : Word) (s : State), s.fuse.is7401 = false ∧ s.on FIO_STATUS_link = true ∧ wfield (data &&& 0xFFFC0000#32) (FIO_LOOP_CFG_txm 0) = 1 ∧ s.ainOwner (wfield (data &&& 0xFFFC0000#32) (FIO_LOOP_CFG_src 0)) = s.loopOwner j.val ∧ (s.ownerWith (fun x => bit x.txm j.val)).isSome = true ∧ s.get (FIO_LOOP_LO_v j.val) ≠ s.get (FIO_LOOP_HI_v j.val) :=
  ⟨0, 0x80000000, fioUp.put (FIO_LOOP_HI_v 0) 1, by decide⟩
set_option maxRecDepth 20000 in
theorem met_ctabCommit : ∃ (s : State), s.fuse.is7401 = false ∧ s.on FIO_STATUS_link = true ∧ 2 ≤ bits (s.tabWord (s.get FIO_CTAB_SEL_table) 0).toNat 5 0 ∧ bits (s.tabWord (s.get FIO_CTAB_SEL_table) 0).toNat 5 0 ≤ 32 ∧ (((s.shadowTab (s.get FIO_CTAB_SEL_table)).points.zip ((s.shadowTab (s.get FIO_CTAB_SEL_table)).points.drop 1)).all (fun p => decide (p.1.1 < p.2.1))) = true ∧ (s.shadowTab (s.get FIO_CTAB_SEL_table)).kind ≠ 2 :=
  ⟨{ fioUp with fio := { FioState.reset with shadow := [(0, 2), (3, 1)] } }, by decide⟩
set_option maxRecDepth 20000 in
theorem met_loopOverrange : ∃ (s : State), s.dieRuns = true :=
  ⟨fioUp, by decide⟩
set_option maxRecDepth 20000 in
theorem met_loopOpen : ∃ (j : Fin 2) (meas : BitVec 16) (s : State), s.dieRuns = true ∧ s.on (FIO_LOOP_STAT_open j.val) = false ∧ meas.toNat + 1000 < (s.loopAt j.val).ua :=
  ⟨1, 0, fioUp, by decide⟩
set_option maxRecDepth 20000 in
theorem met_loopRefreshTimeout : ∃ (j : Fin 2) (at_ : Nat) (s : State), (s.loopAt j.val).stale = some at_ ∧ s.since at_ (200 * ms) = true :=
  ⟨1, 0, { State.setLoop fioUp 1 ⟨3600, 0, some 0⟩ with clk := 200000000 }, by decide⟩
set_option maxRecDepth 20000 in
theorem met_fioDieLost : ∃ (s : State), s.fuse.is7401 = false ∧ s.on FIO_STATUS_link = true :=
  ⟨fioUp, by decide⟩
set_option maxRecDepth 20000 in
theorem met_fioDieLinkUp : ∃ (s : State), s.fuse.is7401 = false ∧ s.domainOn 29 = true ∧ s.domainOn 30 = true :=
  ⟨fioUp, by decide⟩

/-! ### PortBPointsComplete -/

set_option maxRecDepth 20000 in
theorem met_dinCrossing : ∃ (i : Fin 8) (mv : Nat) (l : Bool) (s : State), s.dinReads = true ∧ s.dinSide i.val mv = some l ∧ (s.din i.val).level = some (!l) ∧ (s.din i.val).run = none :=
  ⟨7, 60000, true, dinUp.setDin 7 ⟨.empty, 0, some false, none, [], false, 0⟩, by decide⟩
set_option maxRecDepth 20000 in
theorem met_dinEvent : ∃ (i : Fin 8) (l : Bool) (stamp : Nat) (at_ : Nat) (s : State), (s.din i.val).run = some (l, stamp, at_) ∧ s.since at_ (s.get (TIM_DIN_CFG_filt i.val) * 100 * us) = true :=
  ⟨7, true, 0, 0, { dinUp.setDin 7 ⟨.empty, 0, some false, some (true, 0, 0), [], false, 0⟩ with clk := 10000000000 }, by decide⟩
set_option maxRecDepth 20000 in
theorem met_chatterEnd : ∃ (i : Fin 8) (s : State), (s.din i.val).chatter = true ∧ s.since (s.din i.val).lastEdge sec = true :=
  ⟨7, { dinUp.setDin 7 ⟨.empty, 0, some false, none, [], true, 0⟩ with clk := 1000000000 }, by decide⟩
set_option maxRecDepth 20000 in
theorem met_dinCfgWrite : ∃ (data : Word), 50 ≤ wfield data (TIM_DIN_CFG_thr 0) ∧ wfield data (TIM_DIN_CFG_thr 0) ≤ 1500 ∧ wfield data (TIM_DIN_CFG_hys 0) ≤ 250 :=
  ⟨0xC800000, by decide⟩
set_option maxRecDepth 20000 in
theorem met_dinE0Read : ∃ (who : Agent) (i : Fin 8) (s : State), (∀ n, agentNiche who = some n → s.dinOwner i.val = some n) :=
  ⟨.vf 0, 0, carvedState State.reset, by intro n h; simp [agentNiche] at h; subst h; decide⟩
set_option maxRecDepth 20000 in
theorem met_wettingDip : ∃ (mv : Nat) (s : State), s.domainOn 26 = true ∧ mv < s.get TIM_FPB_CFG_dip_thr :=
  ⟨0, dinUp.put TIM_FPB_CFG_dip_thr 1, by decide⟩
set_option maxRecDepth 20000 in
theorem met_wettingDipEnd : ∃ (at_ : Nat) (s : State), s.on TIM_FPB_STAT_dip = true ∧ s.fio.recovered = some at_ ∧ s.since at_ (10 * ms) = true :=
  ⟨0, { (State.reset.put TIM_FPB_STAT_dip 1) with clk := 10000000, fio := { FioState.reset with recovered := some 0 } }, by decide⟩
set_option maxRecDepth 20000 in
theorem met_doutCmd : ∃ (k : Fin 4) (s : State), s.doutLatched k.val = false ∧ s.on (TIM_DOUT_STAT_driven k.val) = false ∧ (s.dout k.val).retry = none ∧ s.doutMay = true :=
  ⟨3, dinUp, by decide⟩
set_option maxRecDepth 20000 in
theorem met_doutShort : ∃ (k : Fin 4) (s : State), s.on (TIM_DOUT_STAT_driven k.val) = true :=
  ⟨3, dinUp.put (TIM_DOUT_STAT_driven 3) 1, by decide⟩
set_option maxRecDepth 20000 in
theorem met_doutRetry : ∃ (k : Fin 4) (at_ : Nat) (s : State), (s.dout k.val).retry = some at_ ∧ at_ ≤ s.clk ∧ s.doutMay = true :=
  ⟨3, 0, dinUp.setDout 3 ⟨some 0, none⟩, by decide⟩
set_option maxRecDepth 20000 in
theorem met_doutRetrySuccess : ∃ (k : Fin 4) (at_ : Nat) (s : State), (s.dout k.val).trying = some at_ ∧ s.since at_ (100 * ms) = true ∧ s.on (TIM_DOUT_STAT_driven k.val) = true :=
  ⟨3, 0, { (dinUp.put (TIM_DOUT_STAT_driven 3) 1).setDout 3 ⟨none, some 0⟩ with clk := 100000000 }, by decide⟩
set_option maxRecDepth 20000 in
theorem met_doutExtdrv : ∃ (k : Fin 4) (s : State), s.on (TIM_DOUT_CMD_on k.val) = false ∧ s.on (TIM_DOUT_STAT_driven k.val) = false ∧ s.domainOn 26 = true ∧ (List.range 4).all (fun m => m == k.val || !s.on (TIM_DOUT_STAT_driven m)) = true :=
  ⟨3, dinUp, by decide⟩
set_option maxRecDepth 20000 in
theorem met_doutExtdrvClear : ∃ (k : Fin 4) (s : State), s.on (TIM_DOUT_STAT_driven k.val) = false :=
  ⟨3, dinUp, by decide⟩

/-! ### KeyStoreComplete -/

set_option maxRecDepth 20000 in
theorem met_cphPlainLoad : ∃ (o : Fin 17) (slot : Fin 256) (s : State), s.slotRefusal o.val slot.val = none ∧ s.keyIn slot.val = none :=
  ⟨16, 255, State.reset, by decide⟩
set_option maxRecDepth 20000 in
theorem met_cphUnwrapLoad : ∃ (o : Fin 17) (slot : Fin 256) (wslot : Fin 256) (wk : List Byte) (s : State), s.slotRefusal o.val slot.val = none ∧ s.slotOf wslot.val o.val = true ∧ s.keyIn wslot.val = some wk ∧ s.keyIn slot.val = none ∧ s.on (CPH_SLOT_CFG_wrap wslot.val) = true :=
  ⟨16, 255, 254, [], { State.reset.put (CPH_SLOT_CFG_wrap 254) 1 with cph := { CphState.reset with keys := [(254, [])] } }, by decide⟩
set_option maxRecDepth 20000 in
theorem met_cphZero : ∃ (o : Fin 17) (slot : Fin 256) (s : State), s.slotRefusal o.val slot.val = none ∧ s.keyIn slot.val ≠ none :=
  ⟨16, 255, { State.reset with cph := { CphState.reset with keys := [(255, [])] } }, by decide⟩
set_option maxRecDepth 20000 in
theorem met_keyLoadComplete : ∃ (o : Fin 17) (j : KeyJob) (key : List Byte) (s : State), s.cph.jobs.find? (fun x => x.owner == o.val) = some j ∧ j.op ≠ 3 ∧ s.on CPH_STATUS_lockout = false ∧ j.key = some key :=
  ⟨16, ⟨16, 1, 255, some []⟩, [], { State.reset with cph := { CphState.reset with jobs := [⟨16, 1, 255, some []⟩] } }, by decide⟩
set_option maxRecDepth 20000 in
theorem met_cphSlotCfgWrite : ∃ (o : Fin 17) (slot : Fin 256) (s : State), s.slotOf slot.val o.val = true ∧ 96 ≤ slot.val ∧ s.keyIn slot.val = none :=
  ⟨16, 255, State.reset, by decide⟩
set_option maxRecDepth 20000 in
theorem met_secretClearCmd : ∃ (s : State), s.secretInUse = false :=
  ⟨State.reset, by decide⟩
set_option maxRecDepth 20000 in
theorem met_alarmRecovery : ∃ (s : State), s.cph.erased = true ∧ s.on CPH_STATUS_lockout = false :=
  ⟨{ State.reset with cph := { CphState.reset with erased := true } }, by decide⟩
set_option maxRecDepth 20000 in
theorem met_rngHealthPass : ∃ (s : State), s.cph.erased = true ∧ s.cph.seeded = true :=
  ⟨{ State.reset with cph := { CphState.reset with erased := true, seeded := true } }, by decide⟩

/-! ### LookasideComplete -/

set_option maxRecDepth 20000 in
theorem met_laRequestFetch : ∃ (o : Fin 17) (s : State), s.laRuns o.val = true ∧ s.ringPosted (s.laRing o.val).1 (s.laRing o.val).2 ≠ 0 :=
  ⟨0, (((ringUp 3).put (CPH_NLA_en 0) 1).put CPH_CTRL_la_en 1).put CPH_STATUS_half_a 1, by decide⟩
set_option maxRecDepth 20000 in
theorem met_laRefusalComplete : ∃ (o : Fin 17) (j : LaJob) (s : State), s.cph.la.find? (fun x => x.owner == o.val && x.status != 0 && !x.done && s.since x.fetched 4096) = some j ∧ j.status = 1 ∧ o.val < 16 :=
  ⟨0, { la0 with status := 1 }, { withLa { la0 with status := 1 } State.reset with clk := 4096 }, by decide⟩
set_option maxRecDepth 20000 in
theorem met_laRefusalComplete_2 : ∃ (o : Fin 17) (j : LaJob) (s : State), s.cph.la.find? (fun x => x.owner == o.val && x.status != 0 && !x.done && s.since x.fetched 4096) = some j ∧ j.status ≠ 1 :=
  ⟨0, { la0 with status := 0x0E04 }, { withLa { la0 with status := 0x0E04 } State.reset with clk := 4096 }, by decide⟩
set_option maxRecDepth 20000 in
theorem met_laComplete : ∃ (o : Fin 17) (index : Word) (j : LaJob) (s : State), s.cph.la.find? (fun x => x.owner == o.val && x.index == index.toNat && x.status == 0 && !x.done) = some j ∧ (s.on CPH_CTRL_partition = false ∨ j.rounds = 0) :=
  ⟨0, 0, la0, withLa la0 State.reset, by decide⟩
set_option maxRecDepth 20000 in
theorem met_laComplete_2 : ∃ (o : Fin 17) (index : Word) (j : LaJob) (s : State), s.cph.la.find? (fun x => x.owner == o.val && x.index == index.toNat && x.status == 0 && !x.done) = some j ∧ (s.on CPH_CTRL_partition = false ∨ j.rounds = 0) :=
  ⟨0, 0, la0, withLa la0 State.reset, by decide⟩
set_option maxRecDepth 20000 in
theorem met_microslotStart : ∃ (s : State), s.on CPH_CTRL_partition = true :=
  ⟨State.reset.put CPH_CTRL_partition 1, by decide⟩

/-! ### HostInterfaceComplete -/

set_option maxRecDepth 20000 in
theorem met_ringEnable : ∃ (who : Agent) (niche : Fin 16) (ring : Fin 64) (data : Word) (s : State), bit data.toNat 31 = true ∧ s.closed niche.val = false ∧ s.ringWriter who niche.val = true ∧ s.on (HIF_RING_CFG_en niche.val ring.val) = false ∧ ringFault data (s.get (HIF_RING_DBASE_LO_addr niche.val ring.val)) (s.get (HIF_RING_CBASE_LO_addr niche.val ring.val)) (s.get (HIF_RING_WB_LO_addr niche.val ring.val)) = false :=
  ⟨.vf 15, 15, 63, 0xC0400001, State.reset, by decide⟩
set_option maxRecDepth 20000 in
theorem met_ringDisable : ∃ (who : Agent) (niche : Fin 16) (data : Word) (s : State), bit data.toNat 31 = false ∧ s.closed niche.val = false ∧ s.ringWriter who niche.val = true :=
  ⟨.pf, 0, 0, State.reset, by decide⟩
set_option maxRecDepth 20000 in
theorem met_ringDoorbell : ∃ (who : Agent) (niche : Fin 16) (ring : Fin 64) (p : Word) (s : State), s.closed niche.val = false ∧ s.ringWriter who niche.val = true ∧ s.on (HIF_RING_CFG_en niche.val ring.val) = true ∧ doorbellUse p.toNat (s.get (HIF_RING_PROD_index niche.val ring.val)) (s.get (HIF_RING_CONS_index niche.val ring.val)) (s.ringSize niche.val ring.val) = .take :=
  ⟨.vf 0, 0, 0, 2, ringUp 1, by decide⟩
set_option maxRecDepth 20000 in
theorem met_rxSduDeliver : ∃ (niche : Fin 16) (ring : Fin 64) (d : Sdu) (k : Nat) (size : Nat) (s : State), s.rxReady niche.val ring.val = some (d, k, size) :=
  ⟨0, 0, { id := 0, owner := 0, data := [1], queue := some 0 }, 1, 2048, { ringUp 1 with cel := { CelState.reset with sdus := [{ id := 0, owner := 0, data := [1], queue := some 0 }] } }, by decide⟩
set_option maxRecDepth 20000 in
theorem met_txSduFetch : ∃ (niche : Fin 16) (ring : Fin 64) (chain : List (List Byte)) (s : State), s.txMay niche.val ring.val chain.length = true :=
  ⟨0, 0, [zeros 32], ringUp 2, by decide⟩
set_option maxRecDepth 20000 in
theorem met_ringHoldoffExpiry : ∃ (niche : Fin 16) (ring : Fin 64) (at_ : Nat) (s : State), (s.ring niche.val ring.val).firstAt = some at_ ∧ s.since at_ (s.get (HIF_RING_ITR_holdoff niche.val ring.val) * us) = true :=
  ⟨15, 63, 0, { State.reset with hif := { HifState.reset with rings := [(1023, ⟨0, some 0⟩)] } }, by decide⟩
set_option maxRecDepth 20000 in
theorem met_dmaError : ∃ (niche : Fin 16) (ring : Fin 64) (s : State), s.on (HIF_RING_CFG_en niche.val ring.val) = true ∧ s.on (HIF_RING_STATUS_err niche.val ring.val) = false ∧ s.closed niche.val = false :=
  ⟨0, 0, ringUp 1, by decide⟩
set_option maxRecDepth 20000 in
theorem met_busMasterEnable : ∃ (s : State), s.flt.phase ≠ .held :=
  ⟨State.reset, by decide⟩
set_option maxRecDepth 20000 in
theorem met_busMasterEnable_vf : ∃ (fn : Fin 17) (s : State), s.flt.phase ≠ .held ∧ fn.val ≠ 0 ∧ fn.val ≤ s.get HIF_STATUS_num_vfs :=
  ⟨16, State.reset.put HIF_STATUS_num_vfs 16, by decide⟩
set_option maxRecDepth 20000 in
theorem met_vfFlr : ∃ (v : Fin 16) (s : State), s.on HIF_STATUS_vf_enable = true ∧ v.val + 1 ≤ s.get HIF_STATUS_num_vfs :=
  ⟨0, oneVf State.reset, by decide⟩

/-! ### MailboxWordsComplete -/

set_option maxRecDepth 20000 in
theorem met_supCsFall : ∃ (s : State), s.domainOn 32 = true ∧ s.sup.selected = false :=
  ⟨{ State.reset with pwr := { PwrState.reset with on := setBit 0 32 } }, by decide⟩
set_option maxRecDepth 20000 in
theorem met_supWordEdge : ∃ (s : State), s.domainOn 32 = true ∧ s.sup.selected = true ∧ s.supTransmit.mbxReady = true ∧ s.supTransmit.on SUP_CTRL_en = true ∧ s.supTransmit.sup.cutRest = false ∧ s.supTransmit.sup.port.rx.length < 256 :=
  ⟨{ upState.put SUP_CTRL_en 1 with pwr := { PwrState.reset with on := setBit 0 32 }, sup := { SupState.reset with selected := true, marks := [0] } }, by decide⟩
set_option maxRecDepth 20000 in
theorem met_supCsRise : ∃ (s : State), s.sup.selected = true :=
  ⟨{ upState with sup := { SupState.reset with selected := true, marks := [0] } }, by decide⟩
set_option maxRecDepth 20000 in
theorem met_supPfTxWrite : ∃ (who : Agent) (box : Option (Fin 16)) (s : State), reachesBox who box = true ∧ s.mbxReady = true ∧ (s.mbx (boxAgent box)).discard = false ∧ (s.mbx (boxAgent box)).skip = 0 ∧ (s.mbx (boxAgent box)).rx.length < 128 :=
  ⟨.vf 15, some 15, upState, by decide⟩
set_option maxRecDepth 20000 in
theorem met_supPfRxRead : ∃ (who : Agent) (box : Option (Fin 16)) (w : Word) (rest : List Word) (s : State), reachesBox who box = true ∧ (s.mbx (boxAgent box)).tx = w :: rest :=
  ⟨.pf, none, 7, [], { upState with sup := { SupState.reset with pf := { Mbx.empty with tx := [7] } } }, by decide⟩
set_option maxRecDepth 20000 in
theorem met_mbxFlush : ∃ (who : Agent) (box : Option (Fin 16)), reachesBox who box = true :=
  ⟨.vf 15, some 15, by decide⟩
set_option maxRecDepth 20000 in
theorem met_mbxFrameBad : ∃ (src : Agent) (h : Word) (rest : List Word) (s : State), s.mbxReady = true ∧ s.front src = h :: rest ∧ bit h.toNat 31 = true :=
  ⟨.mbxPf, 0x84000000, [], { upState with sup := { SupState.reset with pf := { Mbx.empty with rx := [0x84000000] } } }, by decide⟩

/-! ### MailboxRequestsComplete -/

set_option maxRecDepth 20000 in
theorem met_mbxEcho : ∃ (src : Agent) (r : Req) (s : State), s.serves src r ∧ r.type = 1 :=
  ⟨.mbxPf, reqOf 1 [7], asking (reqOf 1 [7]) upState, by decide⟩
set_option maxRecDepth 20000 in
theorem met_mbxRegRead : ∃ (src : Agent) (r : Req) (s : State), s.serves src r ∧ r.type = 2 ∧ r.addrOk = true ∧ (readAll (agentId src) r.addrs (s.tookReq src r)).1.flt.phase ≠ .held :=
  ⟨.mbxPf, reqOf 2 [0, 1], asking (reqOf 2 [0, 1]) upState, by decide⟩
set_option maxRecDepth 20000 in
theorem met_mbxRegWrite : ∃ (src : Agent) (x : Ambient) (r : Req) (s : State), s.serves src r ∧ r.type = 3 ∧ r.addrOk = true ∧ (writeAll src x (r.word 0) (r.payload.drop 1) (s.tookReq src r)).flt.phase ≠ .held :=
  ⟨.mbxPf, ⟨[], false⟩, reqOf 3 [8, 5], asking (reqOf 3 [8, 5]) upState, by decide⟩
set_option maxRecDepth 20000 in
theorem met_mbxStatus : ∃ (src : Agent) (r : Req) (s : State), s.serves src r ∧ r.type = 4 :=
  ⟨.mbxPf, reqOf 4 [], asking (reqOf 4 []) upState, by decide⟩
set_option maxRecDepth 20000 in
theorem met_mbxTrustEnrol : ∃ (src : Agent) (r : Req) (s : State), s.serves src r ∧ r.type = 5 ∧ (s.tookReq src r).arm.trust.getD (bits (r.word 0) 1 0) ⟨none, false⟩ = ⟨none, false⟩ :=
  ⟨.mbxPf, reqOf 5 (3 :: List.replicate 12 9), asking (reqOf 5 (3 :: List.replicate 12 9)) upState, by decide⟩
set_option maxRecDepth 20000 in
theorem met_mbxTrustRevoke : ∃ (src : Agent) (r : Req) (s : State), s.serves src r ∧ r.type = 6 :=
  ⟨.mbxPf, reqOf 6 [3], asking (reqOf 6 [3]) upState, by decide⟩
set_option maxRecDepth 20000 in
theorem met_mbxSecretEnrol : ∃ (src : Agent) (r : Req) (s : State), s.serves src r ∧ r.type = 7 :=
  ⟨.mbxPf, reqOf 7 (List.replicate 9 0), asking (reqOf 7 (List.replicate 9 0)) upState, by decide⟩
set_option maxRecDepth 20000 in
theorem met_mbxSecretClear : ∃ (src : Agent) (r : Req) (s : State), s.serves src r ∧ r.type = 8 ∧ (s.tookReq src r).secretInUse = false :=
  ⟨.mbxPf, reqOf 8 [], asking (reqOf 8 []) upState, by decide⟩
set_option maxRecDepth 20000 in
theorem met_mbxNicheReset : ∃ (src : Agent) (r : Req) (s : State), s.serves src r ∧ r.type = 11 ∧ bits (r.word 0) 1 0 = 1 ∧ (s.tookReq src r).exists_ r.niche = true ∧ ((s.tookReq src r).requestReset r.niche 4).flt.phase ≠ .held :=
  ⟨.mbxPf, reqOf 11 [1], asking (reqOf 11 [1]) upState, by decide⟩
set_option maxRecDepth 20000 in
theorem met_mbxDeviceReset : ∃ (src : Agent) (r : Req) (s : State), s.serves src r ∧ r.type = 11 ∧ bits (r.word 0) 1 0 = 2 :=
  ⟨.mbxPf, reqOf 11 [2], asking (reqOf 11 [2]) upState, by decide⟩
set_option maxRecDepth 20000 in
theorem met_mbxResetDeferred : ∃ (k : Nat) (at_ : Nat) (s : State), s.sup.resetAt = some (k, at_) ∧ (s.unread k = 0 ∨ at_ ≤ s.clk) :=
  ⟨18, 0, { upState with sup := { SupState.reset with resetAt := some (18, 0) } }, by decide⟩

/-! ### CastCommandsComplete -/

set_option maxRecDepth 20000 in
theorem met_castBlock : ∃ (src : Agent) (r : Req) (s : State), s.serves src r ∧ r.type = 9 ∧ ((s.tookReq src r).castBlock (bits (r.word 0) 31 24) (r.word 1) (wordBytes (r.payload.drop 2))).1.flt.phase ≠ .held :=
  ⟨.mbxPf, reqOf 9 [0, 0, 7], asking (reqOf 9 [0, 0, 7]) (castIn 1), by decide⟩
set_option maxRecDepth 20000 in
theorem met_castBegin : ∃ (src : Agent) (r : Req) (s : State), s.serves src r ∧ r.type = 10 ∧ bits (r.word 0) 7 0 = 1 ∧ (s.tookReq src r).cast ∈ [0, 1, 2, 6] ∧ r.word 1 ≤ 4096 ∧ (s.tookReq src r).stageFault [(s.tookReq src r).stagingBank * 4096 + 8, (s.tookReq src r).stagingBank * 4096 + 9] true = 0 :=
  ⟨.mbxPf, castReq [1, 4096], banksOn (asking (castReq [1, 4096]) (castIn 6)), by decide⟩
set_option maxRecDepth 20000 in
theorem met_castAbandon : ∃ (src : Agent) (r : Req) (s : State), s.serves src r ∧ r.type = 10 ∧ bits (r.word 0) 7 0 = 2 ∧ ((s.tookReq src r).cast = 1 ∨ (s.tookReq src r).cast = 2) :=
  ⟨.mbxPf, castReq [2], asking (castReq [2]) (castIn 2), by decide⟩
set_option maxRecDepth 20000 in
theorem met_castVerify : ∃ (src : Agent) (r : Req) (s : State), s.serves src r ∧ r.type = 10 ∧ bits (r.word 0) 7 0 = 3 ∧ (s.tookReq src r).cast = 1 ∧ (s.tookReq src r).allComplete = true :=
  ⟨.mbxPf, castReq [3], { asking (castReq [3]) (castIn 1) with cst := { CstState.reset with length := 1, got := [(0, 0, 1)] } }, by decide⟩
set_option maxRecDepth 20000 in
theorem met_castVerifyDone : ∃ (s : State), s.cst.verifying = true ∧ s.cast = 1 :=
  ⟨{ castIn 1 with cst := { CstState.reset with verifying := true } }, by decide⟩
set_option maxRecDepth 20000 in
theorem met_castArm : ∃ (src : Agent) (r : Req) (sec : Option Nat) (s : State), s.serves src r ∧ r.type = 10 ∧ bits (r.word 0) 7 0 = 4 ∧ ((s.tookReq src r).cast = 2 ∨ (s.tookReq src r).cast = 3) ∧ (s.tookReq src r).on CST_STATUS_pair = false ∧ (s.tookReq src r).armSecond r = .ok sec ∧ ((s.tookReq src r).armWith sec).1.flt.phase ≠ .held :=
  ⟨.mbxPf, castReq [4, 2], none, banksOn (asking (castReq [4, 2]) (castIn 2)), by decide⟩
set_option maxRecDepth 20000 in
theorem met_castCommitDurable : ∃ (sec : Option Nat) (s : State), s.cst.arming = some sec :=
  ⟨none, { castIn 2 with cst := { CstState.reset with arming := some none } }, by decide⟩
set_option maxRecDepth 20000 in
theorem met_castDisarm : ∃ (src : Agent) (r : Req) (s : State), s.serves src r ∧ r.type = 10 ∧ bits (r.word 0) 7 0 = 5 ∧ (s.tookReq src r).cast = 3 ∧ (s.tookReq src r).stageFault [(s.tookReq src r).stagingBank * 4096 + 9] true = 0 :=
  ⟨.mbxPf, castReq [5], banksOn (asking (castReq [5]) (castIn 3)), by decide⟩
set_option maxRecDepth 20000 in
theorem met_castQuery : ∃ (src : Agent) (r : Req) (s : State), s.serves src r ∧ r.type = 10 ∧ bits (r.word 0) 7 0 = 6 :=
  ⟨.mbxPf, castReq [6], asking (castReq [6]) (castIn 0), by decide⟩
set_option maxRecDepth 20000 in
theorem met_castAtSchedule : ∃ (msg : List Byte) (s : State), s.inInbox msg 6 = true ∧ byteAt msg 4 = 1 ∧ (s.tookMsg msg).castMatches msg = true ∧ (s.tookMsg msg).cst.second ≠ some (beAt msg 5 6) ∧ (s.tookMsg msg).late (beAt msg 5 6) = false :=
  ⟨lineTo 0xFF 6 [1, 1, 0, 0, 0, 0, 0], (withMsg (lineTo 0xFF 6 [1, 1, 0, 0, 0, 0, 0])).put CST_STATUS_state 3, by decide⟩
set_option maxRecDepth 20000 in
theorem met_castAtCancel : ∃ (msg : List Byte) (s : State), s.inInbox msg 6 = true ∧ byteAt msg 4 = 0 ∧ (s.tookMsg msg).castMatches msg = true ∧ (s.tookMsg msg).stageFault [(s.tookMsg msg).stagingBank * 4096 + 9] true = 0 :=
  ⟨lineTo 0xFF 6 [], banksOn ((withMsg (lineTo 0xFF 6 [])).put CST_STATUS_state 3), by decide⟩
set_option maxRecDepth 20000 in
theorem met_castFreeze : ∃ (s : State), s.cast = 3 ∧ s.cst.freezing = false ∧ s.freezeDue = true ∧ s.powerFails = false ∧ s.pairFreezes = true ∧ s.commitValid s.stagingBank = true :=
  ⟨armedState, by decide⟩
set_option maxRecDepth 20000 in
theorem met_castSelectorDurable : ∃ (s : State), s.cst.freezing = true :=
  ⟨{ castIn 3 with cst := { CstState.reset with freezing := true } }, by decide⟩
set_option maxRecDepth 20000 in
theorem met_castSettle : ∃ (s : State), s.cast = 4 ∧ s.settleTicks ≤ s.cst.settle ∧ s.trialGood = true ∧ s.peerSettles = true :=
  ⟨{ ((castIn 4).put GLB_SERVICE_arm 1).put CST_CFG_serve_req 0 with cst := { CstState.reset with settle := 100000000, started := true } }, by decide⟩
set_option maxRecDepth 20000 in
theorem met_castFailedStart : ∃ (s : State), s.cast = 4 ∧ s.cst.started = false :=
  ⟨castIn 4, by decide⟩
set_option maxRecDepth 20000 in
theorem met_castFailedStart_2 : ∃ (s : State), s.cast = 4 ∧ s.on GLB_SERVICE_arm = false :=
  ⟨castIn 4, by decide⟩
set_option maxRecDepth 20000 in
theorem met_castFailedStart_3 : ∃ (s : State), s.cast = 4 ∧ s.settleTicks ≤ s.cst.deaf :=
  ⟨(let t := castIn 4; { t with cst := { t.cst with deaf := 0x1000000000 } }), by decide⟩
set_option maxRecDepth 20000 in
theorem met_castFailedStart_0 : ∃ (s : State), s.cast = 4 ∧ s.settleTicks ≤ s.cst.settle ∧ (s.trialGood && s.peerSettles) = false :=
  ⟨(let t := castIn 4; { t with cst := { t.cst with settle := 0x1000000000 } }), by decide⟩

/-! ### CartridgeComplete -/

set_option maxRecDepth 20000 in
theorem met_cartAcceptance : ∃ (s : State), s.on GLB_SERVICE_cart = false ∧ s.on CRT_STATUS_stuck = false :=
  ⟨State.reset, by decide⟩
set_option maxRecDepth 20000 in
theorem met_busRecovery : ∃ (sda : List Bool) (i : Nat), (sda.take 9).findIdx? id = some i :=
  ⟨[true], 0, by decide⟩
set_option maxRecDepth 20000 in
theorem met_busRecovery_2 : ∃ (sda : List Bool), (sda.take 9).findIdx? id = none :=
  ⟨[], by decide⟩
set_option maxRecDepth 20000 in
theorem met_busStuckRetry : ∃ (sda : List Bool) (i : Nat) (s : State), s.on CRT_STATUS_stuck = true ∧ (sda.take 9).findIdx? id = some i :=
  ⟨[false, true], 1, State.reset.put CRT_STATUS_stuck 1, by decide⟩
set_option maxRecDepth 20000 in
theorem met_busStuckRetry_2 : ∃ (sda : List Bool) (s : State), s.on CRT_STATUS_stuck = true ∧ (sda.take 9).findIdx? id = none :=
  ⟨[], State.reset.put CRT_STATUS_stuck 1, by decide⟩
set_option maxRecDepth 20000 in
theorem met_patinaWrite : ∃ (s : State), s.on GLB_SERVICE_cart = true ∧ (s.since s.crt.lastPatina (3600 * sec) = true ∨ s.on USL_STATUS_dg = true) :=
  ⟨{ State.reset.put GLB_SERVICE_cart 1 with clk := 3600000000000 }, by decide⟩
set_option maxRecDepth 20000 in
theorem met_requestPatina : ∃ (msg : List Byte) (s : State), s.inInbox msg 0x0A = true :=
  ⟨lineTo 0xFF 0x0A [], withMsg (lineTo 0xFF 0x0A []), by decide⟩
set_option maxRecDepth 20000 in
theorem met_crtRawGo : ∃ (data : Word), (bits data.toNat 23 16 = 0x50 ∨ bits data.toNat 23 16 = 0x51) :=
  ⟨0x511FFF, by decide⟩
set_option maxRecDepth 20000 in
theorem met_crtRawDone : ∃ (s : State), s.crt.raw ≠ none :=
  ⟨{ State.reset with crt := { CrtState.reset with raw := some (0x50, 0) } }, by decide⟩

/-! ### PowerEntriesComplete -/

set_option maxRecDepth 20000 in
theorem met_powerModeRequest : ∃ (target : Fin 8) (s : State), s.pwr.entry = none ∧ s.pwr.rise = none ∧ s.pwr.exit_ = none ∧ s.mode < target.val ∧ target.val < 5 ∧ target.val ≠ 2 :=
  ⟨4, State.reset, by decide⟩
set_option maxRecDepth 20000 in
theorem met_powerDecision : ∃ (e : PwrEntry) (s : State), s.pwr.entry = some e ∧ e.stage = .consent ∧ e.asked < s.tick.edges ∧ s.awaitsPartner = false ∧ s.refusers.1 = [] :=
  ⟨entry0 .consent, { pwr (fun p => { p with entry := some (entry0 .consent) }) State.reset with tick := { TickState.reset with edges := 1 } }, by decide⟩
set_option maxRecDepth 20000 in
theorem met_entryNicheResets : ∃ (e : PwrEntry) (s : State), s.pwr.entry = some e ∧ e.stage = .notice ∧ e.decided + s.get PWR_CTRL_notice ≤ s.tick.edges ∧ 3 ≤ e.target :=
  ⟨entry0 .notice, { pwr (fun p => { p with entry := some (entry0 .notice) }) State.reset with tick := { TickState.reset with edges := 100000 } }, by decide⟩
set_option maxRecDepth 20000 in
theorem met_domainGroupOff : ∃ (e : PwrEntry) (k : Nat) (i : Nat) (s : State), s.pwr.entry = some e ∧ s.groupNext e = some k ∧ s.nextOff e.target k = some i :=
  ⟨entry0 (.groups 0), 0, 0, pwr (fun p => { p with entry := some (entry0 (.groups 0)), on := 2 ^ 38 + 1 }) State.reset, by decide⟩
set_option maxRecDepth 20000 in
theorem met_wakeLossWindow : ∃ (e : PwrEntry) (s : State), s.pwr.entry = some e ∧ e.stage = .window ∧ s.since e.at_ 91552 = true :=
  ⟨entry0 .window, { pwr (fun p => { p with entry := some (entry0 .window) }) State.reset with clk := 91552 }, by decide⟩
set_option maxRecDepth 20000 in
theorem met_powerExit : ∃ (m : Nat) (s : State), s.pwr.exit_ = some m ∧ s.pwr.entry = none ∧ s.mode = 2 :=
  ⟨0, pwr (fun p => { p with exit_ := some 0 }) (State.reset.put PWR_STATUS_mode 2), by decide⟩
set_option maxRecDepth 20000 in
theorem met_domainGroupOn : ∃ (r : PwrRise) (s : State), s.pwr.rise = some r ∧ r.at_ ≤ s.clk :=
  ⟨⟨0, 0, 0, 1, false⟩, pwr (fun p => { p with rise := some ⟨0, 0, 0, 1, false⟩ }) State.reset, by decide⟩
set_option maxRecDepth 20000 in
theorem met_plinthAlarm : ∃ (at_ : Nat) (s : State), s.pwr.alarm = some at_ ∧ at_ ≤ s.clk :=
  ⟨0, pwr (fun p => { p with alarm := some 0 }) State.reset, by decide⟩
set_option maxRecDepth 20000 in
theorem met_pwrMaskWrite : ∃ (m : Fin 4) (hi : Bool) (data : Word) (s : State), s.maskBad m.val ((if hi then data.toNat % 2 ^ 24 * 2 ^ 32 + s.pwrMask m.val % 2 ^ 32 else s.pwrMask m.val / 2 ^ 32 * 2 ^ 32 + data.toNat) &&& s.optionalSet m.val) = false :=
  ⟨3, false, 0, State.reset, by decide⟩
set_option maxRecDepth 20000 in
theorem met_watchExit : ∃ (s : State), s.mode = 2 ∧ s.pwr.allow.all (fun t => decide (t ≤ s.clk + ms)) = true :=
  ⟨State.reset.put PWR_STATUS_mode 2, by decide⟩

/-! ### SupplyComplete -/

set_option maxRecDepth 20000 in
theorem met_mainsOkRise : ∃ (s : State), s.pwr.mains = false ∧ s.pwr.gasp = none :=
  ⟨pwr (fun p => { p with mains := false }) State.reset, by decide⟩
set_option maxRecDepth 20000 in
theorem met_mainsOkFall : ∃ (s : State), s.pwr.mains = true :=
  ⟨pwr (fun p => { p with mains := true }) State.reset, by decide⟩
set_option maxRecDepth 20000 in
theorem met_mainsLossFiltered : ∃ (s : State), s.pwr.mains = false ∧ s.since s.pwr.mainsAt (s.get PWR_OUTAGE_CFG_filt * ms) = true ∧ s.on PWR_OUTAGE_CFG_battery = true ∧ s.pwr.outage = none :=
  ⟨{ pwr (fun p => { p with mains := false }) (State.reset.put PWR_OUTAGE_CFG_battery 1) with clk := 100000000000 }, by decide⟩
set_option maxRecDepth 20000 in
theorem met_plinthSupplyLow : ∃ (s : State), s.pwr.supplyLow = false :=
  ⟨State.reset, by decide⟩
set_option maxRecDepth 20000 in
theorem met_plinthSupplyRecovery : ∃ (at_ : Nat) (s : State), s.pwr.gasp = some (2, at_) :=
  ⟨0, pwr (fun p => { p with gasp := some (2, 0) }) State.reset, by decide⟩
set_option maxRecDepth 20000 in
theorem met_pwrGaspClr : ∃ (s : State), s.pwr.gasp ≠ none :=
  ⟨pwr (fun p => { p with gasp := some (3, 0) }) State.reset, by decide⟩
set_option maxRecDepth 20000 in
theorem met_gaspAct : ∃ (at_ : Nat) (s : State), s.pwr.gasp = some (2, at_) ∧ s.since at_ (s.get PWR_GASP_act * ms) = true ∧ s.pwr.supplyLow = true :=
  ⟨0, { pwr (fun p => { p with gasp := some (2, 0), supplyLow := true }) State.reset with clk := 100000000000 }, by decide⟩
set_option maxRecDepth 20000 in
theorem met_shedWarning : ∃ (s : State), s.shedding = true ∧ s.pwr.step ≤ s.clk + sec ∧ (s.nextShed.filter (fun n => !bit s.pwr.warned n)) ≠ [] :=
  ⟨shedUp, by decide⟩
set_option maxRecDepth 20000 in
theorem met_shedStep : ∃ (s : State), s.shedding = true ∧ s.pwr.step ≤ s.clk ∧ s.nextShed ≠ [] :=
  ⟨shedUp, by decide⟩
set_option maxRecDepth 20000 in
theorem met_outageEnd : ∃ (s : State), s.pwr.outage ≠ none ∧ s.pwr.mains = true ∧ s.since s.pwr.mainsAt (s.get PWR_OUTAGE_CFG_filt * ms + s.get PWR_OUTAGE_CFG_restore * sec) = true :=
  ⟨{ pwr (fun p => { p with mains := true, outage := some 0 }) State.reset with clk := 100000000000000 }, by decide⟩
set_option maxRecDepth 20000 in
theorem met_sleepAllow : ∃ (msg : List Byte) (s : State), s.inInbox msg 8 = true ∧ byteAt msg 4 = 1 ∧ 10 ≤ beAt msg 5 2 ∧ beAt msg 5 2 ≤ 10000 ∧ (s.tookMsg msg).get ACT_STATUS_state = 4 ∧ (s.tookMsg msg).anyStanding = false :=
  ⟨lineTo 0xFF 8 [1, 0x27, 0x10], (withMsg (lineTo 0xFF 8 [1, 0x27, 0x10])).put ACT_STATUS_state 4, by decide⟩
set_option maxRecDepth 20000 in
theorem met_sleepWithdraw : ∃ (msg : List Byte) (s : State), s.inInbox msg 8 = true ∧ byteAt msg 4 = 0 :=
  ⟨lineTo 0xFF 8 [], withMsg (lineTo 0xFF 8 []), by decide⟩
set_option maxRecDepth 20000 in
theorem met_sleepAllowanceEnd : ∃ (at_ : Nat) (s : State), s.pwr.allow = some at_ ∧ at_ ≤ s.clk :=
  ⟨0, pwr (fun p => { p with allow := some 0 }) State.reset, by decide⟩

/-! ### FlashComplete -/

set_option maxRecDepth 20000 in
theorem met_flashProgramCmd : ∃ (port : Fin 3) (s : State), s.flashRefusal port.val false (s.get (FLC_PORT_ADDR_addr port.val)) ((List.range 8).flatMap (fun w => beBytes 4 (s.get (FLC_PORT_DATA_data port.val w)))) = none ∧ s.unit (s.get (FLC_PORT_ADDR_addr port.val)) ≠ (List.range 8).flatMap (fun w => beBytes 4 (s.get (FLC_PORT_DATA_data port.val w))) :=
  ⟨2, banksOn (State.reset.put (FLC_PORT_ADDR_addr 2) 0x1010000), by decide⟩
set_option maxRecDepth 20000 in
theorem met_flashEraseCmd : ∃ (port : Fin 3) (s : State), s.flashRefusal port.val true (s.get (FLC_PORT_ADDR_addr port.val)) [] = none :=
  ⟨2, banksOn (State.reset.put (FLC_PORT_ADDR_addr 2) 0x1010000), by decide⟩
set_option maxRecDepth 20000 in
theorem met_flashSuspendCmd : ∃ (o : FlashOp) (s : State), s.flc.susp = none ∧ s.flc.active = some o ∧ o.erase = true :=
  ⟨flashOp0 true, flc (fun f => { f with active := some (flashOp0 true) }) State.reset, by decide⟩
set_option maxRecDepth 20000 in
theorem met_flashResumeCmd : ∃ (o : FlashOp) (s : State), s.flc.held = true ∧ s.flc.susp = some o ∧ s.flashActive = false :=
  ⟨flashOp0 true, flc (fun f => { f with susp := some (flashOp0 true), held := true }) State.reset, by decide⟩
set_option maxRecDepth 20000 in
theorem met_flashProgramDone : ∃ (o : FlashOp) (s : State), s.flc.active = some o ∧ o.erase = false :=
  ⟨flashOp0 false, flc (fun f => { f with active := some (flashOp0 false) }) State.reset, by decide⟩
set_option maxRecDepth 20000 in
theorem met_flashProgramDone_2 : ∃ (o : FlashOp) (s : State), s.flc.active = some o ∧ o.erase = false :=
  ⟨flashOp0 false, flc (fun f => { f with active := some (flashOp0 false) }) State.reset, by decide⟩
set_option maxRecDepth 20000 in
theorem met_flashEraseDone : ∃ (o : FlashOp) (s : State), s.flc.active = some o ∧ o.erase = true :=
  ⟨flashOp0 true, flc (fun f => { f with active := some (flashOp0 true) }) State.reset, by decide⟩
set_option maxRecDepth 20000 in
theorem met_flashEraseDone_2 : ∃ (o : FlashOp) (s : State), s.flc.active = some o ∧ o.erase = true :=
  ⟨flashOp0 true, flc (fun f => { f with active := some (flashOp0 true) }) State.reset, by decide⟩
set_option maxRecDepth 20000 in
theorem met_eraseAutoResume : ∃ (s : State), s.flc.held = false ∧ s.since s.flc.lastRead (s.get FLC_CFG_idle * us) = true :=
  ⟨{ State.reset with clk := 1000000000 }, by decide⟩
set_option maxRecDepth 20000 in
theorem met_eraseSlow : ∃ (o : FlashOp) (s : State), s.flc.active = some o ∧ o.late s.clk true = true :=
  ⟨flashOp0 true, { flc (fun f => { f with active := some (flashOp0 true) }) State.reset with clk := 3000000000 }, by decide⟩

/-! ### ResetsComplete -/

set_option maxRecDepth 20000 in
theorem met_bootRom : ∃ (s : State), s.flt.phase = .boot ∧ s.flt.fatal = false :=
  ⟨State.reset, by decide⟩
set_option maxRecDepth 20000 in
theorem met_bringUpComplete : ∃ (s : State), s.flt.phase = .bringUp ∧ s.flt.fatal = false ∧ s.on FLC_BOOT_state = true :=
  ⟨flt (fun f => { f with phase := .bringUp }) (State.reset.put FLC_BOOT_state 1), by decide⟩
set_option maxRecDepth 20000 in
theorem met_rstNAssert : ∃ (s : State), s.flt.rstLow = false :=
  ⟨State.reset, by decide⟩
set_option maxRecDepth 20000 in
theorem met_testEnAssert : ∃ (s : State), s.flt.testEn = false :=
  ⟨State.reset, by decide⟩
set_option maxRecDepth 20000 in
theorem met_warmResetRelease : ∃ (s : State), s.flt.phase = .held ∧ s.since s.flt.resetAt (10 * us) = true ∧ s.flt.rstLow = false ∧ s.flt.testEn = false :=
  ⟨{ flt (fun f => { f with phase := .held }) State.reset with clk := 10000 }, by decide⟩
set_option maxRecDepth 20000 in
theorem met_watchdogExpiry : ∃ (s : State), s.watched = true ∧ s.since s.flt.wdogAt (s.flt.wdogMs * ms) = true :=
  ⟨{ upState with clk := 100000000000000 }, by decide⟩
set_option maxRecDepth 20000 in
theorem met_fltNcmdReset : ∃ (n : Fin 16) (s : State), s.exists_ n.val = true :=
  ⟨0, State.reset, by decide⟩
set_option maxRecDepth 20000 in
theorem met_plinthBrownout_2 : ∃ (s : State), s.on PWR_PLN_STATUS_lp = true :=
  ⟨State.reset.put PWR_PLN_STATUS_lp 1, by decide⟩

/-! ### BlockAndNicheResetsComplete -/

set_option maxRecDepth 20000 in
theorem met_nicheResetComplete : ∃ (n : Fin 16) (s : State), (s.nreset n.val).active = true ∧ (s.nreset n.val).tick < s.tick.edges ∧ s.scrubbed n.val = true :=
  ⟨15, { State.reset with tick := { TickState.reset with edges := 1 }, cel := { CelState.reset with scrub := [] }, nres := List.replicate 16 { NicheReset.none with active := true } }, by decide⟩
set_option maxRecDepth 20000 in
theorem met_nresetSlow : ∃ (n : Fin 16) (s : State), (s.nreset n.val).active = true ∧ (s.nreset n.val).slow = false ∧ s.since (s.nreset n.val).at_ (4 * ms) = true :=
  ⟨15, { upState with clk := 4000000, nres := List.replicate 16 { NicheReset.none with active := true } }, by decide⟩
set_option maxRecDepth 20000 in
theorem met_blockResetDone : ∃ (b : Fin 11) (s : State), bit s.flt.blkActive.toNat b.val = true :=
  ⟨10, flt (fun f => { f with blkActive := 0x7FF }) State.reset, by decide⟩
set_option maxRecDepth 20000 in
theorem met_bankRailClassify : ∃ (b : Fin 5) (s : State), s.get (bankClass b.val) = 0 :=
  ⟨4, State.reset, by decide⟩

end Sys2Proof.Tests
end

section
/-!
PROOFS. The blocks that the EVT-7401 does not have (spec/00_scope.md, R3): what the shared read and the shared write of a register
do at an address of MSH or FIO.
-/

namespace Sys2Proof.Machine

open Sys2Proof

/-- Membership of a half-open address range. -/
theorem within_iff {lo hi a : Nat} : within lo hi a = true ↔ lo ≤ a ∧ a < hi := by
  simp [within]

/-- MSH and FIO lie in the register map, below the classifier table window and the flash window. -/
theorem absentBlock_outside_windows {a : Nat} (ha : absentBlock a = true) :
    within 0x1000000 0x2000000 a = false ∧ within 0x2000000 0x4000000 a = false := by
  have hrange : 0x200000 ≤ a ∧ a < 0x280000 := within_iff.mp ha
  constructor <;> rw [Bool.eq_false_iff, Ne, within_iff] <;> omega

/-- R3: an absent register reads 0, and its read latches, pops and clears nothing. -/
theorem State.readReg_absent {s : State} {a : Nat} (src : Nat) (hpart : s.fuse.is7401 = true) (ha : absentBlock a = true)
    (hreg : assigned a = true) : s.readReg src a = (s, 0) := by
  obtain ⟨htable, hflash⟩ := absentBlock_outside_windows ha
  simp [State.readReg, htable, hflash, hreg, hpart, ha]

/-- R3: a write to an absent register reaches no block; it is logged, whoever writes. -/
theorem State.writeReg_absent {s : State} {a : Nat} (who : Agent) (x : Ambient) (w : Word) (hpart : s.fuse.is7401 = true)
    (ha : absentBlock a = true) (hreg : assigned a = true) (hfatal : s.flt.fatal = false) (hphase : s.flt.phase ≠ .held) :
    s.writeReg who x a w = s.logDev 0x0002 0xF (fdata 0 0 a) := by
  obtain ⟨htable, hflash⟩ := absentBlock_outside_windows ha
  simp [State.writeReg, hfatal, hphase, htable, hflash, hreg, hpart, ha]

/-- An aligned REGISTER_WRITE of the PF is the shared write. -/
theorem exec_registerWrite_pf {addr : BitVec 26} (w : Word) (x : Ambient) (s : State) (haligned : addr.toNat % 4 = 0) :
    exec (.registerWrite .pf addr w x) s = .next (s.writeReg .pf x addr.toNat w) := by
  change execRegisterWrite .pf addr w x s = _
  simp [execRegisterWrite, haligned]

/-- Settles O11: MSH and FIO lie outside the memory windows, so both accesses come to the check of the part number. -/
theorem absentBlocksReadZeroAndRefuseWrites : Obligations.AbsentBlocksReadZeroAndRefuseWrites := by
  intro src addr w x s hpart habsent hreg
  refine ⟨State.readReg_absent src hpart habsent hreg, fun haligned hfatal hphase => ?_⟩
  rw [exec_registerWrite_pf w x s haligned, State.writeReg_absent .pf x w hpart habsent hreg hfatal hphase]

end Sys2Proof.Machine
end

section
/-!
PROOFS. Laws that the statements on the tick rest on: bits and signed fields of a register, the newest record of the device log,
and what the operations of a reset do to the tick.
-/

namespace Sys2Proof.Machine

open Sys2Proof

/-! ### Bits and signed fields -/

theorem bit_eq_testBit (w i : Nat) : bit w i = w.testBit i := by
  rw [Nat.testBit_eq_decide_div_mod_eq]
  rfl

/-- A bit that was marked reads as set, where the field has that bit. -/
theorem State.marked_mark_self {f : Field} {i : Nat} (s : State) (hi : i < f.hi + 1 - f.lo) (h32 : f.hi < 32) :
    (s.mark f i).marked f i = true := by
  have hf : f.lo ≤ f.hi := by omega
  rw [State.marked, State.mark, State.get_put_self s f _ hf h32, bit_eq_testBit, Nat.testBit_mod_two_pow, setBit, Nat.testBit_or]
  simp [hi]

theorem toSigned_mod (n v : Nat) : toSigned n (v % 2 ^ n) = toSigned n v := by
  simp [toSigned]

/-- A number in the range of n signed bits is what its pattern spells. -/
theorem toSigned_ofSigned {n : Nat} {v : Int} (hn : 0 < n) (hlo : -2 ^ (n - 1) ≤ v) (hhi : v < 2 ^ (n - 1)) :
    toSigned n (ofSigned n v) = v := by
  have htwice : (2 : Int) ^ n = 2 * 2 ^ (n - 1) := by rw [← pow_succ', Nat.sub_add_cancel hn]
  have hpattern : ((ofSigned n v % 2 ^ n : Nat) : Int) = v % 2 ^ n := by
    have hpos : (2 : Int) ^ n ≠ 0 := by positivity
    simp [ofSigned, Int.toNat_of_nonneg (Int.emod_nonneg v hpos)]
  have hlt : ofSigned n v % 2 ^ n < 2 ^ (n - 1) ↔ v % 2 ^ n < 2 ^ (n - 1) := by
    rw [← hpattern]
    exact_mod_cast Iff.rfl
  unfold toSigned
  rw [hpattern]
  push_cast
  rcases lt_or_ge v 0 with hneg | hnonneg
  · have hmod : v % 2 ^ n = v + 2 ^ n := by
      rw [← Int.add_emod_right, Int.emod_eq_of_lt] <;> omega
    rw [if_neg (by rw [hlt, hmod]; omega), hmod]
    omega
  · have hmod : v % 2 ^ n = v := Int.emod_eq_of_lt hnonneg (by omega)
    rw [if_pos (by rw [hlt, hmod]; exact hhi), hmod]

/-- A signed field reads as it was written, where the number fits. -/
theorem State.getS_putS_self {f : Field} {v : Int} (s : State) (h : f.lo ≤ f.hi) (h32 : f.hi < 32)
    (hlo : -2 ^ (f.hi - f.lo) ≤ v) (hhi : v < 2 ^ (f.hi - f.lo)) : (s.putS f v).getS f = v := by
  have hwidth : f.hi + 1 - f.lo - 1 = f.hi - f.lo := by omega
  rw [State.getS, State.putS, State.get_put_self s f _ h h32, toSigned_mod]
  exact toSigned_ofSigned (by omega) (by rwa [hwidth]) (by rwa [hwidth])

/-! ### The newest record of the device log -/

@[simp] theorem State.raiseFlt_devLog (s : State) (code : Nat) : (s.raiseFlt code).flt.devLog = s.flt.devLog := by
  unfold State.raiseFlt
  split_ifs <;> simp

theorem State.logDevN_devLog (s : State) (code niche count data : Nat) :
    (s.logDevN code niche count data).flt.devLog = s.flt.devLog.add 64 (s.mkRec code niche count data) := by
  unfold State.logDevN State.when
  split_ifs <;> simp

/-- A record that is logged is the newest of the device log, with its code and the 48 bits of its data. -/
theorem State.logDev_newest (s : State) (code niche data : Nat) :
    ∃ r, (s.logDev code niche data).flt.devLog.recs.head? = some r ∧ r.code = code ∧ r.data = data % 2 ^ 48 := by
  rw [State.logDev, State.logDevN_devLog]
  exact ⟨_, rfl, rfl, rfl⟩

/-! ### The tick under a reset -/

theorem State.each_tick {α : Type} {f : α → State → State} (hf : ∀ x t, (f x t).tick = t.tick) (l : List α) (s : State) :
    (s.each l f).tick = s.tick := by
  induction l generalizing s with
  | nil => rfl
  | cons x l ih => exact (ih (f x s)).trans (hf x s)

theorem State.when_tick {s : State} {c : Bool} {f : State → State} (hf : (f s).tick = s.tick) : (s.when c f).tick = s.tick := by
  unfold State.when
  split
  · exact hf
  · rfl

@[simp] theorem State.safeFor_tick (s : State) (cause : Nat) : (s.safeFor cause).tick = s.tick := by
  unfold State.safeFor
  dsimp only
  split <;> simp

@[simp] theorem State.doutOff_tick (s : State) (k : Nat) : (s.doutOff k).tick = s.tick := by
  simp [State.doutOff, State.when, State.switchDout, State.setDout, apply_ite State.tick]

@[simp] theorem State.keepRogue_tick (t s : State) : (t.keepRogue s).tick = t.tick := by
  unfold State.keepRogue
  split
  · rw [State.put_tick, State.mark_tick, State.putB_tick]
  · rfl

@[simp] theorem State.recordCause_tick (s : State) (cause boot : Nat) : (s.recordCause cause boot).tick = s.tick := by
  unfold State.recordCause
  extract_lets shifted filled
  have hshifted : shifted.tick = s.tick := State.each_tick (fun k t => by rw [State.put_tick, State.put_tick]) _ s
  have hfilled : filled.tick = shifted.tick := (State.put_tick _ _ _).trans (State.put_tick shifted _ _)
  rw [State.put_tick, State.put_tick, hfilled, hshifted]

@[simp] theorem State.latchFatal_tick (s : State) (cause : Nat) : (s.latchFatal cause).tick = s.tick := by
  simp [State.latchFatal, State.each_tick]

theorem survive_tick (s : State) : (survive s).tick = TickState.reset := rfl

/-- R536: a device warm reset leaves the tick engine at its reset values. -/
@[simp] theorem State.warmReset_tick (s : State) (cause : Nat) : (s.warmReset cause).tick = TickState.reset := by
  unfold State.warmReset
  extract_lets device flash boot kept keptFlt held railed
  have hrailed : railed.tick = TickState.reset := (State.put_tick held _ _).trans (survive_tick flash)
  rw [State.recordCause_tick, State.keepRogue_tick]
  split
  · rw [State.put_tick, State.mark_tick, hrailed]
  · exact hrailed

/-- What R539 makes of a fault leaves the tick engine as it is, or at its reset values. -/
theorem State.faultReset_tick (s : State) (cause : Nat) :
    (s.faultReset cause).tick = s.tick ∨ (s.faultReset cause).tick = TickState.reset := by
  unfold State.faultReset
  split_ifs
  · exact .inr (State.warmReset_tick s 8)
  · exact .inl (State.latchFatal_tick s cause)
  · exact .inr (State.warmReset_tick s cause)

end Sys2Proof.Machine
end

section
/-!
PROOFS. The tick (spec/02_the_125_microsecond_tick.md): the length of a tick, the frequency held over, the frame counter as two
registers show it, and a phase above its budget.
-/

namespace Sys2Proof.Machine

open Sys2Proof

/-! ### The length of a tick (R39 to R42) -/

/-- The present tick slews by at most one cycle and is neither shorter nor longer than R39 allows. -/
structure TickState.InBounds (k : TickState) : Prop where
  slew : k.slew.natAbs ≤ 1
  least : 19439 ≤ k.len
  most : k.len ≤ 38879

theorem TickState.reset_inBounds : TickState.reset.InBounds := ⟨by decide, by decide, by decide⟩

theorem State.nextTick_tick (s : State) (n : Nat) (d : Int) : (s.nextTick n d).tick = { s.tick with len := n, slew := d } := by
  simp [State.nextTick]

theorem State.nextTick_inBounds {n : Nat} {d : Int} (s : State) (hd : d.natAbs ≤ 1) (hlo : 19439 ≤ n) (hhi : n ≤ 38879) :
    (s.nextTick n d).tick.InBounds := by
  rw [State.nextTick_tick]
  exact ⟨hd, hlo, hhi⟩

/-- A tick of nominal length that does not slew. -/
theorem State.nominalTick_inBounds (s : State) : (s.nextTick 19440 0).tick.InBounds :=
  s.nextTick_inBounds (by decide) (by decide) (by decide)

theorem State.setAdjust_tick (s : State) (d : Int) : (s.setAdjust d).tick = s.tick := by
  unfold State.setAdjust
  split <;> simp

theorem State.startRelock_tick (s : State) : s.startRelock.tick = s.tick := by
  simp [State.startRelock]

/-- R40 to R42: every tick of a realignment is within the bounds, for an error in the range of R581. -/
theorem State.realign_inBounds {s : State} {e : Option Int} (hslew : s.tick.slew.natAbs ≤ 1)
    (hrange : ∀ v ∈ e, -9719 ≤ v ∧ v ≤ 9720) : (s.realign e).tick.InBounds := by
  unfold State.realign
  match e with
  | none => exact State.nextTick_inBounds _ hslew (by omega) (by omega)
  | some e =>
    obtain ⟨hlo, hhi⟩ := hrange e rfl
    dsimp only
    split_ifs with hzero hnear hearly
    · rw [State.startRelock_tick, State.put_tick, State.satBy_tick, State.put_tick, State.setAdjust_tick]
      exact State.nominalTick_inBounds _
    -- a slew of one cycle (R40)
    · exact State.nextTick_inBounds _ (by decide) (by decide) (by decide)
    · exact State.nextTick_inBounds _ (by decide) (by decide) (by decide)
    -- a stretched tick (R41)
    all_goals
      rw [State.logDev_tick, State.sat_tick]
      exact State.nextTick_inBounds _ (by decide) (by omega) (by omega)

/-- A locked tick has its nominal length. -/
theorem State.lockedEdge_inBounds (s : State) (xo : Int) : (s.lockedEdge xo).tick.InBounds := by
  obtain ⟨hslew, hlo, hhi⟩ := (s.setFc (s.dsl.count + 1)).nominalTick_inBounds
  exact ⟨hslew, hlo, hhi⟩

theorem State.edgeState_inBounds {s : State} {e : Option Int} (xo : Int) (hslew : s.tick.slew.natAbs ≤ 1)
    (hrange : ∀ v ∈ e, -9719 ≤ v ∧ v ≤ 9720) : (s.edgeState xo e).tick.InBounds := by
  unfold State.edgeState
  split <;> dsimp only <;> split
  case h_2.isTrue => exact State.lockedEdge_inBounds _ _
  case h_1.isTrue | h_3.isTrue | h_4.isTrue => exact State.realign_inBounds hslew hrange
  all_goals exact State.nominalTick_inBounds _

/-- R581: an alignment error that is measured lies in its range. -/
theorem State.measuredError_range {s : State} {e : Option Int} : ∀ v ∈ s.measuredError e, -9719 ≤ v ∧ v ≤ 9720 := by
  intro v hv
  obtain ⟨-, hkept⟩ := Option.mem_filter_iff.mp hv
  simp only [Bool.and_eq_true, decide_eq_true_eq] at hkept
  obtain ⟨⟨-, hlo⟩, hhi⟩ := hkept
  exact ⟨hlo, hhi⟩

theorem State.phaseUsed_inBounds {s : State} (p n : Nat) (h : s.tick.InBounds) : (s.phaseUsed p n).tick.InBounds := by
  obtain ⟨hslew, hlo, hhi⟩ := h
  unfold State.phaseUsed State.phaseUsedAfter
  dsimp only
  split
  · rw [State.logDev_tick, State.mark_tick, State.sat_tick]
    exact ⟨hslew, hlo, hhi⟩
  · exact ⟨hslew, hlo, hhi⟩

/-- A tick edge keeps the bounds: it ends in a reset where a phase missed its tick, and else in the tick that the state machine
computed. -/
theorem State.tickEdge_inBounds {s : State} (xo : Int) (e : Option Int) (cycles frac : Nat) (h : s.tick.InBounds) :
    (s.tickEdge xo e cycles frac).tick.InBounds := by
  obtain ⟨hslew, hlo, hhi⟩ := h
  unfold State.tickEdge
  split
  · rcases State.faultReset_tick _ 5 with htick | htick
    · rw [htick, State.safeFor_tick, State.logDev_tick]
      exact ⟨hslew, hlo, hhi⟩
    · rw [htick]
      exact TickState.reset_inBounds
  · extract_lets cleared clearedTick edged decided
    have hcleared : cleared.tick = s.tick := State.when_tick (State.each_tick (fun p t => State.put_tick t _ 0) _ s)
    have hedged : edged.tick.slew.natAbs ≤ 1 := by
      change cleared.tick.slew.natAbs ≤ 1
      rwa [hcleared]
    have hdecided : decided.tick.InBounds := by
      rw [State.put_tick (edged.edgeState xo (edged.measuredError e))]
      exact State.edgeState_inBounds xo hedged State.measuredError_range
    exact State.phaseUsed_inBounds 0 cycles hdecided

/-- Settles O14: the measured error is in range at every edge, and each tick of a realignment is within the bounds for such an
error. -/
theorem tickLengthStaysWithinItsBounds : Obligations.TickLengthStaysWithinItsBounds := by
  refine ⟨fun xo e cycles frac s hslew hlen => ?_, TickState.reset_inBounds.slew, TickState.reset_inBounds.least,
    TickState.reset_inBounds.most⟩
  obtain ⟨hslew', hlo, hhi⟩ := State.tickEdge_inBounds xo e cycles frac ⟨hslew, hlen.1, hlen.2⟩
  exact ⟨hlo, hhi, hslew'⟩

/-! ### The frequency held over (R30, R31) -/

theorem clampInt_bounds {lo hi : Int} (v : Int) (h : lo ≤ hi) : lo ≤ clampInt lo hi v ∧ clampInt lo hi v ≤ hi := by
  unfold clampInt
  omega

theorem clampInt_of_lt {lo hi v : Int} (h : v < lo) : clampInt lo hi v = lo := by
  unfold clampInt
  omega

theorem clampInt_of_gt {lo hi v : Int} (hlohi : lo ≤ hi) (h : hi < v) : clampInt lo hi v = hi := by
  unfold clampInt
  omega

theorem clampInt_of_mem {lo hi v : Int} (hlo : lo ≤ v) (hhi : v ≤ hi) : clampInt lo hi v = v := by
  unfold clampInt
  omega

/-- What holdover takes: the mean clamped to ±50 ppm, with XO_RANGE logged where the mean lies outside. -/
theorem State.holdFreq_of_window {s : State} {mean : Int} (hwindow : (s.tick.meas.drop 16).take 8192 ≠ [])
    (hmean : meanOf ((s.tick.meas.drop 16).take 8192) s.free = mean) :
    ∃ t : State, t.getS TICK_HOLD_FREQ_freq = clampInt (-holdLimit) holdLimit mean ∧ t.flt = s.flt ∧
      s.holdFreq = if mean < -holdLimit ∨ holdLimit < mean then (t.putB TICK_FLAGS_xo_range true).logDev 0x0205 0xF 0 else t := by
  subst hmean
  unfold State.holdFreq
  extract_lets window mean rounded taken
  obtain ⟨hlo, hhi⟩ := clampInt_bounds (lo := -holdLimit) (hi := holdLimit) mean (by decide)
  have hlimit : holdLimit < 2 ^ 31 := by decide
  have hrounded : rounded.flt = s.flt := by simp only [rounded, apply_ite State.flt, State.tookFree_flt, ite_self]
  refine ⟨taken, State.getS_putS_self rounded (by decide) (by decide) (by simp; omega) (by simp; omega), hrounded, ?_⟩
  rw [if_neg (by rwa [List.isEmpty_iff])]

/-- The frequency that holdover takes is the mean, clamped to ±50 ppm, whether or not XO_RANGE is logged. -/
theorem State.holdFreq_getS {s : State} {mean : Int} (hwindow : (s.tick.meas.drop 16).take 8192 ≠ [])
    (hmean : meanOf ((s.tick.meas.drop 16).take 8192) s.free = mean) :
    s.holdFreq.getS TICK_HOLD_FREQ_freq = clampInt (-holdLimit) holdLimit mean := by
  obtain ⟨t, hfreq, -, hhold⟩ := State.holdFreq_of_window hwindow hmean
  rw [hhold, ← hfreq]
  split
  · rw [State.getS, State.logDev_get, State.putB, State.get_put_ne _ _ _ _ (by decide), State.getS]
  · rfl

/-- Settles O15: what holdover takes is the clamped mean, and XO_RANGE is logged just where the clamp acts. -/
theorem holdFrequencyIsClamped : Obligations.HoldFrequencyIsClamped := by
  intro s hwindow
  generalize hmean : meanOf ((s.tick.meas.drop 16).take 8192) s.free = mean
  obtain ⟨t, -, hflt, hhold⟩ := State.holdFreq_of_window hwindow hmean
  obtain ⟨hlo, hhi⟩ := clampInt_bounds (lo := -holdLimit) (hi := holdLimit) mean (by decide)
  rw [State.holdFreq_getS hwindow hmean]
  refine ⟨hlo, hhi, clampInt_of_lt, clampInt_of_gt (by decide), fun houtside => ?_, fun hinside => ⟨?_, ?_⟩⟩
  · obtain ⟨r, hnewest, hcode, -⟩ := (t.putB TICK_FLAGS_xo_range true).logDev_newest 0x0205 0xF 0
    rw [hhold, if_pos (by unfold holdLimit; omega), hnewest, Option.map_some, hcode]
  · exact clampInt_of_mem (by unfold holdLimit; omega) (by unfold holdLimit; omega)
  · rw [hhold, if_neg (by unfold holdLimit; omega), hflt]

/-! ### The frame counter as two registers (R46) -/

@[simp] theorem State.latchHi_latched_self (s : State) (src a : Nat) (w : Word) : (s.latchHi src a w).latched src a = w :=
  storeGet_set_self _ _ _ _

/-- A read of TICK_FC_HI returns what its source has latched. -/
theorem State.readReg_fcHi (s : State) (src : Nat) :
    s.readReg src TICK_FC_HI_fc_hi.addr = (s, s.latched src TICK_FC_HI_fc_hi.addr) := by
  have hassigned : assigned 0x2000C = true := by decide
  have hpresent : absentBlock 0x2000C = false := by decide
  have hlatched : latchedAddr 0x2000C = true := by decide
  simp [State.readReg, within, hassigned, hpresent, hlatched]

/-- Settles O10: the read of the lower half latches the upper half, which the frame counter of a later state does not touch. -/
theorem frameCounterPairShowsOneEdge : Obligations.FrameCounterPairShowsOneEdge := by
  intro who fc s
  refine ⟨(s.readFcLo (agentId who)).answer (agentId who) (BitVec.ofNat 32 s.tick.fc), rfl, rfl, ?_⟩
  rw [State.readReg_fcHi]
  exact State.latchHi_latched_self s _ _ _

/-! ### A phase above its budget (R34 to R36) -/

/-- The largest count that a phase keeps is no part of its budget. -/
theorem State.phaseBudget_put_hwm (s : State) (p v : Nat) : (s.put (TICK_PHASE_HWM_hwm p) v).phaseBudget p = s.phaseBudget p := by
  have hservice : GLB_SERVICE_arm.addr ≠ (TICK_PHASE_HWM_hwm p).addr := by
    dsimp only
    omega
  have hbudget : (TICK_PHASE_BUDGET_budget p).addr ≠ (TICK_PHASE_HWM_hwm p).addr := by
    dsimp only
    omega
  rw [State.phaseBudget, State.phaseBudget, State.on, State.on, State.get_put_ne s _ _ v hservice, State.get_put_ne s _ _ v hbudget]

/-- R36: a phase above its budget inside its window marks its flag, then logs OVERBUDGET with its number. -/
theorem State.phaseUsed_over {s : State} {p n : Nat} (hover : s.phaseBudget p < n) (hwindow : n ≤ phaseLen p) :
    ∃ t : State, s.phaseUsed p n = (t.mark TICK_FLAGS_over_budget p).logDev 0x0201 0xF (fdata p 0 0) := by
  unfold State.phaseUsed State.phaseUsedAfter
  extract_lets counted tick ended
  have hbudget : ended.phaseBudget p = s.phaseBudget p := State.phaseBudget_put_hwm s p _
  rw [if_pos ⟨hbudget ▸ hover, hwindow⟩]
  exact ⟨_, rfl⟩

/-- The index of a record's data is in bits [47:40] (R542). -/
theorem bits_fdata_index {i : Nat} (hi : i < 256) (second value : Nat) : bits (fdata i second value % 2 ^ 48) 47 40 = i := by
  unfold bits fdata
  omega

/-- Settles O9: the flag of the phase is marked before the record, which touches no register. -/
theorem overBudgetPhaseIsLoggedAndFlagged : Obligations.OverBudgetPhaseIsLoggedAndFlagged := by
  intro p cycles s hover hwindow
  obtain ⟨t, hused⟩ := State.phaseUsed_over hover hwindow
  refine ⟨rfl, ?_, ?_⟩
  · rw [hused, State.marked, State.logDev_get]
    exact t.marked_mark_self p.isLt (by decide)
  · obtain ⟨r, hnewest, hcode, hdata⟩ := (t.mark TICK_FLAGS_over_budget p.val).logDev_newest 0x0201 0xF (fdata p.val 0 0)
    rw [hused, hnewest, Option.map_some, hcode, hdata, bits_fdata_index (by omega)]

end Sys2Proof.Machine
end

section
/-!
PROOFS. The decision on a power-mode entry that the MSH block refuses (spec/13_field_mesh.md, R362; R481, R482): who is among the
refusers, and what a refused request leaves in the registers.
-/

namespace Sys2Proof.Machine

open Sys2Proof

/-! ### Sets of bits -/

theorem testBit_setBit (w i j : Nat) : (setBit w i).testBit j = (w.testBit j || decide (i = j)) := by
  rw [setBit, Nat.testBit_or, Nat.testBit_two_pow]

/-- The set of a list, added to the bits that stand. -/
theorem testBit_foldl_setBit (l : List Nat) (w j : Nat) :
    (l.foldl setBit w).testBit j = (w.testBit j || decide (j ∈ l)) := by
  induction l generalizing w with
  | nil => simp
  | cons i l ih => simp [ih, testBit_setBit, Bool.or_assoc, eq_comm (a := i)]

theorem testBit_domainSet (l : List Nat) (j : Nat) : (domainSet l).testBit j = decide (j ∈ l) := by
  simp [domainSet, testBit_foldl_setBit]

/-! ### The refusers (Table 19.2) -/

theorem State.meshRefuses_iff {s : State} : s.meshRefuses = true ↔ s.msh.ind ≠ [] := by
  simp [State.meshRefuses]

theorem State.mesh_mem_localRefusers {s : State} (h : s.meshRefuses = true) : (4, 0x0C) ∈ s.localRefusers := by
  simp [State.localRefusers, h]

/-- The partner's answer takes no other place of the table than PENDANT's, which is 3. -/
theorem State.mem_refusers_of_mem_localRefusers {s : State} {r : Nat × Nat} (h : r ∈ s.localRefusers) (hplace : r.1 ≠ 3) :
    r ∈ s.refusers.1 := by
  unfold State.refusers
  dsimp only
  split
  · have hside : r.1 < 3 ∨ 3 < r.1 := Nat.lt_or_gt_of_ne hplace
    simp only [List.mem_append, List.mem_filter, decide_eq_true_eq]
    exact hside.elim (fun hbefore => .inl (.inl ⟨h, hbefore⟩)) (fun hafter => .inr ⟨h, hafter⟩)
  · exact h

/-- R362: MESH is among the refusers while an indirect entry is held. -/
theorem State.mesh_mem_refusers {s : State} (h : s.msh.ind ≠ []) : (4, 0x0C) ∈ s.refusers.1 :=
  State.mem_refusers_of_mem_localRefusers (State.mesh_mem_localRefusers (State.meshRefuses_iff.mpr h)) (by decide)

/-! ### A refused request (R482) -/

/-- What every pass of a loop leaves alone, the loop leaves alone. -/
theorem State.each_unchanged {α β : Type} (g : State → β) {f : α → State → State} (hf : ∀ x t, g (f x t) = g t) (l : List α)
    (s : State) : g (s.each l f) = g s := by
  induction l generalizing s with
  | nil => rfl
  | cons x l ih => exact (ih (f x s)).trans (hf x s)

/-- A record of another class than ALERT is written to the log of its niche without regard to escalation. -/
theorem State.logNiche_of_not_alert (s : State) (n data : Nat) {code : Nat} (h : classOf code ≠ 1) :
    s.logNiche n code data = s.logNicheRaw n code 1 data false := by
  rw [State.logNiche, State.logNicheN, if_pos h]

/-- The counters of the refusers lie behind every other register of PWR. -/
theorem State.pwrCnt_get {f : Field} (s : State) (n : Nat) (h : f.addr < 0x340100) : (s.pwrCnt n).get f = s.get f :=
  State.get_put_ne s _ f _ (by dsimp only; omega)

/-- s with the registers that show a refused request: the set of the refusers, the first of them, and the target. -/
def State.showRefusal (s : State) (map first m : Nat) : State :=
  let s := (s.put PWR_REFUSE_MAP_blocks map).put PWR_REFUSE_MAP_niches (map / 32)
  (((s.put PWR_LAST_refuser first).put PWR_LAST_target m).put PWR_LAST_outcome 2).put PWR_LAST_wake 0

theorem State.showRefusal_outcome (s : State) (map first m : Nat) : (s.showRefusal map first m).get PWR_LAST_outcome = 2 := by
  rw [State.showRefusal, State.get_put_beside _ _ _ _ (by decide) (by decide) (by decide) (by decide),
    State.get_put_self _ _ _ (by decide) (by decide)]
  rfl

theorem State.showRefusal_blocks (s : State) (map first m : Nat) :
    (s.showRefusal map first m).get PWR_REFUSE_MAP_blocks = map % 2 ^ 5 := by
  simp only [State.showRefusal]
  iterate 4 rw [State.get_put_ne _ _ _ _ (by decide)]
  rw [State.get_put_beside _ _ _ _ (by decide) (by decide) (by decide) (by decide),
    State.get_put_self _ _ _ (by decide) (by decide)]
  rfl

theorem State.showRefusal_mode (s : State) (map first m : Nat) : (s.showRefusal map first m).mode = s.mode := by
  simp only [State.showRefusal, State.mode]
  iterate 6 rw [State.get_put_ne _ _ _ _ (by decide)]

/-- The registers after a refusal: each refuser is counted and the refusal is shown; the records touch no register. -/
theorem State.refuseEntry_get (s : State) (m : Nat) (l : List (Nat × Nat)) (partner : Nat) (f : Field) :
    (s.refuseEntry m l partner).get f = ((s.each l (fun r t => t.pwrCnt r.1)).showRefusal (domainSet (l.map (fun r => r.1)))
      ((l.map (fun r => r.2)).headD 0) m).get f := by
  have hnote : classOf 0x1201 ≠ 1 := by decide
  unfold State.refuseEntry State.pwrLog
  dsimp only
  rw [State.raisePf_get, State.logDev_get,
    State.each_unchanged (fun t => t.get f) (fun r t => by rw [State.logNiche_of_not_alert t _ _ hnote, State.logNicheRaw_get]),
    State.mk_get, State.showRefusal]

/-- A refused request is not retried: no entry is in progress. -/
theorem State.refuseEntry_entry (s : State) (m : Nat) (l : List (Nat × Nat)) (partner : Nat) :
    (s.refuseEntry m l partner).pwr.entry = none := by
  have hnote : classOf 0x1201 ≠ 1 := by decide
  unfold State.refuseEntry State.pwrLog
  dsimp only
  rw [State.raisePf_pwr, State.logDev_pwr,
    State.each_unchanged State.pwr (fun r t => by rw [State.logNiche_of_not_alert t _ _ hnote, State.logNicheRaw_pwr])]

theorem State.refuseEntry_outcome (s : State) (m : Nat) (l : List (Nat × Nat)) (partner : Nat) :
    (s.refuseEntry m l partner).get PWR_LAST_outcome = 2 := by
  rw [State.refuseEntry_get, State.showRefusal_outcome]

/-- Each refusing block has its bit in PWR_REFUSE_MAP. -/
theorem State.refuseEntry_blocks_bit {l : List (Nat × Nat)} {r : Nat × Nat} (s : State) (m partner : Nat) (h : r ∈ l)
    (hblock : r.1 < 5) : bit ((s.refuseEntry m l partner).get PWR_REFUSE_MAP_blocks) r.1 = true := by
  have hmem : r.1 ∈ l.map (fun r => r.1) := List.mem_map_of_mem h
  rw [State.refuseEntry_get, State.showRefusal_blocks, bit_eq_testBit, Nat.testBit_mod_two_pow, testBit_domainSet]
  simp only [hblock, hmem, decide_true, Bool.and_true]

theorem State.refuseEntry_mode (s : State) (m : Nat) (l : List (Nat × Nat)) (partner : Nat) :
    (s.refuseEntry m l partner).mode = s.mode := by
  have hcount : ∀ (r : Nat × Nat) (t : State), (t.pwrCnt r.1).mode = t.mode := fun r t =>
    t.pwrCnt_get r.1 (by decide)
  rw [State.mode, State.refuseEntry_get, ← State.mode, State.showRefusal_mode]
  exact State.each_unchanged State.mode hcount l s

/-! ### The decision (R481) -/

/-- With every answer available and one refuser at least, the request is refused. -/
theorem exec_powerDecision_refused {e : PwrEntry} {s : State} (hentry : s.pwr.entry = some e) (hstage : e.stage = .consent)
    (hasked : e.asked < s.tick.edges) (hanswered : s.awaitsPartner = false) (hrefused : s.refusers.1 ≠ []) :
    exec .powerDecision s = .next (s.refuseEntry e.target s.refusers.1 s.refusers.2) := by
  change execPowerDecision s = _
  simp [execPowerDecision, hentry, hstage, hasked, hanswered, hrefused]

/-- Settles O60: a held indirect entry puts MESH among the refusers, so the decision refuses the request. -/
theorem heldIndirectEntryRefusesPowerEntry : Obligations.HeldIndirectEntryRefusesPowerEntry := by
  intro e s hentry hstage hasked hanswered hheld
  have hmesh : (4, 0x0C) ∈ s.refusers.1 := State.mesh_mem_refusers hheld
  exact ⟨hmesh, _, exec_powerDecision_refused hentry hstage hasked hanswered (List.ne_nil_of_mem hmesh),
    s.refuseEntry_entry _ _ _, s.refuseEntry_outcome _ _ _, s.refuseEntry_blocks_bit _ _ hmesh (by decide),
    s.refuseEntry_mode _ _ _⟩

end Sys2Proof.Machine
end

section
/-!
PROOFS. The open records of the fault logs (spec/22_faults_and_resets.md, R545): which of them a write of FLT_DACK or FLT_NACKn
leaves open, that the request of a niche reset leaves them all open, and that the completion of one closes them.
-/

namespace Sys2Proof.Machine

open Sys2Proof

/-! ### The logs of the niches -/

theorem getD_modify {α : Type} (l : List α) (f : α → α) (d : α) (n k : Nat) :
    (l.modify n f).getD k d = if n = k ∧ k < l.length then f (l.getD k d) else l.getD k d := by
  simp only [List.getD_eq_getElem?_getD, List.getElem?_modify]
  by_cases hk : k < l.length
  · by_cases hn : n = k <;> simp [hk, hn]
  · simp [hk]

/-- A state whose logs are those of s but for niche n's. -/
theorem State.nicheLog_of_modify {s t : State} {n : Nat} {f : FaultLog → FaultLog}
    (h : t.flt.nicheLogs = s.flt.nicheLogs.modify n f) (k : Nat) :
    t.nicheLog k = if n = k ∧ k < s.flt.nicheLogs.length then f (s.nicheLog k) else s.nicheLog k := by
  rw [State.nicheLog, h, getD_modify, ← State.nicheLog]

theorem State.nicheLog_congr {s t : State} (h : t.flt.nicheLogs = s.flt.nicheLogs) (k : Nat) : t.nicheLog k = s.nicheLog k := by
  rw [State.nicheLog, h, ← State.nicheLog]

/-! ### Only an ALERT record opens (R544) -/

@[simp] theorem State.raiseFlt_nicheLogs (s : State) (code : Nat) : (s.raiseFlt code).flt.nicheLogs = s.flt.nicheLogs := by
  unfold State.raiseFlt
  split_ifs <;> simp

@[simp] theorem State.logDev_nicheLogs (s : State) (code niche data : Nat) :
    (s.logDev code niche data).flt.nicheLogs = s.flt.nicheLogs := by
  unfold State.logDev State.logDevN State.when
  split_ifs <;> simp

theorem FaultLog.add_opened (l : FaultLog) (cap : Nat) {r : LogRec} (h : classOf r.code ≠ 1) :
    (l.add cap r).opened = l.opened := if_neg h

theorem State.logNicheRaw_nicheLogs (s : State) (n code count data : Nat) (esc : Bool) :
    (s.logNicheRaw n code count data esc).flt.nicheLogs =
      s.flt.nicheLogs.modify n (fun l => l.add 32 { s.mkRec code n count data with escalated := esc }) := by
  unfold State.logNicheRaw State.when
  dsimp only
  split_ifs <;> simp

theorem State.logNicheRaw_opened (s : State) (n count data : Nat) (esc : Bool) {code : Nat} (h : classOf code ≠ 1) (k : Nat) :
    ((s.logNicheRaw n code count data esc).nicheLog k).opened = (s.nicheLog k).opened := by
  rw [State.nicheLog_of_modify (s.logNicheRaw_nicheLogs n code count data esc)]
  split
  · exact FaultLog.add_opened _ 32 h
  · rfl

/-! ### What a niche reset request stops (R225, R396, R422) logs nothing -/

theorem State.each_flt {α : Type} {f : α → State → State} (hf : ∀ x t, (f x t).flt = t.flt) (l : List α) (s : State) :
    (s.each l f).flt = s.flt := State.each_unchanged State.flt hf l s

@[simp] theorem State.doutOff_flt (s : State) (k : Nat) : (s.doutOff k).flt = s.flt := by
  simp [State.doutOff, State.when, State.switchDout, State.setDout, apply_ite State.flt]

@[simp] theorem State.emptyDin_flt (s : State) (i : Nat) : (s.emptyDin i).flt = s.flt := by
  simp [State.emptyDin]

@[simp] theorem State.dropMembers_flt (s : State) (m : Nat) : (s.dropMembers m).flt = s.flt := by
  simp [State.dropMembers, apply_ite State.flt]

@[simp] theorem State.setCircuit_flt (s : State) (c : Nat) (x : Circuit) : (s.setCircuit c x).flt = s.flt := rfl

@[simp] theorem State.unstart_flt (s : State) (c : Nat) : (s.unstart c).flt = s.flt := by
  rw [State.unstart, State.setCircuit_flt, State.putB_flt]

@[simp] theorem State.stopPoints_flt (s : State) (n : Nat) : (s.stopPoints n).flt = s.flt := by
  simp [State.stopPoints, State.each_flt]

@[simp] theorem stopNiche_flt (s : State) (n : Nat) : (stopNiche s n).flt = s.flt := by
  simp [stopNiche, State.discardLa, State.stopFlows]

/-! ### A niche reset request leaves every open record open (R225, R548, R585) -/

/-- What a request for a niche that exists does after its records are written touches no log. -/
theorem State.requestReset_nicheLogs {s : State} {n : Nat} (hexists : s.exists_ n = true) (cause : Nat) :
    (s.requestReset n cause).flt.nicheLogs = (s.logNicheRaw n 0x1503 1 (fdata n cause 0) false).flt.nicheLogs := by
  simp only [State.requestReset, hexists, Bool.not_true, Bool.false_eq_true, if_false]
  split <;> simp

theorem State.requestReset_opened (s : State) (n cause k : Nat) :
    ((s.requestReset n cause).nicheLog k).opened = (s.nicheLog k).opened := by
  cases hexists : s.exists_ n with
  | false =>
    have habsent : s.requestReset n cause = s.logDev 0x150A n (fdata n 0 0) := by simp [State.requestReset, hexists]
    rw [habsent, State.nicheLog_congr (s.logDev_nicheLogs _ _ _)]
  | true =>
    rw [State.nicheLog_congr (State.requestReset_nicheLogs hexists cause), s.logNicheRaw_opened n _ _ _ (by decide)]

theorem State.requestHeld_nicheLogs (s : State) (n cause : Nat) (h : Hold) :
    (s.requestHeld n cause h).flt.nicheLogs = (s.requestReset n cause).flt.nicheLogs := by
  unfold State.requestHeld
  split
  · rfl
  · rw [State.modNreset_flt]

theorem State.emptySlot_flt (s : State) (k : Nat) : (s.emptySlot k).flt = s.flt := by
  have hcph : ∀ (t : State) (x : CphState), ({ t with cph := x } : State).flt = t.flt := fun _ _ => rfl
  rw [State.emptySlot, hcph, State.put_flt, State.putB_flt]

/-- A re-carve that proceeds requests a reset of its niche, which leaves every open record open. -/
theorem State.requestCarve_opened (s : State) (c : ReadyCarve) (k : Nat) :
    ((s.requestCarve c).nicheLog k).opened = (s.nicheLog k).opened := by
  let u := s.each (s.leaving c.niche c.struct_) (fun k t => t.emptySlot k)
  have hlogs : (s.requestCarve c).flt.nicheLogs = (u.requestReset c.niche 3).flt.nicheLogs :=
    u.requestHeld_nicheLogs c.niche 3 .recarve
  have hemptied : u.flt = s.flt := State.each_flt (fun k t => t.emptySlot_flt k) _ s
  rw [State.nicheLog_congr hlogs, State.requestReset_opened, State.nicheLog_congr (congrArg _ hemptied)]

/-! ### The completion of a niche reset (R227, R545) -/

/-- What a re-carve that waits does once the reset of its niche n completes: it proceeds, unless it had requested that reset. -/
def State.resumeCarve (s : State) (n : Nat) : State :=
  match s.arm.carve with
  | some c => if c.niche = n ∧ !c.requested then s.requestCarve c else s
  | none => s

theorem State.resumeCarve_opened (s : State) (n k : Nat) :
    ((s.resumeCarve n).nicheLog k).opened = (s.nicheLog k).opened := by
  unfold State.resumeCarve
  split
  · split
    · exact s.requestCarve_opened _ k
    · rfl
  · rfl

/-- The log of niche n is closed before a re-carve that waited for the reset proceeds, and the re-carve leaves it closed. -/
theorem State.endNicheReset_eq_resumeCarve (s : State) (n : Nat) :
    ∃ t : State, s.endNicheReset n = t.resumeCarve n ∧
      t.flt.nicheLogs = (s.nicheRegs n).flt.nicheLogs.modify n (fun l => { l with opened := [] }) := by
  refine ⟨_, rfl, ?_⟩
  split <;> rfl

theorem State.endNicheReset_opened (s : State) (n : Nat) : ((s.endNicheReset n).nicheLog n).opened = [] := by
  obtain ⟨t, hend, hlogs⟩ := s.endNicheReset_eq_resumeCarve n
  rw [hend, State.resumeCarve_opened, State.nicheLog_of_modify hlogs]
  split
  · rfl
  · next houtside =>
    have hnone : (s.nicheRegs n).flt.nicheLogs.length ≤ n := by omega
    rw [State.nicheLog, List.getD_eq_default _ _ hnone, FaultLog.empty]

theorem exec_nicheResetComplete {n : Fin 16} {s : State} (hactive : (s.nreset n.val).active = true)
    (hedge : (s.nreset n.val).tick < s.tick.edges) (hscrubbed : s.scrubbed n.val = true) :
    exec (.nicheResetComplete n) s = .next (s.endNicheReset n.val) := by
  change execNicheResetComplete n s = _
  simp [execNicheResetComplete, hactive, hedge, hscrubbed]

/-! ### Acknowledgement (R545) -/

/-- What an acknowledgement of q leaves open is later than q, modulo 2³² within 2³¹. -/
theorem not_ackedBy (q r : Nat) : (!ackedBy q r) = decide (2 ^ 31 ≤ (q + 2 ^ 32 - r % 2 ^ 32) % 2 ^ 32) := by
  simp only [ackedBy, ← decide_not, not_lt]

/-- A fault log: niche log k below 16, the device log at 16. -/
def State.faultLog (s : State) (k : Fin 17) : FaultLog := if k.val = 16 then s.flt.devLog else s.nicheLog k.val

theorem State.faultLog_opened (s : State) (k : Fin 17) :
    (s.faultLog k).opened = if k.val = 16 then s.flt.devLog.opened else (s.nicheLog k.val).opened :=
  apply_ite FaultLog.opened _ _ _

/-- s after a write of q to the acknowledge register of a log. -/
def State.ackLog (s : State) (log : Fin 17) (q : Nat) : State :=
  if log.val = 16 then { s with flt := { s.flt with devLog := s.flt.devLog.ack q } }
  else { s with flt := { s.flt with nicheLogs := s.flt.nicheLogs.modify log.val (fun l => l.ack q) } }

theorem exec_fltLogAck (log : Fin 17) (data : Word) (s : State) :
    exec (.fltLogAck log data) s = .next (s.ackLog log data.toNat) := rfl

theorem State.ackLog_devLog (s : State) (log : Fin 17) (q : Nat) :
    (s.ackLog log q).flt.devLog = if log.val = 16 then s.flt.devLog.ack q else s.flt.devLog := by
  unfold State.ackLog
  split <;> rfl

theorem State.ackLog_nicheLog {s : State} (hlogs : s.flt.nicheLogs.length = 16) (log : Fin 17) (q : Nat) {k : Nat} (hk : k < 16) :
    (s.ackLog log q).nicheLog k = if log.val = k then (s.nicheLog k).ack q else s.nicheLog k := by
  unfold State.ackLog
  split
  · next hdevice =>
    rw [if_neg (by omega)]
    exact State.nicheLog_congr rfl k
  · rw [State.nicheLog_of_modify (s := s) rfl, hlogs]
    simp only [hk, and_true]

/-- R545: the log that is named is acknowledged, every other stands. -/
theorem State.ackLog_faultLog {s : State} (hlogs : s.flt.nicheLogs.length = 16) (log : Fin 17) (q : Nat) (k : Fin 17) :
    (s.ackLog log q).faultLog k = if k = log then (s.faultLog k).ack q else s.faultLog k := by
  unfold State.faultLog
  split
  · next hdevice => simp only [State.ackLog_devLog, Fin.ext_iff, hdevice, eq_comm]
  · next hniche =>
    have hk : k.val < 16 := by omega
    simp only [State.ackLog_nicheLog hlogs log q hk, Fin.ext_iff, eq_comm]

/-- Settles O13: an acknowledgement filters the log that it names, and the completion of a niche reset closes the niche's log,
which a re-carve that then proceeds leaves closed. -/
theorem acknowledgedRecordsAreClosed : Obligations.AcknowledgedRecordsAreClosed := by
  constructor
  · intro log data s hlogs
    refine ⟨_, exec_fltLogAck log data s, fun k => ?_⟩
    rw [← State.faultLog_opened, ← State.faultLog_opened, State.ackLog_faultLog hlogs]
    by_cases hk : k = log
    · simp [hk, FaultLog.ack, not_ackedBy]
    · simp [hk]
  · intro n s hactive hedge hscrubbed
    exact ⟨_, exec_nicheResetComplete hactive hedge hscrubbed, s.endNicheReset_opened n.val⟩

end Sys2Proof.Machine
end

section
/-!
PROOFS. What every step does (spec/00_scope.md, spec/95_what_each_step_holds.md): every command answers a next state, and its
meaning keeps what Keeps states; a step of an empty queue only lets a nanosecond pass.
-/

namespace Sys2Proof.Machine

open Sys2Proof

/-! ### Every command keeps what Keeps states -/

/-- The law of each meaning (Laws/KeepsX.lean), put together over the commands. -/
theorem exec_keeps (c : Instr) (s : State) : KeepsO s (exec c s) := by
  have h := keeps_refl s
  cases c with
  | registerWrite who addr data x => exact execRegisterWrite_keeps h who addr data x
  | narrowAccess who addr write => exact execNarrowAccess_keeps h who addr write
  | absentBlockWrite addr => exact execAbsentBlockWrite_keeps h addr
  | vfUnmappedAccess n off write => exact execVfUnmappedAccess_keeps h n off write
  | pfUnmappedAccess addr write => exact execPfUnmappedAccess_keeps h addr write
  | crossNicheAccess n off => exact execCrossNicheAccess_keeps h n off
  | deniedCompletion => exact execDeniedCompletion_keeps h
  | tickEdge xo e cycles frac link temp => exact execTickEdge_keeps h xo e cycles frac link temp
  | phaseMap cycles waited => exact execPhaseMap_keeps h cycles waited
  | phaseGrant cycles waited => exact execPhaseGrant_keeps h cycles waited
  | phaseAct cycles waited released => exact execPhaseAct_keeps h cycles waited released
  | phaseTdm cycles => exact execPhaseTdm_keeps h cycles
  | phaseTime cycles => exact execPhaseTime_keeps h cycles
  | phaseSched cycles => exact execPhaseSched_keeps h cycles
  | phaseMesh cycles => exact execPhaseMesh_keeps h cycles
  | phaseFio cycles => exact execPhaseFio_keeps h cycles
  | phasePwr cycles => exact execPhasePwr_keeps h cycles
  | phaseCaliper cycles => exact execPhaseCaliper_keeps h cycles
  | phaseReport cycles => exact execPhaseReport_keeps h cycles
  | phaseWindowEnd phase => exact execPhaseWindowEnd_keeps h phase
  | xoLost => exact execXoLost_keeps h
  | tickForceHoldWrite data => exact execTickForceHoldWrite_keeps h data
  | tickHwmClr => exact execTickHwmClr_keeps h
  | tickFcLoRead who => exact execTickFcLoRead_keeps h who
  | armCheck => exact execArmCheck_keeps h
  | armAccept => exact execArmAccept_keeps h
  | armRecarve => exact execArmRecarve_keeps h
  | armCmdMultiBit => exact execArmCmdMultiBit_keeps h
  | armChecksDone => exact execArmChecksDone_keeps h
  | armDigestCompareDone => exact execArmDigestCompareDone_keeps h
  | armatureAcceptance => exact execArmatureAcceptance_keeps h
  | recarveApply => exact execRecarveApply_keeps h
  | armLoadDataWrite data => exact execArmLoadDataWrite_keeps h data
  | armLoadAddrWrite data => exact execArmLoadAddrWrite_keeps h data
  | markerWindowCheck window => exact execMarkerWindowCheck_keeps h window
  | counterBlock line => exact execCounterBlock_keeps h line
  | losRaw asserted => exact execLosRaw_keeps h asserted
  | lolRaw unlocked => exact execLolRaw_keeps h unlocked
  | berWindowEnd epoch => exact execBerWindowEnd_keeps h epoch
  | fragmentRx => exact execFragmentRx_keeps h
  | sduTimeout flow => exact execSduTimeout_keeps h flow
  | keyEpoch msg => exact execKeyEpoch_keeps h msg
  | keyEpochSwitch pair => exact execKeyEpochSwitch_keeps h pair
  | keySlotRetire pair => exact execKeySlotRetire_keeps h pair
  | keyImplicit pair => exact execKeyImplicit_keeps h pair
  | thresholdLoopStep => exact execThresholdLoopStep_keeps h
  | apdLoopStep => exact execApdLoopStep_keeps h
  | loopEnvWrite loop data => exact execLoopEnvWrite_keeps h loop data
  | loopManWrite loop data => exact execLoopManWrite_keeps h loop data
  | loopHoldWrite loop hold => exact execLoopHoldWrite_keeps h loop hold
  | dslFidWrite n data => exact execDslFidWrite_keeps h n data
  | uslFidWrite n data => exact execUslFidWrite_keeps h n data
  | fidChangeApply => exact execFidChangeApply_keeps h
  | multiframeEnd => exact execMultiframeEnd_keeps h
  | pllLockTest burst => exact execPllLockTest_keeps h burst
  | burstCut burst => exact execBurstCut_keeps h burst
  | burstStart burst => exact execBurstStart_keeps h burst
  | burstEnd burst => exact execBurstEnd_keeps h burst
  | pllRelockDone => exact execPllRelockDone_keeps h
  | standingGrant msg => exact execStandingGrant_keeps h msg
  | standingGrantApply index => exact execStandingGrantApply_keeps h index
  | standingRemoveOnAlloc index => exact execStandingRemoveOnAlloc_keeps h index
  | rogueDetect => exact execRogueDetect_keeps h
  | uslSafeClr dark => exact execUslSafeClr_keeps h dark
  | laserLoopStep loop reading => exact execLaserLoopStep_keeps h loop reading
  | apcCalibration colour => exact execApcCalibration_keeps h colour
  | apcStarved colour => exact execApcStarved_keeps h colour
  | assignTn msg => exact execAssignTn_keeps h msg
  | rangeSet msg => exact execRangeSet_keeps h msg
  | twinColourApply => exact execTwinColourApply_keeps h
  | silenceRelease msg => exact execSilenceRelease_keeps h msg
  | silenceSilence msg => exact execSilenceSilence_keeps h msg
  | silenceQuarantine msg => exact execSilenceQuarantine_keeps h msg
  | silenceDeregister msg => exact execSilenceDeregister_keeps h msg
  | ackDownstream msg => exact execAckDownstream_keeps h msg
  | t1Expiry => exact execT1Expiry_keeps h
  | t2Expiry => exact execT2Expiry_keeps h
  | t3Expiry => exact execT3Expiry_keeps h
  | t4Expiry => exact execT4Expiry_keeps h
  | upstreamMsgResend type seq => exact execUpstreamMsgResend_keeps h type seq
  | keyReportReseries seq => exact execKeyReportReseries_keeps h seq
  | silenceReleaseWrite data => exact execSilenceReleaseWrite_keeps h data
  | linkTrainStart => exact execLinkTrainStart_keeps h
  | linkTrainTimeout => exact execLinkTrainTimeout_keeps h
  | linkDown lost => exact execLinkDown_keeps h lost
  | linkMarkerBlock payload spaced => exact execLinkMarkerBlock_keeps h payload spaced
  | stateRecord record => exact execStateRecord_keeps h record
  | consentReq record => exact execConsentReq_keeps h record
  | consentReply record => exact execConsentReply_keeps h record
  | consentTimeout => exact execConsentTimeout_keeps h
  | todRecord record => exact execTodRecord_keeps h record
  | dupUpRecord record => exact execDupUpRecord_keeps h record
  | dupDownRecord record => exact execDupDownRecord_keeps h record
  | spanUpRecord record => exact execSpanUpRecord_keeps h record
  | spanDownRecord record => exact execSpanDownRecord_keeps h record
  | memberRecord record => exact execMemberRecord_keeps h record
  | castRecord record => exact execCastRecord_keeps h record
  | pendantBindSpan msg => exact execPendantBindSpan_keeps h msg
  | pendantBindGuard msg => exact execPendantBindGuard_keeps h msg
  | pendantUnbind msg => exact execPendantUnbind_keeps h msg
  | pendantBindApply => exact execPendantBindApply_keeps h
  | pndCmdUnbind => exact execPndCmdUnbind_keeps h
  | pndGflowWrite n data => exact execPndGflowWrite_keeps h n data
  | cellWaitGrant id => exact execCellWaitGrant_keeps h id
  | cellWaitTimeout id => exact execCellWaitTimeout_keeps h id
  | scrubComplete cell => exact execScrubComplete_keeps h cell
  | descEccError cell => exact execDescEccError_keeps h cell
  | quadrantPark q => exact execQuadrantPark_keeps h q
  | nicheQueueFlush n => exact execNicheQueueFlush_keeps h n
  | nicheResetTxAbort n => exact execNicheResetTxAbort_keeps h n
  | nicheResetComplete n => exact execNicheResetComplete_keeps h n
  | nresetSlow n => exact execNresetSlow_keeps h n
  | calAckWrite data => exact execCalAckWrite_keeps h data
  | celCountLoRead who a count => exact execCelCountLoRead_keeps h who a count
  | ethFrameRx port frame ago => exact execEthFrameRx_keeps h port frame ago
  | pauseExpiry port => exact execPauseExpiry_keeps h port
  | ethTxStart port clear defer => exact execEthTxStart_keeps h port clear defer
  | ethTxComplete port ago => exact execEthTxComplete_keeps h port ago
  | ethCollision port after => exact execEthCollision_keeps h port after
  | ethBackoffExpiry port clear => exact execEthBackoffExpiry_keeps h port clear
  | ethLinkChange port report => exact execEthLinkChange_keeps h port report
  | ethCbsWrite port reg data => exact execEthCbsWrite_keeps h port reg data
  | ethWakeEnable port data => exact execEthWakeEnable_keeps h port data
  | ethBytesLoRead who port sent => exact execEthBytesLoRead_keeps h who port sent
  | classifySdu id ecc => exact execClassifySdu_keeps h id ecc
  | clsUpdWrite o => exact execClsUpdWrite_keeps h o
  | clsUpdRead o => exact execClsUpdRead_keeps h o
  | clsUpdHash o => exact execClsUpdHash_keeps h o
  | clsUpdInvalidate o => exact execClsUpdInvalidate_keeps h o
  | clsUpdComplete o => exact execClsUpdComplete_keeps h o
  | tableWindowWrite offset => exact execTableWindowWrite_keeps h offset
  | clsTreeSelWrite o data => exact execClsTreeSelWrite_keeps h o data
  | treeSwitch o => exact execTreeSwitch_keeps h o
  | treeRetire o => exact execTreeRetire_keeps h o
  | profileApply => exact execProfileApply_keeps h
  | clsNtabWrite o data => exact execClsNtabWrite_keeps h o data
  | ntabClearDone o => exact execNtabClearDone_keeps h o
  | tdmRxFrame t frame smf => exact execTdmRxFrame_keeps h t frame smf
  | tdmTxFrame t => exact execTdmTxFrame_keeps h t
  | tdmDefectChange t raw => exact execTdmDefectChange_keeps h t raw
  | memberSduAccept id => exact execMemberSduAccept_keeps h id
  | memberDown m => exact execMemberDown_keeps h m
  | pmSecondEnd blocks => exact execPmSecondEnd_keeps h blocks
  | tdmCirWrite c data => exact execTdmCirWrite_keeps h c data
  | tdmMemWrite m data => exact execTdmMemWrite_keeps h m data
  | tdmConfigApply => exact execTdmConfigApply_keeps h
  | viewOffsetCmd who view => exact execViewOffsetCmd_keeps h who view
  | viewRateCmd who view => exact execViewRateCmd_keeps h who view
  | viewStepCmd who view => exact execViewStepCmd_keeps h who view
  | timSnap => exact execTimSnap_keeps h
  | timeOfDay msg => exact execTimeOfDay_keeps h msg
  | todApply => exact execTodApply_keeps h
  | servoUpdate servo => exact execServoUpdate_keeps h servo
  | leapAdopt => exact execLeapAdopt_keeps h
  | ptpFrameRx port frame state offset => exact execPtpFrameRx_keeps h port frame state offset
  | ptpMsgSend port body => exact execPtpMsgSend_keeps h port body
  | tsqE0Read who port => exact execTsqE0Read_keeps h who port
  | tinEdge tin rise held frac => exact execTinEdge_keeps h tin rise held frac
  | tinE0Read who tin => exact execTinE0Read_keeps h who tin
  | toutArm who k => exact execToutArm_keeps h who k
  | toutDisarm k => exact execToutDisarm_keeps h k
  | toutFire k => exact execToutFire_keeps h k
  | toutPulseEnd k => exact execToutPulseEnd_keeps h k
  | timCalGo who target => exact execTimCalGo_keeps h who target
  | meshRun => exact execMeshRun_keeps h
  | meshStop => exact execMeshStop_keeps h
  | meshSlotStart locked busy => exact execMeshSlotStart_keeps h locked busy
  | meshAckTimeout => exact execMeshAckTimeout_keeps h
  | meshFrameRx frame => exact execMeshFrameRx_keeps h frame
  | meshDequeue => rw [exec]; exact execMeshDequeue_keeps h
  | indirectExpire => exact execIndirectExpire_keeps h
  | meshStoreExpire => exact execMeshStoreExpire_keeps h
  | seenExpire => exact execSeenExpire_keeps h
  | nodeLost n => exact execNodeLost_keeps h n
  | radioCalibration => exact execRadioCalibration_keeps h
  | calStarved => exact execCalStarved_keeps h
  | ccaLoopStep energies => exact execCcaLoopStep_keeps h energies
  | mshNodeWrite n reg data => exact execMshNodeWrite_keeps h n reg data
  | mshAsnLoRead who => exact execMshAsnLoRead_keeps h who
  | ainSettleStart => exact execAinSettleStart_keeps h
  | ainConversionEnd raw cmLo cmHi inner => exact execAinConversionEnd_keeps h raw cmLo cmHi inner
  | ainValRead who n => exact execAinValRead_keeps h who n
  | fioEnergyCfgWrite reg data => exact execFioEnergyCfgWrite_keeps h reg data
  | loopSetWrite j data => exact execLoopSetWrite_keeps h j data
  | loopTxmWrite who j data => exact execLoopTxmWrite_keeps h who j data
  | ctabCommit => exact execCtabCommit_keeps h
  | ctabActivate => exact execCtabActivate_keeps h
  | loopOverrange j above => exact execLoopOverrange_keeps h j above
  | loopOpen j meas => exact execLoopOpen_keeps h j meas
  | loopRefreshTimeout j => exact execLoopRefreshTimeout_keeps h j
  | fioDieLost => exact execFioDieLost_keeps h
  | dinCrossing n mv frac => exact execDinCrossing_keeps h n mv frac
  | dinEvent n => exact execDinEvent_keeps h n
  | chatterEnd n => exact execChatterEnd_keeps h n
  | dinCfgWrite n data mv => exact execDinCfgWrite_keeps h n data mv
  | dinE0Read who n => exact execDinE0Read_keeps h who n
  | wettingDip mv => exact execWettingDip_keeps h mv
  | wettingDipEnd => exact execWettingDipEnd_keeps h
  | doutCmd k on => exact execDoutCmd_keeps h k on
  | doutClear k => exact execDoutClear_keeps h k
  | doutShort k => exact execDoutShort_keeps h k
  | doutRetry k => exact execDoutRetry_keeps h k
  | doutExtdrv k low => exact execDoutExtdrv_keeps h k low
  | laRequestFetch o desc => exact execLaRequestFetch_keeps h o desc
  | laRefusalComplete o => exact execLaRefusalComplete_keeps h o
  | laComplete o index src aad tag error => exact execLaComplete_keeps h o index src aad tag error
  | cphPlainLoad o slot => exact execCphPlainLoad_keeps h o slot
  | cphUnwrapLoad o slot wslot => exact execCphUnwrapLoad_keeps h o slot wslot
  | cphZero o slot => exact execCphZero_keeps h o slot
  | keyLoadComplete o => exact execKeyLoadComplete_keeps h o
  | cphSlotCfgWrite o slot data => exact execCphSlotCfgWrite_keeps h o slot data
  | secretEnrolCmd => exact execSecretEnrolCmd_keeps h
  | secretClearCmd => exact execSecretClearCmd_keeps h
  | cphEraseCmd => exact execCphEraseCmd_keeps h
  | cipherAlarm source => exact execCipherAlarm_keeps h source
  | alarmRecovery => exact execAlarmRecovery_keeps h
  | rngHealthFail => exact execRngHealthFail_keeps h
  | ringEnable who niche ring data => exact execRingEnable_keeps h who niche ring data
  | ringDisable who niche ring data => exact execRingDisable_keeps h who niche ring data
  | ringDoorbell who niche ring p => exact execRingDoorbell_keeps h who niche ring p
  | rxSduDeliver niche ring addrs => exact execRxSduDeliver_keeps h niche ring addrs
  | txSduFetch niche ring chain data => exact execTxSduFetch_keeps h niche ring chain data
  | ringHoldoffExpiry niche ring => exact execRingHoldoffExpiry_keeps h niche ring
  | dmaError niche ring what => exact execDmaError_keeps h niche ring what
  | busMasterDisable fn rx tx => exact execBusMasterDisable_keeps h fn rx tx
  | vfFlr v => exact execVfFlr_keeps h v
  | pfSideReset kind => exact execPfSideReset_keeps h kind
  | msixUnmask fn vec => exact execMsixUnmask_keeps h fn vec
  | supCsRise partialWord => exact execSupCsRise_keeps h partialWord
  | mbxFrameBad src => exact execMbxFrameBad_keeps h src
  | mbxFlush who box => exact execMbxFlush_keeps h who box
  | supPfTxWrite who box word => exact execSupPfTxWrite_keeps h who box word
  | supPfRxRead who box => exact execSupPfRxRead_keeps h who box
  | mbxEcho src => exact execMbxEcho_keeps h src
  | mbxRegRead src => exact execMbxRegRead_keeps h src
  | mbxRegWrite src x => exact execMbxRegWrite_keeps h src x
  | mbxStatus src => exact execMbxStatus_keeps h src
  | mbxTrustEnrol src => exact execMbxTrustEnrol_keeps h src
  | mbxTrustRevoke src => exact execMbxTrustRevoke_keeps h src
  | mbxSecretEnrol src => exact execMbxSecretEnrol_keeps h src
  | mbxSecretClear src => exact execMbxSecretClear_keeps h src
  | mbxNicheReset src => exact execMbxNicheReset_keeps h src
  | mbxDeviceReset src => exact execMbxDeviceReset_keeps h src
  | mbxResetDeferred => exact execMbxResetDeferred_keeps h
  | castBlock src => exact execCastBlock_keeps h src
  | castBegin src => exact execCastBegin_keeps h src
  | castAbandon src => exact execCastAbandon_keeps h src
  | castVerify src => exact execCastVerify_keeps h src
  | castVerifyDone => exact execCastVerifyDone_keeps h
  | castArm src => exact execCastArm_keeps h src
  | castCommitDurable => exact execCastCommitDurable_keeps h
  | castDisarm src => exact execCastDisarm_keeps h src
  | castQuery src => exact execCastQuery_keeps h src
  | castAtSchedule msg => exact execCastAtSchedule_keeps h msg
  | castAtCancel msg => exact execCastAtCancel_keeps h msg
  | castFreeze => exact execCastFreeze_keeps h
  | castSelectorDurable => exact execCastSelectorDurable_keeps h
  | castSettle => exact execCastSettle_keeps h
  | castFailedStart why => exact execCastFailedStart_keeps h why
  | cartRemoved => exact execCartRemoved_keeps h
  | cartAcceptance identity patina inserted => exact execCartAcceptance_keeps h identity patina inserted
  | busRecovery failed sda => exact execBusRecovery_keeps h failed sda
  | busStuckRetry sda => exact execBusStuckRetry_keeps h sda
  | cartTempPoll temp => exact execCartTempPoll_keeps h temp
  | patinaWrite ok => exact execPatinaWrite_keeps h ok
  | requestPatina msg => exact execRequestPatina_keeps h msg
  | crtRawGo data => exact execCrtRawGo_keeps h data
  | crtRawDone byte => exact execCrtRawDone_keeps h byte
  | powerModeRequest target => exact execPowerModeRequest_keeps h target
  | powerDecision => exact execPowerDecision_keeps h
  | entryNicheResets => exact execEntryNicheResets_keeps h
  | domainGroupOff => exact execDomainGroupOff_keeps h
  | wakeLossWindow rose => exact execWakeLossWindow_keeps h rose
  | powerExit => exact execPowerExit_keeps h
  | domainGroupOn => exact execDomainGroupOn_keeps h
  | wakeNAssert low => exact execWakeNAssert_keeps h low
  | plinthAlarm => exact execPlinthAlarm_keeps h
  | mainsOkRise => exact execMainsOkRise_keeps h
  | mainsLossFiltered => exact execMainsLossFiltered_keeps h
  | plinthSupplyLow => exact execPlinthSupplyLow_keeps h
  | pwrGaspCmd => exact execPwrGaspCmd_keeps h
  | pwrGaspClr => exact execPwrGaspClr_keeps h
  | gaspAct => exact execGaspAct_keeps h
  | shedWarning => exact execShedWarning_keeps h
  | shedStep => exact execShedStep_keeps h
  | outageEnd => exact execOutageEnd_keeps h
  | sleepAllow msg => exact execSleepAllow_keeps h msg
  | sleepWithdraw msg => exact execSleepWithdraw_keeps h msg
  | watchExit => exact execWatchExit_keeps h
  | pwrMaskWrite m hi data => exact execPwrMaskWrite_keeps h m hi data
  | plinthBrownout load => exact execPlinthBrownout_keeps h load
  | flashProgramCmd port => exact execFlashProgramCmd_keeps h port
  | flashEraseCmd port => exact execFlashEraseCmd_keeps h port
  | flashSuspendCmd => exact execFlashSuspendCmd_keeps h
  | flashResumeCmd => exact execFlashResumeCmd_keeps h
  | flashProgramDone ok => exact execFlashProgramDone_keeps h ok
  | flashEraseDone ok => exact execFlashEraseDone_keeps h ok
  | flashWindowRead master addr ecc stall => exact execFlashWindowRead_keeps h master addr ecc stall
  | eraseAutoResume => exact execEraseAutoResume_keeps h
  | eraseSlow => exact execEraseSlow_keeps h
  | bootRom => exact execBootRom_keeps h
  | bringUpComplete => exact execBringUpComplete_keeps h
  | coldReset lost => exact execColdReset_keeps h lost
  | rstNAssert low strap => exact execRstNAssert_keeps h low strap
  | testEnAssert active => exact execTestEnAssert_keeps h active
  | warmResetRelease => exact execWarmResetRelease_keeps h
  | mramEcc => exact execMramEcc_keeps h
  | watchdogKick data => exact execWatchdogKick_keeps h data
  | watchdogExpiry => exact execWatchdogExpiry_keeps h
  | fltCmdWarm => exact execFltCmdWarm_keeps h
  | fltNcmdReset n => exact execFltNcmdReset_keeps h n
  | fltLogAck log data => exact execFltLogAck_keeps h log data
  | fltBlkRstWrite data => exact execFltBlkRstWrite_keeps h data
  | blockResetApply => exact execBlockResetApply_keeps h
  | blockResetDone b => exact execBlockResetDone_keeps h b
  | railExcursion rail out => exact execRailExcursion_keeps h rail out
  | bankRailClassify b v33 hiz => exact execBankRailClassify_keeps h b v33 hiz
  | glbTempRead => exact execGlbTempRead_keeps h
  | huntMarkerMatch window => exact execHuntMarkerMatch_keeps h window
  | supCsFall => exact execSupCsFall_keeps h
  | supWordEdge word => exact execSupWordEdge_keeps h word
  | rngHealthPass => exact execRngHealthPass_keeps h
  | fioDieLinkUp => exact execFioDieLinkUp_keeps h
  | doutExtdrvClear k => exact execDoutExtdrvClear_keeps h k
  | doutRetrySuccess k => exact execDoutRetrySuccess_keeps h k
  | busMasterEnable fn cfg => exact execBusMasterEnable_keeps h fn cfg
  | sleepAllowanceEnd => exact execSleepAllowanceEnd_keeps h
  | plinthSupplyRecovery => exact execPlinthSupplyRecovery_keeps h
  | mainsOkFall => exact execMainsOkFall_keeps h
  | microslotStart k => exact execMicroslotStart_keeps h k

theorem step_of_empty {s : State} (hqueue : s.pending = []) : step s = .next s.idle := by
  simp only [step, hqueue]

/-- A step takes the front command, and keeps the rest of the queue and what Keeps states; with no command only the clock moves. -/
theorem step_keeps {s t : State} (h : step s = .next t) :
    (s.pending = [] ∧ t = { s with clk := s.clk + 1 }) ∨
      ∃ c rest, s.pending = c :: rest ∧ Keeps { s with pending := rest } t := by
  unfold step at h
  split at h
  next c rest hqueue => exact .inr ⟨c, rest, hqueue, exec_keeps c _ t h⟩
  next hqueue =>
    cases h
    exact .inl ⟨hqueue, rfl⟩

/-- Settles O5: a command keeps the canonical form, and a passing nanosecond touches no store. -/
theorem everyStepKeepsTheStores : Obligations.EveryStepKeepsTheStores := by
  intro s t hcanonical h
  rcases step_keeps h with ⟨-, rfl⟩ | ⟨c, rest, -, hkeeps⟩
  · exact hcanonical
  · exact hkeeps.canonical hcanonical

/-- Settles O6: a command keeps the anchors, and a passing nanosecond touches none. -/
theorem everyStepKeepsTheAnchorsOfTrust : Obligations.EveryStepKeepsTheAnchorsOfTrust := by
  intro s t h
  rcases step_keeps h with ⟨-, rfl⟩ | ⟨c, rest, -, hkeeps⟩
  · exact anchored_refl _
  · exact hkeeps.anchored

/-- Settles O7: the two outcomes of a step, an empty queue and a front command, each say what queue, fuses, trace and clock do. -/
theorem everyStepKeepsQueueFusesAndTrace : Obligations.EveryStepKeepsQueueFusesAndTrace := by
  intro s t h
  rcases step_keeps h with ⟨hqueue, rfl⟩ | ⟨c, rest, hqueue, hkeeps⟩
  · simp [hqueue]
  · refine ⟨?_, hkeeps.fuse, hkeeps.sent, ?_⟩
    · rw [hkeeps.pending, hqueue, List.tail_cons]
    · rw [hkeeps.clk, if_neg (by simp [hqueue])]

/-- Settles O1: the front of the queue is what step matches on. -/
theorem stepRunsTheFrontCommand : Obligations.StepRunsTheFrontCommand := by
  intro c s rest
  rfl

/-- Settles O2: with an empty queue step is the idle step. -/
theorem emptyQueueLetsANanosecondPass : Obligations.EmptyQueueLetsANanosecondPass := by
  intro s hqueue
  exact step_of_empty hqueue

/-- Settles O4: the stores of the reset state are empty. -/
theorem resetIsCanonicalAndIdle : Obligations.ResetIsCanonicalAndIdle := ⟨⟨rfl, rfl⟩, rfl, rfl⟩

/-! ### Every command answers a next state -/

/-- An outcome is a next state. -/
def Answered (o : Host.Outcome State Fault Refusal) : Prop := ∃ t, o = .next t

theorem answered_next (t : State) : Answered (.next t) := ⟨t, rfl⟩

/-- The meanings that branch on a condition answer a next state on both sides; those that branch on a find do so on each outcome of
it; every other meaning is a next state as it stands. -/
theorem exec_answered (c : Instr) (s : State) : Answered (exec c s) := by
  cases c
  case berWindowEnd | dslFidWrite | uslFidWrite | phaseMap | phaseGrant | pllRelockDone | standingGrant | standingRemoveOnAlloc |
      rogueDetect | apcCalibration | apcStarved | assignTn | rangeSet | silenceRelease | silenceSilence | silenceQuarantine |
      silenceDeregister | descEccError | nicheQueueFlush | cphSlotCfgWrite | patinaWrite | crtRawGo | huntMarkerMatch =>
    simp only [exec, execBerWindowEnd, execDslFidWrite, execUslFidWrite, execPhaseMap, execPhaseGrant, execPllRelockDone,
      execStandingGrant, execStandingRemoveOnAlloc, execRogueDetect, execApcCalibration, execApcStarved, execAssignTn,
      execRangeSet, execSilenceRelease, execSilenceSilence, execSilenceQuarantine, execSilenceDeregister, execDescEccError,
      execNicheQueueFlush, execCphSlotCfgWrite, execPatinaWrite, execCrtRawGo, execHuntMarkerMatch, apply_ite Answered,
      answered_next, ite_self]
  case keyEpochSwitch | keyImplicit | pllLockTest | burstCut | burstStart | burstEnd | standingGrantApply | ackDownstream |
      upstreamMsgResend | keyReportReseries | cellWaitGrant | cellWaitTimeout | laRefusalComplete | cphPlainLoad | cphUnwrapLoad |
      cphZero | keyLoadComplete | cartAcceptance | cartTempPoll | crtRawDone =>
    simp only [exec, execKeyEpochSwitch, execKeyImplicit, execPllLockTest, execBurstCut, execBurstStart, execBurstEnd,
      execStandingGrantApply, execAckDownstream, execUpstreamMsgResend, execKeyReportReseries, execCellWaitGrant,
      execCellWaitTimeout, execLaRefusalComplete, execCphPlainLoad, execCphUnwrapLoad, execCphZero, execKeyLoadComplete,
      execCartAcceptance, execCartTempPoll, execCrtRawDone]
    repeat' split
    all_goals exact answered_next _
  all_goals exact answered_next _

/-- Settles O3: each meaning is answered. -/
theorem everyCommandAnswersANextState : Obligations.EveryCommandAnswersANextState := exec_answered

end Sys2Proof.Machine
end

section
/-!
PROOFS. The guard window of R201 (spec/07_pendant_mode.md): over copies whose numbers lie within 1,023 of a base, the window knows
its highest number and marks exactly the numbers that it has seen, so each is accepted once.
-/

namespace Sys2Proof.Machine

open Sys2Proof

/-- The number at an offset from the base. -/
def guardNumber (base k : Nat) : Nat := (base + k) % 65536

/-- The window w after the copies at the offsets seen: fresh where there were none; else it stands at the highest offset, and its
mark i says whether the offset i below the highest was seen. -/
inductive GuardWin.Tracks (base : Nat) (seen : List Nat) (w : GuardWin) : Prop where
  | fresh (hstarted : w.started = false) (hnone : seen = [])
  | started (high : Nat) (hstarted : w.started = true) (hhigh : w.high = guardNumber base high) (hspan : high ≤ 1023)
      (hmem : high ∈ seen) (hmax : ∀ k ∈ seen, k ≤ high)
      (hmarks : ∀ i < 1024, w.marks.toNat.testBit i = true ↔ i ≤ high ∧ high - i ∈ seen)

theorem guardNumber_injective {base j k : Nat} (hj : j ≤ 1023) (hk : k ≤ 1023) (h : guardNumber base j = guardNumber base k) :
    j = k := by
  unfold guardNumber at h
  omega

/-- The distance, modulo 65,536, from one number up to a higher one. -/
theorem guardNumber_ahead {base high k : Nat} (h : high ≤ k) (hk : k ≤ 1023) :
    (guardNumber base k + 65536 - guardNumber base high) % 65536 = k - high := by
  unfold guardNumber
  omega

/-- A lower number is not ahead of a higher one: the distance modulo 65,536 passes 32,767. -/
theorem guardNumber_not_ahead {base high k : Nat} (h : k ≤ high) (hhigh : high ≤ 1023) :
    ¬ (1 ≤ (guardNumber base k + 65536 - guardNumber base high) % 65536 ∧
      (guardNumber base k + 65536 - guardNumber base high) % 65536 ≤ 32767) := by
  unfold guardNumber
  omega

theorem testBit_guardMarks (n i : Nat) (hi : i < 1024) : (BitVec.ofNat 1024 n).toNat.testBit i = n.testBit i := by
  rw [BitVec.testBit_toNat, BitVec.getLsbD_ofNat, decide_eq_true hi, Bool.true_and]

/-- The marks moved up by d, with mark 0 set. -/
theorem testBit_shiftedMarks (m : Nat) {d : Nat} (hd : 1 ≤ d) (i : Nat) :
    (m * 2 ^ d + 1).testBit i = true ↔ i = 0 ∨ (d ≤ i ∧ m.testBit (i - d) = true) := by
  have hone : 1 < 2 ^ d := Nat.one_lt_two_pow (by omega)
  rw [Nat.mul_comm, Nat.testBit_two_pow_mul_add m hone i]
  split
  · rw [Nat.testBit_one_eq_true_iff_self_eq_zero]
    omega
  · simp only [show i ≠ 0 by omega, show d ≤ i by omega, false_or, true_and]

/-- The first copy starts the window. -/
theorem GuardWin.take_fresh {base k : Nat} {w : GuardWin} (hstarted : w.started = false) (hk : k ≤ 1023) :
    (w.take (guardNumber base k)).1 = .accept ∧ (w.take (guardNumber base k)).2.1.Tracks base [k] := by
  have htake : w.take (guardNumber base k) = (.accept, .begin (guardNumber base k), false) := by
    simp [GuardWin.take, hstarted]
  rw [htake]
  refine ⟨rfl, .started k rfl rfl hk (by simp) (by simp) fun i hi => ?_⟩
  have hone : (GuardWin.begin (guardNumber base k)).marks.toNat = 1 := BitVec.toNat_one (by decide)
  rw [hone, Nat.testBit_one_eq_true_iff_self_eq_zero, List.mem_singleton]
  omega

/-- A copy above the highest number is accepted and is the new highest. -/
theorem GuardWin.take_ahead {base k high : Nat} {seen : List Nat} {w : GuardWin} (hstarted : w.started = true)
    (hhigh : w.high = guardNumber base high) (hmax : ∀ j ∈ seen, j ≤ high)
    (hmarks : ∀ i < 1024, w.marks.toNat.testBit i = true ↔ i ≤ high ∧ high - i ∈ seen) (hk : k ≤ 1023) (h : high < k) :
    (w.take (guardNumber base k)).1 = .accept ∧ (w.take (guardNumber base k)).2.1.Tracks base (k :: seen) := by
  have hdistance := guardNumber_ahead (base := base) h.le hk
  have htake : w.take (guardNumber base k) =
      (.accept, ⟨true, guardNumber base k, BitVec.ofNat 1024 (w.marks.toNat * 2 ^ (k - high) + 1), 0⟩, false) := by
    simp only [GuardWin.take, hstarted, hhigh, hdistance, Bool.not_true, Bool.false_eq_true, if_false]
    rw [if_pos (by omega)]
  rw [htake]
  refine ⟨rfl, .started k rfl rfl hk (by simp) ?_ fun i hi => ?_⟩
  · intro j hj
    rcases List.mem_cons.mp hj with rfl | hj
    · exact le_rfl
    · exact (hmax j hj).trans h.le
  · rw [testBit_guardMarks _ i hi, testBit_shiftedMarks _ (by omega), hmarks (i - (k - high)) (by omega), List.mem_cons]
    constructor
    · rintro (rfl | ⟨hd, hi', hseen⟩)
      · exact ⟨by omega, .inl (by omega)⟩
      · rw [show high - (i - (k - high)) = k - i by omega] at hseen
        exact ⟨by omega, .inr hseen⟩
    · rintro ⟨hik, hself | hseen⟩
      · exact .inl (by omega)
      · have := hmax _ hseen
        rw [show k - i = high - (i - (k - high)) by omega] at hseen
        exact .inr ⟨by omega, by omega, hseen⟩

/-- A copy at or below the highest number is accepted just where its mark is clear, and its mark is set after it. -/
theorem GuardWin.take_behind {base k high : Nat} {seen : List Nat} {w : GuardWin} (hstarted : w.started = true)
    (hhigh : w.high = guardNumber base high) (hspan : high ≤ 1023) (hmem : high ∈ seen) (hmax : ∀ j ∈ seen, j ≤ high)
    (hmarks : ∀ i < 1024, w.marks.toNat.testBit i = true ↔ i ≤ high ∧ high - i ∈ seen) (h : k ≤ high) :
    ((w.take (guardNumber base k)).1 = .accept ↔ k ∉ seen) ∧ (w.take (guardNumber base k)).2.1.Tracks base (k :: seen) := by
  have hdistance := guardNumber_ahead (base := base) h hspan
  have hmark : bit w.marks.toNat (high - k) = true ↔ k ∈ seen := by
    rw [bit_eq_testBit, hmarks _ (by omega), show high - (high - k) = k by omega]
    simp
  have hmax' : ∀ j ∈ k :: seen, j ≤ high := by
    intro j hj
    rcases List.mem_cons.mp hj with rfl | hj
    · exact h
    · exact hmax j hj
  have htake : w.take (guardNumber base k) = if bit w.marks.toNat (high - k) then (.duplicate, { w with stale := 0 }, false)
      else (.accept, { w with marks := BitVec.ofNat 1024 (setBit w.marks.toNat (high - k)), stale := 0 }, false) := by
    simp only [GuardWin.take, hstarted, hhigh, hdistance, Bool.not_true, Bool.false_eq_true, if_false]
    rw [if_neg (guardNumber_not_ahead h hspan), if_pos (by omega)]
  rw [htake]
  by_cases hseen : k ∈ seen
  · rw [if_pos (hmark.mpr hseen)]
    refine ⟨by simp [hseen], .started high hstarted hhigh hspan (List.mem_cons_of_mem _ hmem) hmax' fun i hi => ?_⟩
    rw [hmarks i hi, List.mem_cons]
    constructor
    · exact fun ⟨hle, hin⟩ => ⟨hle, .inr hin⟩
    · rintro ⟨hle, hself | hin⟩
      · exact ⟨hle, hself ▸ hseen⟩
      · exact ⟨hle, hin⟩
  · rw [if_neg (mt hmark.mp hseen)]
    refine ⟨by simp [hseen], .started high hstarted hhigh hspan (List.mem_cons_of_mem _ hmem) hmax' fun i hi => ?_⟩
    rw [testBit_guardMarks _ i hi, setBit, Nat.testBit_or, Bool.or_eq_true, hmarks i hi, Nat.testBit_two_pow, decide_eq_true_iff,
      List.mem_cons]
    constructor
    · rintro (⟨hle, hin⟩ | rfl)
      · exact ⟨hle, .inr hin⟩
      · exact ⟨by omega, .inl (by omega)⟩
    · rintro ⟨hle, hself | hin⟩
      · exact .inr (by omega)
      · exact .inl ⟨hle, hin⟩

/-- A copy is accepted just where its offset was not seen, and the window tracks it from then on. -/
theorem GuardWin.Tracks.take {base k : Nat} {seen : List Nat} {w : GuardWin} (h : w.Tracks base seen) (hk : k ≤ 1023) :
    ((w.take (guardNumber base k)).1 = .accept ↔ k ∉ seen) ∧ (w.take (guardNumber base k)).2.1.Tracks base (k :: seen) := by
  cases h with
  | fresh hstarted hnone =>
    subst hnone
    obtain ⟨haccept, htracks⟩ := GuardWin.take_fresh (base := base) hstarted hk
    exact ⟨by simp [haccept], htracks⟩
  | started high hstarted hhigh hspan hmem hmax hmarks =>
    rcases Nat.lt_or_ge high k with hahead | hbehind
    · obtain ⟨haccept, htracks⟩ := GuardWin.take_ahead hstarted hhigh hmax hmarks hk hahead
      exact ⟨iff_of_true haccept fun hin => absurd (hmax k hin) (by omega), htracks⟩
    · exact GuardWin.take_behind hstarted hhigh hspan hmem hmax hmarks hbehind

/-- What a window accepts of further copies: each number that was not seen before, once. -/
theorem GuardWin.Tracks.accepted {base : Nat} {ks seen : List Nat} {w : GuardWin} (h : w.Tracks base seen)
    (hks : ∀ k ∈ ks, k ≤ 1023) :
    (w.accepted (ks.map (guardNumber base))).Nodup ∧
      ∀ k ≤ 1023, guardNumber base k ∈ w.accepted (ks.map (guardNumber base)) ↔ k ∈ ks ∧ k ∉ seen := by
  induction ks generalizing seen w with
  | nil => exact ⟨List.nodup_nil, fun k _ => by simp [GuardWin.accepted]⟩
  | cons q ks ih =>
    have hq : q ≤ 1023 := hks q List.mem_cons_self
    obtain ⟨haccept, htracks⟩ := h.take hq
    obtain ⟨hnodup, hmem⟩ := ih htracks fun k hk => hks k (List.mem_cons_of_mem _ hk)
    rw [List.map_cons, GuardWin.accepted]
    by_cases hseen : q ∈ seen
    · rw [if_neg (mt haccept.mp (not_not_intro hseen))]
      refine ⟨hnodup, fun k hk => ?_⟩
      rw [hmem k hk, List.mem_cons, List.mem_cons]
      constructor
      · exact fun ⟨hin, hnew⟩ => ⟨.inr hin, mt .inr hnew⟩
      · rintro ⟨rfl | hin, hnew⟩
        · exact absurd hseen hnew
        · exact ⟨hin, by rintro (rfl | hold) <;> contradiction⟩
    · rw [if_pos (haccept.mpr hseen)]
      refine ⟨List.nodup_cons.mpr ⟨by simp [hmem q hq], hnodup⟩, fun k hk => ?_⟩
      have hself : guardNumber base k = guardNumber base q ↔ k = q := ⟨guardNumber_injective hk hq, congrArg _⟩
      rw [List.mem_cons, hself, hmem k hk, List.mem_cons, List.mem_cons]
      by_cases hkq : k = q
      · simp [hkq, hseen]
      · simp [hkq]

/-- Settles O16: a fresh window tracks no copy. -/
theorem guardWindowDeliversEachNumberOnce : Obligations.GuardWindowDeliversEachNumberOnce := by
  intro base ks hks
  have hfresh : GuardWin.Tracks base [] ⟨false, 0, 0, 0⟩ := .fresh rfl rfl
  obtain ⟨hnodup, hmem⟩ := hfresh.accepted hks
  exact ⟨hnodup, fun k hk => (hmem k (hks k hk)).mpr ⟨hk, List.not_mem_nil⟩⟩

end Sys2Proof.Machine
end

section
/-!
PROOFS. A record of the device log (spec/22_faults_and_resets.md, R542 to R544), and the scrambler of the line
(spec/04_downstream_frames.md, R76).
-/

namespace Sys2Proof.Machine

open Sys2Proof

/-! ### A record of the device log -/

/-- A full log drops its oldest record for the new one. -/
theorem FaultLog.add_recs (l : FaultLog) (cap : Nat) (r : LogRec) :
    ∃ r', (l.add (cap + 1) r).recs = r' :: l.recs.take cap ∧ r'.seq = l.next ∧ r'.code = r.code ∧ r'.niche = r.niche ∧
      r'.fc = r.fc ∧ r'.ts = r.ts ∧ r'.data = r.data := by
  refine ⟨_, List.take_succ_cons, rfl, rfl, rfl, rfl, rfl, rfl⟩

/-- Settles O12: the record goes through FaultLog.add, and what raises its interrupt touches neither logs nor registers. -/
theorem logRecordFrame : Obligations.LogRecordFrame := by
  intro code niche data s
  have hlog : (s.logDev code niche data).flt.devLog = s.flt.devLog.add 64 (s.mkRec code niche 1 data) :=
    s.logDevN_devLog code niche 1 data
  obtain ⟨r, hrecs, hseq, hcode, hniche, hfc, hts, hdata⟩ := s.flt.devLog.add_recs 63 (s.mkRec code niche 1 data)
  rw [hlog, hrecs]
  refine ⟨rfl, ?_, rfl, ?_, s.logDev_word code niche data, s.logDev_nicheLogs code niche data, s.logDev_arm code niche data⟩
  · rw [List.length_cons, List.length_take]
    omega
  · rw [List.head?_cons, Option.map_some, hcode, hniche, hseq, hfc, hts, hdata]
    rfl

/-! ### The scrambler -/

/-- b XORed with the sequence of R76 that follows the 58 bits held in h. -/
def scrambleFrom (h : Nat) : List Byte → List Byte
  | [] => []
  | x :: b => (x ^^^ BitVec.ofNat 8 (scrambleByte h).1) :: scrambleFrom (scrambleByte h).2 b

/-- The accumulator of scramble holds what scrambleFrom has scrambled. -/
theorem scramble_foldl (b done : List Byte) (h : Nat) :
    (b.foldl (fun (a : List Byte × Nat) x =>
      let r := scrambleByte a.2
      (a.1 ++ [x ^^^ BitVec.ofNat 8 r.1], r.2)) (done, h)).1 = done ++ scrambleFrom h b := by
  induction b generalizing done h with
  | nil => rw [scrambleFrom, List.append_nil, List.foldl_nil]
  | cons x b ih => rw [List.foldl_cons, ih, scrambleFrom, List.append_assoc, List.singleton_append]

theorem scramble_eq (b : List Byte) : scramble b = scrambleFrom (2 ^ 58 - 1) b := scramble_foldl b [] _

theorem scrambleFrom_length (h : Nat) (b : List Byte) : (scrambleFrom h b).length = b.length := by
  induction b generalizing h with
  | nil => rfl
  | cons x b ih => rw [scrambleFrom, List.length_cons, List.length_cons, ih]

/-- The sequence does not depend on the bytes, so it cancels itself. -/
theorem scrambleFrom_involutive (h : Nat) (b : List Byte) : scrambleFrom h (scrambleFrom h b) = b := by
  induction b generalizing h with
  | nil => rfl
  | cons x b ih => rw [scrambleFrom, scrambleFrom, ih, BitVec.xor_assoc, BitVec.xor_self, BitVec.xor_zero]

/-- Settles O17: byte by byte the same bits are added twice. -/
theorem descramblingRestoresTheLine : Obligations.DescramblingRestoresTheLine := by
  intro b
  simp only [scramble_eq, scrambleFrom_involutive, scrambleFrom_length, and_self]

end Sys2Proof.Machine
end

section
/-!
PROOFS. Header error control (spec/04_downstream_frames.md, R78, R79): the remainder modulo g(x) is linear over GF(2), so what a
bit in error adds to it tells the bit.
-/

namespace Sys2Proof.Machine

open Sys2Proof

/-! ### The remainder as a recursion over the bits, highest first -/

/-- A 13-bit number reduced modulo g(x). -/
def hecReduce (r : Nat) : Nat := if bit r 12 then (r - 2 ^ 12) ^^^ hecPoly else r

/-- The remainder r with bits n − 1 to 0 of w shifted in. -/
def hecShift : Nat → Nat → Nat → Nat
  | 0, r, _ => r
  | n + 1, r, w => hecShift n (hecReduce (r * 2 + w / 2 ^ n % 2)) w

theorem hecShift_foldl (n r w : Nat) :
    ((List.range n).reverse).foldl (fun r i => hecReduce (r * 2 + w / 2 ^ i % 2)) r = hecShift n r w := by
  induction n generalizing r with
  | zero => rfl
  | succ n ih => rw [List.range_succ, List.reverse_concat, List.foldl_cons, ih, hecShift]

theorem hecRem_eq (n w : Nat) : hecRem n w = hecShift n 0 w := hecShift_foldl n 0 w

/-! ### Linearity -/

/-- Where the low k bits of a sum come from one part and the rest from the other, the sum is an exclusive or. -/
theorem shifted_add_eq_xor (a : Nat) {b k : Nat} (hb : b < 2 ^ k) : 2 ^ k * a + b = 2 ^ k * a ^^^ b := by
  refine Nat.eq_of_testBit_eq fun j => ?_
  rw [Nat.testBit_two_pow_mul_add a hb, Nat.testBit_xor, Nat.testBit_two_pow_mul]
  by_cases hj : j < k
  · simp [hj, show ¬ k ≤ j by omega]
  · have hhigh : b < 2 ^ j := hb.trans_le (Nat.pow_le_pow_right (by decide) (by omega))
    simp [hj, show k ≤ j by omega, Nat.testBit_lt_two_pow hhigh]

theorem appendBit_xor (a b : Nat) {x y : Nat} (hx : x < 2) (hy : y < 2) :
    (a ^^^ b) * 2 + (x ^^^ y) = (a * 2 + x) ^^^ (b * 2 + y) := by
  refine Nat.eq_of_testBit_eq fun j => ?_
  have happend : ∀ c z : Nat, z < 2 → (c * 2 + z).testBit j = if j < 1 then z.testBit j else c.testBit (j - 1) := fun c z hz => by
    rw [Nat.mul_comm, ← Nat.testBit_two_pow_mul_add c hz j, Nat.pow_one]
  have hxor : x ^^^ y < 2 := Nat.xor_lt_two_pow (n := 1) hx hy
  rw [happend _ _ hxor, Nat.testBit_xor (a * 2 + x), happend _ _ hx, happend _ _ hy]
  split <;> rw [Nat.testBit_xor]

/-- The reduction adds x¹² + g(x) where bit 12 is set. -/
theorem hecReduce_eq_xor {r : Nat} (hr : r < 2 ^ 13) : hecReduce r = r ^^^ if r.testBit 12 then 2 ^ 12 ^^^ hecPoly else 0 := by
  rw [hecReduce, bit_eq_testBit]
  split
  · next hset =>
    have hhigh : r / 2 ^ 12 % 2 = 1 := by simpa [Nat.testBit_eq_decide_div_mod_eq] using hset
    have hsum : r = 2 ^ 12 * 1 ^^^ (r - 2 ^ 12) := by
      rw [← shifted_add_eq_xor 1 (by omega)]
      omega
    conv_rhs => rw [hsum]
    rw [Nat.mul_one, Nat.xor_comm (2 ^ 12) (r - 2 ^ 12), Nat.xor_assoc, Nat.xor_xor_cancel_left]
  · rw [Nat.xor_zero]

theorem hecReduce_lt {r : Nat} (hr : r < 2 ^ 13) : hecReduce r < 2 ^ 12 := by
  unfold hecReduce
  split
  · exact Nat.xor_lt_two_pow (by omega) (by decide)
  · next hclear =>
    have hlow : r / 2 ^ 12 % 2 ≠ 1 := by simpa [bit] using hclear
    omega

theorem hecReduce_xor {a b : Nat} (ha : a < 2 ^ 13) (hb : b < 2 ^ 13) : hecReduce (a ^^^ b) = hecReduce a ^^^ hecReduce b := by
  rw [hecReduce_eq_xor (Nat.xor_lt_two_pow ha hb), hecReduce_eq_xor ha, hecReduce_eq_xor hb, Nat.testBit_xor]
  generalize 2 ^ 12 ^^^ hecPoly = m
  cases a.testBit 12 <;> cases b.testBit 12 <;> simp [Nat.xor_left_comm, Nat.xor_comm]

theorem bit_xor (v w n : Nat) : (v ^^^ w) / 2 ^ n % 2 = (v / 2 ^ n % 2) ^^^ (w / 2 ^ n % 2) := by
  rw [Nat.xor_div_two_pow, ← Nat.pow_one 2, Nat.xor_mod_two_pow]

theorem hecShift_lt {r : Nat} (n w : Nat) (hr : r < 2 ^ 12) : hecShift n r w < 2 ^ 12 := by
  induction n generalizing r with
  | zero => exact hr
  | succ n ih => exact ih (hecReduce_lt (by omega))

theorem hecShift_xor {q r : Nat} (n v w : Nat) (hq : q < 2 ^ 12) (hr : r < 2 ^ 12) :
    hecShift n (q ^^^ r) (v ^^^ w) = hecShift n q v ^^^ hecShift n r w := by
  induction n generalizing q r with
  | zero => rfl
  | succ n ih =>
    rw [hecShift, hecShift, hecShift, bit_xor, appendBit_xor q r (Nat.mod_lt _ two_pos) (Nat.mod_lt _ two_pos),
      hecReduce_xor (by omega) (by omega), ih (hecReduce_lt (by omega)) (hecReduce_lt (by omega))]

/-- A polynomial of degree below 12 is its own remainder. -/
theorem hecShift_of_lt {n r w : Nat} (h : r * 2 ^ n + w % 2 ^ n < 2 ^ 12) : hecShift n r w = r * 2 ^ n + w % 2 ^ n := by
  induction n generalizing r with
  | zero => simp [hecShift, Nat.mod_one]
  | succ n ih =>
    have hsplit : r * 2 ^ (n + 1) + w % 2 ^ (n + 1) = (r * 2 + w / 2 ^ n % 2) * 2 ^ n + w % 2 ^ n := by
      rw [Nat.pow_succ, Nat.mod_mul, Nat.add_mul]
      ring
    rw [hsplit] at h ⊢
    have hlow : r * 2 + w / 2 ^ n % 2 < 2 ^ 12 := by
      have := Nat.le_mul_of_pos_right (r * 2 + w / 2 ^ n % 2) (Nat.two_pow_pos n)
      omega
    have hkept : hecReduce (r * 2 + w / 2 ^ n % 2) = r * 2 + w / 2 ^ n % 2 := by
      rw [hecReduce, bit_eq_testBit, Nat.testBit_lt_two_pow hlow, if_neg Bool.false_ne_true]
    rw [hecShift, hkept, ih h]

theorem hecRem_lt (n w : Nat) : hecRem n w < 2 ^ 12 := by
  rw [hecRem_eq]
  exact hecShift_lt n w (by decide)

theorem hecRem_xor (n v w : Nat) : hecRem n (v ^^^ w) = hecRem n v ^^^ hecRem n w := by
  simpa only [hecRem_eq, Nat.xor_zero] using hecShift_xor n v w (q := 0) (r := 0) (by decide) (by decide)

theorem hecRem_of_lt {w : Nat} (h : w < 2 ^ 12) : hecRem 63 w = w := by
  have hmod : w % 2 ^ 63 = w := Nat.mod_eq_of_lt (by omega)
  rw [hecRem_eq, hecShift_of_lt (by omega)]
  omega

/-! ### The codeword -/

/-- The 51 protected bits and their 12 check bits. -/
def hecCode (v : Nat) : Nat := 2 ^ 12 * v + hecRem 63 (2 ^ 12 * v)

theorem hecEncode_eq {v : Nat} (hv : v < 2 ^ 51) : hecEncode v = hecCode v * 2 + parityOf 63 (hecCode v) := by
  rw [hecEncode, Nat.mod_eq_of_lt hv, Nat.mul_comm v, hecCode]

theorem hecCode_lt {v : Nat} (hv : v < 2 ^ 51) : hecCode v < 2 ^ 63 := by
  have := hecRem_lt 63 (2 ^ 12 * v)
  unfold hecCode
  omega

theorem hecCode_content (v : Nat) : hecCode v / 2 ^ 12 = v := by
  have := hecRem_lt 63 (2 ^ 12 * v)
  unfold hecCode
  omega

/-- A codeword is a multiple of g(x). -/
theorem hecRem_hecCode (v : Nat) : hecRem 63 (hecCode v) = 0 := by
  rw [hecCode, shifted_add_eq_xor v (hecRem_lt 63 _), hecRem_xor, hecRem_of_lt (hecRem_lt 63 _), Nat.xor_self]

/-! ### Parity -/

theorem parityOf_succ (n w : Nat) : parityOf (n + 1) w = (w % 2 + parityOf n (w / 2)) % 2 := by
  rw [parityOf, parityOf, popCount, Nat.add_mod_mod]

theorem parityOf_xor (n v w : Nat) : parityOf n (v ^^^ w) = (parityOf n v + parityOf n w) % 2 := by
  induction n generalizing v w with
  | zero => rfl
  | succ n ih =>
    rw [parityOf_succ, parityOf_succ, parityOf_succ, Nat.xor_div_two, ih, Nat.xor_mod_two_eq]
    omega

/-- The parity bit makes the whole field even. -/
theorem parityOf_field (c : Nat) : parityOf 64 (c * 2 + parityOf 63 c) = 0 := by
  have hp : parityOf 63 c < 2 := Nat.mod_lt _ two_pos
  rw [parityOf_succ, show (c * 2 + parityOf 63 c) / 2 = c by omega]
  omega

/-! ### One bit in error -/

set_option maxRecDepth 20000 in
/-- The remainders of the 63 single errors are distinct and not 0. -/
theorem hecRem_single : ∀ j : Fin 63, hecRem 63 (2 ^ j.val) ≠ 0 ∧
    ((List.range 63).map (fun i => (i, hecRem 63 (2 ^ i)))).find? (fun p => p.2 == hecRem 63 (2 ^ j.val)) =
      some (j.val, hecRem 63 (2 ^ j.val)) := by
  decide

set_option maxRecDepth 20000 in
theorem parityOf_single : ∀ i : Fin 64, parityOf 64 (2 ^ i.val) = 1 := by decide

/-- A field without remainder is read as it stands, and is corrected where its parity is odd: the parity bit itself is wrong. -/
theorem hecDecode_of_rem_zero {f : Nat} (hf : f / 2 < 2 ^ 63) (hrem : hecRem 63 (f / 2) = 0) :
    hecDecode f = some (f / 2 / 2 ^ 12, parityOf 64 f == 1) := by
  simp only [hecDecode, Nat.mod_eq_of_lt hf, hrem, if_true]

/-- A field of odd parity with the remainder of one error has that error corrected. -/
theorem hecDecode_of_rem_single {f : Nat} (j : Fin 63) (hf : f / 2 < 2 ^ 63) (hrem : hecRem 63 (f / 2) = hecRem 63 (2 ^ j.val))
    (hodd : parityOf 64 f = 1) : hecDecode f = some ((f / 2 ^^^ 2 ^ j.val) / 2 ^ 12, true) := by
  obtain ⟨hne, hfind⟩ := hecRem_single j
  simp only [hecDecode, Nat.mod_eq_of_lt hf, hrem, hodd, hfind, if_neg hne]
  rfl

/-- Settles O18: the sent field has no remainder and even parity; an inverted bit makes the parity odd and leaves the remainder of
its place, none for the parity bit. -/
theorem hecCorrectsOneError : Obligations.HecCorrectsOneError := by
  intro v hv
  have hparity : parityOf 63 (hecCode v) < 2 := Nat.mod_lt _ two_pos
  have hsent : hecEncode v / 2 = hecCode v := by
    rw [hecEncode_eq hv]
    omega
  have heven : parityOf 64 (hecEncode v) = 0 := by rw [hecEncode_eq hv, parityOf_field]
  have hlt := hecCode_lt hv
  constructor
  · rw [hecDecode_of_rem_zero (by rwa [hsent]) (by rw [hsent, hecRem_hecCode]), hsent, hecCode_content, heven]
    rfl
  · intro i
    have hodd : parityOf 64 (hecEncode v ^^^ 2 ^ i.val) = 1 := by rw [parityOf_xor, heven, parityOf_single]
    have hhalf : (hecEncode v ^^^ 2 ^ i.val) / 2 = hecCode v ^^^ 2 ^ i.val / 2 := by rw [Nat.xor_div_two, hsent]
    rcases Nat.eq_zero_or_pos i.val with hzero | hpos
    · have hclean : (hecEncode v ^^^ 2 ^ i.val) / 2 = hecCode v := by
        rw [hhalf, hzero, Nat.pow_zero, Nat.div_eq_of_lt (by decide), Nat.xor_zero]
      rw [hecDecode_of_rem_zero (by rwa [hclean]) (by rw [hclean, hecRem_hecCode]), hclean, hecCode_content, hodd]
      rfl
    · have hbit : 2 ^ i.val / 2 = 2 ^ (i.val - 1) := by
        rw [Nat.div_eq_iff_eq_mul_left two_pos (dvd_pow_self 2 hpos.ne'), ← Nat.pow_succ, Nat.succ_eq_add_one,
          Nat.sub_add_cancel hpos]
      have herror : (hecEncode v ^^^ 2 ^ i.val) / 2 = hecCode v ^^^ 2 ^ (i.val - 1) := by rw [hhalf, hbit]
      have hplace : 2 ^ (i.val - 1) < 2 ^ 63 := Nat.pow_lt_pow_right (by decide) (by omega)
      rw [hecDecode_of_rem_single ⟨i.val - 1, by omega⟩ (by rw [herror]; exact Nat.xor_lt_two_pow hlt hplace)
        (by rw [herror, hecRem_xor, hecRem_hecCode, Nat.zero_xor]) hodd, herror, Nat.xor_xor_cancel_right, hecCode_content]

end Sys2Proof.Machine
end

section
/-!
PROOFS. Device warm reset (spec/22_faults_and_resets.md, R10, R536, Table 22.2): what each register holds after it, and what of the
state survives it.
-/

namespace Sys2Proof.Machine

open Sys2Proof

/-! ### Registers that are remapped -/

/-- A key below every key of a store is unlisted. -/
theorem storeGet_of_lt {α : Type} {d : Nat → α} {m : List (Nat × α)} {k : Nat} (h : ∀ q ∈ m, k < q.1) : storeGet d m k = d k := by
  induction m with
  | nil => rfl
  | cons p m ih =>
    have hp : p.1 ≠ k := (h p List.mem_cons_self).ne'
    rw [storeGet_cons, if_neg hp, ih fun q hq => h q (List.mem_cons_of_mem _ hq)]

/-- A remap that leaves the reset values alone changes the word of each address. -/
theorem storeGet_remapRegs {m : List (Nat × Word)} {f : Nat → Word → Word} (hwf : storeWf resetWord m = true) {a : Nat}
    (hreset : f a (resetWord a) = resetWord a) : storeGet resetWord (remapRegs m f) a = f a (storeGet resetWord m a) := by
  induction m with
  | nil => exact hreset.symm
  | cons p m ih =>
    obtain ⟨-, hrising, htail⟩ := storeWf_cons.mp hwf
    have hrest := ih htail
    unfold remapRegs at hrest ⊢
    rw [storeGet_cons]
    by_cases hkey : p.1 = a
    · subst hkey
      rw [storeGet_of_lt hrising, hreset] at hrest
      by_cases hdropped : f p.1 p.2 = resetWord p.1
      · rw [List.filterMap_cons_none (by rw [if_pos hdropped]), hrest, if_pos rfl, hdropped]
      · rw [List.filterMap_cons_some (by rw [if_neg hdropped]), storeGet_cons, if_pos rfl, if_pos rfl]
    · rw [if_neg hkey]
      by_cases hdropped : f p.1 p.2 = resetWord p.1
      · rw [List.filterMap_cons_none (by rw [if_pos hdropped]), hrest]
      · rw [List.filterMap_cons_some (by rw [if_neg hdropped]), storeGet_cons, if_neg hkey, hrest]

theorem getLsbD_wordReset (a : Nat) (w : Word) {i : Nat} (hi : i < 32) :
    (wordReset a w).getLsbD i = if (keptBits a).getLsbD i then w.getLsbD i else (resetWord a).getLsbD i := by
  simp only [wordReset, BitVec.getLsbD_or, BitVec.getLsbD_and, BitVec.getLsbD_not, decide_eq_true hi, Bool.true_and]
  cases (keptBits a).getLsbD i <;> simp

theorem wordReset_resetWord (a : Nat) : wordReset a (resetWord a) = resetWord a := by
  refine BitVec.eq_of_getLsbD_eq fun i hi => ?_
  rw [getLsbD_wordReset a _ hi, ite_self]

theorem storeGet_keepRegs {m : List (Nat × Word)} (hwf : storeWf resetWord m = true) (a : Nat) :
    storeGet resetWord (keepRegs m) a = wordReset a (storeGet resetWord m a) :=
  storeGet_remapRegs hwf (wordReset_resetWord a)

theorem testBit_bits (w hi lo j : Nat) : (bits w hi lo).testBit j = (decide (j < hi + 1 - lo) && w.testBit (lo + j)) := by
  rw [bits, Nat.testBit_mod_two_pow, Nat.testBit_div_two_pow, Nat.add_comm j lo]

/-- A field of access code RS keeps its value. -/
theorem bits_wordReset_kept {a hi lo : Nat} (w : Word) (h32 : hi < 32) (hkept : ∀ i ≤ hi, lo ≤ i → (keptBits a).getLsbD i = true) :
    bits (wordReset a w).toNat hi lo = bits w.toNat hi lo := by
  refine Nat.eq_of_testBit_eq fun j => ?_
  rw [testBit_bits, testBit_bits]
  by_cases hj : j < hi + 1 - lo
  · rw [BitVec.testBit_toNat, BitVec.testBit_toNat, getLsbD_wordReset a w (by omega), if_pos (hkept _ (by omega) (by omega))]
  · simp [hj]

/-! ### The stages of a reset -/

theorem State.put_word_ne {a : Nat} {f : Field} (s : State) (v : Nat) (h : a ≠ f.addr) : (s.put f v).word a = s.word a :=
  s.setWord_word_ne _ h

/-- s with the device records that are pending written and the selector write of a Cast freeze done or not (R536, R542): all that
happens in the cycle of the trigger before the domains are held. -/
def State.cutShort (s : State) : State :=
  if s.flushDevice.cst.freezing && s.flushDevice.free % 2 == 1 then s.flushDevice.select (1 - s.flushDevice.activeBank) true 0
  else s.flushDevice

/-- What neither a record of the device log nor a change of the flash touches is as it was. -/
theorem State.cutShort_unchanged {β : Type} (g : State → β) (s : State)
    (hlog : ∀ (t : State) (code niche count data : Nat), g (t.logDevN code niche count data) = g t)
    (hlimited : ∀ (t : State) (l : List LimRec), g { t with flt := { t.flt with limited := l } } = g t)
    (hflash : ∀ (t : State) (x : FlcState), g { t with flc := x } = g t) : g s.cutShort = g s := by
  have hflushed : g s.flushDevice = g s :=
    (hlimited _ _).trans (State.each_unchanged g (f := fun (r : LimRec) t => t.logDevN r.code r.niche r.count r.data) (fun r t => hlog t _ _ _ _) _ s)
  have hunit : ∀ (t : State) (a : Nat) (b : List Byte), g (t.setUnit a b) = g t := fun t a b => hflash t _
  have hselector : ∀ (t : State) (c : Nat) (r : Selector), g (t.putSelector c r) = g t := fun t c r => by
    unfold State.putSelector
    dsimp only
    split
    · exact hunit _ _ _
    · exact (hunit _ _ _).trans (hflash t _)
  unfold State.cutShort
  split
  · exact (hselector _ _ _).trans ((hselector _ _ _).trans hflushed)
  · exact hflushed

/-- Of the resets and logs, the interrupt of a record changes only whether it is deferred. -/
theorem State.raiseFlt_flt (s : State) (code : Nat) : ∃ d, (s.raiseFlt code).flt = { s.flt with deferred := d } := by
  unfold State.raiseFlt
  split_ifs
  · exact ⟨s.flt.deferred, s.raisePf_flt 0⟩
  · exact ⟨s.flt.deferred, s.raisePf_flt 0⟩
  · exact ⟨true, rfl⟩
  · exact ⟨s.flt.deferred, rfl⟩

/-- Of the resets and logs, a record of the device log changes only that log and whether its interrupt is deferred. -/
theorem State.logDevN_flt (s : State) (code niche count data : Nat) :
    ∃ l d, (s.logDevN code niche count data).flt = { s.flt with devLog := l, deferred := d } := by
  have hraised : ∀ t : State, (t.when (classOf code == 1) fun u => u.raisePf 0).flt = t.flt := fun t => by
    unfold State.when
    split
    · exact t.raisePf_flt 0
    · rfl
  obtain ⟨d, hflt⟩ := State.raiseFlt_flt (State.when { s with flt := { s.flt with
    devLog := s.flt.devLog.add 64 (s.mkRec code niche count data) } } (classOf code == 1) fun u => u.raisePf 0) code
  rw [hraised] at hflt
  exact ⟨_, d, hflt⟩

theorem State.logDevN_fatal (s : State) (code niche count data : Nat) :
    (s.logDevN code niche count data).flt.fatal = s.flt.fatal := by
  obtain ⟨l, d, hflt⟩ := s.logDevN_flt code niche count data
  rw [hflt]

@[simp] theorem State.logDev_phase (s : State) (code niche data : Nat) : (s.logDev code niche data).flt.phase = s.flt.phase := by
  obtain ⟨l, d, hflt⟩ := s.logDevN_flt code niche 1 data
  rw [State.logDev, hflt]

theorem State.cutShort_regs (s : State) : s.cutShort.regs = s.regs :=
  State.cutShort_unchanged _ s (fun t _ _ _ _ => by simp) (fun _ _ => rfl) (fun _ _ => rfl)

theorem State.cutShort_arm (s : State) : s.cutShort.arm = s.arm :=
  State.cutShort_unchanged _ s (fun t _ _ _ _ => by simp) (fun _ _ => rfl) (fun _ _ => rfl)

theorem State.cutShort_cph (s : State) : s.cutShort.cph = s.cph :=
  State.cutShort_unchanged _ s (fun t _ _ _ _ => by simp) (fun _ _ => rfl) (fun _ _ => rfl)

theorem State.cutShort_fuse (s : State) : s.cutShort.fuse = s.fuse :=
  State.cutShort_unchanged _ s (fun t _ _ _ _ => by simp) (fun _ _ => rfl) (fun _ _ => rfl)

theorem State.cutShort_fatal (s : State) : s.cutShort.flt.fatal = s.flt.fatal :=
  State.cutShort_unchanged (fun t => t.flt.fatal) s State.logDevN_fatal (fun _ _ => rfl) (fun _ _ => rfl)

/-- What a device warm reset leaves, every domain held, before the registers that a latch or the cause writes. -/
def State.heldReset (s : State) : State :=
  let t : State := survive s
  { t with flt := { t.flt with phase := .held, resetAt := s.clk, bootCount := s.flt.bootCount + 1 } }

/-- The laser in SAFE_OFF where the FATAL latch or the ROGUE latch of s stands. -/
def State.keepLatches (t s : State) : State :=
  (if t.flt.fatal then (t.mark USL_SAFE_cause 3).put USL_STATUS_laser 4 else t).keepRogue s

theorem State.warmReset_eq (s : State) (cause : Nat) :
    s.warmReset cause = ((s.cutShort.heldReset.put GLB_RAIL_within (s.cutShort.get GLB_RAIL_within)).keepLatches s.cutShort).recordCause
      cause ((s.cutShort.flt.bootCount + 1).toNat % 2 ^ 16) := rfl

/-- What every pass of a loop over l leaves alone, the loop leaves alone. -/
theorem State.each_unchanged_of_mem {α β : Type} (g : State → β) {f : α → State → State} {l : List α}
    (hf : ∀ x ∈ l, ∀ t, g (f x t) = g t) (s : State) : g (s.each l f) = g s := by
  induction l generalizing s with
  | nil => rfl
  | cons x l ih =>
    exact (ih (fun y hy => hf y (List.mem_cons_of_mem _ hy)) (f x s)).trans (hf x List.mem_cons_self s)

/-- FLT_CAUSE and its history are all that the record of a cause writes. -/
theorem State.recordCause_word {a : Nat} (s : State) (cause boot : Nat) (hcause : a ≠ FLT_CAUSE_boot.addr)
    (hhist : ∀ k, k < 8 → a ≠ (FLT_CAUSE_HIST_boot k).addr) : (s.recordCause cause boot).word a = s.word a := by
  have hzero : a ≠ (FLT_CAUSE_HIST_boot 0).addr := hhist 0 (by decide)
  unfold State.recordCause
  extract_lets shifted filled
  have hshifted : shifted.word a = s.word a := State.each_unchanged_of_mem (fun t => t.word a) (fun k hk t => by
    have hseven : k < 7 := by simpa using hk
    have hk : a ≠ (FLT_CAUSE_HIST_boot (k + 1)).addr := hhist (k + 1) (by omega)
    rw [State.put_word_ne (f := FLT_CAUSE_HIST_cause (k + 1)) _ _ hk, State.put_word_ne _ _ hk]) s
  have hfilled : filled.word a = shifted.word a := by
    rw [State.put_word_ne (f := FLT_CAUSE_HIST_cause 0) _ _ hzero, State.put_word_ne _ _ hzero]
  rw [State.put_word_ne (f := FLT_CAUSE_cause) _ _ hcause, State.put_word_ne _ _ hcause, hfilled, hshifted]

/-- What the writes of FLT_CAUSE and its history leave of the rest of the state. -/
theorem State.recordCause_unchanged {β : Type} (g : State → β) (s : State) (cause boot : Nat)
    (hput : ∀ (t : State) (f : Field) (v : Nat), g (t.put f v) = g t) : g (s.recordCause cause boot) = g s := by
  unfold State.recordCause
  extract_lets shifted filled
  have hshifted : g shifted = g s := State.each_unchanged g (fun k t => by rw [hput, hput]) _ s
  rw [hput, hput, hput, hput, hshifted]

theorem State.keepLatches_word {a : Nat} (t s : State)
    (h : t.flt.fatal = true ∨ s.on USL_SAFE_rogue_latched = true → a ≠ USL_SAFE_cause.addr ∧ a ≠ USL_STATUS_laser.addr) :
    (t.keepLatches s).word a = t.word a := by
  have hfatal : (if t.flt.fatal then (t.mark USL_SAFE_cause 3).put USL_STATUS_laser 4 else t).word a = t.word a := by
    split
    · next hlatched =>
      obtain ⟨hsafe, hstatus⟩ := h (.inl hlatched)
      rw [State.put_word_ne _ _ hstatus, State.mark, State.put_word_ne _ _ hsafe]
    · rfl
  unfold State.keepLatches State.keepRogue
  split
  · next hlatched =>
    obtain ⟨hsafe, hstatus⟩ := h (.inr hlatched)
    rw [State.put_word_ne _ _ hstatus, State.mark, State.put_word_ne _ _ hsafe, State.putB,
      State.put_word_ne (f := USL_SAFE_rogue_latched) _ _ hsafe, hfatal]
  · exact hfatal

theorem State.keepLatches_unchanged {β : Type} (g : State → β) (t s : State)
    (hput : ∀ (u : State) (f : Field) (v : Nat), g (u.put f v) = g u) : g (t.keepLatches s) = g t := by
  unfold State.keepLatches State.keepRogue
  split_ifs <;> simp only [State.mark, State.putB, hput]

theorem State.heldReset_word {s : State} (hwf : storeWf resetWord s.regs = true) (a : Nat) :
    s.heldReset.word a = wordReset a (s.word a) := storeGet_keepRegs hwf a

/-- A write of a register is all that a warm reset does after the domains are held. -/
theorem State.warmReset_unchanged {β : Type} (g : State → β) (s : State) (cause : Nat)
    (hput : ∀ (u : State) (f : Field) (v : Nat), g (u.put f v) = g u) : g (s.warmReset cause) = g s.cutShort.heldReset := by
  rw [State.warmReset_eq, State.recordCause_unchanged g _ _ _ hput, State.keepLatches_unchanged g _ _ hput, hput]

/-- Settles O20: the registers that survive are remapped, and the words that the latches and the cause write are the ones named. -/
theorem warmResetReturnsRegisters : Obligations.WarmResetReturnsRegisters := by
  intro cause a s hcause hhist hrail hcanonical hlatches
  have hword : s.cutShort.word a = s.word a := congrArg (storeGet resetWord · a) s.cutShort_regs
  have hlatches' : s.cutShort.flt.fatal = true ∨ s.cutShort.on USL_SAFE_rogue_latched = true →
      a ≠ USL_SAFE_cause.addr ∧ a ≠ USL_STATUS_laser.addr := by
    simpa only [s.cutShort_fatal, State.on, State.get, State.word, s.cutShort_regs] using hlatches
  rw [State.warmReset_eq, State.recordCause_word _ _ _ hcause hhist, State.keepLatches_word (s.cutShort.heldReset.put _ _) _ hlatches',
    State.put_word_ne _ _ hrail, State.heldReset_word (by rw [s.cutShort_regs]; exact hcanonical.1), hword]

/-! ### What survives -/

/-- R168: the fields of ACT_SILENCE are of access code RS. -/
theorem State.warmReset_silence {f : Field} (s : State) (cause : Nat) (hcanonical : s.canonical) (haddr : f.addr = 0x80014)
    (h32 : f.hi < 32) (hkept : ∀ i ≤ f.hi, f.lo ≤ i → (keptBits 0x80014).getLsbD i = true) :
    (s.warmReset cause).get f = s.get f := by
  have hword : (s.warmReset cause).word f.addr = wordReset f.addr (s.word f.addr) := by
    refine warmResetReturnsRegisters cause f.addr s ?_ ?_ ?_ hcanonical fun _ => ?_ <;> rw [haddr] <;> decide
  rw [State.get, hword, haddr, bits_wordReset_kept _ h32 hkept, ← haddr, State.get]

/-- The latch of a ROGUE is no RS bit: where nothing carries it over it is clear. -/
theorem bits_wordReset_rogue (w : Word) :
    bits (wordReset USL_SAFE_rogue_latched.addr w).toNat USL_SAFE_rogue_latched.hi USL_SAFE_rogue_latched.lo = 0 := by
  refine Nat.eq_of_testBit_eq fun j => ?_
  rw [testBit_bits, Nat.zero_testBit]
  by_cases hj : j = 0
  · subst hj
    have hkept : (keptBits 0x60010).getLsbD 28 = false := by decide
    have hreset : (resetWord 0x60010).getLsbD 28 = false := by decide
    rw [BitVec.testBit_toNat, getLsbD_wordReset _ _ (by decide), hkept, hreset]
    rfl
  · simp [hj]

/-- The ROGUE latch of s is carried over (assumption 99), and the FATAL latch does not touch it. -/
theorem State.keepLatches_rogue (t s : State) :
    (t.keepLatches s).get USL_SAFE_rogue_latched = if s.on USL_SAFE_rogue_latched then 1 else t.get USL_SAFE_rogue_latched := by
  have hlaser : ∀ (u : State) (v i : Nat), ((u.mark USL_SAFE_cause i).put USL_STATUS_laser v).get USL_SAFE_rogue_latched =
      u.get USL_SAFE_rogue_latched := fun u v i => by
    rw [State.get_put_ne _ _ _ _ (by decide), State.mark, State.get_put_beside _ _ _ _ (by decide) (by decide) (by decide) (by decide)]
  unfold State.keepLatches State.keepRogue
  split
  · rw [hlaser, State.putB, State.get_put_self _ _ _ (by decide) (by decide)]
    rfl
  · split
    · exact hlaser _ _ _
    · rfl

theorem State.warmReset_rogue (s : State) (cause : Nat) (hcanonical : s.canonical) :
    (s.warmReset cause).on USL_SAFE_rogue_latched = s.on USL_SAFE_rogue_latched := by
  have hcarried : s.cutShort.on USL_SAFE_rogue_latched = s.on USL_SAFE_rogue_latched := by
    rw [State.on, State.get, State.word, s.cutShort_regs, ← State.word, ← State.get, ← State.on]
  have hclear : (s.cutShort.heldReset.put GLB_RAIL_within (s.cutShort.get GLB_RAIL_within)).get USL_SAFE_rogue_latched = 0 := by
    rw [State.get_put_ne _ _ _ _ (by decide), State.get, State.heldReset_word (by rw [s.cutShort_regs]; exact hcanonical.1)]
    exact bits_wordReset_rogue _
  have hlatch : (s.warmReset cause).get USL_SAFE_rogue_latched = if s.on USL_SAFE_rogue_latched then 1 else 0 := by
    rw [State.warmReset_eq, State.get, State.recordCause_word _ _ _ (by decide) (by decide), ← State.get,
      State.keepLatches_rogue, hcarried, hclear]
  rw [State.on, hlatch]
  cases s.on USL_SAFE_rogue_latched <;> rfl

/-- Every domain is held from the cycle of the trigger on. -/
theorem State.warmReset_phase (s : State) (cause : Nat) : (s.warmReset cause).flt.phase = .held :=
  State.warmReset_unchanged (fun t => t.flt.phase) s cause fun _ _ _ => rfl

/-- Settles O21: what is no register stands as survive leaves it, and the registers named are RS bits or the latch carried over. -/
theorem warmResetKeepsWhatSurvives : Obligations.WarmResetKeepsWhatSurvives := by
  intro cause s hcanonical
  have harm : (s.warmReset cause).arm = { ArmState.reset with trust := s.arm.trust, floor := s.arm.floor } := by
    rw [State.warmReset_unchanged State.arm s cause fun _ _ _ => rfl, ← s.cutShort_arm]
    rfl
  have hfatal : (s.warmReset cause).flt.fatal = s.flt.fatal :=
    (State.warmReset_unchanged (fun t => t.flt.fatal) s cause fun _ _ _ => rfl).trans s.cutShort_fatal
  have hcph : (s.warmReset cause).cph = { CphState.reset with sealed := s.cph.sealed } := by
    rw [State.warmReset_unchanged State.cph s cause fun _ _ _ => rfl, ← s.cutShort_cph]
    rfl
  have hfuse : (s.warmReset cause).fuse = s.fuse :=
    (State.warmReset_unchanged State.fuse s cause fun _ _ _ => rfl).trans s.cutShort_fuse
  have hlogs : (s.warmReset cause).flt.nicheLogs = FltState.reset.nicheLogs :=
    State.warmReset_unchanged (fun t => t.flt.nicheLogs) s cause fun _ _ _ => rfl
  have hnres : (s.warmReset cause).nres = State.reset.nres := State.warmReset_unchanged State.nres s cause fun _ _ _ => rfl
  rw [harm, hcph]
  exact ⟨rfl, rfl, hfatal, rfl, hfuse, s.warmReset_silence cause hcanonical rfl (by decide) (by decide),
    s.warmReset_silence cause hcanonical rfl (by decide) (by decide),
    s.warmReset_silence cause hcanonical rfl (by decide) (by decide), s.warmReset_rogue cause hcanonical,
    s.warmReset_phase cause, rfl, rfl, hlogs, hnres⟩

end Sys2Proof.Machine
end

section
/-!
PROOFS. The loops (spec/04_downstream_frames.md, R107 to R110), the disabled laser (spec/05_upstream_bursts.md, R536), a reset
request for a niche that does not exist (spec/22_faults_and_resets.md, R585), and the registers after reset.
-/

namespace Sys2Proof.Machine

open Sys2Proof

/-! ### How a loop's fields lie -/

/-- The envelope of a loop lies in a register of its own, its flags beside its output, and every output inside its envelope has a
pattern. -/
structure LoopDesc.Laid (d : LoopDesc) : Prop where
  hiApart : d.hi.addr ≠ d.out.addr
  loApart : d.lo.addr ≠ d.out.addr
  conv : d.conv.addr = d.out.addr ∧ d.out.hi < d.conv.lo ∧ d.conv.lo = d.conv.hi ∧ d.conv.hi < 32
  pinHi : d.pinHi.addr = d.out.addr ∧ d.out.hi < d.pinHi.lo ∧ d.pinHi.lo = d.pinHi.hi ∧ d.pinHi.hi < 32
  pinLo : d.pinLo.addr = d.out.addr ∧ d.out.hi < d.pinLo.lo ∧ d.pinLo.lo = d.pinLo.hi ∧ d.pinLo.hi < 32
  out : d.out.lo = 0 ∧ d.out.hi < 32
  width : d.hi.hi - d.hi.lo ≤ d.out.hi
  signed : d.signed = true → 7 ≤ d.out.hi

theorem loopDesc_laid (l : Fin 7) : (loopDesc l.val).Laid := by
  fin_cases l <;> exact ⟨by decide, by decide, by decide, by decide, by decide, by decide, by decide, by decide⟩

/-- A flag of a loop's status register leaves its output and its envelope alone. -/
theorem LoopDesc.Laid.get_putB {d : LoopDesc} (h : d.Laid) {flag g : Field}
    (hflag : flag.addr = d.out.addr ∧ d.out.hi < flag.lo ∧ flag.lo = flag.hi ∧ flag.hi < 32) (hg : g = d.out ∨ g = d.lo ∨ g = d.hi)
    (s : State) (b : Bool) : (s.putB flag b).get g = s.get g := by
  obtain ⟨haddr, habove, hone, h32⟩ := hflag
  rcases hg with rfl | rfl | rfl
  · exact s.get_put_beside _ _ _ hone.le h32 (by rw [h.out.1]; exact Nat.zero_le _) (.inl habove)
  · exact s.get_put_ne _ _ _ (haddr ▸ h.loApart)
  · exact s.get_put_ne _ _ _ (haddr ▸ h.hiApart)

/-! ### What the steps of a loop write -/

theorem State.setOut_get (s : State) (l : Nat) (d : LoopDesc) (v : Int) (g : Field) :
    (s.setOut l d v).get g = (s.put d.out (d.pattern v)).get g := by
  unfold State.setOut
  split <;> rfl

/-- The bounds of a loop stand when its output is set. -/
theorem State.setOut_bounds {d : LoopDesc} (h : d.Laid) (s : State) (l : Nat) (v : Int) :
    (s.setOut l d v).loopLo d = s.loopLo d ∧ (s.setOut l d v).loopHi d = s.loopHi d := by
  rw [State.loopLo, State.loopLo, State.loopHi, State.loopHi, State.setOut_get, State.setOut_get,
    State.get_put_ne _ _ _ _ h.loApart, State.get_put_ne _ _ _ _ h.hiApart]
  exact ⟨rfl, rfl⟩

theorem toSigned_bounds (v : Nat) : -128 ≤ toSigned 8 v ∧ toSigned 8 v ≤ 127 := by
  unfold toSigned
  split <;> omega

theorem State.get_le_fieldMax (s : State) (f : Field) : s.get f < 2 ^ (f.hi + 1 - f.lo) := Nat.mod_lt _ (by positivity)

/-- An output inside the envelope reads as it was set. -/
theorem State.setOut_out {d : LoopDesc} (h : d.Laid) (s : State) (l : Nat) {v : Int} (hlo : s.loopLo d ≤ v) (hhi : v ≤ s.loopHi d) :
    (s.setOut l d v).loopOut d = v := by
  obtain ⟨hzero, h32⟩ := h.out
  rw [State.loopOut, State.setOut_get, State.get_put_self _ _ _ (by omega) h32, hzero, Nat.sub_zero]
  unfold State.loopLo at hlo
  unfold State.loopHi at hhi
  unfold LoopDesc.value LoopDesc.pattern at *
  cases hsigned : d.signed
  · simp only [hsigned, Bool.false_eq_true, if_false] at hlo hhi ⊢
    have hmax : s.get d.hi < 2 ^ (d.out.hi + 1) :=
      (s.get_le_fieldMax d.hi).trans_le (Nat.pow_le_pow_right two_pos (by have := h.width; omega))
    rw [Nat.mod_eq_of_lt (by omega)]
    omega
  · simp only [hsigned, if_true] at hlo hhi ⊢
    obtain ⟨hleast, -⟩ := toSigned_bounds (s.get d.lo)
    obtain ⟨-, hmost⟩ := toSigned_bounds (s.get d.hi)
    have hwidth : 2 ^ 8 ∣ 2 ^ (d.out.hi + 1) := pow_dvd_pow 2 (by have := h.signed hsigned; omega)
    rw [← toSigned_mod, Nat.mod_mod_of_dvd _ hwidth, toSigned_mod]
    exact toSigned_ofSigned (by decide) (by omega) (by omega)

/-- The output and the envelope of a loop are those of another state. -/
def State.SameLoop (d : LoopDesc) (s t : State) : Prop :=
  t.loopLo d = s.loopLo d ∧ t.loopHi d = s.loopHi d ∧ t.loopOut d = s.loopOut d

theorem State.sameLoop_of_get {d : LoopDesc} {s t : State} (h : ∀ g, g = d.out ∨ g = d.lo ∨ g = d.hi → t.get g = s.get g) :
    State.SameLoop d s t := by
  unfold State.SameLoop State.loopLo State.loopHi State.loopOut
  rw [h d.out (.inl rfl), h d.lo (.inr (.inl rfl)), h d.hi (.inr (.inr rfl))]
  exact ⟨rfl, rfl, rfl⟩

theorem State.conv_sameLoop {d : LoopDesc} (h : d.Laid) (s : State) (b : Bool) : State.SameLoop d s (s.putB d.conv b) :=
  State.sameLoop_of_get fun _ hg => h.get_putB h.conv hg s b

theorem State.pinned_sameLoop {d : LoopDesc} (h : d.Laid) (s : State) (b c : Bool) :
    State.SameLoop d s ((s.putB d.pinHi b).putB d.pinLo c) :=
  State.sameLoop_of_get fun _ hg => (h.get_putB h.pinLo hg _ c).trans (h.get_putB h.pinHi hg s b)

/-- What pins the loop at a bound writes its flags and logs. -/
theorem State.pin_sameLoop {d : LoopDesc} (h : d.Laid) (s : State) (l side : Nat) : State.SameLoop d s (s.pin l d side) := by
  have hpinned := State.pinned_sameLoop h s (side == 1) (side == 0)
  unfold State.pin
  extract_lets pinned
  split
  · exact hpinned
  · refine State.sameLoop_of_get fun g hg => ?_
    have hflags : pinned.get g = s.get g := (h.get_putB h.pinLo hg _ _).trans (h.get_putB h.pinHi hg s _)
    rw [← hflags]
    unfold State.when
    split
    · rw [State.raisePf_get, State.logDev_get, State.mk_get]
    · rw [State.logDev_get, State.mk_get]

/-- s moved by a step of one loop: its bounds stand, its output stays within them and moves by at most one. -/
def State.LoopMoved (d : LoopDesc) (s t : State) : Prop :=
  t.loopLo d = s.loopLo d ∧ t.loopHi d = s.loopHi d ∧ s.loopLo d ≤ t.loopOut d ∧ t.loopOut d ≤ s.loopHi d ∧
    (t.loopOut d - s.loopOut d).natAbs ≤ 1

theorem State.loopMoved_of_same {d : LoopDesc} {s t : State} (h : State.SameLoop d s t) (hlo : s.loopLo d ≤ s.loopOut d)
    (hhi : s.loopOut d ≤ s.loopHi d) : State.LoopMoved d s t := by
  obtain ⟨hlo', hhi', hout⟩ := h
  rw [State.LoopMoved, hout]
  exact ⟨hlo', hhi', hlo, hhi, by omega⟩

/-- An output set one step away, inside the envelope of a state whose loop is that of s. -/
theorem State.loopMoved_of_setOut {d : LoopDesc} {s u : State} (hlaid : d.Laid) (h : State.SameLoop d s u) (l : Nat) {v : Int}
    (hlo : s.loopLo d ≤ v) (hhi : v ≤ s.loopHi d) (hstep : (v - s.loopOut d).natAbs ≤ 1) :
    State.LoopMoved d s (u.setOut l d v) := by
  obtain ⟨hlo', hhi', -⟩ := h
  obtain ⟨hlo'', hhi''⟩ := State.setOut_bounds hlaid u l v
  rw [State.LoopMoved, State.setOut_out hlaid u l (by rwa [hlo']) (by rwa [hhi'])]
  exact ⟨hlo''.trans hlo', hhi''.trans hhi', hlo, hhi, hstep⟩

/-- Settles O22: inside its envelope a loop stays, is held, is pinned at the bound it would pass, or moves by one towards the other. -/
theorem loopOutputStaysInItsEnvelope : Obligations.LoopOutputStaysInItsEnvelope := by
  intro l want held s hlo hhi
  have hlaid := loopDesc_laid l
  change State.LoopMoved (loopDesc l.val) s (s.loopStep l.val want held)
  unfold State.loopStep
  generalize loopDesc l.val = d at *
  extract_lets d' out lo hi running
  have hsame : State.SameLoop d s running := State.conv_sameLoop hlaid s false
  have hfree : State.SameLoop d s (running.unpin d) := by
    obtain ⟨hlo₁, hhi₁, hout₁⟩ := hsame
    obtain ⟨hlo₂, hhi₂, hout₂⟩ := State.pinned_sameLoop hlaid running false false
    exact ⟨hlo₂.trans hlo₁, hhi₂.trans hhi₁, hout₂.trans hout₁⟩
  have hpin : ∀ side, State.SameLoop d s (running.pin l.val d side) := fun side => by
    obtain ⟨hlo₁, hhi₁, hout₁⟩ := hsame
    obtain ⟨hlo₂, hhi₂, hout₂⟩ := State.pin_sameLoop hlaid running l.val side
    exact ⟨hlo₂.trans hlo₁, hhi₂.trans hhi₁, hout₂.trans hout₁⟩
  subst d' out lo hi
  rw [if_neg (by omega), if_neg (by omega)]
  split_ifs
  · exact State.loopMoved_of_same hsame hlo hhi
  · exact State.loopMoved_of_same (hpin 1) hlo hhi
  · exact State.loopMoved_of_setOut hlaid hfree l.val (by omega) (by omega) (by omega)
  · exact State.loopMoved_of_same (hpin 0) hlo hhi
  · exact State.loopMoved_of_setOut hlaid hfree l.val (by omega) (by omega) (by omega)
  · exact State.loopMoved_of_same hfree hlo hhi

/-! ### The disabled laser -/

/-- In SAFE_OFF the laser is disabled. -/
theorem State.txDisable_of_safeOff {s : State} (h : s.get USL_STATUS_laser = 4) : s.txDisable = true := by
  simp [State.txDisable, h]

theorem State.txDisable_of_no_cartridge {s : State} (h : s.on GLB_SERVICE_cart = false) : s.txDisable = true := by
  simp [State.txDisable, h]

theorem State.txDisable_of_held {s : State} (h : s.flt.phase = .held) : s.txDisable = true := by
  simp [State.txDisable, h]

/-- Without a cartridge or with a cause of SAFE_OFF the laser state is SAFE_OFF (R467, Table 5.8). -/
theorem State.syncLaser_safeOff {s : State} (h : s.get USL_SAFE_cause ≠ 0 ∨ s.on GLB_SERVICE_cart = false) :
    s.syncLaser.get USL_STATUS_laser = 4 := by
  rw [State.syncLaser, if_pos (by rcases h with h | h <;> simp [h]), State.get_put_self _ _ _ (by decide) (by decide)]
  rfl

/-- The laser is in SAFE_OFF from a cause on (R150). -/
theorem State.setSafe_laser (s : State) {cause : Nat} (h : cause < 5) : (s.setSafe cause true).get USL_STATUS_laser = 4 := by
  have hset : (s.put USL_SAFE_cause (setBit (s.get USL_SAFE_cause) cause)).get USL_SAFE_cause ≠ 0 := by
    rw [State.get_put_self _ _ _ (by decide) (by decide)]
    intro hzero
    have hbit : (setBit (s.get USL_SAFE_cause) cause % 2 ^ 5).testBit cause = false := by
      rw [show setBit (s.get USL_SAFE_cause) cause % 2 ^ 5 = 0 from hzero, Nat.zero_testBit]
    rw [Nat.testBit_mod_two_pow, testBit_setBit] at hbit
    simp [h] at hbit
  have hlaser : (s.put USL_SAFE_cause (setBit (s.get USL_SAFE_cause) cause)).syncLaser.syncUp.get USL_STATUS_laser = 4 := by
    rw [State.syncUp, State.putB, State.get_put_ne _ _ _ _ (by decide), State.syncLaser_safeOff (.inl hset)]
  simp only [State.setSafe, if_true]
  split
  · rw [State.logDev_get, hlaser]
  · exact hlaser

/-- A cartridge that goes leaves none accepted. -/
theorem State.cartGone_cart (s : State) : s.cartGone.on GLB_SERVICE_cart = false := by
  unfold State.cartGone
  split
  · extract_lets cleared oldCrt ended
    have hcleared : ended.endSet.get GLB_SERVICE_cart = 0 := by
      change ((s.putB GLB_SERVICE_cart false).putB CRT_STATUS_accepted false).get GLB_SERVICE_cart = 0
      rw [State.putB, State.get_put_ne _ _ _ _ (by decide), State.putB, State.get_put_self _ _ _ (by decide) (by decide)]
      rfl
    have hsynced : ended.endSet.syncUp.syncLaser.get GLB_SERVICE_cart = 0 := by
      rw [State.syncLaser, apply_ite State.get, ite_apply, apply_ite State.get, ite_apply,
        State.get_put_ne _ _ _ _ (by decide), State.get_put_ne _ _ _ _ (by decide), ite_self, ite_self, State.syncUp, State.putB,
        State.get_put_beside _ _ _ _ (by decide) (by decide) (by decide) (by decide), hcleared]
    rw [State.crtLog, State.raisePf_on, State.logDev_on, State.on, hsynced]
    rfl
  · next hgone => simpa using hgone

theorem exec_cartRemoved (s : State) : exec .cartRemoved s = .next (s.putB CRT_STATUS_present false).cartGone := rfl

/-- The third trip of the rogue guard, or an earlier one, ends in SAFE_OFF with the ROGUE cause. -/
theorem exec_rogueDetect_setSafe {s : State} (h : bit (s.get USL_SAFE_cause) 0 = false) :
    ∃ u : State, exec .rogueDetect s = .next (u.setSafe 0 true) := by
  change ∃ u : State, execRogueDetect s = _
  simp only [execRogueDetect, h, Bool.false_eq_true, if_false]
  exact ⟨_, rfl⟩

/-- Settles O24: a reset holds the domains, a cartridge that goes is accepted no more, and a trip enters SAFE_OFF. -/
theorem laserIsDisabledWhereItMustBe : Obligations.LaserIsDisabledWhereItMustBe := by
  refine ⟨fun s cause => State.txDisable_of_held (s.warmReset_phase cause), State.txDisable_of_no_cartridge (by decide),
    fun s => ⟨_, exec_cartRemoved s, State.txDisable_of_no_cartridge (State.cartGone_cart _)⟩, fun s hclear => ?_⟩
  obtain ⟨u, hexec⟩ := exec_rogueDetect_setSafe hclear
  exact ⟨_, hexec, State.txDisable_of_safeOff (u.setSafe_laser (by decide))⟩

/-! ### A reset request for an absent niche -/

theorem State.requestReset_absent {s : State} {n : Nat} (h : s.exists_ n = false) (cause : Nat) :
    s.requestReset n cause = s.logDev 0x150A n (fdata n 0 0) := by
  rw [State.requestReset, h, Bool.not_false, if_pos rfl]

/-- Settles O23: the request is only logged, and the mailbox that asked, still served, gets NO_NICHE. -/
theorem resetOfAnAbsentNicheOnlyLogs : Obligations.ResetOfAnAbsentNicheOnlyLogs := by
  constructor
  · intro n s habsent
    rw [← State.requestReset_absent habsent 5]
    rfl
  · intro src r s hserves htype hop habsent
    have hup : ((s.tookReq src r).logDev 0x150A r.niche (fdata r.niche 0 0)).flt.phase ≠ .held := by
      rw [State.logDev_phase, State.tookReq_flt, State.serves_up hserves]
      decide
    change execMbxNicheReset src s = _
    rw [execMbxNicheReset, State.serve_responds hserves (by simp [htype, hop])
      (by rw [State.requestReset_absent habsent]; exact hup), State.requestReset_absent habsent, habsent]
    rfl

/-! ### Registers after reset -/

set_option maxRecDepth 20000 in
/-- Settles O8: no word of the reset state is stored, so each field is read from the Reset column of its row. -/
theorem resetRegisterValues : Obligations.ResetRegisterValues := by
  unfold Obligations.ResetRegisterValues
  decide

end Sys2Proof.Machine
end

section
/-!
PROOFS. Where the commands of the tick and of the downstream line complete (spec/02_the_125_microsecond_tick.md,
spec/04_downstream_frames.md), after laws on what a one-bit field and a conditional update come to.
-/

namespace Sys2Proof.Machine

open Sys2Proof

/-! ### One-bit fields and conditional updates -/

@[simp] theorem State.when_true (s : State) (f : State → State) : s.when true f = f s := rfl
@[simp] theorem State.when_false (s : State) (f : State → State) : s.when false f = s := rfl

/-- A one-bit field reads as it was set. -/
theorem State.on_putB_self (s : State) (f : Field) (b : Bool) (hone : f.hi = f.lo) (h32 : f.hi < 32) : (s.putB f b).on f = b := by
  rw [State.on, State.putB, State.get_put_self s f _ hone.ge h32, hone, Nat.add_sub_cancel_left]
  cases b <;> rfl

theorem State.on_put_ne (s : State) (f g : Field) (v : Nat) (h : g.addr ≠ f.addr) : (s.put f v).on g = s.on g := by
  rw [State.on, State.get_put_ne s f g v h, State.on]

theorem State.on_put_beside (s : State) (f g : Field) (v : Nat) (h : f.lo ≤ f.hi) (h32 : f.hi < 32) (hg : g.lo ≤ g.hi)
    (hd : g.hi < f.lo ∨ f.hi < g.lo) : (s.put f v).on g = s.on g := by
  rw [State.on, State.get_put_beside s f g v h h32 hg hd, State.on]

/-! ### The tick -/

/-- Settles O25: each meaning of a tick command, under the hypotheses of its clause, comes to the branch that the clause gives. -/
theorem tickEdgeCompletes : Obligations.TickEdgeCompletes := by
  refine ⟨?tickEdge, ?phaseWindowEnd, ?xoLost, ?tickForceHoldWrite, ?tickHwmClr, ?tickFcLoRead⟩
  case tickEdge =>
    intro xo e cycles frac link temp s hphase hdomain hkept
    change execTickEdge xo e cycles frac link temp s = _
    simp [execTickEdge, hphase, hdomain, hkept]
  case phaseWindowEnd =>
    intro phase s hlate
    change execPhaseWindowEnd phase s = _
    rw [execPhaseWindowEnd, hlate, State.when_true]
  case xoLost =>
    intro s hlocked
    have hlogged : ((s.putB TICK_FLAGS_xo_lost true).logDev 0x0206 0xF 0).get TICK_STATUS_state = 1 := by
      rw [State.logDev_get, State.putB, State.get_put_ne _ _ _ _ (by decide), hlocked]
    refine ⟨s.xoGone, rfl, ?_⟩
    simp only [State.xoGone, hlogged, if_true]
    refine ⟨?_, ?_, ?_, trivial⟩
    · rw [State.mk_get, State.putB, State.get_put_ne _ _ _ _ (by decide), State.get_put_self _ _ _ (by decide) (by decide)]
      rfl
    · rw [State.mk_on, State.on_putB_self _ _ _ (by decide) (by decide)]
    · rw [State.mk_on, State.putB, State.on_put_ne _ _ _ _ (by decide), State.on_put_ne _ _ _ _ (by decide), State.logDev_on,
        State.on_putB_self _ _ _ (by decide) (by decide)]
  case tickForceHoldWrite =>
    intro data s
    rfl
  case tickHwmClr =>
    intro s
    rfl
  case tickFcLoRead =>
    intro who s
    rfl

/-- Settles O26: the phases that wait for a lock or a domain have it; the others do their work and count their cycles. -/
theorem phasesComplete : Obligations.PhasesComplete := by
  refine ⟨?phaseMap, ?phaseSched, ?phaseCaliper, ?phaseReport⟩
  case phaseMap =>
    intro cycles waited s hlocked hwing
    exact if_pos ⟨hlocked, hwing⟩
  case phaseSched =>
    intro cycles s
    rfl
  case phaseCaliper =>
    intro cycles s hdomain
    change execPhaseCaliper cycles s = _
    rw [execPhaseCaliper, if_pos hdomain]
  case phaseReport =>
    intro cycles s
    rfl

/-! ### Alignment -/

theorem State.countFec_run (s : State) (c : FecCount) : (s.countFec c).dsl.run = s.dsl.run := rfl

/-- The bytes of a line leave the run of windows as it stands. -/
theorem State.tookLine_run (s : State) (line : List Byte) : (s.tookLine line).dsl.run = s.dsl.run := by
  rw [State.tookLine, State.countFec_run]

/-- Settles O27: the state of the frame machine, the window and the run of windows select the branch of each clause. -/
theorem frameAlignmentCompletes : Obligations.FrameAlignmentCompletes := by
  refine ⟨?presync, ?sync, ?hunt, ?counterInSync, ?counterInPresync, ?losRaw, ?berWindowEnd⟩
  case presync =>
    intro window s hframe hmatch hrun
    change execMarkerWindowCheck window s = _
    simp [execMarkerWindowCheck, hframe, hmatch, hrun]
  case sync =>
    intro window s hframe hmatch
    change execMarkerWindowCheck window s = _
    simp [execMarkerWindowCheck, hframe, hmatch]
  case hunt =>
    intro window s hframe henabled hraw hmatch
    change execHuntMarkerMatch window s = _
    simp [execHuntMarkerMatch, hframe, henabled, hraw, hmatch]
  case counterInSync =>
    intro line s hframe
    change execCounterBlock line s = _
    simp [execCounterBlock, hframe]
  case counterInPresync =>
    intro line s hframe hrun
    have htaken : (s.tookLine line).dsl.run = 0 := by rw [State.tookLine_run, hrun]
    change execCounterBlock line s = _
    simp [execCounterBlock, hframe, htaken]
  case losRaw =>
    intro asserted s
    change execLosRaw asserted s = _
    cases asserted <;> simp [execLosRaw]
  case berWindowEnd =>
    intro s hfail hdegrade
    constructor
    · change execBerWindowEnd true s = _
      simp [execBerWindowEnd, hdegrade]
    · change execBerWindowEnd false s = _
      simp [execBerWindowEnd, hfail]

/-! ### Fragments, key epochs and flow entries -/

/-- A NOTE of the device log that raises no vector of its own is only logged at the end of its multiframe (R542). -/
theorem State.writeLimited_device {r : LimRec} (s : State) (hlog : r.log = 16) (hvector : limitedVector r.code = none) :
    s.writeLimited r = s.logDevN r.code r.niche r.count r.data := by
  simp only [State.writeLimited, hlog, if_true, hvector]

/-- An emptied slot leaves the registers below those of the key store alone. -/
theorem State.emptySlot_get (s : State) (j : Nat) (g : Field) (hbelow : g.addr < 0x284000) : (s.emptySlot j).get g = s.get g := by
  have hcfg : g.addr ≠ (CPH_SLOT_CFG_loaded j).addr := by change g.addr ≠ 0x284000 + 8 * j; omega
  have hkcv : g.addr ≠ (CPH_SLOT_KCV_kcv j).addr := by change g.addr ≠ 0x284004 + 8 * j; omega
  rw [State.emptySlot, State.mk_get, State.get_put_ne _ _ _ _ hkcv, State.putB, State.get_put_ne _ _ _ _ hcfg]

theorem State.emptySlot_on (s : State) (j : Nat) (g : Field) (hbelow : g.addr < 0x284000) : (s.emptySlot j).on g = s.on g := by
  rw [State.on, s.emptySlot_get j g hbelow, State.on]

theorem any_congr_of_mem {α : Type} {l : List α} {p q : α → Bool} (h : ∀ x ∈ l, p x = q x) : l.any p = l.any q := by
  rw [Bool.eq_iff_iff, List.any_eq_true, List.any_eq_true]
  exact exists_congr fun x => and_congr_right fun hx => by rw [h x hx]

/-- An emptied slot leaves the use of every key pair as it was. -/
theorem State.emptySlot_pairInUse (s : State) (j k : Nat) : (s.emptySlot j).pairInUse k = s.pairInUse k := by
  have hstate : (s.emptySlot j).get ACT_STATUS_state = s.get ACT_STATUS_state := s.emptySlot_get j _ (by decide)
  have hwing : (s.emptySlot j).isWing = s.isWing := by
    simp only [State.isWing, s.emptySlot_on j PND_STATUS_bound (by decide), s.emptySlot_get j PND_STATUS_form (by decide),
      s.emptySlot_on j PND_STATUS_role (by decide)]
  have hflows : ∀ n ∈ List.range 1024,
      (((s.emptySlot j).on (DSL_FID_valid n) && (s.emptySlot j).get (DSL_FID_pair n) == k) ||
        ((s.emptySlot j).on (USL_FID_valid n) && (s.emptySlot j).get (USL_FID_pair n) == k)) =
      ((s.on (DSL_FID_valid n) && s.get (DSL_FID_pair n) == k) || (s.on (USL_FID_valid n) && s.get (USL_FID_pair n) == k)) := by
    intro n hn
    have hrow : n < 1024 := List.mem_range.mp hn
    have hdsl : 0x41000 + 4 * n < 0x284000 := by omega
    have husl : 0x61000 + 4 * n < 0x284000 := by omega
    rw [s.emptySlot_on j (DSL_FID_valid n) hdsl, s.emptySlot_get j (DSL_FID_pair n) hdsl,
      s.emptySlot_on j (USL_FID_valid n) husl, s.emptySlot_get j (USL_FID_pair n) husl]
  simp only [State.pairInUse, hstate, hwing, any_congr_of_mem hflows]

theorem State.modPair_pairInUse (s : State) (k j : Nat) (g : KeyPair → KeyPair) : (s.modPair k g).pairInUse j = s.pairInUse j := rfl

theorem State.modPair_keys (s : State) (k : Nat) (g : KeyPair → KeyPair) : (s.modPair k g).cph.keys = s.cph.keys := rfl

/-- A pair that is changed in no field but the one named keeps nothing in its old slot afterwards. -/
theorem State.modPair_retired (s : State) (k : Nat) : ((s.modPair k (fun x => { x with old := none })).pair k).old = none := by
  rw [State.pair, State.modPair, getD_modify]
  split
  case isTrue => rfl
  case isFalse houtside => rw [List.getD_eq_default _ _ (by simpa using houtside)]

/-- Settles O28: what stands for the fragment, the SDU, the pair or the record selects the branch of each clause. -/
theorem downstreamFlowsComplete : Obligations.DownstreamFlowsComplete := by
  refine ⟨?fragmentRx, ?sduTimeout, ?keyEpoch, ?keyEpochSwitch, ?keySlotRetire, ?keyImplicit, ?dslFidWrite, ?fidChangeApply,
    ?multiframeEnd⟩
  case fragmentRx =>
    intro d v s haligned hwing hended hdata hpos hroom hheader
    have hbytes : s.dsl.data.isEmpty = false := by simpa using hdata
    have hwithin : ¬ 145152 < d + 8 := by omega
    have htaken : (!s.aligned || s.isWing || s.dsl.ended || s.dsl.data.isEmpty) = false := by
      rw [haligned, hwing, hended, hbytes]; rfl
    change execFragmentRx s = _
    rw [execFragmentRx, if_neg (by rw [htaken]; decide), hpos]
    dsimp only
    rw [if_neg hwithin, hheader]
    rfl
  case sduTimeout =>
    intro flow x s hflow hpartial hwhole hlate
    change execSduTimeout flow s = _
    simp only [execSduTimeout, hflow, hpartial, hwhole, decide_eq_true hlate, Bool.and_self, if_true, Bool.false_eq_true, if_false]
  case keyEpoch =>
    intro msg s hinbox
    change execKeyEpoch msg s = _
    rw [execKeyEpoch, if_pos hinbox]
  case keyEpochSwitch =>
    intro pair f p s hpending hdue
    change execKeyEpochSwitch pair s = _
    simp only [execKeyEpochSwitch, hpending, if_pos hdue]
  case keySlotRetire =>
    intro pair f p s hold hdue hunused
    have hstill : ((s.emptySlot (2 * pair.val + p)).modPair pair.val (fun x => { x with old := none })).pairInUse pair.val = false := by
      rw [State.modPair_pairInUse, State.emptySlot_pairInUse, hunused]
    refine ⟨_, ?_, State.modPair_retired (s.emptySlot (2 * pair.val + p)) pair.val, State.modPair_keys ..⟩
    change execKeySlotRetire pair s = _
    simp only [execKeySlotRetire, hold, if_pos hdue, hstill, State.when_false]
  case keyImplicit =>
    intro pair p s himplicit
    change execKeyImplicit pair s = _
    simp only [execKeyImplicit, himplicit]
  case dslFidWrite =>
    intro n data s hdest hfree
    change execDslFidWrite n data s = _
    simp only [execDslFidWrite, if_neg hdest, hfree, Bool.false_eq_true, if_false]
  case fidChangeApply =>
    intro s
    rfl
  case multiframeEnd =>
    intro r s hone hlog hcode
    change execMultiframeEnd s = _
    have hvector : limitedVector r.code = none := by rw [hcode]; decide
    simp only [execMultiframeEnd, hone]
    rw [← hcode, ← State.writeLimited_device _ hlog hvector]
    rfl
end Sys2Proof.Machine
end

section
/-!
PROOFS. Where the commands of the loops, of the upstream bursts, of the standing grants and of the rogue guard complete
(spec/04_downstream_frames.md, spec/05_upstream_bursts.md).
-/

namespace Sys2Proof.Machine

open Sys2Proof

/-! ### Loops -/

theorem State.ifLoop_absent {s : State} (h : s.fuse.is7401 = true) (a : Nat) (f : State → State) :
    s.ifLoop 6 a f = s.logDev 0x0002 0xF (fdata 0 0 a) := by
  rw [State.ifLoop, if_pos rfl, State.ifPresent, if_pos h]

/-- The bounds of a loop share a register, the upper bound above the lower one. -/
theorem loopDesc_bounds (l : Fin 7) : (loopDesc l.val).lo.addr = (loopDesc l.val).hi.addr ∧
    (loopDesc l.val).lo.lo ≤ (loopDesc l.val).lo.hi ∧ (loopDesc l.val).lo.hi < (loopDesc l.val).hi.lo ∧
    (loopDesc l.val).hi.lo ≤ (loopDesc l.val).hi.hi ∧ (loopDesc l.val).hi.hi < 32 := by
  fin_cases l <;> decide

/-- A field that is written with the bits of a word reads as those bits. -/
theorem State.get_put_bits (s : State) (f : Field) (w : Nat) (h : f.lo ≤ f.hi) (h32 : f.hi < 32) :
    (s.put f (bits w f.hi f.lo)).get f = bits w f.hi f.lo := by
  rw [State.get_put_self s f _ h h32]
  exact Nat.mod_mod _ _

/-- An envelope that is written reads as it was written, whatever output and flag follow it. -/
theorem State.loopBounds_written (l : Fin 7) (s : State) (w : Nat) (v : Int) (b : Bool) {d : LoopDesc} (hd : d = loopDesc l.val)
    {t : State} (ht : t = (s.put d.hi (bits w d.hi.hi d.hi.lo)).put d.lo (bits w d.lo.hi d.lo.lo)) :
    ((t.setOut l.val d v).putB d.conv b).loopLo d = d.value (bits w d.lo.hi d.lo.lo) ∧
      ((t.setOut l.val d v).putB d.conv b).loopHi d = d.value (bits w d.hi.hi d.hi.lo) := by
  have hlaid : d.Laid := hd ▸ loopDesc_laid l
  obtain ⟨haddr, hlo, hbetween, hhi, h32⟩ := hd ▸ loopDesc_bounds l
  obtain ⟨hkeptLo, hkeptHi⟩ := t.setOut_bounds hlaid l.val v
  have hflagLo := hlaid.get_putB hlaid.conv (.inr (.inl rfl)) (t.setOut l.val d v) b
  have hflagHi := hlaid.get_putB hlaid.conv (.inr (.inr rfl)) (t.setOut l.val d v) b
  constructor
  · calc ((t.setOut l.val d v).putB d.conv b).loopLo d = t.loopLo d := by rw [State.loopLo, hflagLo]; exact hkeptLo
      _ = d.value (bits w d.lo.hi d.lo.lo) := by
        rw [State.loopLo, ht, State.get_put_bits _ d.lo w hlo (by omega)]
  · calc ((t.setOut l.val d v).putB d.conv b).loopHi d = t.loopHi d := by rw [State.loopHi, hflagHi]; exact hkeptHi
      _ = d.value (bits w d.hi.hi d.hi.lo) := by
        rw [State.loopHi, ht, State.get_put_beside _ d.lo d.hi _ hlo (by omega) hhi (.inr hbetween),
          State.get_put_bits _ d.hi w hhi h32]

/-- Settles O29: a loop that the type number has takes the write, an absent one logs it. -/
theorem loopsComplete : Obligations.LoopsComplete := by
  refine ⟨?thresholdLoopStep, ?loopEnvWrite, ?loopManWrite, ?loopHoldWrite, ?absent⟩
  case thresholdLoopStep =>
    intro s hfell
    have hnotRose : ¬ s.dsl.fell + 8 < s.dsl.rose := by omega
    change execThresholdLoopStep s = _
    simp only [execThresholdLoopStep, if_neg hnotRose, if_pos hfell]
  case loopEnvWrite =>
    intro loop data s hpresent hordered
    change ∃ t, execLoopEnvWrite loop data s = _ ∧ _
    rw [execLoopEnvWrite, State.ifLoop_present hpresent]
    dsimp only
    rw [if_neg (not_lt.mpr hordered)]
    exact ⟨_, rfl, State.loopBounds_written loop s data.toNat _ _ rfl rfl⟩
  case loopManWrite =>
    intro loop data s hpresent hheld hlo hhi
    change execLoopManWrite loop data s = _
    simp only [execLoopManWrite, State.ifLoop_present hpresent, hheld, hlo, hhi, decide_true, Bool.and_self, if_true]
  case loopHoldWrite =>
    intro loop hold s hpresent
    change execLoopHoldWrite loop hold s = _
    rw [execLoopHoldWrite, State.ifLoop_present hpresent]
  case absent =>
    intro hold data s hlacks
    refine ⟨?_, ?_, ?_⟩
    · exact congrArg _ (State.ifLoop_absent hlacks _ _)
    · exact congrArg _ (State.ifLoop_absent hlacks _ _)
    · exact congrArg _ (State.ifLoop_absent hlacks _ _)

/-! ### Bursts -/

theorem State.modBurst_get (s : State) (id : Nat) (g : Burst → Burst) (f : Field) : (s.modBurst id g).get f = s.get f := rfl
theorem State.modBurst_bseq (s : State) (id : Nat) (g : Burst → Burst) : (s.modBurst id g).usl.bseq = s.usl.bseq := rfl
theorem State.sealBurst_get (s : State) (b : Burst) (f : Field) : (s.sealBurst b).1.get f = s.get f := rfl
theorem State.sealBurst_bseq (s : State) (b : Burst) : (s.sealBurst b).1.usl.bseq = s.usl.bseq := rfl
theorem State.sentWith_get (s : State) (b : Burst) (f : Field) : (s.sentWith b).get f = s.get f := rfl
theorem State.sentWith_bseq (s : State) (b : Burst) : (s.sentWith b).usl.bseq = s.usl.bseq := rfl

/-- Settles O30: a burst that stands where its clause has it, and that nothing forfeits, goes on. -/
theorem burstsComplete : Obligations.BurstsComplete := by
  refine ⟨?phaseGrant, ?pllLockTest, ?burstCut, ?burstStart, ?burstEnd, ?pllRelockDone, ?lolRaw, ?uslFidWrite⟩
  case phaseGrant =>
    intro cycles waited s hlocked
    exact if_pos hlocked
  case pllLockTest =>
    intro b id s hburst hlocked hguard hpll hcolour
    change execPllLockTest id s = _
    simp only [execPllLockTest, hburst, hlocked, Option.isNone_iff_eq_none.mp hguard, hpll, hcolour, BEq.rfl, Bool.and_self,
      Bool.false_eq_true, if_true, if_false]
  case burstCut =>
    intro b id s hburst hlocked hcontent hguard hshifted hdying
    change execBurstCut id s = _
    simp only [execBurstCut, hburst, hlocked, hcontent, Option.isNone_iff_eq_none.mp hguard, hshifted, hdying, Option.isSome_none,
      Bool.not_true, Bool.or_self, Bool.false_and, Bool.false_eq_true, if_false]
  case burstStart =>
    intro b id s hburst hcontent hrunning hguard hshifted hannounce hheld
    have hcut : b.content.isNone = false := by rw [← Option.not_isSome, hcontent]; rfl
    change ∃ t, execBurstStart id s = _ ∧ _
    simp only [execBurstStart, hburst, hcut, hrunning, Option.isNone_iff_eq_none.mp hguard, hshifted, hannounce, hheld,
      Option.isSome_none, Bool.or_self, Bool.false_eq_true, if_false]
    refine ⟨_, rfl, ?_, ?_⟩
    · rw [State.modBurst_get, State.sealBurst_get, State.sentWith_get, State.mk_get,
        State.get_put_self _ _ _ (by decide) (by decide)]
      rfl
    · rw [State.modBurst_bseq, State.sealBurst_bseq, State.sentWith_bseq]
      dsimp only
      rw [State.put_usl]
      split_ifs <;> rfl
  case burstEnd =>
    intro b id s hburst hrunning
    change ∃ t, execBurstEnd id s = _ ∧ _
    simp only [execBurstEnd, hburst, hrunning, Bool.not_true, Bool.false_eq_true, if_false]
    let left : State := s.send (.burst b.colour b.frame b.start b.lead (scramble b.line))
    refine ⟨_, rfl, List.IsSuffix.subset (Keeps.sent (s := left) ?_) List.mem_cons_self⟩
    refine State.nextColour_keeps (State.syncLaser_keeps (State.put_keeps ?_ _ _))
    refine keeps_use _ (State.each_keeps ?_ ?_ _) (fun h => keeps_ite (State.accrue_keeps h b) h)
    · exact keeps_mk (State.countMembers_keeps (State.oweUsl_keeps (State.oweUsl_keeps (State.oweUsl_keeps (State.oweUsl_keeps
        (State.oweUsl_keeps (keeps_refl left) ..) ..) ..) ..) ..) _) rfl rfl rfl
    · intro t ht id
      split
      · exact keeps_ite (State.release_keeps ht id) ht
      · exact ht
  case pllRelockDone =>
    intro s hrelocks
    have hset : (s.putB USL_STATUS_pll_lock true).on USL_STATUS_pll_lock = true := State.on_putB_self _ _ _ (by decide) (by decide)
    change ∃ t, execPllRelockDone s = _ ∧ _
    rw [execPllRelockDone, if_neg (by rw [← Option.not_isSome, hrelocks]; decide)]
    refine ⟨_, rfl, ?_, ?_⟩
    · split_ifs
      · rw [State.on_put_beside _ _ _ _ (by decide) (by decide) (by decide) (by decide), State.mk_on, hset]
      · rw [State.mk_on, hset]
    · split_ifs <;> rfl
  case lolRaw =>
    intro unlocked s hraw
    change execLolRaw unlocked s = _
    cases unlocked <;> simp only [execLolRaw, State.lolRaw, hraw, Bool.not_true, Bool.not_false, Bool.and_self, Bool.false_and, Bool.false_eq_true, if_true, if_false]
  case uslFidWrite =>
    intro n data s hfid hclass
    change execUslFidWrite n data s = _
    simp only [execUslFidWrite, hfid, hclass, Bool.or_self, Bool.false_eq_true, if_false]

/-! ### Standing grants -/

/-- Settles O31: an accepted message, a change that is due and an allocation that is written each have their one effect. -/
theorem standingGrantsComplete : Obligations.StandingGrantsComplete := by
  refine ⟨?standingGrant, ?standingGrantApply, ?removeInstalled, ?removePending⟩
  case standingGrant =>
    intro msg s hinbox hsame hrefused
    change execStandingGrant msg s = _
    simp only [execStandingGrant, hinbox, hsame, hrefused, Bool.not_true, Bool.false_eq_true, if_false]
  case standingGrantApply =>
    intro index c s hchange hdue
    change execStandingGrantApply index s = _
    simp only [execStandingGrantApply, hchange, if_neg (not_lt.mpr hdue)]
  case removeInstalled =>
    intro index s hinstalled hpending
    change execStandingRemoveOnAlloc index s = _
    simp only [execStandingRemoveOnAlloc, hinstalled, hpending, Bool.or_false, if_true, State.when_true, State.when_false]
  case removePending =>
    intro index s hinstalled hpending
    change execStandingRemoveOnAlloc index s = _
    simp only [execStandingRemoveOnAlloc, hinstalled, hpending, Bool.or_true, if_true, State.when_true, State.when_false]

/-! ### The rogue guard and the laser -/

theorem State.syncLaser_get_ne (s : State) (g : Field) (h : g.addr ≠ USL_STATUS_laser.addr) : s.syncLaser.get g = s.get g := by
  unfold State.syncLaser
  split_ifs
  · exact s.get_put_ne _ _ _ h
  · exact s.get_put_ne _ _ _ h
  · rfl

theorem State.syncLaser_usl (s : State) : s.syncLaser.usl = s.usl := by
  unfold State.syncLaser
  split_ifs
  · exact State.put_usl ..
  · exact State.put_usl ..
  · rfl

/-- A cause of SAFE_OFF that is set stands. -/
theorem State.setSafe_cause (s : State) {cause : Nat} (h : cause < 5) : bit ((s.setSafe cause true).get USL_SAFE_cause) cause = true := by
  have hset : bit ((s.put USL_SAFE_cause (setBit (s.get USL_SAFE_cause) cause)).get USL_SAFE_cause) cause = true := by
    rw [State.get_put_self _ _ _ (by decide) (by decide), bit_eq_testBit, Nat.testBit_mod_two_pow, testBit_setBit]
    simpa using h
  have hkept : ((s.put USL_SAFE_cause (setBit (s.get USL_SAFE_cause) cause)).syncLaser.syncUp).get USL_SAFE_cause =
      (s.put USL_SAFE_cause (setBit (s.get USL_SAFE_cause) cause)).get USL_SAFE_cause := by
    rw [State.syncUp, State.putB, State.get_put_ne _ _ _ _ (by decide), State.syncLaser_get_ne _ _ (by decide)]
  simp only [State.setSafe, if_true]
  split
  · rw [State.logDev_get, hkept, hset]
  · rw [hkept, hset]

theorem State.setSafe_usl (s : State) (cause : Nat) (b : Bool) : (s.setSafe cause b).usl = s.usl := by
  have hkept (new : Nat) : ((s.put USL_SAFE_cause new).syncLaser.syncUp).usl = s.usl := by
    rw [State.syncUp, State.putB_usl, State.syncLaser_usl, State.put_usl]
  simp only [State.setSafe]
  split_ifs <;> simp only [State.logDev_usl, hkept]

theorem State.unpin_get_ne {d : LoopDesc} (hlaid : d.Laid) (s : State) (g : Field) (h : g.addr ≠ d.out.addr) :
    (s.unpin d).get g = s.get g := by
  rw [State.unpin, State.putB, State.get_put_ne _ _ _ _ (hlaid.pinLo.1 ▸ h), State.putB, State.get_put_ne _ _ _ _ (hlaid.pinHi.1 ▸ h)]

theorem State.pin_get_ne {d : LoopDesc} (hlaid : d.Laid) (s : State) (l side : Nat) (g : Field) (h : g.addr ≠ d.out.addr) :
    (s.pin l d side).get g = s.get g := by
  have hflags : ((s.putB d.pinHi (side == 1)).putB d.pinLo (side == 0)).get g = s.get g := by
    rw [State.putB, State.get_put_ne _ _ _ _ (hlaid.pinLo.1 ▸ h), State.putB, State.get_put_ne _ _ _ _ (hlaid.pinHi.1 ▸ h)]
  unfold State.pin
  dsimp only
  split
  · exact hflags
  · unfold State.when
    split
    · rw [State.raisePf_get, State.logDev_get, State.mk_get, hflags]
    · rw [State.logDev_get, State.mk_get, hflags]

/-- A step of a loop writes no register but the status of that loop. -/
theorem State.loopStep_get_ne (s : State) (l : Fin 7) (want : Int) (held : Bool) (g : Field) (h : g.addr ≠ (loopDesc l.val).out.addr) :
    (s.loopStep l.val want held).get g = s.get g := by
  have hlaid : (loopDesc l.val).Laid := loopDesc_laid l
  have hset (t : State) (v : Int) : (t.setOut l.val (loopDesc l.val) v).get g = t.get g := by
    rw [State.setOut_get, State.get_put_ne _ _ _ _ h]
  have hconv (t : State) (b : Bool) : (t.putB (loopDesc l.val).conv b).get g = t.get g := by
    rw [State.putB, State.get_put_ne _ _ _ _ (hlaid.conv.1 ▸ h)]
  unfold State.loopStep
  dsimp only
  split_ifs <;> simp only [hset, hconv, State.pin_get_ne hlaid _ _ _ _ h, State.unpin_get_ne hlaid _ _ h]

/-- Settles O32: the reading of a laser loop and the cause that is not set yet are what the clauses turn on. -/
theorem rogueGuardAndLaserLoopsComplete : Obligations.RogueGuardAndLaserLoopsComplete := by
  refine ⟨?rogueDetect, ?uslSafeClr, ?apdLoopStep, ?withoutCartridge, ?modulationLoop, ?apcCalibration, ?apcStarved⟩
  case rogueDetect =>
    intro s hclear
    change ∃ t, execRogueDetect s = _ ∧ _
    simp only [execRogueDetect, hclear, Bool.false_eq_true, if_false]
    refine ⟨_, rfl, ?_, State.setSafe_cause _ (by decide)⟩
    rw [State.setSafe_usl, State.raisePf_usl, State.logDev_usl, State.each_unchanged State.usl (fun _ _ => State.send_usl _ _)]
    split_ifs <;> rfl
  case uslSafeClr =>
    intro dark s
    rfl
  case apdLoopStep =>
    intro s
    rfl
  case withoutCartridge =>
    intro loop reading s hcart
    have hstatus : GLB_SERVICE_cart.addr ≠ (loopDesc (2 + loop.val)).out.addr := by fin_cases loop <;> decide
    have hstill (want : Int) : (s.loopStep (2 + loop.val) want false).on GLB_SERVICE_cart = false := by
      rw [State.on, s.loopStep_get_ne ⟨2 + loop.val, by omega⟩ want false _ hstatus]; exact hcart
    change execLaserLoopStep loop reading s = _
    simp only [execLaserLoopStep, hstill, Bool.and_false, Bool.false_and, Bool.false_eq_true, if_false, Nat.cast_ite]
  case modulationLoop =>
    intro loop reading s hodd
    change execLaserLoopStep loop reading s = _
    simp [execLaserLoopStep, hodd]
  case apcCalibration =>
    intro colour s hnone hepoch
    have hmeasured : (s.noGrant && s.usl.apcEpoch.getD colour.val none != some (s.tick.fc / 8192)) = true := by
      rw [hnone, Bool.true_and, bne_iff_ne]; exact hepoch
    exact ⟨_, _, _, if_pos hmeasured, rfl, rfl, rfl, rfl, rfl⟩
  case apcStarved =>
    intro colour s hlong hunlogged
    change execApcStarved colour s = _
    simp only [execApcStarved, hlong, hunlogged, Bool.not_false, Bool.and_self, if_true]
end Sys2Proof.Machine
end

section
/-!
PROOFS. Where the commands of activation and of the Pendant link complete (spec/06_activation_and_twin_colour_ranging.md,
spec/07_pendant_mode.md).
-/

namespace Sys2Proof.Machine

open Sys2Proof

/-! ### Activation -/

/-- Four bytes spell a number of 32 bits. -/
theorem beAt_four_lt (b : List Byte) (i : Nat) : beAt b i 4 < 2 ^ 32 := by
  have hstep (l : List Byte) (a : Nat) : l.foldl (fun a x => a * 256 + x.toNat) a < (a + 1) * 256 ^ l.length := by
    induction l generalizing a with
    | nil => simp
    | cons x l ih =>
      calc _ < (a * 256 + x.toNat + 1) * 256 ^ l.length := ih _
        _ ≤ ((a + 1) * 256) * 256 ^ l.length := Nat.mul_le_mul_right _ (by have := x.isLt; omega)
        _ = (a + 1) * 256 ^ (x :: l).length := by rw [List.length_cons, pow_succ']; ring
  calc beAt b i 4 < (0 + 1) * 256 ^ ((b.drop i).take 4).length := hstep _ _
    _ ≤ 256 ^ 4 := by rw [zero_add, one_mul]; exact Nat.pow_le_pow_right (by decide) (List.length_take_le 4 _)
    _ = 2 ^ 32 := by norm_num

/-- The two round-trip registers lie apart from the registers below them and from the counters above. -/
theorem actRtt_addr_ne (c : Nat) (hc : c < 2) {a : Nat} (ha : a < 0x80020 ∨ 0x80028 ≤ a) : (ACT_RTT_rtt c).addr ≠ a := by
  change 0x80020 + 4 * c ≠ a
  omega

/-- Settles O33: a message that waits and that the state lists is carried out. -/
theorem activationComplete : Obligations.ActivationComplete := by
  refine ⟨?phaseAct, ?assignTn, ?rangeSet, ?rangeSetDelay, ?silenceRelease, ?silenceSilence, ?silenceQuarantine,
    ?silenceDeregister, ?silenceReleaseWrite⟩
  case phaseAct =>
    intro cycles waited released s hwing
    change execPhaseAct cycles waited released s = _
    simp only [execPhaseAct, hwing, Bool.false_eq_true, if_false]
  case assignTn =>
    intro msg s hinbox hall hserial htn hstate hjudged hnone
    have hmine : ¬ (byteAt msg 0 ≠ 0xFE ∨ beAt msg 4 8 ≠ (s.tookMsg msg).fuse.serial.toNat) :=
      not_or.mpr ⟨not_not.mpr hall, not_not.mpr hserial⟩
    have hstays : ¬ (s.tookMsg msg).get ACT_STATUS_state ≠ (s.tookMsg msg).judgedState :=
      not_not.mpr (hstate.trans hjudged.symm)
    have hnew : (!(s.tookMsg msg).on ACT_STATUS_tn_valid || (s.tookMsg msg).get ACT_STATUS_tn != byteAt msg 12) = true := by
      rw [show (s.tookMsg msg).on ACT_STATUS_tn_valid = false from hnone]; rfl
    change execAssignTn msg s = _
    rw [execAssignTn, hinbox, if_neg (by decide)]
    dsimp only
    rw [if_neg hmine, if_neg (not_lt.mpr htn), if_neg hstays, if_pos ⟨hjudged, hnew⟩]
  case rangeSet =>
    intro msg s hinbox hdirected hgood hjudged hdelay
    have hranged : ¬ ((s.tookMsg msg).judgedState = 3 ∨ (s.tookMsg msg).judgedState = 4) := by
      rw [show (s.tookMsg msg).judgedState = 2 from hjudged]; decide
    change execRangeSet msg s = _
    rw [execRangeSet, hinbox, decide_eq_false (not_lt.mpr hdirected), if_neg (by decide)]
    dsimp only
    rw [hgood, if_neg (by decide), if_neg hranged, hdelay, Bool.false_and, if_neg (by decide)]
  case rangeSetDelay =>
    intro msg s hinbox hdirected hgood hjudged hstate hdelay
    have htaken : (s.tookMsg msg).judgedState = 2 := hjudged
    have hrtt {a : Nat} (ha : a < 0x80020 ∨ 0x80028 ≤ a) : (ACT_RTT_rtt (byteAt msg 5 % 2)).addr ≠ a :=
      actRtt_addr_ne _ (Nat.mod_lt _ two_pos) ha
    have hstays : (((s.tookMsg msg).put (ACT_RTT_rtt (byteAt msg 5 % 2)) (beAt msg 10 4)).sat (ACT_CNT_count 3)).get ACT_STATUS_state = 2 := by
      rw [State.sat, State.satBy, State.get_put_ne _ _ _ _ (by decide), State.get_put_ne _ _ _ _ (hrtt (by decide)).symm]
      exact hstate
    change ∃ t u, execRangeSet msg s = _ ∧ _
    rw [execRangeSet, hinbox, decide_eq_false (not_lt.mpr hdirected), if_neg (by decide)]
    dsimp only
    rw [hgood, if_neg (by decide)]
    rw [htaken, if_neg (show ¬ (2 = 3 ∨ 2 = 4) by decide), hstays, hdelay, if_pos (by decide), if_pos rfl]
    refine ⟨_, _, rfl, rfl, ?_, ?_, ?_, rfl⟩
    · rw [State.mk_get, State.get_put_ne _ _ _ _ (by decide), State.get_put_ne _ _ _ _ (by decide),
        State.get_put_self _ _ _ (by decide) (by decide)]
      exact Nat.mod_eq_of_lt (beAt_four_lt msg 6)
    · rw [State.mk_get, State.get_put_ne _ _ _ _ (hrtt (by decide)), State.get_put_ne _ _ _ _ (hrtt (by decide)),
        State.get_put_ne _ _ _ _ (hrtt (by decide)), State.sat, State.satBy, State.get_put_ne _ _ _ _ (hrtt (by decide)),
        State.get_put_self _ _ _ (Nat.zero_le 31) (show 31 < 32 by decide)]
      exact Nat.mod_eq_of_lt (beAt_four_lt msg 10)
    · rfl
  case silenceRelease =>
    intro msg s hdue hstate hjudged
    change execSilenceRelease msg s = _
    simp [execSilenceRelease, hdue, hstate, hjudged]
  case silenceSilence =>
    intro msg s hdue hstate hjudged hlasts
    change ∃ t, execSilenceSilence msg s = _ ∧ _
    rw [execSilenceSilence, hdue, hstate, hjudged, if_neg (by decide), if_neg (by decide)]
    have hclk : ((s.tookSilence msg).setAct 6).clk = s.clk := (State.setAct_keeps (State.tookSilence_keeps (keeps_refl s) msg) 6).clk
    refine ⟨_, rfl, ?_, ?_, ?_⟩
    · rw [State.mk_on, State.on_put_beside _ _ _ _ (by decide) (by decide) (by decide) (by decide),
        State.on_putB_self _ _ _ (by decide) (by decide)]
    · rw [State.mk_get, State.get_put_self _ _ _ (by decide) (by decide)]
      rfl
    · dsimp only
      rw [if_neg hlasts, State.put_clk, State.putB_clk, State.logDev_clk, hclk]
  case silenceQuarantine =>
    intro msg s hdue hstate hjudged
    change execSilenceQuarantine msg s = _
    simp [execSilenceQuarantine, hdue, hstate, hjudged]
  case silenceDeregister =>
    intro msg s hdue hstate hjudged
    change execSilenceDeregister msg s = _
    simp [execSilenceDeregister, hdue, hstate, hjudged]
  case silenceReleaseWrite =>
    intro data s hzero
    change execSilenceReleaseWrite data s = _
    simp only [execSilenceReleaseWrite, hzero, Bool.false_eq_true, if_false]

/-- Settles O34: a timer that has run out and a held message that is due take their branch. -/
theorem activationTimersComplete : Obligations.ActivationTimersComplete := by
  refine ⟨?ackDownstream, ?t1Expiry, ?t2Expiry, ?t3Expiry, ?t4Expiry, ?upstreamMsgResend, ?keyReportReseries⟩
  case ackDownstream =>
    intro msg h s hinbox hheld htype
    change execAckDownstream msg s = _
    simp only [execAckDownstream, hinbox, hheld, htype, Bool.not_true, Bool.false_eq_true, if_false]
  case t1Expiry =>
    intro s hdue
    change execT1Expiry s = _
    rw [execT1Expiry, if_pos hdue]
  case t2Expiry =>
    intro s hdue
    change execT2Expiry s = _
    rw [execT2Expiry, if_pos hdue]
  case t3Expiry =>
    intro s hdue
    change execT3Expiry s = _
    rw [execT3Expiry, if_pos hdue]
  case t4Expiry =>
    intro s hdue
    change execT4Expiry s = _
    rw [execT4Expiry, if_pos hdue]
  case upstreamMsgResend =>
    intro type seq h s hheld hsends hawake hdue hqueued hmode
    have hwaits : ¬ (h.sends = 0 ∨ h.dormant ∨ s.tick.fc < h.last + 16 ∨ s.act.queue.contains h.msg ∨ s.get PWR_STATUS_mode = 2) := by
      rintro (hnever | hdormant | hearly | hwaiting | hout)
      · exact hsends.1.ne' hnever
      · exact absurd (hawake.symm.trans hdormant) (by decide)
      · exact absurd hearly (not_lt.mpr hdue)
      · exact absurd (hqueued.symm.trans hwaiting) (by decide)
      · exact hmode hout
    change execUpstreamMsgResend type seq s = _
    simp only [execUpstreamMsgResend, hheld]
    rw [if_neg hwaits, if_pos hsends.2]
  case keyReportReseries =>
    intro seq h s hheld hdormant hboundary
    change ∃ t, execKeyReportReseries seq s = _ ∧ _
    simp only [execKeyReportReseries, hheld, hdormant, hboundary, decide_true, Bool.and_self, if_true]
    exact ⟨_, rfl, rfl, rfl⟩

/-! ### The Pendant link -/

/-- A binding that is admitted and that nothing refuses waits for its frame. -/
theorem State.admitBind_of_good {s : State} {m : List Byte} (h : s.bindCode m = none) : s.admitBind m =
    State.ackMsg { s with pnd := { s.pnd with
      pend := sortBy (fun x y => decide (x.1 ≤ y.1)) (s.pnd.pend ++ [(bindFrame m, bindBody m)]) } } m 0 0 := by
  rw [State.admitBind, h]

/-- A terminal that is not bound takes the binding of a span. -/
theorem State.applyBind_span {s : State} {b : BindBody} (hop : b.op = 1) (hfree : s.on PND_STATUS_bound = false) :
    s.applyBind b = s.bind 1 0 b.partner b.pairId := by
  rw [State.applyBind, hop, if_neg (by decide), hfree, if_neg (by decide), if_pos rfl]

/-- Settles O35: the state of the link and what PENDANT_BIND states select the branch of each clause. -/
theorem pendantLinkComplete : Obligations.PendantLinkComplete := by
  refine ⟨?linkTrainStart, ?linkTrainTimeout, ?linkDown, ?linkMarkerBlock, ?pendantBindSpan, ?pendantBindGuard, ?pendantUnbind,
    ?pendantBindApply, ?pndCmdUnbind, ?pndGflowWrite⟩
  case linkTrainStart =>
    intro s hdown henabled hpowered hsignal
    change execLinkTrainStart s = _
    simp [execLinkTrainStart, hdown, henabled, hpowered, hsignal]
  case linkTrainTimeout =>
    intro s htrains hlong
    change execLinkTrainTimeout s = _
    simp [execLinkTrainTimeout, htrains, hlong]
  case linkDown =>
    intro lost s hlink hcause
    change execLinkDown lost s = _
    rw [execLinkDown, if_pos (by simp [hlink]; tauto)]
  case linkMarkerBlock =>
    intro line spaced s hlink hmarker
    change execLinkMarkerBlock line spaced s = _
    simp [execLinkMarkerBlock, hlink, hmarker]
  case pendantBindSpan =>
    intro msg s hinbox hop hnew hgood
    change execPendantBindSpan msg s = _
    rw [← State.admitBind_of_good hgood, execPendantBindSpan, hinbox, hop, if_pos (by decide), State.takeBind, if_neg hnew]
  case pendantBindGuard =>
    intro msg s hinbox hop hnew hgood
    change execPendantBindGuard msg s = _
    rw [← State.admitBind_of_good hgood, execPendantBindGuard, hinbox, hop, if_pos (by decide), State.takeBind, if_neg hnew]
  case pendantUnbind =>
    intro msg s hinbox hop hbound hgood
    change execPendantUnbind msg s = _
    rw [← State.admitBind_of_good hgood, execPendantUnbind, hinbox, hop, if_neg (by decide), if_neg (by rw [← Option.not_isSome, hbound]; decide)]
  case pendantBindApply =>
    intro f b s hpend hdue hop hfree
    change execPendantBindApply s = _
    simp only [execPendantBindApply, hpend, List.filter_cons, List.filter_nil, decide_eq_true hdue, Bool.not_true, Bool.false_eq_true,
      if_true, if_false]
    exact congrArg _ (State.applyBind_span (s := { s with pnd := { s.pnd with pend := [] } }) hop hfree)
  case pndCmdUnbind =>
    intro s
    rfl
  case pndGflowWrite =>
    intro n data s hgood
    change execPndGflowWrite n data s = _
    simp only [execPndGflowWrite, hgood, Bool.false_eq_true, if_false]

/-- Settles O36: a record that is read as its type is taken where the binding and its flow allow it. -/
theorem pendantRecordsComplete : Obligations.PendantRecordsComplete := by
  refine ⟨?stateRecord, ?consentReq, ?consentReply, ?consentTimeout, ?todRecord, ?dupUpRecord, ?dupDownRecord, ?spanUpRecord,
    ?spanDownRecord, ?memberRecord, ?castRecord⟩
  case stateRecord =>
    intro record a b s hread
    change execStateRecord record s = _
    simp only [execStateRecord, State.readRecord_some hread]
  case consentReq =>
    intro record a b s hread
    change execConsentReq record s = _
    simp only [execConsentReq, State.readRecord_some hread]
  case consentReply =>
    intro record a b q s hread hreq hnumber hopen hgranted
    change execConsentReply record s = _
    simp only [execConsentReply, State.readRecord_some hread, hreq, if_pos (And.intro hnumber hopen), hgranted, BEq.rfl, Bool.not_true,
      State.when_false]
  case consentTimeout =>
    intro q s hreq hopen hlate
    change execConsentTimeout s = _
    simp only [execConsentTimeout, hreq, if_pos (And.intro hopen hlate)]
  case todRecord =>
    intro record a b s hread hwing hspan
    change execTodRecord record s = _
    simp only [execTodRecord, State.readRecord_some hread, hwing, hspan, Bool.and_self, if_true]
  case dupUpRecord =>
    intro record a b s hread hup hguard hvalid hdir
    change execDupUpRecord record s = _
    simp only [execDupUpRecord, State.readRecord_some hread, hup, hguard, hvalid, hdir, Bool.and_self, if_true]
  case dupDownRecord =>
    intro record a b s hread hguard hvalid hdir hegress hflow htag
    change execDupDownRecord record s = _
    simp only [execDupDownRecord, State.readRecord_some hread, hguard, hvalid, hdir, hegress, hflow, htag, Bool.not_false, Bool.not_true,
      Bool.and_self, Bool.false_eq_true, if_false]
  case spanUpRecord =>
    intro record a q b s hread hspan hbase hvalid hqueue
    change execSpanUpRecord record s = _
    simp only [execSpanUpRecord, State.readRecord_some hread, hspan, hbase, hvalid, hqueue, Bool.not_false, Bool.and_self, if_true]
  case spanDownRecord =>
    intro record a b s hread hwing hspan hvalid
    change execSpanDownRecord record s = _
    simp only [execSpanDownRecord, State.readRecord_some hread, hwing, hspan, hvalid, Bool.and_self, if_true]
  case memberRecord =>
    intro record a b s hread hguard hdown
    change execMemberRecord record s = _
    simp only [execMemberRecord, State.readRecord_some hread, hguard, hdown, Bool.not_true, Bool.false_eq_true, if_true, if_false]
    rfl
  case castRecord =>
    intro record a b s hread hblock
    change execCastRecord record s = _
    simp only [execCastRecord, State.readRecord_some hread, hblock, if_true]
end Sys2Proof.Machine
end

section
/-!
PROOFS. Where the commands of the packet memory, of the Ethernet ports, of register access and of the Armature complete
(spec/00_scope.md, spec/03_armature_images.md, spec/08_niches_cells_and_the_caliper.md, spec/09_ethernet_ports.md).
-/

namespace Sys2Proof.Machine

open Sys2Proof

/-! ### The packet memory -/

/-- What is left of a run without a cell does not hold the cell. -/
theorem ScrubRun.without_apart {r x : ScrubRun} {c : Nat} (h : x ∈ r.without c) : ¬ (x.first ≤ c ∧ c < x.first + x.count) := by
  unfold ScrubRun.without at h
  split at h
  case isTrue hheld =>
    rcases List.mem_cons.mp (List.mem_of_mem_filter h) with rfl | h
    · dsimp only; omega
    · rw [List.mem_singleton.mp h]; dsimp only; omega
  case isFalse hapart => exact List.mem_singleton.mp h ▸ hapart

/-- Settles O37: a wait, a niche reset and a quadrant take the branch in which their clause finds them. -/
theorem packetMemoryComplete : Obligations.PacketMemoryComplete := by
  refine ⟨?cellWaitGrant, ?cellWaitTimeout, ?scrubComplete, ?descEccError, ?quadrantPark, ?nicheQueueFlush, ?nicheResetTxAbort,
    ?calAckWrite, ?celCountLoRead⟩
  case cellWaitGrant =>
    intro id w s hwait hearly
    change execCellWaitGrant id s = _
    simp only [execCellWaitGrant, hwait, hearly, Bool.false_eq_true, if_false]
  case cellWaitTimeout =>
    intro id w s hwait hlate
    change execCellWaitTimeout id s = _
    simp only [execCellWaitTimeout, hwait, hlate, if_true]
  case scrubComplete =>
    intro cell s
    refine ⟨_, rfl, List.all_eq_true.mpr fun x hx => ?_⟩
    obtain ⟨r, -, hr⟩ := List.mem_flatMap.mp hx
    rw [← Bool.decide_and, Bool.not_eq_true', decide_eq_false (ScrubRun.without_apart hr)]
  case descEccError =>
    intro cell s hlost
    exact if_neg (by rw [hlost]; decide)
  case quadrantPark =>
    intro q s hdraining hparked hfree
    change execQuadrantPark q s = _
    simp only [execQuadrantPark, hdraining, hparked, hfree, Bool.not_false, Bool.and_self, if_true]
  case nicheQueueFlush =>
    intro n s hactive
    exact if_pos hactive
  case nicheResetTxAbort =>
    intro n s hactive hlate
    have hrunning : ((s.nreset n.val).active && s.since (s.nreset n.val).at_ (2 * ms)) = true := by rw [hactive, hlate]; rfl
    change execNicheResetTxAbort n s = _
    rw [execNicheResetTxAbort, if_pos hrunning]
    rfl
  case calAckWrite =>
    intro data s hacked
    change execCalAckWrite data s = _
    rw [execCalAckWrite, if_pos hacked]
  case celCountLoRead =>
    intro who a count s howner
    exact congrArg _ (State.ifOwned_owner howner)

/-! ### The Ethernet ports -/

/-- A frame of an SDU that has left whole has been sent. -/
theorem State.sentTx_sent_sdu {x : EthTx} {id : Nat} (h : x.sdu = some id) (s : State) (p st : Nat) :
    Emit.ethFrame p x.bytes ∈ (s.sentTx p x st).sent := by
  have hkept : Keeps (s.send (.ethFrame p x.bytes)) (s.sentTx p x st) := by
    simp only [State.sentTx, h]
    split
    · exact keeps_ite (State.tsqPush_keeps (keeps_refl _) _ _ _) (keeps_refl _)
    · exact keeps_refl _
  exact hkept.sent.subset List.mem_cons_self

/-- A message of the PTP service that has left whole has been sent. -/
theorem State.sentTx_sent_ptp {x : EthTx} (h : x.sdu = none) (s : State) (p st : Nat) :
    Emit.ptp p x.bytes ∈ (s.sentTx p x st).sent := by
  have hkept : Keeps (s.send (.ptp p x.bytes)) (s.sentTx p x st) := by
    simp only [State.sentTx, h]
    split
    · exact State.modEth_keeps (keeps_refl _) _ _
    · exact keeps_refl _
  exact hkept.sent.subset List.mem_cons_self

theorem State.ethMux_put (s : State) (f : Field) (v p : Nat) : (s.put f v).ethMux p = s.ethMux p := rfl

/-- Settles O38: a port that may transmit, a frame whose wire time is over and a write that nothing refuses go on. -/
theorem ethernetComplete : Obligations.EthernetComplete := by
  refine ⟨?ethFrameRx, ?pauseExpiry, ?startFrame, ?startPtp, ?completeFrame, ?completePtp, ?ethCollision, ?ethBackoffExpiry,
    ?ethLinkChange, ?ethCbsWrite, ?ethWakeEnable, ?ethBytesLoRead⟩
  case ethFrameRx =>
    intro port frame ago s hlink hfatal hmode
    change execEthFrameRx port frame ago s = _
    simp only [execEthFrameRx, hlink, hfatal, if_neg hmode, Bool.not_true, Bool.or_self, Bool.false_eq_true, if_false]
  case pauseExpiry =>
    intro port t s hpause hover
    change execPauseExpiry port s = _
    simp only [execPauseExpiry, hpause, if_pos hover]
  case startFrame =>
    intro port clear defer s hgroup hclocked hfatal hmode hmay hfree hptp
    have hgrouped : (s.ethGroup port.val).isNone = false := by rw [← Option.not_isSome, hgroup]; rfl
    change execEthTxStart port clear defer s = _
    simp [execEthTxStart, hgrouped, hclocked, hfatal, hmode, hmay, hfree, hptp]
  case startPtp =>
    intro port clear defer s hclocked hfatal hmode hmay hfree hptp
    change execEthTxStart port clear defer s = _
    simp [execEthTxStart, hclocked, hfatal, hmode, hmay, hfree, hptp]
  case completeFrame =>
    intro port ago id x s htx hsdu hover
    change ∃ t, execEthTxComplete port ago s = _ ∧ _
    simp only [execEthTxComplete, htx, hover, Bool.not_true, Bool.false_eq_true, if_false]
    exact ⟨_, rfl, (State.freeTx_keeps (keeps_refl _) x).sent.subset (State.sentTx_sent_sdu hsdu _ _ _)⟩
  case completePtp =>
    intro port ago x s htx hsdu hover
    change ∃ t, execEthTxComplete port ago s = _ ∧ _
    simp only [execEthTxComplete, htx, hover, Bool.not_true, Bool.false_eq_true, if_false]
    exact ⟨_, rfl, (State.freeTx_keeps (keeps_refl _) x).sent.subset (State.sentTx_sent_ptp hsdu _ _ _)⟩
  case ethCollision =>
    intro port after x s htx hhalf hearly hfew
    change ∃ t, execEthCollision port after s = _ ∧ _
    simp only [execEthCollision, htx, hhalf, Bool.false_eq_true, if_false, if_neg (not_lt.mpr hearly), if_neg (not_le.mpr hfew)]
    exact ⟨_, rfl, List.mem_cons_self⟩
  case ethBackoffExpiry =>
    intro port clear x s hagain hover hfree
    change execEthBackoffExpiry port clear s = _
    simp only [execEthBackoffExpiry, hagain, hover, hfree, decide_true, Bool.and_self, if_true]
  case ethLinkChange =>
    intro port report s
    rfl
  case ethCbsWrite =>
    intro port reg data s hmux hslope hbound hsum
    have hgood : ¬ (s.ethMux port.val = 0 ∨ reg.val ≠ 8 ∧ 10000000 < bits data.toNat 23 0) := by
      rintro (hnone | ⟨-, hover⟩)
      · exact hmux hnone
      · exact absurd hover (not_lt.mpr hbound)
    change execEthCbsWrite port reg data s = _
    rw [execEthCbsWrite]
    simp only [if_neg hslope, if_neg hgood, if_neg (not_lt.mpr hsum)]
  case ethWakeEnable =>
    intro port data s hmux hgood
    change execEthWakeEnable port data s = _
    simp only [execEthWakeEnable, if_neg hmux, State.ethMux_put, hgood, Bool.and_false, Bool.false_eq_true, if_false]
  case ethBytesLoRead =>
    intro who port sent s howner
    exact congrArg _ (State.ifOwned_owner howner)

/-! ### Register accesses -/

/-- A write to an assigned register of a block that is present and on reaches its block. -/
theorem State.writeReg_present {s : State} {a : Nat} (who : Agent) (x : Ambient) (w : Word) (hreg : a < 0x1000000)
    (hfatal : s.flt.fatal = false) (hphase : s.flt.phase ≠ .held) (hassigned : assigned a = true) (hpresent : absentBlock a = false)
    (hon : s.blockOff a = false) : s.writeReg who x a w = s.writeBlock who x a w := by
  have htable : within 0x1000000 0x2000000 a = false := by simp [within]; omega
  have hwindow : within 0x2000000 0x4000000 a = false := by simp [within]; omega
  simp [State.writeReg, hfatal, hphase, htable, hwindow, hassigned, hpresent, hon]

/-- Settles O39: an access that is aligned, open and assigned is served, any other is only logged or refused. -/
theorem registerAccessComplete : Obligations.RegisterAccessComplete := by
  refine ⟨?writeByPf, ?writeByNiche, ?writeBySupervisor, ?narrowByPf, ?narrowByNiche, ?absentBlockWrite, ?vfUnmappedAccess,
    ?pfUnmappedAccess, ?crossNicheAccess, ?deniedCompletion, ?glbTempRead⟩
  case writeByPf =>
    intro addr data x s haligned hreg hfatal hphase hassigned hpresent hon
    rw [exec_registerWrite_pf data x s haligned, State.writeReg_present .pf x data hreg hfatal hphase hassigned hpresent hon]
  case writeByNiche =>
    intro n addr data x s hwindow haligned
    change execRegisterWrite (.vf n) addr data x s = _
    simp [execRegisterWrite, hwindow, haligned]
  case writeBySupervisor =>
    intro addr data x s haligned hother hready hclass
    change execRegisterWrite .sup addr data x s = _
    simp [execRegisterWrite, haligned, hother, hready, hclass]
  case narrowByPf =>
    intro addr write s hfatal
    change execNarrowAccess .pf addr write s = _
    simp only [execNarrowAccess, State.narrow, hfatal, Bool.false_eq_true, if_false]
  case narrowByNiche =>
    intro n addr write s hopen
    change execNarrowAccess (.vf n) addr write s = _
    cases write
    · simp only [execNarrowAccess, State.narrow, hopen, if_true, Bool.not_false, State.when_true, agentId]
    · simp only [execNarrowAccess, State.narrow, hopen, if_true, Bool.not_true, State.when_false]
  case absentBlockWrite =>
    intro addr s hpart habsent hassigned hfatal
    change execAbsentBlockWrite addr s = _
    simp only [execAbsentBlockWrite, hpart, habsent, hassigned, hfatal, Bool.not_false, Bool.and_self, if_true]
  case vfUnmappedAccess =>
    intro n off write s hopen hmsix hpba hunmapped
    change execVfUnmappedAccess n off write s = _
    simp only [execVfUnmappedAccess, hopen, hmsix, hpba, hunmapped, Option.isSome_none, Bool.not_true, Bool.or_self, Bool.false_eq_true,
      if_false]
    cases write <;> rfl
  case pfUnmappedAccess =>
    intro addr write s hreg hunassigned hfatal
    change execPfUnmappedAccess addr write s = _
    simp [execPfUnmappedAccess, hreg, hunassigned, hfatal]
  case crossNicheAccess =>
    intro n off a s hopen hforeign
    change execCrossNicheAccess n off s = _
    simp only [execCrossNicheAccess, hopen, hforeign, Bool.not_true, Bool.false_eq_true, if_false]
  case deniedCompletion =>
    intro d rest s hdenied hdue
    change execDeniedCompletion s = _
    simp only [execDeniedCompletion, hdenied, hdue, if_true]
  case glbTempRead =>
    intro s hfatal
    change execGlbTempRead s = _
    simp only [execGlbTempRead, hfatal, State.readTemp, Bool.false_eq_true, if_false]

/-! ### The Armature -/

/-- The end of the checks leaves the words that were staged, and where they came from. -/
theorem State.armIdle_badSource (s : State) : s.armIdle.badSource = s.badSource := by
  unfold State.armIdle State.when
  dsimp only
  split <;> rfl

/-- A command of ARM_CMD that finds the block idle begins its checks. -/
theorem State.armStart_idle {s : State} {c : ArmCmd} (h : s.armBusy c = false) : s.armStart c =
    (let started := (s.putB ARM_STATUS_busy true).put ARM_STATUS_last_cmd c.number
      let shown := started.when (!started.on GLB_SERVICE_arm && c == .accept) (fun t => t.put ARM_STATUS_state 1)
      { shown with arm := { shown.arm with job := some ⟨c, c == .accept && shown.on GLB_SERVICE_arm⟩ } }) := by
  rw [State.armStart, if_neg (by rw [h]; decide)]

/-- Settles O40: what the block finds staged, idle or ready selects the branch of each clause. -/
theorem armatureComplete : Obligations.ArmatureComplete := by
  refine ⟨?armCheck, ?armAccept, ?armRecarve, ?armCmdMultiBit, ?armChecksDone, ?badSource, ?equalDigest, ?armatureAcceptance,
    ?recarveApply, ?armLoadDataWrite, ?armLoadAddrWrite⟩
  case armCheck =>
    intro s hidle
    change Host.Outcome.next (s.armStart .check) = _
    rw [State.armStart_idle hidle]
    simp only [show (ArmCmd.check == ArmCmd.accept) = false from rfl, Bool.and_false, Bool.false_and, State.when_false]
    rfl
  case armAccept =>
    intro s hidle hnone
    have hstarted : ((s.putB ARM_STATUS_busy true).put ARM_STATUS_last_cmd ArmCmd.accept.number).on GLB_SERVICE_arm = false := by
      rw [State.on_put_ne _ _ _ _ (by decide), State.putB, State.on_put_ne _ _ _ _ (by decide), hnone]
    refine ⟨_, congrArg Host.Outcome.next (State.armStart_idle hidle), ?_⟩
    simp only [hstarted, show (ArmCmd.accept == ArmCmd.accept) = true from rfl, Bool.not_false, Bool.and_self, Bool.true_and,
      State.when_true, State.on_put_ne _ ARM_STATUS_state GLB_SERVICE_arm _ (by decide)]
    refine ⟨trivial, ?_⟩
    rw [State.mk_get, State.get_put_self _ _ _ (by decide) (by decide)]
    rfl
  case armRecarve =>
    intro s hidle
    refine ⟨_, congrArg Host.Outcome.next (State.armStart_idle hidle), ?_⟩
    simp only [show (ArmCmd.recarve == ArmCmd.accept) = false from rfl, Bool.and_false, Bool.false_and, State.when_false]
    refine ⟨trivial, ?_, ?_⟩
    · rw [State.mk_on, State.on_put_beside _ _ _ _ (by decide) (by decide) (by decide) (by decide),
        State.on_putB_self _ _ _ (by decide) (by decide)]
    · rw [State.mk_get, State.get_put_self _ _ _ (by decide) (by decide)]
      rfl
  case armCmdMultiBit =>
    intro s
    rfl
  case armChecksDone =>
    intro j s hjob hchecks
    change execArmChecksDone s = _
    simp only [execArmChecksDone, hjob, hchecks, Bool.false_eq_true, if_false]
  case badSource =>
    intro j s hjob hcompare hbad
    change execArmDigestCompareDone s = _
    simp only [execArmDigestCompareDone, hjob, hcompare, s.armIdle_badSource, hbad, Bool.not_true, Bool.and_false, Bool.false_eq_true, if_false]
  case equalDigest =>
    intro j s hjob hcompare hfits hequal hgood
    change execArmDigestCompareDone s = _
    simp [execArmDigestCompareDone, hjob, hcompare, hfits, hequal, hgood]
  case armatureAcceptance =>
    intro a s hready
    change execArmatureAcceptance s = _
    simp only [execArmatureAcceptance, hready]
  case recarveApply =>
    intro c s hcarve hrequested hclosed hscrubbed
    change execRecarveApply s = _
    simp only [execRecarveApply, hcarve, hrequested, hclosed, hscrubbed, Bool.and_self, if_true]
  case armLoadDataWrite =>
    intro data s hidle hroom
    change execArmLoadDataWrite data s = _
    simp only [execArmLoadDataWrite, hidle, hroom, Bool.false_eq_true, if_false]
    split_ifs with hlast
    · rw [hlast]
    · rfl
  case armLoadAddrWrite =>
    intro data s hidle
    change execArmLoadAddrWrite data s = _
    simp only [execArmLoadAddrWrite, hidle, Bool.false_eq_true, if_false]
end Sys2Proof.Machine
end

section
/-!
PROOFS. Where the commands of the classifier, of the TDM tributaries, of time and of port B complete (spec/10_classifier.md,
spec/11_tdm_tributaries_and_circuits.md, spec/12_time.md).
-/

namespace Sys2Proof.Machine

open Sys2Proof

/-! ### The classifier -/

/-- A bitmap of trees has the bit of each tree that it was made of, and no other. -/
theorem bit_treesWhere (p : Nat → Bool) (k : Fin 4) : bit (treesWhere p) k.val = p k.val ∧ treesWhere p < 2 ^ 4 := by
  have hbits : ∀ a b c d : Bool,
      let w := [if a then 2 ^ 0 else 0, if b then 2 ^ 1 else 0, if c then 2 ^ 2 else 0, if d then 2 ^ 3 else 0].sum
      bit w 0 = a ∧ bit w 1 = b ∧ bit w 2 = c ∧ bit w 3 = d ∧ w < 2 ^ 4 := by decide
  obtain ⟨hzero, hone, htwo, hthree, hlt⟩ := hbits (p 0) (p 1) (p 2) (p 3)
  refine ⟨?_, hlt⟩
  fin_cases k
  · exact hzero
  · exact hone
  · exact htwo
  · exact hthree

/-- The low four bits of a word are those of its field. -/
theorem bit_bits_low (w : Nat) (k : Fin 4) : bit (bits w 3 0) k.val = bit w k.val := by
  rw [bit_eq_testBit, bit_eq_testBit, testBit_bits, Nat.zero_add, decide_eq_true (by omega), Bool.true_and]

/-- Settles O41: the selection of a tree, the job of an owner and the key of an SDU select the branch of each clause. -/
theorem classifierComplete : Obligations.ClassifierComplete := by
  refine ⟨?classifySdu, ?clsUpdWrite, ?clsUpdRead, ?clsUpdHash, ?clsUpdInvalidate, ?clsUpdComplete, ?tableWindowWrite,
    ?clsTreeSelWrite, ?treeSwitch, ?treeRetire, ?profileApply, ?clsNtabWrite, ?ntabClearDone⟩
  case classifySdu =>
    intro id ecc d k s hsdu hwaits hwritten hopen howned hkey
    have hstill : (s.endWaiting id).closed d.owner = false := hopen
    change execClassifySdu id ecc s = _
    simp only [execClassifySdu, hsdu, hwaits, hwritten, hstill, State.classify, howned, hkey, Bool.not_true, Bool.or_self,
      Bool.false_eq_true, if_false]
  case clsUpdWrite =>
    intro o s hinside hgood
    change execClsUpdWrite o s = _
    simp only [execClsUpdWrite, hinside, hgood, Bool.or_self, Bool.false_eq_true, if_false]
  case clsUpdRead =>
    intro o s hinside
    change execClsUpdRead o s = _
    simp only [execClsUpdRead, hinside, Bool.false_eq_true, if_false]
  case clsUpdHash =>
    intro o s hinside htable
    change execClsUpdHash o s = _
    simp only [execClsUpdHash, hinside, beq_eq_false_iff_ne.mpr htable, Bool.or_self, Bool.false_eq_true, if_false]
  case clsUpdInvalidate =>
    intro o s hinside
    change execClsUpdInvalidate o s = _
    simp only [execClsUpdInvalidate, hinside, Bool.false_eq_true, if_false]
  case clsUpdComplete =>
    intro o j s hjob hop
    change execClsUpdComplete o s = _
    simp only [execClsUpdComplete, hjob, hop]
  case tableWindowWrite =>
    intro offset s
    rfl
  case clsTreeSelWrite =>
    intro o data s
    have hxor (k : Fin 4) : bit (s.selOf o.val ^^^ bits data.toNat 3 0) k.val = (bit (s.selOf o.val) k.val != bit data.toNat k.val) := by
      rw [bit_eq_testBit, Nat.testBit_xor, ← bit_eq_testBit, ← bit_eq_testBit, bit_bits_low]
    refine ⟨_, rfl, ?_, rfl, fun k => ⟨?_, fun hchanged => ?_⟩⟩
    · rw [State.mk_get, State.get_put_beside _ _ _ _ (show 4 ≤ 7 by decide) (show 7 < 32 by decide) (Nat.zero_le 3)
        (.inl (show 3 < 4 by decide)), State.get_put_bits _ (CLS_TREE_SEL_sel o.val) _ (Nat.zero_le 3) (show 3 < 32 by decide)]
    · rw [State.mk_get, State.get_put_self _ _ _ (show 4 ≤ 7 by decide) (show 7 < 32 by decide), bit_eq_testBit,
        Nat.testBit_mod_two_pow, decide_eq_true (show k.val < 7 + 1 - 4 from k.isLt), Bool.true_and, Nat.testBit_or,
        ← bit_eq_testBit, ← bit_eq_testBit, hxor]
    · have hlisted : k.val ∈ onesOf 4 (s.selOf o.val ^^^ bits data.toNat 3 0) :=
        List.mem_filter.mpr ⟨List.mem_range.mpr k.isLt, by rw [hxor]; exact bne_iff_ne.mpr hchanged⟩
      exact List.mem_append_right _ (List.mem_map_of_mem (List.mem_map_of_mem hlisted))
  case treeSwitch =>
    intro o s
    refine ⟨_, rfl, fun k => ?_⟩
    rw [State.selOf]
    dsimp only
    rw [storeGet_set_self, (bit_treesWhere _ k).1]
  case treeRetire =>
    intro o s
    refine ⟨_, rfl, rfl, fun k => ?_⟩
    rw [State.mk_get, State.get_put_self _ _ _ (show 4 ≤ 7 by decide) (show 7 < 32 by decide)]
    rw [show (CLS_TREE_SEL_retiring o.val).hi + 1 - (CLS_TREE_SEL_retiring o.val).lo = 4 from rfl,
      Nat.mod_eq_of_lt (bit_treesWhere _ k).2, (bit_treesWhere _ k).1]
  case profileApply =>
    intro s
    rfl
  case clsNtabWrite =>
    intro o data s hidle hfits
    change execClsNtabWrite o data s = _
    simp only [execClsNtabWrite, hidle, if_neg (not_lt.mpr hfits), Bool.false_eq_true, if_false]
  case ntabClearDone =>
    intro o s hclearing
    change execNtabClearDone o s = _
    rw [execNtabClearDone, if_pos hclearing]

/-! ### TDM -/

theorem State.setCircuit_word (s : State) (k : Nat) (x : Circuit) (a : Nat) : (s.setCircuit k x).word a = s.word a := rfl
theorem State.setCircuit_writes (s : State) (k : Nat) (x : Circuit) : (s.setCircuit k x).tdm.writes = s.tdm.writes := rfl

theorem State.dropMembers_setMem_writes (s : State) (m : Nat) (x : Member) : ((s.dropMembers m).setMem m x).tdm.writes = s.tdm.writes := by
  change (s.dropMembers m).tdm.writes = _
  unfold State.dropMembers
  dsimp only
  split
  · exact congrArg _ (State.satBy_tdm ..)
  · rfl

theorem State.unstart_word_ne (s : State) (k : Nat) {a : Nat} (h : a ≠ 0x180804 + 0x10 * k) : (s.unstart k).word a = s.word a := by
  rw [State.unstart, State.setCircuit_word, State.putB, s.put_word_ne _ h]

theorem State.unstart_writes (s : State) (k : Nat) : (s.unstart k).tdm.writes = s.tdm.writes := by
  rw [State.unstart, State.setCircuit_writes, State.putB_tdm]

/-- Settles O42: a write that nothing refuses is queued, and what is queued stands in its register at the edge. -/
theorem tdmComplete : Obligations.TdmComplete := by
  refine ⟨?phaseTdm, ?tdmRxFrame, ?tdmTxFrame, ?tdmDefectChange, ?memberSduAccept, ?memberDown, ?pmSecondEnd, ?tdmCirWrite,
    ?tdmMemWrite, ?tdmConfigApply⟩
  case phaseTdm =>
    intro cycles s
    rfl
  case tdmRxFrame =>
    intro trib frame smf s hframed
    change execTdmRxFrame trib frame smf s = _
    rw [execTdmRxFrame, if_pos hframed]
  case tdmTxFrame =>
    intro trib s hframed
    change execTdmTxFrame trib s = _
    rw [execTdmTxFrame, if_pos hframed]
  case tdmDefectChange =>
    intro trib raw s hframed
    change execTdmDefectChange trib raw s = _
    rw [execTdmDefectChange, if_pos hframed]
  case memberSduAccept =>
    intro id r d s hready hsdu hbound
    obtain ⟨m, l, hmembers⟩ := List.exists_cons_of_ne_nil hbound
    have hstill : ({ s with dsl := { s.dsl with ready := s.dsl.ready.erase r } } : State).membersOn false r.flow = m :: l := hmembers
    change execMemberSduAccept id s = _
    simp only [execMemberSduAccept, hready, hsdu, hstill, hmembers]
  case memberDown =>
    intro m l s hvalid hup hlast hlong
    change execMemberDown m s = _
    simp only [execMemberDown, hvalid, hup, hlast, Option.any_some, decide_eq_true hlong, Bool.and_self, if_true]
  case pmSecondEnd =>
    intro blocks s hsecond hnew
    change execPmSecondEnd blocks s = _
    rw [execPmSecondEnd, if_neg (not_or.mpr ⟨not_not.mpr hsecond, hnew⟩)]
  case tdmCirWrite =>
    intro c data s hgood hwithin
    change execTdmCirWrite c data s = _
    simp only [execTdmCirWrite, hgood, hwithin, Bool.false_eq_true, if_false]
  case tdmMemWrite =>
    intro m data s hgood hwithin
    have hadmitted : ¬ (fieldOf (data &&& 0xFFEFFFFF#32) (TDM_MEM_CFG_valid 0) = 1 ∧ s.memRefused m.val (data &&& 0xFFEFFFFF#32)) := by
      rintro ⟨hvalid, hrefused⟩
      rw [hvalid, hrefused] at hgood
      exact absurd hgood (by decide)
    change execTdmMemWrite m data s = _
    simp only [execTdmMemWrite, if_neg hadmitted, hwithin, Bool.false_eq_true, if_false]
  case tdmConfigApply =>
    intro c w s hwrites
    have happart (k : Nat) : 0x180800 + 0x10 * c.val ≠ 0x180804 + 0x10 * k := by omega
    refine ⟨_, rfl, ?_, ?_⟩
    · rw [State.each_unchanged (fun u : State => u.tdm.writes) (fun k u => by rw [State.putB_tdm, State.setCircuit_writes]),
        State.each_unchanged (fun u : State => u.tdm.writes) (fun k u => u.unstart_writes k)]
    · rw [State.each_unchanged (State.word · (0x180800 + 0x10 * c.val))
          (fun k u => by rw [State.putB, State.put_word_ne _ _ (happart k), State.setCircuit_word]),
        State.each_unchanged (State.word · (0x180800 + 0x10 * c.val)) (fun k u => u.unstart_word_ne k (happart k)), State.mk_word,
        State.each_unchanged (fun u : State => u.tdm.writes) (fun m u => u.dropMembers_setMem_writes m _), hwrites]
      exact State.setWord_word_self ..

/-! ### Time -/

/-- One view's part of a snapshot. -/
def State.snapView (v t : Nat) (u : State) : State :=
  ((u.put (TIM_SNAP_SLO_s v) (u.readView v t).1).put (TIM_SNAP_SHI_s v) ((u.readView v t).1 / 2 ^ 32)).put (TIM_SNAP_NS_ns v)
    (u.readView v t).2.1

theorem State.snapView_readView (v t w x : Nat) (u : State) : (u.snapView v t).readView w x = u.readView w x := by
  simp only [State.snapView, State.readView, State.view, State.put_tim]

/-- The part of a view is written from its low seconds on, in three registers. -/
theorem State.snapView_get_ne (v t : Nat) (u : State) (f : Field) (h : f.addr < 0x1C0020 + 0xC * v ∨ 0x1C0028 + 0xC * v < f.addr) :
    (u.snapView v t).get f = u.get f := by
  have hslo : f.addr ≠ (TIM_SNAP_SLO_s v).addr := by change f.addr ≠ 0x1C0020 + 0xC * v; omega
  have hshi : f.addr ≠ (TIM_SNAP_SHI_s v).addr := by change f.addr ≠ 0x1C0024 + 0xC * v; omega
  have hns : f.addr ≠ (TIM_SNAP_NS_ns v).addr := by change f.addr ≠ 0x1C0028 + 0xC * v; omega
  rw [State.snapView, State.get_put_ne _ _ _ _ hns, State.get_put_ne _ _ _ _ hshi, State.get_put_ne _ _ _ _ hslo]

theorem State.snapView_slo (v t : Nat) (u : State) : (u.snapView v t).get (TIM_SNAP_SLO_s v) = (u.readView v t).1 % 2 ^ 32 := by
  have hshi : (TIM_SNAP_SLO_s v).addr ≠ (TIM_SNAP_SHI_s v).addr := by change 0x1C0020 + 0xC * v ≠ 0x1C0024 + 0xC * v; omega
  have hns : (TIM_SNAP_SLO_s v).addr ≠ (TIM_SNAP_NS_ns v).addr := by change 0x1C0020 + 0xC * v ≠ 0x1C0028 + 0xC * v; omega
  rw [State.snapView, State.get_put_ne _ _ _ _ hns, State.get_put_ne _ _ _ _ hshi,
    State.get_put_self _ _ _ (Nat.zero_le 31) (show 31 < 32 by decide)]
  rfl

/-- The low seconds of every view are those of its reading before the snapshot. -/
theorem State.snapViews_slo (t : Nat) (u : State) (v : Fin 4) :
    (u.each (List.range 4) (fun v s => s.snapView v t)).get (TIM_SNAP_SLO_s v.val) = (u.readView v.val t).1 % 2 ^ 32 := by
  change ((((u.snapView 0 t).snapView 1 t).snapView 2 t).snapView 3 t).get (TIM_SNAP_SLO_s v.val) = _
  fin_cases v
  · rw [State.snapView_get_ne 3 _ _ _ (by decide), State.snapView_get_ne 2 _ _ _ (by decide),
      State.snapView_get_ne 1 _ _ _ (by decide)]
    exact State.snapView_slo ..
  · rw [State.snapView_get_ne 3 _ _ _ (by decide), State.snapView_get_ne 2 _ _ _ (by decide)]
    refine (State.snapView_slo ..).trans ?_
    rw [State.snapView_readView]
  · rw [State.snapView_get_ne 3 _ _ _ (by decide)]
    refine (State.snapView_slo ..).trans ?_
    rw [State.snapView_readView, State.snapView_readView]
  · refine (State.snapView_slo ..).trans ?_
    rw [State.snapView_readView, State.snapView_readView, State.snapView_readView]

theorem State.syncTrace_tim (s : State) : s.syncTrace.tim = s.tim := by
  unfold State.syncTrace
  split
  · rfl
  · exact State.putB_tim ..

theorem State.syncTrace_on_ne (s : State) (f : Field) (h : f.addr ≠ GLB_SERVICE_v0_trace.addr) : s.syncTrace.on f = s.on f := by
  unfold State.syncTrace
  split
  · rfl
  · exact s.on_put_ne _ _ _ h

/-- Settles O43: what may be written is, and what is due is applied. -/
theorem timeComplete : Obligations.TimeComplete := by
  refine ⟨?phaseTime, ?twinColourApply, ?viewOffsetCmd, ?viewRateCmd, ?viewStepCmd, ?timSnap, ?timeOfDay, ?todApply, ?leapAdopt,
    ?servoUpdate, ?ptpFrameRx, ?ptpMsgSend, ?timCalGo⟩
  case phaseTime =>
    intro cycles s
    rfl
  case twinColourApply =>
    intro r s htwin
    change execTwinColourApply s = _
    simp only [execTwinColourApply, htwin]
  case viewOffsetCmd =>
    intro who view s hmay hns
    change execViewOffsetCmd who view s = _
    simp only [execViewOffsetCmd, hmay, if_neg (not_le.mpr hns), Bool.not_true, Bool.false_eq_true, if_false]
  case viewRateCmd =>
    intro who view s hmay
    change execViewRateCmd who view s = _
    simp only [execViewRateCmd, hmay, Bool.not_true, Bool.false_eq_true, if_false]
  case viewStepCmd =>
    intro who view s hmay
    change execViewStepCmd who view s = _
    simp only [execViewStepCmd, hmay, Bool.not_true, Bool.false_eq_true, if_false]
  case timSnap =>
    intro s
    have hbelow (u : State) (f : Field) (hf : f.addr < 0x1C0020) :
        (u.each (List.range 4) (fun v s' => s'.snapView v (s.stampAt 0))).get f = u.get f :=
      State.each_unchanged (State.get · f) (fun v u => u.snapView_get_ne v _ f (by omega)) _ u
    refine ⟨_, rfl, ?_, ?_, ?_, fun v => ?_⟩
    · refine (hbelow _ _ (by decide)).trans ?_
      rw [State.get_put_ne _ _ _ _ (by decide), State.get_put_ne _ _ _ _ (by decide), State.get_put_self _ _ _ (by decide) (by decide)]
      rfl
    · refine (hbelow _ _ (by decide)).trans ?_
      rw [State.get_put_ne _ _ _ _ (by decide), State.get_put_self _ _ _ (by decide) (by decide)]
      rfl
    · refine (hbelow _ _ (by decide)).trans ?_
      rw [State.get_put_self _ _ _ (by decide) (by decide), Nat.zero_mod]
    · refine (State.snapViews_slo _ _ v).trans ?_
      simp only [State.readView, State.view, State.put_tim]
  case timeOfDay =>
    intro msg s hinbox hgood
    have haccepted : s.todRefused (todBody msg) = false := hgood
    change execTimeOfDay msg s = _
    simp only [execTimeOfDay, hinbox, haccepted, Bool.not_true, Bool.false_eq_true, if_false]
  case todApply =>
    intro x tick s hnext hdue
    change ∃ t, execTodApply s = _ ∧ _
    simp only [execTodApply, hnext, if_neg (not_le.mpr hdue)]
    refine ⟨_, rfl, ?_, ?_, ?_, ?_⟩
    · rw [State.syncTrace_tim]
    · rw [State.syncTrace_tim]
    · rw [State.syncTrace_on_ne _ _ (by decide), State.mk_on, State.putB, State.on_put_ne _ _ _ _ (by decide),
        State.on_put_ne _ _ _ _ (by decide), State.on_put_ne _ _ _ _ (by decide), State.putB,
        State.on_put_beside _ _ _ _ (by decide) (by decide) (by decide) (by decide), State.on_putB_self _ _ _ (by decide) (by decide)]
    · rw [State.syncTrace_on_ne _ _ (by decide), State.mk_on, State.putB, State.on_put_ne _ _ _ _ (by decide),
        State.on_put_ne _ _ _ _ (by decide), State.on_put_ne _ _ _ _ (by decide), State.on_putB_self _ _ _ (by decide) (by decide)]
  case leapAdopt =>
    intro x s htod hleap hcome
    have hwarned : (x.leap61 || x.leap59) = true := by simpa using hleap
    change execLeapAdopt s = _
    simp only [execLeapAdopt, htod, hwarned, decide_eq_true hcome, Bool.and_self, if_true]
  case servoUpdate =>
    intro servo s hover
    change execServoUpdate servo s = _
    rw [execServoUpdate, if_neg (not_lt.mpr hover)]
  case ptpFrameRx =>
    intro port frame state offset s htakes
    change execPtpFrameRx port frame state offset s = _
    rw [execPtpFrameRx, if_pos htakes]
  case ptpMsgSend =>
    intro port body s hport hsends hlink
    change execPtpMsgSend port body s = _
    simp only [execPtpMsgSend, hport, hsends, hlink, Bool.and_self, if_true]
  case timCalGo =>
    intro who target w s hnamed hns hmay
    have hadmitted : ¬ (target.val ≠ 0 ∧ (!s.mayWriteView who target.val) = true) := by
      rintro ⟨hview, hbarred⟩
      rcases hmay with hzero | hmay
      · exact hview hzero
      · rw [hmay] at hbarred; exact absurd hbarred (by decide)
    change execTimCalGo who target s = _
    rw [execTimCalGo, hnamed]
    simp only [Option.isNone_some, decide_eq_false (not_le.mpr hns), Bool.or_self, Bool.false_eq_true, if_false, if_neg hadmitted,
      show (some (some w) == some (none : Option Int)) = false from rfl, State.when_false]

/-! ### Port B -/

theorem State.setTout_on_ne (s : State) (k : Nat) (x : Tout) (f : Field) (h : f.addr ≠ (TIM_TOUT_STAT_armed k).addr) :
    (s.setTout k x).on f = s.on f := s.on_put_ne _ _ _ h

/-- The configuration of an output lies apart from its status. -/
theorem toutPol_addr_ne (k : Nat) : (TIM_TOUT_CFG_pol k).addr ≠ (TIM_TOUT_STAT_armed k).addr := by
  change 0x1C0600 + 0x40 * k ≠ 0x1C0624 + 0x40 * k
  omega

/-- Settles O44: an owner is served, an edge that its filter passes is stamped, a schedule that is reached fires. -/
theorem portBComplete : Obligations.PortBComplete := by
  refine ⟨?tsqE0Read, ?tinEdge, ?tinE0Read, ?toutArm, ?toutDisarm, ?toutFire, ?toutPulseEnd⟩
  case tsqE0Read =>
    intro who port s howner
    exact congrArg _ (State.ifOwned_owner howner)
  case tinEdge =>
    intro tin rise held frac s hon henabled hheld hfirst
    have hlevel : (if rise = true then s.on (TIM_TIN_CFG_rise tin.val) else s.on (TIM_TIN_CFG_fall tin.val)) = true := by
      cases rise <;> exact henabled
    change execTinEdge tin rise held frac s = _
    simp only [execTinEdge, hon, hlevel, decide_eq_false (not_lt.mpr hheld), hfirst, Option.any_none, Bool.not_true, Bool.or_self,
      Bool.false_eq_true, if_false]
  case tinE0Read =>
    intro who tin s howner
    exact congrArg _ (State.ifOwned_owner howner)
  case toutArm =>
    intro who k s howner
    exact congrArg _ (State.ifOwned_owner howner)
  case toutDisarm =>
    intro k s
    change execToutDisarm k s = _
    rw [execToutDisarm]
    dsimp only
    rw [State.setTout_on_ne _ _ _ _ (toutPol_addr_ne _)]
  case toutFire =>
    intro k x s harmed hreached
    change execToutFire k s = _
    simp only [execToutFire, harmed, if_pos hreached]
  case toutPulseEnd =>
    intro k g s hfall hpassed
    change execToutPulseEnd k s = _
    simp only [execToutPulseEnd, hfall, if_pos hpassed]
end Sys2Proof.Machine
end

section
/-!
PROOFS. Where the commands of the field mesh, of field port A and of the points of port B complete (spec/13_field_mesh.md,
spec/14_field_ports.md).
-/

namespace Sys2Proof.Machine

open Sys2Proof

theorem State.ifPresent_present {s : State} (h : s.fuse.is7401 = false) (a : Nat) (f : State → State) : s.ifPresent a f = f s := by
  rw [State.ifPresent, h, if_neg (by decide)]

theorem State.ifPresent_absent {s : State} (h : s.fuse.is7401 = true) (a : Nat) (f : State → State) :
    s.ifPresent a f = s.logDev 0x0002 0xF (fdata 0 0 a) := by
  rw [State.ifPresent, if_pos h]

/-! ### The field mesh -/

/-- The counters of the mesh lie above its retry limit. -/
theorem State.mshCounted_get (s : State) (n c : Nat) (f : Field) (h : f.addr < 0x200200) :
    ((s.mshCnt n).sat (MSH_CHCNT_noack c)).get f = s.get f := by
  have hchannel : f.addr ≠ (MSH_CHCNT_noack c).addr := by change f.addr ≠ 0x200200 + 4 * c; omega
  have hcount : f.addr ≠ (MSH_CNT_count n).addr := by change f.addr ≠ 0x200800 + 4 * n; omega
  rw [State.sat, State.satBy, State.get_put_ne _ _ _ _ hchannel, State.mshCnt, State.sat, State.satBy, State.get_put_ne _ _ _ _ hcount]

/-- An attempt that is the last of its frame and goes unacknowledged ends the frame (R353, R361). -/
theorem State.meshNoAck_last {s : State} {a : MeshAir} {x : MeshTx} (hair : s.msh.air = some a)
    (hframe : (s.msh.store ++ s.msh.ind).find? (fun x => x.sdu == a.sdu) = some x) (htries : s.get MSH_BACKOFF_retries ≤ x.tries) :
    s.meshNoAck = State.meshGone (State.mshCnt { (s.mshCnt 2).sat (MSH_CHCNT_noack a.channel) with
      msh := { s.msh with air := none, pending := if a.indirect then none else s.msh.pending } } 3) x.sdu := by
  have hmsh : ((s.mshCnt 2).sat (MSH_CHCNT_noack a.channel)).msh = s.msh := rfl
  have hretries : ((s.mshCnt 2).sat (MSH_CHCNT_noack a.channel)).get MSH_BACKOFF_retries = s.get MSH_BACKOFF_retries :=
    s.mshCounted_get 2 a.channel _ (by decide)
  simp only [State.meshNoAck, hair, hmsh, hframe, State.mk_get, hretries, if_pos htries]

/-- Settles O45: on the part that has a mesh the radio's state selects the branch of each clause; the part without one logs the write. -/
theorem meshComplete : Obligations.MeshComplete := by
  refine ⟨?phaseMesh, ?meshRun, ?meshStop, ?meshSlotStart, ?lostIndirect, ?lostFrame, ?meshFrameRx, ?meshDequeue,
    ?indirectExpire, ?meshStoreExpire, ?seenExpire, ?nodeLost, ?radioCalibration, ?calStarved, ?ccaLoopStep, ?nodeConfiguration,
    ?nodeAddress, ?nodeStatus, ?nodeAbsent, ?mshAsnLoRead⟩
  case phaseMesh =>
    intro cycles s
    rfl
  case meshRun =>
    intro s hpart hstopped hfresh hslot hslot' hpsdu hhops
    have hfits : ¬ (s.get MSH_TS_slot < 10000 ∨ 50000 < s.get MSH_TS_slot ∨ s.maxPsdu < 64) := by omega
    have hgood : (List.range (s.get MSH_HOP_CTRL_len)).any (fun k => decide (s.phy.channels ≤ s.hopEntry k)) = false := by
      rw [List.any_eq_false]
      intro k hk
      simpa using List.all_eq_true.mp hhops k hk
    change execMeshRun s = _
    simp only [execMeshRun, State.ifPresent_present hpart, hstopped, hfresh, if_neg hfits, hgood, Bool.false_eq_true, if_false]
  case meshStop =>
    intro s
    refine ⟨_, rfl, ?_, ?_, rfl, rfl, rfl⟩
    · rw [State.meshStop, State.mk_on, State.putB, State.on_put_ne _ _ _ _ (by decide), State.putB,
        State.on_put_ne _ _ _ _ (by decide), State.on_putB_self _ _ _ (by decide) (by decide)]
    · rw [State.meshStop, State.mk_on, State.putB, State.on_put_beside _ _ _ _ (by decide) (by decide) (by decide) (by decide),
        State.on_putB_self _ _ _ (by decide) (by decide)]
  case meshSlotStart =>
    intro locked busy t0 s ht0 hcome
    change execMeshSlotStart locked busy s = _
    simp only [execMeshSlotStart, ht0, if_neg (not_lt.mpr hcome)]
  case lostIndirect =>
    intro a x s hair hindirect hstore hind hsdu htries
    have hframe : (s.msh.store ++ s.msh.ind).find? (fun x => x.sdu == a.sdu) = some x := by simp [hstore, hind, hsdu]
    change Host.Outcome.next s.meshNoAck = _
    rw [State.meshNoAck_last hair hframe htries, hindirect, if_pos rfl]
  case lostFrame =>
    intro a x s hair hdirect hstore hsdu htries
    have hframe : (s.msh.store ++ s.msh.ind).find? (fun x => x.sdu == a.sdu) = some x := by simp [hstore, hsdu]
    change Host.Outcome.next s.meshNoAck = _
    rw [State.meshNoAck_last hair hframe htries, hdirect, if_neg (by decide)]
  case meshFrameRx =>
    intro frame l s hkind hlisten hshared hwithin
    change execMeshFrameRx frame s = _
    simp only [execMeshFrameRx, if_neg hkind, hlisten, hshared, Bool.true_or, if_true, if_pos hwithin]
  case meshDequeue =>
    intro q d s hruns hroom hqueue hhead
    have hadmitted : ¬ (s.msh.t0.isNone ∨ 256 ≤ s.msh.store.length) := by
      rintro (hnone | hfull)
      · exact hruns (Option.isNone_iff_eq_none.mp hnone)
      · exact absurd hfull (not_le.mpr hroom)
    change execMeshDequeue s = _
    rw [execMeshDequeue, if_neg hadmitted, hqueue]
    dsimp only
    rw [hhead]
  case indirectExpire =>
    intro s
    rfl
  case meshStoreExpire =>
    intro s
    rfl
  case seenExpire =>
    intro s
    rfl
  case nodeLost =>
    intro n s hsilent
    change execNodeLost n s = _
    rw [execNodeLost, if_pos hsilent]
  case radioCalibration =>
    intro s hidle hdue
    have hruns : (s.msh.idle && s.msh.calDue.isSome) = true := by rw [hidle, Option.isSome_iff_ne_none.mpr hdue]; rfl
    refine ⟨_, congrArg Host.Outcome.next (if_pos hruns), ?_, rfl, rfl, rfl, ?_⟩
    · rw [State.mk_on, State.on_putB_self _ _ _ (by decide) (by decide)]
    · rw [State.mk_get, State.putB, State.get_put_ne _ _ _ _ (by decide), State.mshCnt, State.sat, State.satBy,
        State.get_put_self _ _ _ (by decide) (by decide)]
      exact Nat.mod_eq_of_lt (Nat.lt_succ_of_le (Nat.min_le_right _ _))
  case calStarved =>
    intro at_ s hdue hlong hfirst
    change execCalStarved s = _
    simp only [execCalStarved, hdue, hlong, hfirst, Bool.not_false, Bool.and_self, if_true]
  case ccaLoopStep =>
    intro energies s hall
    change execCcaLoopStep energies s = _
    simp only [execCcaLoopStep, if_pos hall]
  case nodeConfiguration =>
    intro n data s hpart hgood
    change execMshNodeWrite n 0 data s = _
    rw [execMshNodeWrite, State.ifPresent_present hpart]
    exact congrArg _ (if_neg (by rw [hgood]; decide))
  case nodeAddress =>
    intro n reg data s hpart haddress
    change execMshNodeWrite n reg data s = _
    rw [execMshNodeWrite, State.ifPresent_present hpart]
    rcases haddress with hlo | hhi
    · rw [hlo]; rfl
    · rw [hhi]; rfl
  case nodeStatus =>
    intro n data s hpart
    change execMshNodeWrite n 3 data s = _
    rw [execMshNodeWrite, State.ifPresent_present hpart]
    rfl
  case nodeAbsent =>
    intro n reg data s hpart
    exact congrArg _ (State.ifPresent_absent hpart _ _)
  case mshAsnLoRead =>
    intro who s
    rfl

/-! ### Field port A -/

/-- The refresh of a loop at its setting, where it is not a transmitter, leaves it without a time-out. -/
def State.refreshLoop (j : Nat) (t : State) : State :=
  let t := t.setLoop j { t.loopAt j with stale := none }
  if t.on (FIO_LOOP_CFG_txm j) then t else t.sink j (t.get (FIO_LOOP_SET_ua j))

theorem State.loopAt_setLoop (s : State) (j i : Nat) (x : LoopOut) :
    (s.setLoop j x).loopAt i = if j = i ∧ j < s.fio.loops.length then x else s.loopAt i := by
  have hset (l : List LoopOut) : ((l.set j x)[i]?).getD ⟨3600, 0, none⟩ = if j = i ∧ j < l.length then x else (l[i]?).getD ⟨3600, 0, none⟩ := by
    rw [List.getElem?_set]
    by_cases hji : j = i
    · subst hji
      by_cases hlt : j < l.length
      · simp [hlt]
      · simp [hlt]
    · simp [hji]
  simp only [State.loopAt, State.setLoop, List.getD_eq_getElem?_getD, hset]

/-- The current of a loop does not touch a time-out. -/
theorem State.sink_stale (s : State) (j ua i : Nat) : ((s.sink j ua).loopAt i).stale = (s.loopAt i).stale := by
  have hset (ua : Nat) : ((s.setLoop j { s.loopAt j with ua := ua }).loopAt i).stale = (s.loopAt i).stale := by
    rw [State.loopAt_setLoop]
    split_ifs with h
    · rw [h.1]
    · rfl
  exact hset _

theorem State.refreshLoop_stale (j i : Nat) (t : State) (h : j = i ∨ (t.loopAt i).stale = none) :
    ((t.refreshLoop j).loopAt i).stale = none := by
  have hset : ((t.setLoop j { t.loopAt j with stale := none }).loopAt i).stale = none := by
    rw [State.loopAt_setLoop]
    split_ifs with hin
    · rfl
    · rcases h with rfl | h
      · rw [State.loopAt, List.getD_eq_default _ _ (not_lt.mp (fun hlt => hin ⟨rfl, hlt⟩))]
      · exact h
  unfold State.refreshLoop
  dsimp only
  split
  · exact hset
  · rw [State.sink_stale, hset]

/-- A refresh writes no register but the status of the loop. -/
theorem State.refreshLoop_on_link (j : Nat) (t : State) : (t.refreshLoop j).on FIO_STATUS_link = t.on FIO_STATUS_link := by
  have happart : FIO_STATUS_link.addr ≠ (FIO_LOOP_STAT_i_meas j).addr := by change 0x240000 ≠ 0x240310 + 0x20 * j; omega
  unfold State.refreshLoop
  dsimp only
  split
  · rfl
  · rw [State.sink, State.send_on, State.on_put_ne _ _ _ _ happart]
    rfl

theorem State.setLoop_dieLogged (s : State) (j : Nat) (x : LoopOut) : (s.setLoop j x).fio.dieLogged = s.fio.dieLogged := rfl

theorem State.sink_dieLogged (s : State) (j ua : Nat) : (s.sink j ua).fio.dieLogged = s.fio.dieLogged := by
  simp only [State.sink, State.send_fio, State.put_fio, State.setLoop_dieLogged]

theorem State.refreshLoop_dieLogged (j : Nat) (t : State) : (t.refreshLoop j).fio.dieLogged = t.fio.dieLogged := by
  unfold State.refreshLoop
  dsimp only
  split
  · exact State.setLoop_dieLogged ..
  · rw [State.sink_dieLogged, State.setLoop_dieLogged]

/-- Settles O46: on the part that has port A, with its link up, a setting inside its limits takes effect. -/
theorem portAComplete : Obligations.PortAComplete := by
  refine ⟨?phaseFio, ?ainSettleStart, ?ainConversionEnd, ?ainValRead, ?channelEnergy, ?excitation, ?bridge, ?loopSetWrite,
    ?loopHeld, ?loopFollows, ?ctabCommit, ?ctabActivate, ?loopOverrange, ?loopOpen, ?loopRefreshTimeout, ?fioDieLost,
    ?fioDieLinkUp⟩
  case phaseFio =>
    intro cycles s
    rfl
  case ainSettleStart =>
    intro c s hruns hidle haccepted hnext
    have hscans : ¬ ((!s.dieRuns) = true ∨ s.fio.cur.isSome = true ∨ s.device.isNone = true) := by
      rw [hruns, hidle, ← Option.not_isSome, haccepted]
      decide
    change ∃ t, execAinSettleStart s = _ ∧ _
    rw [execAinSettleStart, if_neg hscans, hnext]
    exact ⟨_, rfl, rfl, rfl, rfl, rfl⟩
  case ainConversionEnd =>
    intro raw cmLo cmHi inner c s hruns hcur
    change execAinConversionEnd raw cmLo cmHi inner s = _
    simp only [execAinConversionEnd, hruns, hcur, if_true]
  case ainValRead =>
    intro who n s howner
    exact congrArg _ (State.ifOwned_owner howner)
  case channelEnergy =>
    intro n data s hpart hlink hgood henergy
    change execFioEnergyCfgWrite ⟨n.val, by omega⟩ data s = _
    simp only [execFioEnergyCfgWrite, State.ifPresent_present hpart, hlink, if_pos n.isLt, hgood, henergy, Bool.not_true,
      Bool.false_eq_true, if_false]
  case excitation =>
    intro k data s hpart hlink hleast hmost henergy
    have hreg : ¬ 8 + k.val < 8 := by omega
    have hbridge : ¬ 8 + k.val = 10 := by omega
    change execFioEnergyCfgWrite ⟨8 + k.val, by omega⟩ data s = _
    simp only [execFioEnergyCfgWrite, State.ifPresent_present hpart, hlink, if_neg hreg, if_neg hbridge, Nat.add_sub_cancel_left,
      decide_eq_false (not_lt.mpr hleast), decide_eq_false (not_lt.mpr hmost), henergy, Bool.not_true, Bool.or_self,
      Bool.false_eq_true, if_false]
  case bridge =>
    intro data s hpart hlink hvolt hvolt' hcurrent hcurrent' henergy
    change execFioEnergyCfgWrite 10 data s = _
    simp only [execFioEnergyCfgWrite, State.ifPresent_present hpart, hlink, show (10 : Fin 11).val = 10 from rfl,
      show ¬ 10 < 8 by decide, show 10 - 8 = 2 from rfl,
      decide_eq_false (not_lt.mpr hvolt), decide_eq_false (not_lt.mpr hvolt'), decide_eq_false (not_lt.mpr hcurrent),
      decide_eq_false (not_lt.mpr hcurrent'), henergy, Bool.not_true, Bool.or_self, Bool.false_eq_true, if_false, if_true]
  case loopSetWrite =>
    intro j data s hpart hlink hsink hleast hmost
    have hgood : ¬ (s.on (FIO_LOOP_CFG_txm j.val) = true ∨ bits data.toNat 14 0 < 3600 ∨ 21000 < bits data.toNat 14 0) := by
      rw [hsink]; simp; omega
    change execLoopSetWrite j data s = _
    rw [execLoopSetWrite, State.ifPresent_present hpart, hlink, if_neg (by decide), if_neg hgood]
  case loopHeld =>
    intro who j data s hpart hlink hplain hsink
    change execLoopTxmWrite who j data s = _
    simp only [execLoopTxmWrite, State.ifPresent_present hpart, hlink, beq_eq_false_iff_ne.mpr hplain, hsink, Bool.not_true, Bool.false_and,
      Bool.false_eq_true, if_false]
  case loopFollows =>
    intro who j data s hpart hlink hfollows hsource howned hspan
    change execLoopTxmWrite who j data s = _
    simp only [execLoopTxmWrite, State.ifPresent_present hpart, hlink, hfollows, hsource, howned, beq_eq_false_iff_ne.mpr hspan, bne_self_eq_false,
      BEq.rfl, Bool.not_true, Bool.and_false, Bool.false_eq_true, if_false]
  case ctabCommit =>
    intro s hpart hlink hleast hmost hrising hkind
    change execCtabCommit s = _
    rw [execCtabCommit, State.ifPresent_present hpart, hlink, if_neg (by decide), hrising, if_neg]
    rintro (hfew | hmany | hfalls | ⟨hsquare, -⟩)
    · exact absurd hfew (not_lt.mpr hleast)
    · exact absurd hmany (not_lt.mpr hmost)
    · exact absurd hfalls (by decide)
    · exact hkind hsquare
  case ctabActivate =>
    intro s
    rfl
  case loopOverrange =>
    intro j above s hruns
    change execLoopOverrange j above s = _
    simp only [execLoopOverrange, hruns, Bool.not_true, Bool.false_eq_true, if_false]
  case loopOpen =>
    intro j meas s hruns hclosed hlow
    change execLoopOpen j meas s = _
    simp only [execLoopOpen, hruns, hclosed, decide_eq_true hlow, Bool.not_true, Bool.not_false, Bool.and_self, Bool.false_eq_true, if_false,
      State.when_true]
  case loopRefreshTimeout =>
    intro j at_ s hstale hlong
    change execLoopRefreshTimeout j s = _
    simp only [execLoopRefreshTimeout, hstale, hlong, if_true, Int.natCast_emod, Nat.cast_ofNat]
  case fioDieLost =>
    intro s hpart hlink
    have hlost : ¬ (s.fuse.is7401 = true ∨ (!s.on FIO_STATUS_link) = true) := by rw [hpart, hlink]; decide
    exact congrArg Host.Outcome.next (if_neg hlost)
  case fioDieLinkUp =>
    intro s hpart hpower hpower'
    have hup : ¬ (s.fuse.is7401 = true ∨ (!s.domainOn 29) = true ∨ (!s.domainOn 30) = true) := by rw [hpart, hpower, hpower']; decide
    refine ⟨_, congrArg Host.Outcome.next (if_neg hup), ?_, ?_, ?_⟩
    · change State.on (State.refreshLoop 1 (State.refreshLoop 0 _)) FIO_STATUS_link = true
      rw [State.refreshLoop_on_link, State.refreshLoop_on_link, State.mk_on, State.on_putB_self _ _ _ (by decide) (by decide)]
    · change (State.refreshLoop 1 (State.refreshLoop 0 _)).fio.dieLogged = false
      rw [State.refreshLoop_dieLogged, State.refreshLoop_dieLogged]
    · intro j
      change ((State.refreshLoop 1 (State.refreshLoop 0 _)).loopAt j.val).stale = none
      fin_cases j
      · exact State.refreshLoop_stale _ _ _ (.inr (State.refreshLoop_stale _ _ _ (.inl rfl)))
      · exact State.refreshLoop_stale _ _ _ (.inl rfl)

/-! ### The points of port B -/

/-- Settles O47: what an input has held and what an output drives select the branch of each clause. -/
theorem portBPointsComplete : Obligations.PortBPointsComplete := by
  refine ⟨?dinCrossing, ?dinEvent, ?chatterEnd, ?dinCfgWrite, ?dinE0Read, ?wettingDip, ?wettingDipEnd, ?outputOn, ?outputOff,
    ?doutClear, ?doutShort, ?doutRetry, ?doutRetrySuccess, ?doutExtdrv, ?doutExtdrvClear⟩
  case dinCrossing =>
    intro i mv frac l s hreads hside hlevel hrun
    have hnew : ¬ (!l) = l := by cases l <;> decide
    change execDinCrossing i mv frac s = _
    simp only [execDinCrossing, hreads, hside, hlevel, hrun, if_neg hnew, Option.isSome_none, Bool.not_true, Bool.false_eq_true, if_false]
    rfl
  case dinEvent =>
    intro i l stamp at_ s hrun hlong
    change execDinEvent i s = _
    simp only [execDinEvent, hrun, hlong, if_true]
  case chatterEnd =>
    intro i s hchatter hquiet
    change execChatterEnd i s = _
    simp only [execChatterEnd, hchatter, hquiet, Bool.and_self, if_true]
  case dinCfgWrite =>
    intro i data mv s hleast hmost hhys
    have hgood : ¬ (wfield data (TIM_DIN_CFG_thr 0) < 50 ∨ 1500 < wfield data (TIM_DIN_CFG_thr 0) ∨
        250 < wfield data (TIM_DIN_CFG_hys 0)) := by omega
    change execDinCfgWrite i data mv s = _
    simp only [execDinCfgWrite, if_neg hgood]
  case dinE0Read =>
    intro who i s howner
    exact congrArg _ (State.ifOwned_owner howner)
  case wettingDip =>
    intro mv s hpower hlow
    change execWettingDip mv s = _
    simp only [execWettingDip, hpower, if_pos hlow, Bool.not_true, Bool.false_eq_true, if_false]
  case wettingDipEnd =>
    intro at_ s hdip hrecovered hlong
    have hover : (s.on TIM_FPB_STAT_dip && s.fio.recovered.any (fun t => s.since t (10 * ms))) = true := by
      rw [hdip, hrecovered, Option.any_some, hlong, Bool.and_self]
    change execWettingDipEnd s = _
    rw [execWettingDipEnd, if_pos hover]
  case outputOn =>
    intro k s hunlatched hundriven hretry hmay
    have hcmd : (TIM_DOUT_STAT_driven k.val).addr ≠ (TIM_DOUT_CMD_on k.val).addr := by
      change 0x1C0B08 + 0x10 * k.val ≠ 0x1C0B04 + 0x10 * k.val; omega
    have hstill : (s.putB (TIM_DOUT_CMD_on k.val) true).on (TIM_DOUT_STAT_driven k.val) = false :=
      (s.on_put_ne _ _ _ hcmd).trans hundriven
    have hready : ((s.putB (TIM_DOUT_CMD_on k.val) true).on (TIM_DOUT_STAT_driven k.val) ||
        ((s.putB (TIM_DOUT_CMD_on k.val) true).dout k.val).retry.isSome || !(s.putB (TIM_DOUT_CMD_on k.val) true).doutMay) = false := by
      rw [hstill, show ((s.putB (TIM_DOUT_CMD_on k.val) true).dout k.val).retry = none from hretry,
        show (s.putB (TIM_DOUT_CMD_on k.val) true).doutMay = true from hmay]
      rfl
    change ∃ t, execDoutCmd k true s = _ ∧ _
    rw [execDoutCmd, hunlatched, if_neg (by decide), if_neg (by decide), if_neg (by rw [hready]; decide)]
    have hstat : (TIM_DOUT_CMD_on k.val).addr ≠ (TIM_DOUT_STAT_driven k.val).addr := hcmd.symm
    refine ⟨_, rfl, ?_, ?_⟩
    · rw [State.switchDout, State.send_on, State.putB, State.on_put_ne _ (TIM_DOUT_STAT_readback k.val) _ _ hstat, State.putB,
        State.on_put_ne _ (TIM_DOUT_STAT_driven k.val) _ _ hstat,
        State.on_putB_self _ _ _ rfl (show 0 < 32 by decide)]
    · rw [State.switchDout, State.send_on, State.putB, State.on_put_beside _ _ _ _ (Nat.le_refl 7) (show 7 < 32 by decide) (Nat.le_refl 0)
        (.inl (show 0 < 7 by decide)), State.on_putB_self _ _ _ rfl (show 0 < 32 by decide)]
  case outputOff =>
    intro k s
    rfl
  case doutClear =>
    intro k s
    rfl
  case doutShort =>
    intro k s hdriven
    change execDoutShort k s = _
    rw [execDoutShort, if_pos hdriven]
  case doutRetry =>
    intro k at_ s hretry hdue hmay
    have hready : ¬ (s.clk < at_ ∨ (!s.doutMay) = true) := by rw [hmay]; simp; omega
    change execDoutRetry k s = _
    simp only [execDoutRetry, hretry, if_neg hready]
  case doutRetrySuccess =>
    intro k at_ s htrying hlong hdriven
    change execDoutRetrySuccess k s = _
    simp only [execDoutRetrySuccess, htrying, hlong, hdriven, Bool.and_self, if_true]
  case doutExtdrv =>
    intro k low s hoff hundriven hpower halone
    have hjudged : ¬ (s.on (TIM_DOUT_CMD_on k.val) = true ∨ s.on (TIM_DOUT_STAT_driven k.val) = true ∨ (!s.domainOn 26) = true) := by
      rw [hoff, hundriven, hpower]; decide
    have hnone : (List.range 4).filter (fun m => m != k.val && s.on (TIM_DOUT_STAT_driven m)) = [] := by
      refine List.filter_eq_nil_iff.mpr fun m hm => ?_
      simpa [or_iff_not_imp_left] using List.all_eq_true.mp halone m hm
    change execDoutExtdrv k low s = _
    rw [execDoutExtdrv, if_neg hjudged, hnone]
    rfl
  case doutExtdrvClear =>
    intro k s hundriven
    change execDoutExtdrvClear k s = _
    simp only [execDoutExtdrvClear, hundriven, Bool.false_eq_true, if_false]
end Sys2Proof.Machine
end

section
/-!
PROOFS. Where the commands of the key store, of the lookaside engine, of the host interface and of the mailboxes complete
(spec/15_cipher_engine_and_key_store.md, spec/16_pcie_host_interface.md, spec/17_supervisor_port_and_mailbox.md).
-/

namespace Sys2Proof.Machine

open Sys2Proof

/-! ### Keys -/

/-- Settles O48: what a slot holds, and whether the store is locked out, select the branch of each clause. -/
theorem keyStoreComplete : Obligations.KeyStoreComplete := by
  refine ⟨?cphPlainLoad, ?cphUnwrapLoad, ?cphZero, ?keyLoadComplete, ?cphSlotCfgWrite, ?secretEnrolCmd, ?secretClearCmd,
    ?cphEraseCmd, ?cipherAlarm, ?alarmRecovery, ?rngHealthFail, ?rngHealthPass⟩
  case cphPlainLoad =>
    intro o slot s hadmitted hempty
    change execCphPlainLoad o slot s = _
    simp only [execCphPlainLoad, hadmitted, hempty, Option.isSome_none, Bool.false_eq_true, if_false]
  case cphUnwrapLoad =>
    intro o slot wslot wk s hadmitted howned hwrapping hempty hwrap
    change execCphUnwrapLoad o slot wslot s = _
    simp only [execCphUnwrapLoad, hadmitted, howned, hwrapping, hempty, hwrap, Option.isSome_none, Bool.not_true, Bool.and_false,
      Bool.or_self, Bool.false_eq_true, if_false]
  case cphZero =>
    intro o slot s hadmitted hloaded
    change execCphZero o slot s = _
    simp only [execCphZero, hadmitted, Option.isNone_iff_eq_none, if_neg hloaded]
  case keyLoadComplete =>
    intro o j key s hjob hloads hlockout hkey
    change execKeyLoadComplete o s = _
    simp only [execKeyLoadComplete, hjob, if_neg hloads, hlockout, hkey, Bool.false_eq_true, if_false]
  case cphSlotCfgWrite =>
    intro o slot data s howned hgeneral hempty
    have hfree : ¬ (slot.val < 64 ∨ (s.keyIn slot.val).isSome = true ∨ slot.val < 96 ∧ data.toNat &&& slotAttrs ≠ 0x00600020) := by
      rintro (hline | hloaded | ⟨hreport, -⟩)
      · omega
      · rw [hempty] at hloaded; exact absurd hloaded (by decide)
      · omega
    change execCphSlotCfgWrite o slot data s = _
    simp only [execCphSlotCfgWrite, howned, if_neg hfree, Bool.not_true, Bool.false_eq_true, if_false]
  case secretEnrolCmd =>
    intro s
    rfl
  case secretClearCmd =>
    intro s hunused
    change execSecretClearCmd s = _
    simp only [execSecretClearCmd, hunused, Bool.false_eq_true, if_false]
  case cphEraseCmd =>
    intro s
    rfl
  case cipherAlarm =>
    intro source s
    rfl
  case alarmRecovery =>
    intro s herased hopen
    change execAlarmRecovery s = _
    simp only [execAlarmRecovery, herased, hopen, Bool.not_false, Bool.and_self, if_true]
  case rngHealthFail =>
    intro s
    refine ⟨_, rfl, ?_, ?_, ?_⟩
    · rw [State.logDev_on, State.sat, State.satBy, State.on_put_ne _ _ _ _ (by decide), State.on_putB_self _ _ _ (by decide) (by decide)]
    · rw [State.logDev_cph, State.sat_cph, State.putB_cph]
    · rw [State.logDev, State.logDevN_devLog, State.sat_flt, State.putB_flt]
      rfl
  case rngHealthPass =>
    intro s herased hseeded
    change execRngHealthPass s = _
    simp only [execRngHealthPass, hseeded, if_true, State.putB_cph, herased]

/-- Settles O49: an operation that is due and served ends as its clause says. -/
theorem lookasideComplete : Obligations.LookasideComplete := by
  refine ⟨?laRequestFetch, ?refusedForeign, ?refusedOther, ?completes, ?fails, ?microslotStart⟩
  case laRequestFetch =>
    intro o desc s hruns hposted
    change execLaRequestFetch o desc s = _
    rw [execLaRequestFetch, if_pos (by rw [hruns, bne_iff_ne.mpr hposted]; rfl)]
  case refusedForeign =>
    intro o j s hdue hforeign hniche
    change execLaRefusalComplete o s = _
    simp only [execLaRefusalComplete, hdue, hforeign, hniche, and_self, if_true]
  case refusedOther =>
    intro o j s hdue hown
    change execLaRefusalComplete o s = _
    simp only [execLaRefusalComplete, hdue, if_neg (fun h : j.status = 1 ∧ o.val < 16 => hown h.1)]
  case completes =>
    intro o index src aad tag j s hjob hserved
    have hdone : (s.on CPH_CTRL_partition && j.rounds != 0) = false := by
      rcases hserved with hopen | hserved
      · rw [hopen]; rfl
      · rw [hserved]; exact Bool.and_false _
    change execLaComplete o index src aad tag false s = _
    simp only [execLaComplete, hjob, hdone, Bool.false_eq_true, if_false]
  case fails =>
    intro o index src aad tag j s hjob hserved
    have hdone : (s.on CPH_CTRL_partition && j.rounds != 0) = false := by
      rcases hserved with hopen | hserved
      · rw [hopen]; rfl
      · rw [hserved]; exact Bool.and_false _
    change execLaComplete o index src aad tag true s = _
    simp only [execLaComplete, hjob, hdone, Bool.false_eq_true, if_false, if_true]
  case microslotStart =>
    intro k s hpartition
    have hstill : (s.put TICK_STATUS_microslot k.val).on CPH_CTRL_partition = true := by
      rw [State.on_put_ne _ _ _ _ (by decide), hpartition]
    exact congrArg _ (if_pos hstill)

/-! ### The host interface -/

/-- What the host has configured when a function is enabled. -/
def State.linkedUp (cfg : HostConfig) (s : State) : State :=
  (((s.putB HIF_STATUS_link true).putB HIF_STATUS_perst false).put HIF_STATUS_width cfg.width.val).put HIF_STATUS_speed cfg.speed.val

theorem State.linkedUp_phase (cfg : HostConfig) (s : State) : (s.linkedUp cfg).flt.phase = s.flt.phase := by
  simp only [State.linkedUp, State.put_flt, State.putB_flt]

theorem State.linkedUp_vfs (cfg : HostConfig) (s : State) : (s.linkedUp cfg).get HIF_STATUS_num_vfs = s.get HIF_STATUS_num_vfs := by
  rw [State.linkedUp, State.get_put_beside _ _ _ _ (by decide) (by decide) (by decide) (by decide),
    State.get_put_beside _ _ _ _ (by decide) (by decide) (by decide) (by decide), State.putB,
    State.get_put_beside _ _ _ _ (by decide) (by decide) (by decide) (by decide), State.putB,
    State.get_put_beside _ _ _ _ (by decide) (by decide) (by decide) (by decide)]

/-- Settles O50: an access that its ring, function and owner allow takes effect. -/
theorem hostInterfaceComplete : Obligations.HostInterfaceComplete := by
  refine ⟨?ringEnable, ?ringDisable, ?ringDoorbell, ?rxSduDeliver, ?txSduFetch, ?ringHoldoffExpiry, ?dmaError, ?busMasterDisable,
    ?enablePf, ?enableVf, ?unmaskFunction, ?unmaskVector, ?vfFlr, ?pfSideReset⟩
  case ringEnable =>
    intro who niche ring data s henables hopen hwriter hoff hgood
    change execRingEnable who niche ring data s = _
    simp only [execRingEnable, henables, hopen, hwriter, hoff, hgood, Bool.not_true, Bool.or_self, Bool.false_eq_true, if_false]
  case ringDisable =>
    intro who niche ring data s hdisables hopen hwriter
    change execRingDisable who niche ring data s = _
    simp only [execRingDisable, hdisables, hopen, hwriter, Bool.not_true, Bool.or_self, Bool.false_eq_true, if_false]
  case ringDoorbell =>
    intro who niche ring p s hopen hwriter hon htakes
    change execRingDoorbell who niche ring p s = _
    simp only [execRingDoorbell, hopen, hwriter, hon, htakes, Bool.not_true, Bool.false_eq_true, if_false]
  case rxSduDeliver =>
    intro niche ring addrs d k size s hready
    change execRxSduDeliver niche ring addrs s = _
    simp only [execRxSduDeliver, hready]
  case txSduFetch =>
    intro niche ring chain data s hmay
    change execTxSduFetch niche ring chain data s = _
    rw [execTxSduFetch, if_pos hmay]
  case ringHoldoffExpiry =>
    intro niche ring at_ s hfirst hlong
    change execRingHoldoffExpiry niche ring s = _
    simp only [execRingHoldoffExpiry, hfirst, hlong, if_true]
  case dmaError =>
    intro niche ring what s hon hgood hopen
    change execDmaError niche ring what s = _
    simp only [execDmaError, hon, hgood, hopen, Bool.not_true, Bool.or_self, Bool.false_eq_true, if_false]
    cases what <;> rfl
  case busMasterDisable =>
    intro fn rx tx s
    rfl
  case enablePf =>
    intro cfg s hphase
    change execBusMasterEnable 0 cfg s = _
    simp [execBusMasterEnable, hphase]
  case enableVf =>
    intro fn cfg s hphase hvf hlisted
    have henables : ¬ ((s.linkedUp cfg).flt.phase = .held ∨ fn.val ≠ 0 ∧ (s.linkedUp cfg).get HIF_STATUS_num_vfs < fn.val) := by
      rw [State.linkedUp_phase, State.linkedUp_vfs]
      rintro (hheld | ⟨-, hbeyond⟩)
      · exact hphase hheld
      · exact absurd hbeyond (not_lt.mpr hlisted)
    change execBusMasterEnable fn cfg s = _
    rw [execBusMasterEnable, if_neg hphase, if_neg hvf]
    exact congrArg Host.Outcome.next (if_neg henables)
  case unmaskFunction =>
    intro fn s
    rfl
  case unmaskVector =>
    intro fn v s
    rfl
  case vfFlr =>
    intro v s henabled hlisted
    change execVfFlr v s = _
    simp only [execVfFlr, henabled, decide_eq_true hlisted, Bool.and_self, if_true]
  case pfSideReset =>
    intro kind s
    refine ⟨_, rfl, ?_, ?_⟩
    · rw [State.mk_on, State.on_put_beside _ _ _ _ (by decide) (by decide) (by decide) (by decide),
        State.on_putB_self _ _ _ (by decide) (by decide)]
    · rw [State.mk_get, State.get_put_self _ _ _ (by decide) (by decide), Nat.zero_mod]

/-! ### The mailboxes -/

/-- Settles O51: a word that its source may move is moved. -/
theorem mailboxWordsComplete : Obligations.MailboxWordsComplete := by
  refine ⟨?supCsFall, ?supWordEdge, ?supCsRise, ?supPfTxWrite, ?supPfRxRead, ?mbxFlush, ?mbxFrameBad⟩
  case supCsFall =>
    intro s hpower hidle
    change execSupCsFall s = _
    simp only [execSupCsFall, hpower, hidle, Bool.not_true, Bool.or_self, Bool.false_eq_true, if_false]
  case supWordEdge =>
    intro word s hpower hselected hready henabled hopen hroom
    change execSupWordEdge word s = _
    simp only [execSupWordEdge, hpower, hselected, State.supReceive, hready, henabled, hopen, if_neg (not_le.mpr hroom), ge_iff_le,
      Bool.not_true, Bool.or_self, Bool.false_eq_true, if_false]
  case supCsRise =>
    intro partialWord s hselected
    change execSupCsRise partialWord s = _
    simp only [execSupCsRise, hselected, Bool.not_true, Bool.false_eq_true, if_false]
  case supPfTxWrite =>
    intro who box word s hreaches hready hopen hskip hroom
    change execSupPfTxWrite who box word s = _
    simp only [execSupPfTxWrite, hreaches, hready, hopen, hskip, ge_iff_le, if_neg (not_le.mpr hroom), ne_eq, not_true_eq_false,
      Bool.not_true, Bool.false_eq_true, if_false]
  case supPfRxRead =>
    intro who box w rest s hreaches htx
    change execSupPfRxRead who box s = _
    simp only [execSupPfRxRead, hreaches, htx, Bool.not_true, Bool.false_eq_true, if_false]
  case mbxFlush =>
    intro who box s hreaches
    change execMbxFlush who box s = _
    rw [execMbxFlush, if_pos hreaches]
  case mbxFrameBad =>
    intro src h rest s hready hfront hbad
    change execMbxFrameBad src s = _
    simp only [execMbxFrameBad, hready, hfront, hbad, Bool.not_true, Bool.false_eq_true, if_false, if_true]

theorem State.enrol_flt (s : State) (b : List Byte) (k : Nat) : (s.enrol b k).flt = s.flt := rfl
theorem State.clearSecret_flt (s : State) : s.clearSecret.flt = s.flt := rfl

/-- The firmware is up while it takes a request. -/
theorem State.tookReq_up {s : State} {a : Agent} {r : Req} (h : s.serves a r) : (s.tookReq a r).flt.phase ≠ .held := by
  rw [State.tookReq_flt, State.serves_up h]
  decide

/-- A request that passes every check is answered with what it runs to, where that leaves the firmware up. -/
theorem State.serve_answers {s : State} {a : Agent} {r : Req} {p : Req → Bool} {run : Req → State → State × Nat × List Word} {t : State}
    {status : Nat} {ws : List Word} (h : s.serves a r) (hp : p r = true) (hrun : run r (s.tookReq a r) = (t, status, ws))
    (hup : t.flt.phase ≠ .held) : s.serve a p run = t.respond a r true status ws := by
  rw [State.serve_responds h hp (by rw [hrun]; exact hup), hrun]

/-- Settles O52: each request is served by what its type runs, which leaves the firmware up. -/
theorem mailboxRequestsComplete : Obligations.MailboxRequestsComplete := by
  refine ⟨?mbxEcho, ?mbxRegRead, ?mbxRegWrite, ?mbxStatus, ?mbxTrustEnrol, ?mbxTrustRevoke, ?mbxSecretEnrol, ?mbxSecretClear,
    ?mbxNicheReset, ?mbxDeviceReset, ?mbxResetDeferred⟩
  case mbxEcho =>
    intro src r s hserves htype
    exact congrArg Host.Outcome.next (State.serve_answers hserves (beq_iff_eq.mpr htype) rfl (State.tookReq_up hserves))
  case mbxRegRead =>
    intro src r s hserves htype haddr hup
    exact congrArg Host.Outcome.next (State.serve_answers hserves (beq_iff_eq.mpr htype) (if_pos haddr) hup)
  case mbxRegWrite =>
    intro src x r s hserves htype haddr hup
    exact congrArg Host.Outcome.next (State.serve_answers hserves (beq_iff_eq.mpr htype) (if_pos haddr) hup)
  case mbxStatus =>
    intro src r s hserves htype
    exact congrArg Host.Outcome.next (State.serve_answers hserves (beq_iff_eq.mpr htype) rfl (State.tookReq_up hserves))
  case mbxTrustEnrol =>
    intro src r s hserves htype hfree
    refine congrArg Host.Outcome.next (State.serve_answers hserves (beq_iff_eq.mpr htype) ?_ (State.tookReq_up hserves))
    simp only [hfree]
  case mbxTrustRevoke =>
    intro src r s hserves htype
    exact congrArg Host.Outcome.next (State.serve_answers hserves (beq_iff_eq.mpr htype) rfl (State.tookReq_up hserves))
  case mbxSecretEnrol =>
    intro src r s hserves htype
    have henrolled (b : List Byte) (k : Nat) : ((s.tookReq src r).enrol b k).flt.phase ≠ .held := by
      rw [State.enrol_flt]
      exact State.tookReq_up hserves
    have hlogged : ((s.tookReq src r).logDev 0x0E0C 0xF 0).flt.phase ≠ .held := by
      rw [State.logDev_phase]
      exact State.tookReq_up hserves
    split_ifs with hgood
    · exact congrArg Host.Outcome.next (State.serve_answers hserves (beq_iff_eq.mpr htype) (if_pos hgood) (henrolled _ _))
    · exact congrArg Host.Outcome.next (State.serve_answers hserves (beq_iff_eq.mpr htype) (if_neg hgood) hlogged)
  case mbxSecretClear =>
    intro src r s hserves htype hunused
    have hcleared : (s.tookReq src r).clearSecret.flt.phase ≠ .held := by
      rw [State.clearSecret_flt]
      exact State.tookReq_up hserves
    exact congrArg Host.Outcome.next (State.serve_answers hserves (beq_iff_eq.mpr htype) (if_neg (by rw [hunused]; decide)) hcleared)
  case mbxNicheReset =>
    intro src r s hserves htype hop hexists hup
    refine congrArg Host.Outcome.next (State.serve_answers hserves ?_ ?_ hup)
    · simp only [htype, hop, BEq.rfl, Bool.and_self]
    · simp only [hexists, if_true]
  case mbxDeviceReset =>
    intro src r s hserves htype hop
    refine congrArg Host.Outcome.next (State.serve_answers hserves ?_ rfl (State.tookReq_up hserves))
    simp only [htype, hop, BEq.rfl, Bool.and_self]
  case mbxResetDeferred =>
    intro k at_ s hdue hover
    change execMbxResetDeferred s = _
    simp only [execMbxResetDeferred, hdue, if_pos hover]
end Sys2Proof.Machine
end

section

/-!
PROOFS. Cast, the cartridge and the power modes: the operations of CAST_CMD served from a mailbox, the recovery of the cartridge's
bus, and the requests, entries and exits of the power modes.
-/

namespace Sys2Proof.Machine
open Sys2Proof

@[simp] theorem State.queueUp_flt (s : State) (type : Nat) (body : List Byte) : (s.queueUp type body).flt = s.flt := rfl

@[simp] theorem State.setSecond_flt (s : State) (t : Option Nat) : (s.setSecond t).flt = s.flt := by
  rw [State.setSecond, State.put_flt, State.put_flt]

@[simp] theorem State.setCast_flt (s : State) (st : Nat) : (s.setCast st).flt = s.flt := by
  rw [State.setCast]
  split_ifs
  · rfl
  · rw [State.castReport, State.queueUp_flt, State.raisePf_flt, State.put_flt]
  · rw [State.raisePf_flt, State.put_flt]

@[simp] theorem State.dropSession_flt (s : State) : s.dropSession.flt = s.flt := by
  rw [State.dropSession, State.setSecond_flt]
  dsimp only
  rw [State.each_flt (fun n t => t.put_flt (CST_DIGEST_digest n) 0), State.putB_flt, State.put_flt]

theorem State.setUnit_flt (s : State) (a : Nat) (b : List Byte) : (s.setUnit a b).flt = s.flt := rfl

theorem State.eraseSector_flt (s : State) (t : Nat) : (s.eraseSector t).flt = s.flt := rfl

theorem State.putRecords_flt (s : State) (c h i : Nat) (l : List (Nat × Nat)) : (s.putRecords c h i l).flt = s.flt := by
  induction l generalizing s i with
  | nil => rfl
  | cons r l ih => exact ih (s.setUnit (stateUnit c h i) (flashRec 0x5354 r.1 0 i r.2)) (i + 1)

theorem State.appendState_flt (s : State) (c op t : Nat) : (s.appendState c op t).flt = s.flt := by
  unfold State.appendState
  split
  · rw [State.putRecords_flt, State.setUnit_flt]
  · split
    · rw [State.putRecords_flt]
    · simp only [State.putRecords_flt, State.eraseSector_flt, State.setUnit_flt]

@[simp] theorem State.stageErase_flt (s : State) (t : Nat) : (s.stageErase t).flt = s.flt := by
  simp only [State.stageErase, State.markSector, State.appendState_flt, State.eraseSector_flt]

@[simp] theorem State.disarm_flt (s : State) : s.disarm.flt = s.flt := by
  rw [State.disarm, State.setCast_flt, State.setSecond_flt]
  exact s.stageErase_flt _

/-- A cast operation of a request that passes every check is answered with its status and the words of Table 21.4. -/
theorem State.serveCast_answers {s : State} {a : Agent} {r : Req} {op : Nat} {run : Req → State → State × Nat} {t : State}
    {status : Nat} (h : s.serves a r) (htype : r.type = 10) (hop : bits (r.word 0) 7 0 = op)
    (hrun : run r (s.tookReq a r) = (t, status)) (hup : t.flt.phase ≠ .held) :
    s.serveCast a op run = t.respond a r true status t.castWords :=
  State.serve_answers h (by simp only [htype, hop, BEq.rfl, Bool.and_self]) (by rw [hrun]) hup

/-- Settles O53: each request of CAST_CMD is served by what its operation runs, which leaves the firmware up; the other commands act
where their conditions stand. -/
theorem castCommandsComplete : Obligations.CastCommandsComplete := by
  refine ⟨?castBlock, ?castBegin, ?castAbandon, ?castVerify, ?castVerifyDone, ?castArm, ?castCommitDurable, ?castDisarm, ?castQuery,
    ?castAtSchedule, ?castAtCancel, ?castFreeze, ?castSelectorDurable, ?castSettle, ?notStarted, ?armatureRefused, ?noVerdict, ?unsettled⟩
  case castBlock =>
    intro src r s hserves htype hup
    exact congrArg Host.Outcome.next (State.serve_answers hserves (beq_iff_eq.mpr htype) rfl hup)
  case castBegin =>
    intro src r s hserves htype hop hidle hlength hfree
    refine congrArg Host.Outcome.next (State.serveCast_answers hserves htype hop ?_ ?_)
    · simp only [hidle, decide_true, Bool.not_true, Bool.false_eq_true, if_false, if_neg (Nat.not_lt.mpr hlength), hfree]
    · simp only [State.setCast_flt, State.stageErase_flt, State.dropSession_flt]
      exact State.tookReq_up hserves
  case castAbandon =>
    intro src r s hserves htype hop hstaged
    refine congrArg Host.Outcome.next (State.serveCast_answers hserves htype hop (if_pos hstaged) ?_)
    rw [State.setCast_flt, State.dropSession_flt]
    exact State.tookReq_up hserves
  case castVerify =>
    intro src r s hserves htype hop hreceiving hcomplete
    refine congrArg Host.Outcome.next (State.serveCast_answers hserves htype hop ?_ (State.tookReq_up hserves))
    simp only [hreceiving, hcomplete, decide_true, Bool.and_self, if_true]
  case castVerifyDone =>
    intro s hverifying hreceiving
    change execCastVerifyDone s = _
    simp only [execCastVerifyDone, hverifying, hreceiving, Bool.not_true, bne_self_eq_false, Bool.or_self, Bool.false_eq_true, if_false]
    rcases State.setFault _ false with ⟨_ | code, data⟩ <;> rfl
  case castArm =>
    intro src r sec s hserves htype hop hverified hpair hsecond hup
    refine congrArg Host.Outcome.next (State.serveCast_answers hserves htype hop ?_ hup)
    have hstate : ¬ ((s.tookReq src r).cast ≠ 2 ∧ (s.tookReq src r).cast ≠ 3) := by omega
    simp only [if_neg hstate, hpair, Bool.false_and, Bool.false_eq_true, if_false, hsecond]
  case castCommitDurable =>
    intro sec s harming
    change execCastCommitDurable s = _
    simp only [execCastCommitDurable, harming]
  case castDisarm =>
    intro src r s hserves htype hop harmed hfree
    refine congrArg Host.Outcome.next (State.serveCast_answers hserves htype hop ?_ ?_)
    · simp only [harmed, ne_eq, not_true_eq_false, if_false, hfree]
    · rw [State.disarm_flt]
      exact State.tookReq_up hserves
  case castQuery =>
    intro src r s hserves htype hop
    exact congrArg Host.Outcome.next (State.serveCast_answers hserves htype hop rfl (State.tookReq_up hserves))
  case castAtSchedule =>
    intro msg s hheard hop hmatches hnew hlate
    change execCastAtSchedule msg s = _
    simp only [execCastAtSchedule, hheard, hop, hmatches, hnew, hlate, Bool.not_true, bne_self_eq_false, Bool.or_self,
      Bool.false_eq_true, if_false]
  case castAtCancel =>
    intro msg s hheard hop hmatches hfree
    change execCastAtCancel msg s = _
    simp only [execCastAtCancel, hheard, hop, hmatches, hfree, Bool.not_true, bne_self_eq_false, Bool.or_self, Bool.false_eq_true,
      if_false]
  case castFreeze =>
    intro s harmed hfreezing hdue hpower hpair hcommit
    change execCastFreeze s = _
    simp only [execCastFreeze, harmed, hfreezing, hdue, hpower, hpair, hcommit, ne_eq, not_true_eq_false, Bool.not_true,
      Bool.or_self, Bool.false_eq_true, or_self, if_false]
  case castSelectorDurable =>
    intro s hfreezing
    change execCastSelectorDurable s = _
    simp only [execCastSelectorDurable, hfreezing, Bool.not_true, Bool.false_eq_true, if_false]
  case castSettle =>
    intro s htrial hsettled hgood hpeer
    exact congrArg Host.Outcome.next (if_pos ⟨htrial, hsettled, hgood, hpeer⟩)
  case notStarted =>
    intro s htrial hstarted
    change execCastFailedStart 1 s = _
    simp [execCastFailedStart, htrial, hstarted]
  case armatureRefused =>
    intro s htrial harm
    change execCastFailedStart 2 s = _
    simp [execCastFailedStart, htrial, harm]
  case noVerdict =>
    intro s htrial hdeaf
    change execCastFailedStart 3 s = _
    simp [execCastFailedStart, htrial, hdeaf]
  case unsettled =>
    intro s htrial hsettled hbad
    change execCastFailedStart 0 s = _
    simp [execCastFailedStart, htrial, hsettled, hbad]

/-- A recovery that finds SDA high ends with the pulse that left it high. -/
theorem State.recoverBus_high {sda : List Bool} {i : Nat} (h : (sda.take 9).findIdx? id = some i) (s : State) :
    s.recoverBus sda = ((s.sat (CRT_CNT_count 1)).send (.scl (i + 1)), true) := by
  rw [State.recoverBus, h]
  rfl

/-- A recovery that never finds SDA high gives all nine pulses. -/
theorem State.recoverBus_low {sda : List Bool} (h : (sda.take 9).findIdx? id = none) (s : State) :
    s.recoverBus sda = ((s.sat (CRT_CNT_count 1)).send (.scl 9), false) := by
  rw [State.recoverBus, h]
  rfl

/-- Settles O54: each command of the cartridge follows its record, and a recovery of the bus ends as SDA reads. -/
theorem cartridgeComplete : Obligations.CartridgeComplete := by
  refine ⟨exec_cartRemoved, ?cartAcceptance, ?recoveryFrees, ?recoverySticks, ?retryFrees, ?retrySticks, fun _ _ => rfl, fun _ => rfl,
    ?patinaWritten, ?patinaFailed, ?requestPatina, ?crtRawGo, ?crtRawDone⟩
  case cartAcceptance =>
    intro identity patina inserted s hcart hstuck
    change execCartAcceptance identity patina inserted s = _
    simp only [execCartAcceptance, hcart, hstuck, Bool.or_self, Bool.false_eq_true, if_false]
    rcases (s.putB CRT_STATUS_present true).cartRefusal identity patina with _ | code
    · rw [Option.elim_none]
    · rw [Option.elim_some]
  case recoveryFrees =>
    intro failed sda i s hhigh
    change execBusRecovery failed sda s = _
    simp only [execBusRecovery, State.recoverBus_high hhigh, if_true]
  case recoverySticks =>
    intro failed sda s hlow
    change execBusRecovery failed sda s = _
    simp only [execBusRecovery, State.recoverBus_low hlow, Bool.false_eq_true, if_false]
  case retryFrees =>
    intro sda i s hstuck hhigh
    change execBusStuckRetry sda s = _
    simp only [execBusStuckRetry, hstuck, State.recoverBus_high hhigh, if_true]
  case retrySticks =>
    intro sda s hstuck hlow
    change execBusStuckRetry sda s = _
    simp only [execBusStuckRetry, hstuck, State.recoverBus_low hlow, if_true, Bool.false_eq_true, if_false]
  case patinaWritten =>
    intro s hcart hdue
    refine if_pos ?_
    rw [hcart, Bool.or_eq_true_iff.mpr hdue]
    rfl
  case patinaFailed =>
    intro s
    refine if_neg ?_
    rw [Bool.and_false]
    decide
  case requestPatina =>
    intro msg s hheard
    exact congrArg Host.Outcome.next (if_pos hheard)
  case crtRawGo =>
    intro data s haddr
    refine if_neg ?_
    omega
  case crtRawDone =>
    intro byte s hraw
    change execCrtRawDone byte s = _
    obtain ⟨raw, hraw⟩ := Option.ne_none_iff_exists'.mp hraw
    simp only [execCrtRawDone, hraw]

/-- Settles O55: each command of the power modes acts on the entry, the exit or the rise in progress that its clause names. -/
theorem powerEntriesComplete : Obligations.PowerEntriesComplete := by
  refine ⟨fun _ _ => rfl, ?powerModeRequest, ?powerDecision, ?entryNicheResets, ?domainGroupOff, ?wakeLossWindow, ?powerExit,
    ?domainGroupOn, fun _ _ => rfl, ?plinthAlarm, ?pwrMaskWrite, ?watchExit⟩
  case powerModeRequest =>
    intro target s hentry hrise hexit hlower hmode hwatch
    change execPowerModeRequest target s = _
    have hkept : (s.put PWR_LAST_target target.val).mode = s.mode :=
      State.get_put_ne _ _ _ _ (by decide)
    have hup : ¬ target.val < s.mode := by omega
    have hother : ¬ target.val = s.mode := by omega
    simp only [execPowerModeRequest, hentry, hrise, hexit, Option.isSome_none, Bool.or_self, Bool.false_eq_true, if_false, hkept,
      if_neg (Nat.not_le.mpr hmode), if_neg hup, if_neg hother, hwatch, decide_false, Bool.false_and]
  case powerDecision =>
    intro e s hentry hstage hasked hawaits hnone
    change execPowerDecision s = _
    simp only [execPowerDecision, hentry, hstage, decide_eq_false (Nat.not_le.mpr hasked), hawaits, hnone, bne_self_eq_false,
      Bool.or_self, Bool.false_eq_true, if_false, List.isEmpty_nil, if_true]
  case entryNicheResets =>
    intro e s hentry hstage hdue htarget
    change execEntryNicheResets s = _
    simp only [execEntryNicheResets, hentry, hstage, decide_eq_false (Nat.not_lt.mpr hdue), bne_self_eq_false, Bool.or_self,
      Bool.false_eq_true, if_false, if_neg (Nat.not_lt.mpr htarget)]
  case domainGroupOff =>
    intro e k i s hentry hgroup hnext
    change execDomainGroupOff s = _
    simp only [execDomainGroupOff, hentry, hgroup, hnext]
  case wakeLossWindow =>
    intro rose e s hentry hstage hover
    change execWakeLossWindow rose s = _
    simp only [execWakeLossWindow, hentry, hstage, hover, bne_self_eq_false, Bool.not_true, Bool.or_self, Bool.false_eq_true, if_false]
  case powerExit =>
    intro m s hexit hentry hmode
    change execPowerExit s = _
    simp [execPowerExit, hexit, hentry, hmode]
  case domainGroupOn =>
    intro r s hrise hdue
    change execDomainGroupOn s = _
    simp only [execDomainGroupOn, hrise, if_neg (Nat.not_lt.mpr hdue)]
  case plinthAlarm =>
    intro at_ s halarm hdue
    change execPlinthAlarm s = _
    simp only [execPlinthAlarm, halarm, if_pos hdue]
  case pwrMaskWrite =>
    intro m hi data s hmask
    change execPwrMaskWrite m hi data s = _
    simp only [execPwrMaskWrite, hmask, Bool.false_eq_true, if_false]
  case watchExit =>
    intro s hmode hends
    change execWatchExit s = _
    have hleave : s.leaveWatch = s.leaveFor s.pwr.watchFrom := if_pos hmode
    rw [execWatchExit, hleave]
    rcases hallow : s.pwr.allow with _ | t
    · rfl
    · rw [hallow] at hends
      exact congrArg Host.Outcome.next (if_pos (of_decide_eq_true hends))
end Sys2Proof.Machine
end

section

/-!
PROOFS. The supply, the flash controller and the resets: mains and plinth supply with the dying gasp, the programs and erases of the
flash, device resets and boot, and the resets of niches and blocks.
-/

namespace Sys2Proof.Machine
open Sys2Proof

/-- A list that is not empty, as the model's guards ask for it. -/
theorem not_isEmpty_of_ne_nil {α : Type} {l : List α} (h : l ≠ []) : (!l.isEmpty) = true := by
  rw [List.isEmpty_eq_false_iff.mpr h]
  rfl

/-- Settles O56: each command of the supply acts where its condition on mains, supply, gasp, outage or allowance stands. -/
theorem supplyComplete : Obligations.SupplyComplete := by
  refine ⟨?mainsOkRise, ?mainsOkFall, ?mainsLossFiltered, ?plinthSupplyLow, ?plinthSupplyRecovery, fun _ => rfl, ?pwrGaspClr, ?gaspAct,
    ?shedWarning, ?shedStep, ?outageEnd, ?sleepAllow, ?sleepWithdraw, ?sleepAllowanceEnd⟩
  case mainsOkRise =>
    intro s hmains hgasp
    change execMainsOkRise s = _
    simp only [execMainsOkRise, hmains, hgasp, Bool.false_eq_true, if_false]
  case mainsOkFall =>
    intro s hmains
    exact congrArg Host.Outcome.next (if_pos hmains)
  case mainsLossFiltered =>
    intro s hmains hlow hbattery houtage
    change execMainsLossFiltered s = _
    simp only [execMainsLossFiltered, hmains, hlow, hbattery, houtage, Bool.not_true, Bool.or_self, Option.isSome_none,
      Bool.false_eq_true, if_false, if_true]
  case plinthSupplyLow =>
    intro s hlow
    change execPlinthSupplyLow s = _
    simp only [execPlinthSupplyLow, hlow, Bool.false_eq_true, if_false]
  case plinthSupplyRecovery =>
    intro at_ s hgasp
    change execPlinthSupplyRecovery s = _
    simp only [execPlinthSupplyRecovery, hgasp]
  case pwrGaspClr =>
    intro s hgasp
    exact congrArg Host.Outcome.next (if_pos (Option.isSome_iff_ne_none.mpr hgasp))
  case gaspAct =>
    intro at_ s hgasp hdue hlow
    change execGaspAct s = _
    simp only [execGaspAct, hgasp, hdue, hlow, BEq.rfl, Bool.and_self, Bool.or_true, if_true]
  case shedWarning =>
    intro s hshedding hsoon hunwarned
    change execShedWarning s = _
    simp only [execShedWarning, hshedding, decide_eq_true hsoon, not_isEmpty_of_ne_nil hunwarned, Bool.and_self, if_true]
  case shedStep =>
    intro s hshedding hdue hnext
    change execShedStep s = _
    simp only [execShedStep, hshedding, decide_eq_true hdue, not_isEmpty_of_ne_nil hnext, Bool.and_self, if_true]
  case outageEnd =>
    intro s houtage hmains hrestored
    change execOutageEnd s = _
    simp only [execOutageEnd, Option.isNone_eq_false_iff.mpr (Option.isSome_iff_ne_none.mpr houtage), hmains, hrestored, Bool.not_true,
      Bool.or_self, Bool.false_eq_true, if_false]
  case sleepAllow =>
    intro msg s hheard hop hlow hhigh hactive hstanding
    change execSleepAllow msg s = _
    simp only [execSleepAllow, hheard, hop, Nat.not_lt.mpr hlow, Nat.not_lt.mpr hhigh, hactive, hstanding, Bool.not_true,
      Nat.reduceBEq, Bool.or_self, ne_eq, not_true_eq_false, Bool.false_eq_true, or_self, if_false, State.putB_pwr,
      State.putB_clk]
  case sleepWithdraw =>
    intro msg s hheard hop
    refine congrArg Host.Outcome.next (if_pos ?_)
    simp only [hheard, hop, BEq.rfl, Bool.and_self]
  case sleepAllowanceEnd =>
    intro at_ s hallow hdue
    change execSleepAllowanceEnd s = _
    simp only [execSleepAllowanceEnd, hallow, if_pos hdue]

/-- Settles O57: each command of the flash starts, suspends, resumes or ends the operation that its clause names. -/
theorem flashComplete : Obligations.FlashComplete := by
  refine ⟨?flashProgramCmd, ?flashEraseCmd, ?flashSuspendCmd, ?flashResumeCmd, ?programVerified, ?programUnverified, ?eraseVerified,
    ?eraseUnverified, fun _ _ _ _ _ => rfl, ?eraseAutoResume, ?eraseSlow⟩
  case flashProgramCmd =>
    intro port s hallowed hchanges
    change execFlashProgramCmd port s = _
    rw [execFlashProgramCmd, State.flashProgram, hallowed]
    dsimp only
    rw [if_neg hchanges]
  case flashEraseCmd =>
    intro port s hallowed
    change execFlashEraseCmd port s = _
    rw [execFlashEraseCmd, State.flashErase, hallowed]
  case flashSuspendCmd =>
    intro o s hsusp hactive herase
    change ∃ t, execFlashSuspendCmd s = _ ∧ _
    simp only [execFlashSuspendCmd, hsusp, Option.isSome_none, State.suspendErase, hactive, herase, Bool.false_eq_true, if_false, if_true]
    exact ⟨_, rfl, rfl, rfl, rfl⟩
  case flashResumeCmd =>
    intro o s hheld hsusp hidle
    change execFlashResumeCmd s = _
    simp only [execFlashResumeCmd, hheld, if_true, State.resumeErase, hsusp, hidle, Bool.false_eq_true, if_false]
  case programVerified =>
    intro o s hactive hprogram
    change execFlashProgramDone true s = _
    simp only [execFlashProgramDone, hactive, hprogram, Bool.false_eq_true, if_false, if_true]
  case programUnverified =>
    intro o s hactive hprogram
    change execFlashProgramDone false s = _
    simp only [execFlashProgramDone, hactive, hprogram, Bool.false_eq_true, if_false]
  case eraseVerified =>
    intro o s hactive herase
    change execFlashEraseDone true s = _
    simp only [execFlashEraseDone, hactive, herase, Bool.not_true, Bool.false_eq_true, if_false, if_true]
  case eraseUnverified =>
    intro o s hactive herase
    change execFlashEraseDone false s = _
    simp only [execFlashEraseDone, hactive, herase, Bool.not_true, Bool.false_eq_true, if_false]
  case eraseAutoResume =>
    intro s hheld hidle
    refine congrArg Host.Outcome.next (if_pos ?_)
    rw [hheld, hidle]
    rfl
  case eraseSlow =>
    intro o s hactive hlate
    change execEraseSlow s = _
    simp only [execEraseSlow, hactive, hlate, if_true]

/-- Settles O58: each reset, boot or watchdog command acts where its phase and its latches stand. -/
theorem resetsComplete : Obligations.ResetsComplete := by
  refine ⟨?bootRom, ?bringUpComplete, fun _ _ => rfl, ?rstNFalls, fun _ _ => rfl, ?testEnLeavesLow, fun _ => rfl, ?warmResetRelease,
    fun _ => rfl, fun _ _ => rfl, ?watchdogExpiry, fun _ => rfl, fun _ _ _ => rfl, fun _ _ => rfl, ?nicheLogAck, ?supplyBrownout,
    ?loadBrownout⟩
  case bootRom =>
    intro s hphase hfatal
    refine congrArg Host.Outcome.next (if_neg ?_)
    simp only [hphase, hfatal, ne_eq, not_true_eq_false, Bool.false_eq_true, or_self, not_false_eq_true]
  case bringUpComplete =>
    intro s hphase hfatal hbooted
    refine congrArg Host.Outcome.next (if_neg ?_)
    simp only [hphase, hfatal, hbooted, ne_eq, not_true_eq_false, Bool.not_true, Bool.false_eq_true, or_self, not_false_eq_true]
  case rstNFalls =>
    intro strap s hhigh
    change execRstNAssert true strap s = _
    simp only [execRstNAssert, hhigh, if_true, Bool.false_eq_true, if_false]
  case testEnLeavesLow =>
    intro s hlow
    change execTestEnAssert true s = _
    simp only [execTestEnAssert, hlow, if_true, Bool.false_eq_true, if_false]
  case warmResetRelease =>
    intro s hphase hheld hrst htest
    refine congrArg Host.Outcome.next (if_pos ⟨hphase, hheld, ?_, ?_⟩)
    · rw [hrst]; rfl
    · rw [htest]; rfl
  case watchdogExpiry =>
    intro s hwatched hover
    refine congrArg Host.Outcome.next (if_pos ?_)
    rw [hwatched, hover]
    rfl
  case nicheLogAck =>
    intro n data s
    rw [exec_fltLogAck, State.ackLog, if_neg (Nat.ne_of_lt n.isLt)]
  case supplyBrownout =>
    intro s
    change execPlinthBrownout false s = _
    simp only [execPlinthBrownout, Bool.false_and, Bool.false_eq_true, if_false, Bool.or_false, Bool.not_false, Bool.or_true]
  case loadBrownout =>
    intro s hlp
    change execPlinthBrownout true s = _
    simp only [execPlinthBrownout, hlp, Bool.not_true, Bool.and_false, Bool.false_eq_true, if_false, if_true, Bool.or_true, Bool.or_false]

/-- Settles O59: each command of a niche's or a block's reset acts where that reset stands as its clause says. -/
theorem blockAndNicheResetsComplete : Obligations.BlockAndNicheResetsComplete := by
  refine ⟨fun n s hactive hedge hscrubbed => exec_nicheResetComplete hactive hedge hscrubbed, ?nresetSlow, fun _ _ => rfl, fun _ => rfl,
    ?blockResetDone, fun _ _ _ => rfl, ?bankRailClassify⟩
  case nresetSlow =>
    intro n s hactive hslow hover
    refine congrArg Host.Outcome.next (if_pos ?_)
    rw [hactive, hslow, hover]
    rfl
  case blockResetDone =>
    intro b s hactive
    exact congrArg Host.Outcome.next (if_pos hactive)
  case bankRailClassify =>
    intro b v33 hiz s hunknown
    refine congrArg Host.Outcome.next (if_pos ?_)
    rw [hunknown]
    rfl
end Sys2Proof.Machine
end
